-- ==== Sys2Proof/Word.lean ====
section
/-! DEFINITION. Words, lines and sparse stores: the plain data every other file uses. -/

namespace Sys2Proof

/-- A 64-bit register, scalar register or instruction word. -/
abbrev Word := BitVec 64
/-- A 32-bit register or lane. -/
abbrev Half := BitVec 32
/-- A physical core, Core[0] to Core[35] (R15). -/
abbrev CoreId := Fin 36
/-- An Ethernet port, or a resident trunk slot: both number 0 to 7. -/
abbrev Idx8 := Fin 8
/-- A sensor-head slot, 0 to 15. -/
abbrev HeadId := Fin 16
/-- A Larxus port, or a TIME_OUT pin: both number 0 to 3. -/
abbrev Idx4 := Fin 4
/-- A host work queue, 0 to 63 (R351). -/
abbrev QueueId := Fin 64

/-- A 64-byte line with the 16-bit end-to-end tag it travels and is stored with (R340). Byte `i` of the line is
bits `8i+7 .. 8i` of `data` (R3). A line whose tag is 0x0000 is poisoned. -/
structure Line where
  data : BitVec 512
  tag  : BitVec 16
deriving DecidableEq, Repr, Inhabited

/-- A line as a unit holds it after verifying its tag: the data, and whether the line is poisoned (R342). -/
structure DLine where
  data   : BitVec 512
  poison : Bool
deriving DecidableEq, Repr, Inhabited

/-- Sparse contents by a natural-number key. The canonical form, kept by every operation, has strictly rising keys. -/
abbrev Store (α : Type) := List (Nat × α)

/-- A floating value as the arithmetic sees it: a NaN, an infinity, or (−1)^neg × m × 2^e, exactly. -/
inductive FVal where
  | nan
  | inf (neg : Bool)
  | fin (neg : Bool) (m : Nat) (e : Int)
deriving DecidableEq, Repr, Inhabited

end Sys2Proof
end

