-- ==== Sys2Proof/Syntax.lean ====
section
/-! DEFINITION. The commands the device takes (one constructor per row of the table of operations and events), their
operands, and the names of a core's instructions. -/

namespace Sys2Proof

/-- Who makes an access: a PCI Express function (the physical function or VF 1 to 8), the system controller's firmware, or
a core's own program (R22, R349). -/
inductive Requester where
  | pf
  | vf (f : Fin 8)
  | sc
  | core (c : CoreId)
deriving DecidableEq, Repr

/-- The size of a register access (R439): 8 and 16 stand for the sizes register space does not take. -/
inductive Width where
  | w8 | w16 | w32 | w64 | wide
deriving DecidableEq, Repr

/-- What a storage error or a fault of a core strikes: a scratchpad line (R154), an accumulator row, 1,024 × bank + row (R176),
the weight that the PE of a reduction row and column holds in a set, which then has other bits (R172), or a line that the select
port has sent, counted from the first of its row, which then fails the check of the SMU (R296). -/
inductive StrikeAt where
  | line (p : Nat)
  | acc (r : Nat)
  | weight (set k n bits : Nat)
  | sent (j : Nat)
deriving DecidableEq, Repr

/-- A storage error of a core: what it strikes, and whether it is uncorrectable or single-bit. -/
structure LineErr where
  core : CoreId
  spot : StrikeAt
  ue   : Bool
deriving DecidableEq, Repr

/-- A source or destination of mesh messages: a core, an agent stop, the work-queue engine, or an agent of another device. -/
inductive Agent where
  | core (c : CoreId)
  | mem
  | grid
  | map
  | smu
  | sys
  | hq
  | dev (x y unit : Nat)
deriving DecidableEq, Repr

/-- The instructions of a core (Tables 13.10 to 13.12), GETX apart from GET, the ring form of STORE apart from STORE and
the two forms of MATCH apart. -/
inductive Mn where
  | alu | alui | li | lui | cmp | cmpi | plog | ld | st | rds | wrs | br | brr | call | ret | loop | loopi | qwait
  | frameWait | commit | trap | wait | sig | sigr | nop
  | copy | get | getx | put | fetch | store | storeRing | gather | creditReq | creditRet
  | wload | mm | mmg | mms | mmp | accInit | accDrain | part
  | vld | vst | valu | vfma | vsf | vcvt | vred | vbcast | vext | argmax
  | predGate | pack | matchLoad | matchProbe | scaInit | scaAdd | scaDrain
  | topk | merge
deriving DecidableEq, Repr

/-- A packet of the Larxus links (Table 19.12): operation, mesh virtual channel, dateline bit, destination and source
coordinates, the logical or physical core at either end, and what the operation carries: shelf and line (`addr` the
requester's), or an internal address (`intern`); request identifier, grant stamp, count, pool, semaphore, frame number, trunk slot, decision, error code (`sig` when it
answers a signal) and data lines. -/
structure Packet where
  op    : Nat
  vc    : Nat
  date  : Bool
  dx    : Nat
  dy    : Nat
  sx    : Nat
  sy    : Nat
  dunit : Nat
  sunit : Nat
  addr  : Nat := 0
  shelf : Nat := 0
  idx   : Nat := 0
  req   : Nat := 0
  stamp : Nat := 0
  k     : Nat := 0
  pool  : Nat := 0
  sem   : Nat := 0
  frame : BitVec 32 := 0
  slot  : Nat := 0
  dec   : Nat := 0
  err   : Nat := 0
  cd    : Bool := false
  sig   : Bool := false
  intern : Option Nat := none
  lines : List Line := []
deriving DecidableEq, Repr

/-- A received link unit (Table 19.11): whether its CRC-32 is good, its type (0 idle, 1 data, 2 NAK, 3 training), sequence
number, acknowledgement, credits returned per link VC, and the packets that end in it. -/
structure Flit where
  crcOk   : Bool
  type    : Nat
  seq     : Nat
  ack     : Nat
  credits : List (Nat × Nat)
  packets : List Packet
deriving DecidableEq, Repr

/-- A line of host memory as a descriptor's data: its bytes, the EP bit of the TLP that carried it, and the tag supplied for
it (R353). -/
structure HostLine where
  data : BitVec 512
  ep   : Bool
  tag  : BitVec 16
deriving DecidableEq, Repr

/-- A stored grid entry whose tag an upset has spoiled: buffer, coarse array or not, entry index. -/
structure GridUpset where
  buf    : Nat
  coarse : Bool
  index  : Nat
deriving DecidableEq, Repr

/-- What a transfer of an external-memory line finds (Table 18.3): the line's address, whether link ECC corrected, repeats of
the transfer, whether the link failed after them, whether the block code corrected a symbol, whether the block is
uncorrectable. -/
structure MemErr where
  addr    : Nat
  linkCe  : Bool
  retries : Nat
  fail    : Bool
  ce      : Bool
  ue      : Bool
deriving DecidableEq, Repr

/-- One command: a row of the table, with its operands. -/
inductive Instr where
  /-- REGISTER_WRITE: A write to a register that has no row of its own takes effect under its access code (R4). -/
  | registerWrite (req : Requester) (off : Nat) (w : Width) (v : Word)
  /-- UNOCCUPIED_ACCESS: An access to an unoccupied offset, of an illegal size or alignment, or from the system controller to an unmapped address reads zero, ignores a write and raises the register-access error event (R8). -/
  | unoccupiedAccess (req : Requester) (addr : Nat) (w : Width) (wr : Bool) (v : Word)
  /-- COUNTER_READ_LOW: A 32-bit read of a counter's low half latches its high half for the same requester's next read (R10). -/
  | counterReadLow (req : Requester) (off : Nat)
  /-- COUNTER_CLEAR: A write to a block's counter-clear register zeroes the selected counters and their overflow bits (R11). -/
  | counterClear (req : Requester) (off : Nat) (v : Half)
  /-- FB_REGISTER_WRITE: A write to an FB register sets its pending value, to be captured at the next fence or at the one after (R37). -/
  | fbRegisterWrite (req : Requester) (off : Nat) (w : Width) (v : Word)
  /-- FRAME_TIMER_EXPIRE: The frame timer completes its period and presents a fence source event (R91). -/
  | frameTimerExpire
  /-- TIME_IN_EDGE: An edge on a TIME_IN pin is sampled, captured and may serve as a fence source event (R96). -/
  | timeInEdge (j : Fin 2) (rising : Bool)
  /-- SW_FENCE: A write of 1 to FRAME_CTRL.sw_fence requests a software fence, or is ignored when the active source is not 4 (R31). -/
  | swFence
  /-- FENCE_FLIT_RECEIVE: A fence packet that arrives on a link becomes the fence source event and is forwarded on the ports of LINK_FENCE_FWD (R370). -/
  | fenceFlitReceive (p : Idx4)
  /-- FENCE_MISSING: After 1,000 ms without a fence under sources 1 to 4, the time base issues a fence itself and counts it (R31). -/
  | fenceMissing
  /-- GUARD_START: The guard interval begins guard_tclk cycles before a timer-driven fence and sets guard_active (R40). -/
  | guardStart
  /-- FRAME_ENABLE: Setting FRAME_CTRL.enable arms the fence source and fixes the first timer fence (R32). -/
  | frameEnable
  /-- FRAME_DISABLE: Clearing FRAME_CTRL.enable stops further fences at once (R32). -/
  | frameDisable
  /-- LOAD_FB: A write of 1 to FRAME_CTRL.load_fb captures every pending FB value without a fence, or is refused (R33). -/
  | loadFb
  /-- GRID_HANDOVER_COMPLETE: The last insertion owed to the newly computing buffer completes, and stalled grid reads proceed (R39). -/
  | gridHandoverComplete
  /-- COMMIT: COMMIT checks its frame number, waits for every earlier instruction and sends the commit message (R255). -/
  | commit (c : CoreId) (errs : List LineErr)
  /-- COMMIT_POINT: The last commit message of a trunk's frame reaches SYS with no abort recorded, and ring indices, publisher and loft shelves take the frame's results (R42). -/
  | commitPoint (c : CoreId)
  /-- LOFT_COPY_COMPLETE: The copy engine finishes copying the dirty loft lines and clears loft_copy (R159). -/
  | loftCopyComplete (c : CoreId)
  /-- DEADLINE_EXPIRE: A frame's deadline passes without its commit point and records FRAME_LATE (R46). -/
  | deadlineExpire (k : Idx8)
  /-- TRAP_REPORT_ARRIVE: A core trap or fencing message arrives at SYS and records the trunk's abort condition (R47). -/
  | trapReportArrive (src : Agent)
  /-- POISON_REPORT: A report of a poisoned line written to a commit-discipline target arrives at SYS and records E2E_POISON (R343). -/
  | poisonReport (src : Agent)
  /-- ABORT_FLIT_RECEIVE: An abort packet from another device of the trunk arrives and records REMOTE_ABORT (R44). -/
  | abortFlitReceive
  /-- ETH_LINK_CHANGE: A port's link goes up or down, moving its head slots to WAIT or DOWN and raising ETH_LINK (R68). -/
  | ethLinkChange (p : Idx8) (up : Bool)
  /-- USXGMII_RATE_CHANGE: The PHY reports a new rate in its in-band control word, which the port follows or refuses (R51). -/
  | usxgmiiRateChange (p : Idx8) (mbps : Nat)
  /-- ETH_FRAME_RECEIVE: A received Ethernet frame is time-stamped, judged by the MAC and dropped or accepted (R52). -/
  | ethFrameReceive (p : Idx8) (b : List Nat) (ago : Nat) (noRoom : Bool)
  /-- ETH_RING_TAIL_WRITE: Software advances a descriptor ring's tail pointer (R57). -/
  | ethRingTailWrite (p : Idx8) (ring : Fin 4) (v : Half)
  /-- ETH_TRANSMIT: A port sends the next frame of its sources in strict priority (R59). -/
  | ethTransmit (p : Idx8)
  /-- HELLO: A HELLO from a head starts or restarts authentication of its slot (R70). -/
  | hello (p : Idx8)
  /-- IDENT: An IDENT fragment of the head's certificate chain is taken or ignored (R69). -/
  | ident (p : Idx8)
  /-- RESPONSE: The first RESPONSE after a CHALLENGE is verified and the slot enters PENDING or counts a failed attempt (R69). -/
  | response (p : Idx8)
  /-- IDENT_TIMEOUT: An incomplete IDENT chain 500 ms after HELLO counts a failed attempt (R70). -/
  | identTimeout (n : HeadId)
  /-- RESPONSE_TIMEOUT: A missing RESPONSE 500 ms after CHALLENGE counts a failed attempt (R70). -/
  | responseTimeout (n : HeadId)
  /-- CONFIG_ECHO: A head's echo of CONFIG is taken (R75). -/
  | configEcho (p : Idx8)
  /-- CONFIG_ECHO_TIMEOUT: A CONFIG not echoed within 100 ms is counted and resent, and HEAD_FAULT is raised after three resends (R75). -/
  | configEchoTimeout (n : HeadId)
  /-- HEALTH: A HEALTH message is copied to HEAD_SLOT_STAT and raises HEAD_FAULT when a fault bit is set (R77). -/
  | health (p : Idx8)
  /-- LIFE: A LIFE report updates the slot's used life and may raise mismatch, warning or end-of-life events (R73). -/
  | life (p : Idx8)
  /-- SCAN_SYNC: The device sends a SCAN_SYNC message to a sync_mode 2 head before the sweep start it names (R75). -/
  | scanSync (n : HeadId) (start : Nat) (period : Nat) (sweep : Nat)
  /-- POINT_BLOCK: The parser attributes a point block to a slot, tests it, and seals and passes it or drops it (R64). -/
  | pointBlock (p : Idx8)
  /-- PARSE_PROG_WRITE: A write to parser program memory is accepted or ignored under R66 (R66). -/
  | parseProgWrite (m : Idx8) (w : Nat) (v : Word)
  /-- HEAD_ONTIME_TICK: At the end of each 10 ms tick, each slot that accepted a block adds one to HEAD_ONTIME (R71). -/
  | headOntimeTick
  /-- LIFE_RECORD_WRITE: After 15 minutes of counted on-time, or at orderly shutdown, the firmware writes a head's life record (R71). -/
  | lifeRecordWrite (n : HeadId) (shutdown : Bool)
  /-- PUBLISH: The publisher sends the next PUBLISH datagram of a committed frame to an enabled destination (R81). -/
  | publish (d : Nat)
  /-- TIME_ADVANCE: In every TCLK cycle device time adds the increment with its carries (R83). -/
  | timeAdvance
  /-- TIME_RATE_WRITE: A write to TIME_RATE is clamped and takes effect in the next cycle's increment (R84). -/
  | timeRateWrite (v : Half)
  /-- TIME_STEP_ABSOLUTE: A mode 0 step sets device time to TIME_STEP_SEC and TIME_STEP_NS, or is refused (R85). -/
  | timeStepAbsolute
  /-- TIME_STEP_OFFSET: A mode 1 step adds the signed offset to device time, or is refused (R85). -/
  | timeStepOffset
  /-- TIME_NOW_READ: A read of TIME_NOW_NS latches the seconds and fraction of the same cycle (R86). -/
  | timeNowRead (r : Requester)
  /-- PTP_MESSAGE: The firmware processes a PTP message from ring 0 and runs its servo (R88); `slave` says whether the best-clock
  comparison has made the port the slave, `peer` which delay mechanism it uses. -/
  | ptpMessage (p : Idx8) (slave : Bool) (peer : Bool)
  /-- SERVO_HOLDOVER: No Sync for 4 intervals while LOCKED moves the servo to HOLDOVER (R89). -/
  | servoHoldover
  /-- TOUT_EDGE: A TIME_OUT pin reaches the device time of its scheduled edge and starts a pulse (R92). -/
  | toutEdge (pin : Idx4)
  /-- TOUT_PULSE_END: A TIME_OUT pulse ends after its width (R92). -/
  | toutPulseEnd (pin : Idx4)
  /-- TOUT_CFG_WRITE: A write to a pin's TOUT_CFG, TOUT_TIME or TOUT_PERIOD_NS cancels pending edges and takes effect the next cycle (R93). -/
  | toutCfgWrite (pin : Idx4) (which : Nat) (v : Word)
  /-- TIN_CAP_READ: A read of TIN_CAP_NS pops the oldest capture and latches its seconds (R97). -/
  | tinCapRead (j : Fin 2)
  /-- GRID_BLOCK_TRANSFORM: A verified block enters the transform stage in arrival order, and its records are transformed and inserted (R98). -/
  | gridBlockTransform (lat : Nat) (spoiled : List Nat) (us : List GridUpset)
  /-- GRID_WINDOW_READ: A read through the grid-store window returns verified lines of the computing buffer, stalling under R39 (R111). -/
  | gridWindowRead (src : Agent) (us : List GridUpset)
  /-- GRID_ELEV_WRITE: A write to a slot's elevation table is accepted or ignored under R100 (R100). -/
  | gridElevWrite (n : HeadId) (ch : BitVec 8) (v : Word)
  /-- GRID_LAT_MAX_READ: A read of GRID_LAT_MAX returns the largest latency and clears it (R118). -/
  | gridLatMaxRead
  /-- RB_TILE: The engine probes one output tile, obtains credits and writes the tile to its consumer's slot (R133). -/
  | rbTile (wait : Nat) (us : List GridUpset)
  /-- RB_TILE_SIGNAL: Once every line of a tile is acknowledged the engine signals the consumer's semaphore (R129). -/
  | rbTileSignal (c : CoreId)
  /-- RB_JOB_WRITE: A write to a job descriptor or custom offset list is accepted, or ignored when its list is enabled (R125). -/
  | rbJobWrite (o : Nat) (v : Word)
  /-- CAL_SAMPLE: The engine looks up a candidate's neighbours, fits a plane and accumulates or rejects the sample (R141). -/
  | calSample (us : List GridUpset)
  /-- CAL_PROPOSAL: A completed solution joins the history and a full history is gated and may be written as pending calibration (R143). -/
  | calProposal (n : HeadId)
  /-- CAL_SOFTWARE_WRITE: A software write to a slot's calibration registers blocks engine writes for that slot until the fence (R145). -/
  | calSoftwareWrite (n : HeadId) (idx : Fin 13) (v : Half)
  /-- CAL_FREEZE: Setting CAL_CTRL.freeze stops engine writes and withdraws engine-written pending values (R146). -/
  | calFreeze
  /-- CAL_UNFREEZE: Clearing freeze clears every slot's history (R146). -/
  | calUnfreeze
  /-- CAL_DISABLE: Clearing CAL_CTRL.enable stops the engine and clears its histories (R148). -/
  | calDisable
  /-- SHELF_WRITE: A write of a shelf entry stores its pending value, invalid when its layout or fields are not valid (R155). -/
  | shelfWrite (req : Requester) (c : CoreId) (sh : Fin 64) (v : Word)
  /-- RAW_WINDOW_WRITE: A raw scratchpad-window write is accepted only into a valid pooled shelf with a held credit (R157). -/
  | rawWindowWrite (src : Agent) (c : CoreId) (line : Nat) (d : BitVec 512)
  /-- REMOTE_READ_SERVE: A remote read arrives at the target core, is checked, and its line returns on VC2 (R162). -/
  | remoteReadServe (src : Agent) (c : CoreId) (errs : List LineErr)
  /-- REMOTE_WRITE_APPLY: A remote shelf write arrives at the target and is applied, or discarded as stale, and acknowledged (R167). -/
  | remoteWriteApply (src : Agent) (c : CoreId)
  /-- REMOTE_READ_RESPONSE: Read data returns to the requesting move unit and is written locally (R269). -/
  | remoteReadResponse (src : Agent) (c : CoreId) (errs : List LineErr)
  /-- WRITE_ACK_RECEIVE: A write acknowledgement returns to the writer and may complete its instruction (R248). -/
  | writeAckReceive (src : Agent) (c : CoreId) (errs : List LineErr)
  /-- CREDIT_REQUEST_RECEIVE: A credit request reaches a pool and is queued or refused (R165). -/
  | creditRequestReceive (src : Agent) (c : CoreId)
  /-- CREDIT_GRANT: The request at the head of a pool is granted once the available count reaches it (R165). -/
  | creditGrant (c : CoreId) (pool : Nat)
  /-- CREDIT_TIMEOUT: A request still ungranted after its timeout is refused (R166). -/
  | creditTimeout (c : CoreId) (pool : Nat) (idx : Nat)
  /-- CREDIT_GRANT_RECEIVE: A grant or refusal reaches the requester and completes CREDIT_REQ or traps (R270). -/
  | creditGrantReceive (c : CoreId) (dst : Agent) (errs : List LineErr)
  /-- WLOAD: WLOAD loads a weight tile into the inactive set with its checksum weights (R171). -/
  | wload (c : CoreId) (errs : List LineErr)
  /-- MM: MM streams consecutive input rows through the array into accumulator rows (R173). -/
  | mm (c : CoreId) (errs : List LineErr)
  /-- MMG: MMG adds gathered input rows named by rulebook records into their accumulator rows (R275). -/
  | mmg (c : CoreId) (errs : List LineErr)
  /-- MMS: MMS forms products on structured-sparse weights in packed mode (R214). -/
  | mms (c : CoreId) (errs : List LineErr)
  /-- MMP: MMP forms an FP32 three-pass or a complex product (R185). -/
  | mmp (c : CoreId) (errs : List LineErr)
  /-- ACC_INIT: ACC_INIT sets accumulator rows to start from an initial vector with a scale vector (R177). -/
  | accInit (c : CoreId) (errs : List LineErr)
  /-- ACC_DRAIN: ACC_DRAIN tests, scales, converts and writes accumulator rows to a shelf (R178). -/
  | accDrain (c : CoreId) (errs : List LineErr)
  /-- PART: PART sets the partition mode and contain flags and unloads the weight sets (R182). -/
  | part (c : CoreId) (errs : List LineErr)
  /-- PACK: PACK writes a variable or reference-structured packed tile from dense rows (R222). -/
  | pack (c : CoreId) (errs : List LineErr)
  /-- MATCH_LOAD: MATCH in its load form loads keys into the Match CAM in joint or split mode (R223). -/
  | matchLoad (c : CoreId) (errs : List LineErr)
  /-- MATCH_PROBE: MATCH in its probe form compares probe keys and writes a record per match (R224). -/
  | matchProbe (c : CoreId) (errs : List LineErr)
  /-- PRED_GATE: PRED_GATE forms a gate mask register from score rows and the fall-back state (R226). -/
  | predGate (c : CoreId) (errs : List LineErr)
  /-- GATE_REPORT: A core's per-gate sample and miss counts arrive at the gate collector (R232). -/
  | gateReport (c : CoreId)
  /-- SCA_INIT: SCA_INIT empties the scatter index and resets the spill ring (R235). -/
  | scaInit (c : CoreId) (errs : List LineErr)
  /-- SCA_ADD: SCA_ADD applies pairs to present keys, new keys or the spill ring (R236). -/
  | scaAdd (c : CoreId) (errs : List LineErr)
  /-- SCA_DRAIN: SCA_DRAIN writes the held keys and returns the key and spill counts (R239). -/
  | scaDrain (c : CoreId) (errs : List LineErr)
  /-- ALU: ALU writes s[d] from two scalar registers (R245). -/
  | alu (c : CoreId) (errs : List LineErr)
  /-- ALUI: ALUI writes s[d] from a register and an immediate (R245). -/
  | alui (c : CoreId) (errs : List LineErr)
  /-- LI: LI loads a sign-extended immediate (R245). -/
  | li (c : CoreId) (errs : List LineErr)
  /-- LUI: LUI sets the upper 32 bits of a register (R245). -/
  | lui (c : CoreId) (errs : List LineErr)
  /-- CMP: CMP writes a predicate from a comparison of two registers (R245). -/
  | cmp (c : CoreId) (errs : List LineErr)
  /-- CMPI: CMPI writes a predicate from a comparison with an immediate (R245). -/
  | cmpi (c : CoreId) (errs : List LineErr)
  /-- PLOG: PLOG combines two predicates by a truth table (R245). -/
  | plog (c : CoreId) (errs : List LineErr)
  /-- LD: LD reads bytes from a shelf into a scalar register (R256). -/
  | ld (c : CoreId) (errs : List LineErr)
  /-- ST: ST writes the low bytes of a scalar register into a shelf (R256). -/
  | st (c : CoreId) (errs : List LineErr)
  /-- RDS: RDS reads a status index into a scalar register (R257). -/
  | rds (c : CoreId) (errs : List LineErr)
  /-- WRS: WRS writes a scalar register to a writable status index (R257). -/
  | wrs (c : CoreId) (errs : List LineErr)
  /-- BR: BR branches relative to pc and pops loops that do not contain the target (R259). -/
  | br (c : CoreId) (errs : List LineErr)
  /-- BRR: BRR branches to the address in a register (R259). -/
  | brr (c : CoreId) (errs : List LineErr)
  /-- CALL: CALL pushes the return pc and branches (R259). -/
  | call (c : CoreId) (errs : List LineErr)
  /-- RET: RET pops the return pc (R259). -/
  | ret (c : CoreId) (errs : List LineErr)
  /-- LOOP: LOOP pushes a loop entry with a count from a register (R258). -/
  | loop (c : CoreId) (errs : List LineErr)
  /-- LOOPI: LOOPI pushes a loop entry with an immediate count (R258). -/
  | loopi (c : CoreId) (errs : List LineErr)
  /-- QWAIT: QWAIT stops issue until the named queues have completed (R250). -/
  | qwait (c : CoreId) (errs : List LineErr)
  /-- QWAIT_RELEASE: The last earlier instruction of the named queues completes and issue resumes (R250). -/
  | qwaitRelease (c : CoreId) (errs : List LineErr)
  /-- FRAME_WAIT: FRAME_WAIT stops issue until the conditions of R254 hold (R254). -/
  | frameWait (c : CoreId) (errs : List LineErr)
  /-- FRAME_WAIT_RETURN: FRAME_WAIT completes, sets cur_frame, moves held counts into semaphores and resumes issue (R254). -/
  | frameWaitReturn (c : CoreId) (errs : List LineErr)
  /-- TRAP: The TRAP instruction traps with SW_TRAP and its argument (R261). -/
  | trap (c : CoreId) (errs : List LineErr)
  /-- WAIT: WAIT holds its queue until a semaphore reaches n (R252). -/
  | wait (c : CoreId) (errs : List LineErr)
  /-- WAIT_RELEASE: A waiting WAIT at the head of its queue finds its count and completes (R252). -/
  | waitRelease (c : CoreId) (errs : List LineErr)
  /-- SIG: SIG signals a semaphore of its own core after earlier instructions of its queue complete (R252). -/
  | sig (c : CoreId) (errs : List LineErr)
  /-- SIGR: SIGR signals a semaphore of another logical core, on this or another device (R253). -/
  | sigr (c : CoreId) (errs : List LineErr)
  /-- SIGNAL_RECEIVE: A signal arrives and is added to the count or held count, or discarded as stale (R251). -/
  | signalReceive (src : Agent) (c : CoreId)
  /-- NOP: NOP does nothing (R245). -/
  | nop (c : CoreId) (errs : List LineErr)
  /-- COPY: COPY moves lines between local shelves (R268). -/
  | copy (c : CoreId) (errs : List LineErr)
  /-- GET: GET reads lines from a peer's shelf into a local shelf (R269). -/
  | get (c : CoreId) (errs : List LineErr)
  /-- GETX: GETX stages remote feature rows named by records and rewrites the records (R273). -/
  | getx (c : CoreId) (errs : List LineErr)
  /-- PUT: PUT spends ledger credits and writes lines to a peer's shelf (R270). -/
  | put (c : CoreId) (errs : List LineErr)
  /-- FETCH: FETCH reads lines from LPDDR-6 or the grid-store window into a shelf (R271). -/
  | fetch (c : CoreId) (errs : List LineErr)
  /-- STORE: STORE writes lines from a shelf to LPDDR-6 (R271). -/
  | store (c : CoreId) (errs : List LineErr)
  /-- STORE_RING: STORE in ring form writes lines into a result ring, cellar ring or publisher queue, discarding lines without space (R271). -/
  | storeRing (c : CoreId) (errs : List LineErr)
  /-- GATHER: GATHER asks the Map Store for rows, crate sums or crate means (R272). -/
  | gather (c : CoreId) (errs : List LineErr)
  /-- CREDIT_REQ: CREDIT_REQ requests credits from a peer's pool into the ledger (R270). -/
  | creditReq (c : CoreId) (errs : List LineErr)
  /-- CREDIT_RET: CREDIT_RET returns credits to the core's own pool (R270). -/
  | creditRet (c : CoreId) (errs : List LineErr)
  /-- VALU: VALU applies an element-wise function to vector registers (R197). -/
  | valu (c : CoreId) (errs : List LineErr)
  /-- VFMA: VFMA adds an element-wise product into the destination vector (R197). -/
  | vfma (c : CoreId) (errs : List LineErr)
  /-- VSF: VSF applies a special function to each lane (R201). -/
  | vsf (c : CoreId) (errs : List LineErr)
  /-- VRED: VRED reduces a vector into a scalar register (R277). -/
  | vred (c : CoreId) (errs : List LineErr)
  /-- VBCAST: VBCAST broadcasts a scalar into every lane (R277). -/
  | vbcast (c : CoreId) (errs : List LineErr)
  /-- VEXT: VEXT extracts one lane into a scalar register (R265). -/
  | vext (c : CoreId) (errs : List LineErr)
  /-- VLD: VLD loads 64 elements into a vector register (R278). -/
  | vld (c : CoreId) (errs : List LineErr)
  /-- VST: VST writes a vector register to a shelf in a named format (R278). -/
  | vst (c : CoreId) (errs : List LineErr)
  /-- VCVT: VCVT converts elements between formats from shelf to shelf (R278). -/
  | vcvt (c : CoreId) (errs : List LineErr)
  /-- ARGMAX: ARGMAX writes the index and value of each row's maximum (R279). -/
  | argmax (c : CoreId) (errs : List LineErr)
  /-- TOPK: TOPK sends rows to the SMU for a top-k result block per row (R285). -/
  | topk (c : CoreId) (errs : List LineErr)
  /-- MERGE: MERGE combines result blocks into one with duplicates removed (R294). -/
  | merge (c : CoreId) (errs : List LineErr)
  /-- SMU_CONTEXT_ASSIGN: A waiting select instruction obtains an SMU context and its port starts sending lines (R291). -/
  | smuContextAssign
  /-- SMU_RESOLVE: An SMU context completes its passes and resolution and writes the result block (R290). -/
  | smuResolve (ctx : Nat) (errs : List LineErr)
  /-- MAP_GATHER_START: A GATHER obtains a Map Store context and its table entry is checked (R300). -/
  | mapGatherStart (errs : List LineErr)
  /-- MAP_FETCH_RETURN: A row fetch returns one whole version of the row, which is verified and delivered or pooled (R303). -/
  | mapFetchReturn (ctx : Nat) (p : Nat) (es : List MemErr)
  /-- MAP_UPDATE: The engine takes an update descriptor, writes the inactive slot and flips the selector (R309). -/
  | mapUpdate (wait : Nat) (es : List MemErr)
  /-- MAP_UPD_TAIL_WRITE: Software advances the update ring's tail (R308). -/
  | mapUpdTailWrite (v : Half)
  /-- MAP_SEL_RELOAD: PD[39] entering RUN from DEEP or DEEP_RET reloads the selector memory from its mirror (R312). -/
  | mapSelReload (es : List MemErr)
  /-- GET_INFO: Mailbox command GET_INFO returns SYS_ID, firmware version and status (R25). -/
  | getInfo
  /-- TRUNK_LOAD: Mailbox command TRUNK_LOAD checks a trunk image and makes the slot LOADED or refuses it (R317). -/
  | trunkLoad
  /-- TRUNK_LAUNCH: Mailbox command TRUNK_LAUNCH picks a variant, places cores and copies images, or refuses (R320). -/
  | trunkLaunch
  /-- LAUNCH_COPY_COMPLETE: The launch copy ends and the firmware writes the pending placement values outside the guard (R321). -/
  | launchCopyComplete (k : Idx8) (first : BitVec 32)
  /-- TRUNK_STOP: Mailbox command TRUNK_STOP sets a RUNNING slot to STOPPING (R322). -/
  | trunkStop
  /-- TRUNK_UNLOAD: Mailbox command TRUNK_UNLOAD frees a LOADED slot's resources (R322). -/
  | trunkUnload
  /-- TRUNK_QUERY: Mailbox command TRUNK_QUERY returns a slot's state and its owner's use (R361). -/
  | trunkQuery
  /-- MBOX_UNKNOWN: A mailbox command with an unknown code returns UNKNOWN (R361). -/
  | mboxUnknown
  /-- MEM_TRAIN: MEM_CTRL.train starts training or a retrain of the populated channels (R333). -/
  | memTrain
  /-- MEM_TRAIN_COMPLETE: Training ends, sets trained and capacity, or marks failed channels (R333). -/
  | memTrainComplete (bad : BitVec 8)
  /-- MEM_FILL: MEM_CTRL.fill starts writing sealed zero lines, or is refused (R339). -/
  | memFill
  /-- MEM_FILL_COMPLETE: A fill passes its last line and clears fill_busy (R339). -/
  | memFillComplete
  /-- MEM_READ: The controller reads a line, decodes link ECC and the block code, and corrects or poisons it (R337). -/
  | memRead (src : Agent) (es : List MemErr)
  /-- MEM_WRITE: The controller verifies a written line's tag, stores it and acknowledges (R335). -/
  | memWrite (src : Agent) (retries : Nat) (bad : Bool)
  /-- MEM_SCRUB: The patrol scrub reads a line and writes back corrections or poison (R338). -/
  | memScrub (linkCe : Bool) (retries : Nat) (linkBad : Bool) (ce : Bool) (ue : Bool)
  /-- BAR2_ACCESS: A host access through BAR2 reaches LPDDR-6 through the window, or completes as Unsupported Request (R350). -/
  | bar2Access (off : Nat) (n : Nat) (wr : Bool) (data : List Nat) (ep : Bool) (es : List MemErr)
  /-- HQ_DOORBELL: A write of HQ_SQ_TAIL signals new submission descriptors, or stops the queue on error (R351). -/
  | hqDoorbell (q : QueueId) (v : Half)
  /-- HQ_DESCRIPTOR_START: A queue's next descriptor is fetched, checked and started in its turn (R352). -/
  | hqDescriptorStart (q : QueueId) (desc : List Nat) (data : List HostLine) (bad : Option Nat)
  /-- HQ_DESCRIPTOR_COMPLETE: A descriptor ends and its completion entry is written (R352). -/
  | hqDescriptorComplete (q : QueueId) (es : List MemErr) (errs : List LineErr)
  /-- HQ_DISABLE: Clearing HQ_CFG.enable ends descriptors in progress with status 7 (R355). -/
  | hqDisable (q : QueueId)
  /-- FUNCTION_LEVEL_RESET: An FLR ends a function's queues, clears its mailbox and MSI-X state, and stops a VF's trunks (R355). -/
  | functionLevelReset (f : Fin 9)
  /-- PCIE_LINK_DOWN: The PCI Express link goes down; host-bound headers and events are discarded (R355). -/
  | pcieLinkDown
  /-- PCIE_PERST: PCIE_PERST_N low holds the PCI Express core in reset (R429). -/
  | pciePerst (low : Bool)
  /-- HOST_ABORT: A write of HQ_TRUNK_ABORT.go records HOST_ABORT for the slot's frame, or is counted as ignored (R360). -/
  | hostAbort (req : Requester) (k : Idx8)
  /-- LXL_FLIT_RECEIVE: A flit is received, checked by CRC and sequence, and its packets delivered or forwarded (R367). -/
  | lxlFlitReceive (p : Idx4) (f : Flit)
  /-- LXL_REPLAY: A received NAK makes the transmitter replay from ack + 1 (R367). -/
  | lxlReplay (p : Idx4) (ack : Nat)
  /-- LXL_DOWN: A port without progress goes down, discards its queued packets and retrains (R367). -/
  | lxlDown (p : Idx4)
  /-- LXL_TRAINING_COMPLETE: Link training ends and the port comes up or reads miswired (R368). -/
  | lxlTrainingComplete (p : Idx4) (ok : Bool) (x : Nat) (y : Nat) (port : Nat)
  /-- LXL_RETRAIN: A write of LXL_CTRL.retrain retrains the port (R368). -/
  | lxlRetrain (p : Idx4)
  /-- LINK_TOPO_WRITE: A write to LINK_TOPO is accepted only while every port is down (R369). -/
  | linkTopoWrite (v : Half)
  /-- LINK_ENABLE: Mailbox command LINK_ENABLE enables the named link ports (R361). -/
  | linkEnable
  /-- COMMIT_READY: The coordinator receives a device's commit ready and decides commit when all are ready (R371). -/
  | commitReady
  /-- COMMIT_DECISION: A device receives the coordinator's decision; commit is its commit point, abort records REMOTE_ABORT (R371). -/
  | commitDecision
  /-- PWR_DOM_TARGET_WRITE: A write of PWR_DOM_CTRL.target requests a domain state (R374). -/
  | pwrDomTargetWrite (d : Fin 48) (v : Half)
  /-- PWR_ADMIT: The PBA admits the head wake request of a rail when the budget allows (R377). -/
  | pwrAdmit (r : Idx4)
  /-- DOMAIN_LEAVE_RUN: A domain that becomes quiescent starts its transition out of RUN (R374). -/
  | domainLeaveRun (d : Fin 48)
  /-- DOMAIN_TRANSITION_END: A domain transition ends and the state cost changes (R373). -/
  | domainTransitionEnd (d : Fin 48)
  /-- WAKE_RAMP_END: A wake's wake_qa or ungate_qa period ends and the charge falls (R376). -/
  | wakeRampEnd (d : Fin 48)
  /-- PWR_WAKE_SLOW: A wake request waiting timeout_us raises PWR_WAKE_SLOW once (R378). -/
  | pwrWakeSlow (d : Fin 48)
  /-- PBA_WINDOW: At each 1 µs window the PBA computes every requester's array allowance (R379). -/
  | pbaWindow (want : List CoreId) (held : Bool)
  /-- AVS_ACK: The VDD_CORE regulator acknowledges the new voltage and the settle time starts (R383). -/
  | avsAck
  /-- PLL_LOCK: The idle CCLK PLL locks to the new frequency (R383). -/
  | pllLock
  /-- CCLK_SWITCH: Once settle time and lock are done, CCLK switches glitch-free and the sequence may end (R383). -/
  | cclkSwitch
  /-- AVS_TIMEOUT: A regulator that fails to acknowledge within 100 µs or reports a fault stops the sequence (R384). -/
  | avsTimeout
  /-- STANDBY_ENTER: Writing PWR_MODE to STANDBY stops PLLs and arms the wake sources (R375). -/
  | standbyEnter
  /-- STANDBY_WAKE: A wake source restarts the stopped PLLs and notifies the firmware (R375). -/
  | standbyWake (src : Fin 3)
  /-- POWER_POLICY: Mailbox command POWER_POLICY sets mode, OP, parking and budget (R393). -/
  | powerPolicy
  /-- TELEMETRY_UPDATE: The firmware writes regulator readings to PWR_TELEM every 10 ms (R372). -/
  | telemetryUpdate (r : Fin 9) (v : Half)
  /-- XTAL_JUDGE_WINDOW: Each 4,096-cycle RC window counts crystal cycles toward stability or failure (R388). -/
  | xtalJudgeWindow (count : Nat)
  /-- REF_LOST: A reference without an edge for 256 RC cycles is declared lost and its PLLs coast (R389). -/
  | refLost (r : Fin 3)
  /-- REF_RETURN: A returning reference passes judgement and raises CLK_REF_BACK (R389). -/
  | refReturn (r : Fin 3)
  /-- CLK_RELOCK: A write of CLK_CTRL.relock relocks the PLLs (R389). -/
  | clkRelock
  /-- CLK_PLL_CFG_WRITE: A write of FCLK or GCLK frequency is clamped, or ignored unless every domain is in DEEP (R386). -/
  | clkPllCfgWrite (gclk : Bool) (v : Half)
  /-- CLK_OBS_CFG_WRITE: A change of CLK_OBS configuration switches the observed clock without short pulses (R391). -/
  | clkObsCfgWrite (v : Half)
  /-- ROT_COPY_START: At start_tclk after the preceding fence the rotation copy and mirroring start (R395). -/
  | rotCopyStart
  /-- ROT_COPY_COMPLETE: The rotation copy of all scratchpad lines ends (R395). -/
  | rotCopyComplete (errs : List LineErr)
  /-- ROT_STATE_TRANSFER: Once the outgoing core waits idle, its program state is transferred to the incoming core (R395). -/
  | rotStateTransfer
  /-- LBIST_SLICE_END: A logic self-test slice ends and its signature is compared, retried or failed (R399). -/
  | lbistSliceEnd (sig : Half)
  /-- MARCH_PASS_END: A March memory pass ends with repairs applied, and the core goes to SLEEP (R398). -/
  | marchPassEnd (bad : List Nat)
  /-- ROTATE_NOW: Mailbox command ROTATE_NOW schedules the next step at the first reachable fence (R400). -/
  | rotateNow
  /-- TEST_CORE: Mailbox command TEST_CORE makes a core the outgoing core of the next preparable step (R400). -/
  | testCore
  /-- SC_ROTATION: Every period_ms a housekeeping core hands its services over and runs its self-test (R401). -/
  | scRotation (pass : Bool)
  /-- SC_WATCHDOG: A missing heartbeat restarts a service from its checkpoint and fences the failed core (R401). -/
  | scWatchdog (h : Fin 4)
  /-- FENCE_REQ_WRITE: The PF writes FENCE_REQ to fence cores at the next fence (R402). -/
  | fenceReqWrite (req : Requester) (v : Word)
  /-- THERMAL_FAULT: A junction sensor at or above fault_c for 1 ms enters the safe state (R403). -/
  | thermalFault (t : Int)
  /-- THERM_WARN: A sensor crossing warn_c raises THERM_WARN (R403). -/
  | thermWarn (t : Int)
  /-- THERMTRIP: The analog comparator at 135 °C drives THERMTRIP_N low (R403). -/
  | thermtrip
  /-- SAFE_ENTER: The PF writes SAFE_CTRL.enter to enter the safe state (R403). -/
  | safeEnter (req : Requester)
  /-- SAFE_RELEASE: The PF writes SAFE_CTRL.release to leave the safe state when no cause remains (R403). -/
  | safeRelease (req : Requester)
  /-- FAULT_LOG_FLASH_COPY: Once per second the firmware copies new fault-log entries to flash (R404). -/
  | faultLogFlashCopy
  /-- RESET: RESET_N or PWR_GOOD low resets the whole device and samples BOOT_SEL (R407). -/
  | reset (strap : BitVec 2)
  /-- BOOT_ROM_START: The ROM starts after the crystal and PLLs and verifies and loads a firmware image (R411). -/
  | bootRomStart (bad : BitVec 8) (polls : List Bool)
  /-- HOST_IMAGE_GO: SEC_BOOT_CTRL.go in HOST_WAIT makes the ROM verify the host image (R408). -/
  | hostImageGo (bad : BitVec 8) (polls : List Bool)
  /-- SEC_FUSE_CMD: A fuse command programs a fuse field or is refused (R414). -/
  | secFuseCmd (req : Requester) (v : Word) (fail : Bool)
  /-- SEC_MEAS_EXT: A write of SEC_MEAS_EXT extends SEC_MEAS[4] with SEC_MEAS_IN (R420). -/
  | secMeasExt (req : Requester) (v : Word)
  /-- SVN_ADVANCE: The firmware raises the fused security versions to the running image's values (R416). -/
  | svnAdvance
  /-- ATTEST: Mailbox command ATTEST writes a signed attestation report (R421). -/
  | attest
  /-- DEBUG_CHALLENGE_READ: A read of SEC_DBG_CHAL draws a new debug challenge (R423). -/
  | debugChallengeRead
  /-- DEBUG_UNLOCK: A written debug certificate and signatures unlock debug or count a failure (R423). -/
  | debugUnlock (cert : List Nat) (ed : List Nat) (ml : List Nat)
  /-- PCIE_LINK_UP: The PCI Express link finishes training and comes up, after which host-bound headers and events are delivered again and a late host may command the PF (R363). -/
  | pcieLinkUp
  /-- VOLTAGE_SETTLE_END: On a downward operating-point change the settle time after the regulator's acknowledgement runs out, the sequence ends and PWR_OP_DONE is raised (R383). -/
  | voltageSettleEnd
  /-- THERMAL_CLEAR: The hottest junction sensor falls below fault_c − 10 °C, the THERMAL cause leaves SAFE_STAT and THERM_WARN is re-armed for the next crossing (R403). -/
  | thermalClear (t : Int)
  /-- SEL_CLEARING_END: The clearing of a newly active updatable table's selector range ends, sel_clearing falls and waiting gathers and descriptors on that table proceed (R313). -/
  | selClearingEnd (t : BitVec 5)
  /-- ILLEGAL_OP: The sequencer issues a word with a reserved queue, an unassigned opcode, a wrong long bit or non-zero zero-fields and traps with ILLEGAL_OP (R243). -/
  | illegalOp (c : CoreId) (errs : List LineErr)
  /-- PTP_SYNC_TRANSMIT: As PTP master on a port, the firmware sends a Sync message with its two-step Follow_Up at each Sync interval (R88). -/
  | ptpSyncTransmit (p : Idx8)
deriving DecidableEq, Repr

end Sys2Proof
end

