-- ==== Sys2Proof/Config.lean ====
section
/-! DEFINITION. What the spec leaves open: the free values (constants without a body, of which no proof can know a
value) and the functions the spec names but does not give (published cryptography, internal double precision). -/

namespace Sys2Proof.Config

/-- A fresh free value of `w` bits: `site` names the place that needs it, `ctr` the model's own counter of free values
already drawn (log entry 3). -/
opaque free (site ctr w : Nat) : BitVec w

/-- Sign and payload of a NaN that arithmetic on FP32 operand patterns produces: R193 does not define them (log entry 4). -/
opaque nanPattern (a b : BitVec 32) : BitVec 32

/-- The result a special function of the vector unit gives an FP32 pattern (0 exp, 1 log, 2 rsqrt, 3 sigmoid, 4 GELU) where it
lies within the error bound of R201 (log entry 5). -/
opaque specialFn (f : Nat) (x : BitVec 32) : BitVec 32

/-- Does a signature (bytes) over a message (bytes) verify under a public key (bytes)? `alg` 0 is Ed25519, 1 is ML-DSA-65 (chapter 22; log entry 6). -/
opaque sigValid (alg : Nat) (key msg sig : List Nat) : Bool

/-- SHA-384 of bytes, as a number of 384 bits (log entry 6). -/
opaque sha384 (bytes : List Nat) : BitVec 384

/-- The digest of the boot ROM itself (Table 22.9; log entry 6). -/
opaque romDigest : BitVec 384

/-- The two public keys of the alias pair derived from the device secret with a salt, under the debug labels or not (R419; log
entry 6). -/
opaque aliasKeys (salt : List Nat) (dbg : Bool) : List Nat

/-- The Ed25519 and ML-DSA-65 signatures of the device key over a digest (R419; log entry 6). -/
opaque deviceSign (digest : List Nat) : List Nat

/-- The Ed25519 and ML-DSA-65 signatures of that alias pair over a digest (R421; log entry 6). -/
opaque aliasSign (salt : List Nat) (dbg : Bool) (digest : List Nat) : List Nat

/-- The unit normal (2⁻⁴⁰) of a plane through points that lie on one line, which R141 does not fix (log entry 19). -/
opaque lineNormal (pts : List (Int × Int × Int)) : Int × Int × Int

/-- dot(n, u) (2⁻⁴⁰) for a point at its slot's own position, where the unit vector u of R141 does not exist (log entry 19). -/
opaque nullRay (n : Int × Int × Int) : Int

/-- The solution of a singular system of normal equations (R142) (log entry 19). -/
opaque singularSolve (a : List (List Int)) (g : List Int) : List Int

/-- What re-orthonormalisation (R137) adds to each entry of a rotation (2⁻⁶⁰ units); used within the matrix's own departure from
orthonormality, since the rule names no method (log entry 19). -/
opaque orthoStep (m : List Int) : List Int

end Sys2Proof.Config
end

