-- ==== Sys2Proof/Machine/Bits.lean ====
section
/-! DEFINITION. Bit fields, byte and lane access, and the sparse stores' operations. -/

namespace Sys2Proof.Machine

/-- Bits `[hi:lo]` of a register value, as a number. -/
def fld {w : Nat} (v : BitVec w) (hi lo : Nat) : Nat := (v.toNat >>> lo) % 2 ^ (hi + 1 - lo)

/-- `v` with bits `[hi:lo]` replaced by the low bits of `x`. -/
def setFld {w : Nat} (v : BitVec w) (hi lo x : Nat) : BitVec w :=
  let m : BitVec w := BitVec.ofNat w ((2 ^ (hi + 1 - lo) - 1) <<< lo)
  (v &&& ~~~m) ||| (BitVec.ofNat w ((x % 2 ^ (hi + 1 - lo)) <<< lo))

/-- Bit `i` of a value. -/
def bitOf {w : Nat} (v : BitVec w) (i : Nat) : Bool := v.getLsbD i

/-- A two's-complement field of `n` bits as an integer. -/
def sfld {w : Nat} (v : BitVec w) (hi lo : Nat) : Int :=
  let x := fld v hi lo
  if x < 2 ^ (hi - lo) then (x : Int) else (x : Int) - 2 ^ (hi + 1 - lo)

/-- The low `n` bits of an integer, two's complement. -/
def wrapInt (n : Nat) (x : Int) : Nat := (x % (2 ^ n : Int)).toNat

/-- A number of `n` bits read as two's complement. -/
def asInt (n x : Nat) : Int := if x < 2 ^ (n - 1) then (x : Int) else (x : Int) - 2 ^ n

/-- 1 for true and 0 for false. -/
def b2n (b : Bool) : Nat := if b then 1 else 0

/-- `ceil(a / b)`. -/
def cdiv (a b : Nat) : Nat := (a + b - 1) / b

/-- The number of ones among the low `n` bits of `x`. -/
def popcnt (n x : Nat) : Nat := ((List.range n).filter fun i => x.testBit i).length

/-- The bit positions below `n` set in `x`, ascending. -/
def bitsSet (n x : Nat) : List Nat := (List.range n).filter fun i => x.testBit i

/-- Byte `i` of a line (R3: little-endian). -/
def byteOf (d : BitVec 512) (i : Nat) : Nat := (d.toNat >>> (8 * i)) % 256

/-- 32-bit word `i` of a line. -/
def half32 (d : BitVec 512) (i : Nat) : BitVec 32 := d.extractLsb' (32 * i) 32

/-- 64-bit word `i` of a line. -/
def word64 (d : BitVec 512) (i : Nat) : BitVec 64 := d.extractLsb' (64 * i) 64

/-- `n` bits of a line from bit `lo` on. -/
def bitsAt (d : BitVec 512) (lo n : Nat) : Nat := (d.toNat >>> lo) % 2 ^ n

/-- A line with `n` bits from bit `lo` on replaced by `x`. -/
def putBits (d : BitVec 512) (lo n x : Nat) : BitVec 512 :=
  let m : BitVec 512 := BitVec.ofNat 512 ((2 ^ n - 1) <<< lo)
  (d &&& ~~~m) ||| BitVec.ofNat 512 ((x % 2 ^ n) <<< lo)

/-- Little-endian bytes of a number, `n` of them. -/
def bytesLE : Nat → Nat → List Nat
  | 0, _ => []
  | n + 1, x => (x % 256) :: bytesLE n (x / 256)

/-- The number that little-endian bytes spell. -/
def ofBytesLE : List Nat → Nat
  | [] => 0
  | b :: bs => b % 256 + 256 * ofBytesLE bs

/-- The number that big-endian bytes spell (network order where a standard fixes it, R3). -/
def ofBytesBE (bs : List Nat) : Nat := ofBytesLE bs.reverse

/-- Big-endian bytes of a number, `n` of them. -/
def bytesBE (n x : Nat) : List Nat := (bytesLE n x).reverse

/-- Bytes `[lo, lo+n)` of a byte list as a little-endian number; missing bytes read as zero. -/
def leAt (bs : List Nat) (lo n : Nat) : Nat := ofBytesLE ((bs.drop lo).take n)

/-- As `leAt`, big-endian. -/
def beAt (bs : List Nat) (lo n : Nat) : Nat := ofBytesBE ((bs.drop lo).take n)

/-- The 64 bytes of a line. -/
def lineBytes (d : BitVec 512) : List Nat := bytesLE 64 d.toNat

/-- A line of bytes, padded with zeros. -/
def lineOfBytes (bs : List Nat) : BitVec 512 := BitVec.ofNat 512 (ofBytesLE (bs.take 64))

/-- Split a bit string (a number) into `n` lines. -/
def linesOfNat : Nat → Nat → List (BitVec 512)
  | 0, _ => []
  | n + 1, x => BitVec.ofNat 512 x :: linesOfNat n (x / 2 ^ 512)

/-! ## Stores -/

/-- What a store holds at a key. -/
def sget {α : Type} (k : Nat) : Store α → Option α
  | [] => none
  | (k', v) :: r => if k = k' then some v else sget k r

/-- A store with `v` at `k`, keys rising. -/
def sput {α : Type} (k : Nat) (v : α) : Store α → Store α
  | [] => [(k, v)]
  | (k', v') :: r =>
    if k < k' then (k, v) :: (k', v') :: r
    else if k = k' then (k, v) :: r
    else (k', v') :: sput k v r

/-- A store without `k`. -/
def sdel {α : Type} (k : Nat) : Store α → Store α
  | [] => []
  | (k', v') :: r => if k = k' then sdel k r else (k', v') :: sdel k r

/-- The canonical form of a store: keys strictly rising. -/
def storeWf {α : Type} : Store α → Bool
  | [] => true
  | [_] => true
  | (k, _) :: (k', v') :: r => decide (k < k') && storeWf ((k', v') :: r)

/-! ## Lists used as queues -/

/-- The first element that satisfies `p`, and the list without it. -/
def takeFirst {α : Type} (p : α → Bool) : List α → Option (α × List α)
  | [] => none
  | x :: r =>
    if p x then some (x, r)
    else match takeFirst p r with
      | none => none
      | some (y, r') => some (y, x :: r')

/-- Repeat a step over 0, 1, …, n − 1. -/
def loopN {α : Type} (n : Nat) (f : Nat → α → α) (a : α) : α := (List.range n).foldl (fun x i => f i x) a

end Sys2Proof.Machine
end

