-- ==== Sys2Proof/Machine/Crc.lean ====
section
/-! DEFINITION. The checksums of the spec: the end-to-end tag's CRC-16 (R340), CRC-32C (R65, R104) and the IEEE 802.3
CRC-32 (Ethernet FCS, R52; flit envelope, R364), and the salts of Table 18.4. -/

namespace Sys2Proof.Machine

/-- One byte through CRC-16 with polynomial 0x8BB7, not reflected (R340). -/
def crc16Byte (c : BitVec 16) (b : Nat) : BitVec 16 :=
  let c0 := c ^^^ (BitVec.ofNat 16 (b % 256) <<< 8)
  (List.range 8).foldl (fun c _ => if c.getLsbD 15 then (c <<< 1) ^^^ 0x8BB7#16 else c <<< 1) c0

/-- CRC-16/0x8BB7 over bytes. -/
def crc16 (c : BitVec 16) (bs : List Nat) : BitVec 16 := bs.foldl crc16Byte c

/-- The end-to-end tag of bytes under a salt (R340): sealing never produces 0x0000. -/
def tagOf (salt : Nat) (bytes : List Nat) : BitVec 16 :=
  let c := crc16 (crc16 0 (bytesLE 8 salt)) bytes
  if c = 0 then 0xFFFF#16 else c

/-- One byte through a reflected CRC-32 with the (reflected) polynomial `p`. -/
def crc32Byte (p : BitVec 32) (c : BitVec 32) (b : Nat) : BitVec 32 :=
  let c0 := c ^^^ BitVec.ofNat 32 (b % 256)
  (List.range 8).foldl (fun c _ => if c.getLsbD 0 then (c >>> 1) ^^^ p else c >>> 1) c0

/-- CRC-32C register after bytes from an initial value, without the final inversion. -/
def crc32cRaw (init : BitVec 32) (bs : List Nat) : BitVec 32 := bs.foldl (crc32Byte 0x82F63B78#32) init

/-- The IEEE 802.3 CRC-32 of bytes, with initial value and final inversion of all ones. -/
def crc32Ieee (bs : List Nat) : BitVec 32 := ~~~ (bs.foldl (crc32Byte 0xEDB88320#32) 0xFFFFFFFF#32)

/-- Domain 0x1 (Table 18.4): a line at a 40-bit internal address. -/
def saltAddr (addr : Nat) : Nat := 1 <<< 60 ||| ((addr >>> 6) % 2 ^ 34)
/-- Domain 0x2: a scratchpad line in storage. -/
def saltSpad (core line : Nat) : Nat := 2 <<< 60 ||| (core % 64) ||| ((line % 2 ^ 17) <<< 6)
/-- Domain 0x3: a grid entry in storage; `coarse` is 1 for levels 1 to 3. -/
def saltGrid (buf coarse index : Nat) : Nat := 3 <<< 60 ||| (buf % 2) ||| ((coarse % 2) <<< 1) ||| ((index % 2 ^ 20) <<< 2)
/-- Domain 0x4: a sealed point-block line. -/
def saltBlock (head seq line : Nat) : Nat := 4 <<< 60 ||| (head % 16) ||| ((seq % 2 ^ 32) <<< 4) ||| ((line % 256) <<< 36)
/-- Domain 0x5: a shelf line in transit. -/
def saltTransit (core shelf line slot x y : Nat) : Nat :=
  5 <<< 60 ||| (core % 64) ||| ((shelf % 64) <<< 6) ||| ((line % 2 ^ 17) <<< 12) ||| ((slot % 8) <<< 29) |||
    ((x % 256) <<< 32) ||| ((y % 256) <<< 40)

/-- Seal a held line for a location: a poisoned line carries tag 0x0000 (R340). -/
def sealLine (salt : Nat) (d : DLine) : Line :=
  if d.poison then ⟨d.data, 0⟩ else ⟨d.data, tagOf salt (lineBytes d.data)⟩

/-- The three outcomes of verifying a line's tag (R342). -/
def tagGood (salt : Nat) (l : Line) : Bool := l.tag == tagOf salt (lineBytes l.data)

/-- A line after its check: poisoned when the tag is 0x0000 or fails. -/
def checked (salt : Nat) (l : Line) : DLine := ⟨l.data, !tagGood salt l⟩

/-- The check fails: the tag is neither right nor 0x0000 (R342). -/
def tagFails (salt : Nat) (l : Line) : Bool := l.tag != 0 && !tagGood salt l

end Sys2Proof.Machine
end

