-- ==== Sys2Proof/Machine/RegTable.lean ====
section
/-! DEFINITION. The register map: every register of the spec's register tables, with its BAR0 offset (Table 1.8 gives
the block apertures), width, reset value, access code (Table 0.3) and writable bits, and the constants that name them. -/

namespace Sys2Proof.Machine

/-- Access codes of Table 0.3; `cnt` is a read-only statistics counter (R9). Bits with W1C or W1S access stand in the
register's own masks. -/
inductive Acc where
  | rw | ro | wo | fb | rc | cnt
deriving DecidableEq, Repr

/-- One register or register array: the offset of its first element in BAR0, its dimensions as (count, stride) from the
outside in, width in bits, reset value, access code, writable bits, write-1-to-clear and write-1-to-set bits, and the offset
of its _ACT mirror where it has one. -/
structure RegSpec where
  base  : Nat
  dims  : List (Nat × Nat)
  width : Nat
  reset : Nat
  acc   : Acc
  mask  : Nat
  w1c   : Nat
  w1s   : Nat
  act   : Option Nat
deriving DecidableEq, Repr

/-! The offset of every register (of element 0 of an array). -/
namespace Reg
/-- SYS_ID (chapter 01, R25). -/
abbrev SYS_ID : Nat := 0x0
/-- FRAME_CTRL (chapter 02, R32, R33, R31). -/
abbrev FRAME_CTRL : Nat := 0x1000
/-- FRAME_SRC (chapter 02, R30). -/
abbrev FRAME_SRC : Nat := 0x1004
/-- The active value of FRAME_SRC. -/
abbrev FRAME_SRC_ACT : Nat := 0x1008
/-- FRAME_DEADLINE (chapter 02, R46). -/
abbrev FRAME_DEADLINE : Nat := 0x1010
/-- The active value of FRAME_DEADLINE. -/
abbrev FRAME_DEADLINE_ACT : Nat := 0x1014
/-- FRAME_GUARD (chapter 02, R40). -/
abbrev FRAME_GUARD : Nat := 0x1018
/-- FRAME_NUM (chapter 02, R34). -/
abbrev FRAME_NUM : Nat := 0x1020
/-- FRAME_STAT (chapter 02, R32, R35, R36, R39, R40). -/
abbrev FRAME_STAT : Nat := 0x1024
/-- FRAME_FENCE_SEC (chapter 02, R36). -/
abbrev FRAME_FENCE_SEC : Nat := 0x1028
/-- FRAME_FENCE_NS (chapter 02, R36). -/
abbrev FRAME_FENCE_NS : Nat := 0x1030
/-- FRAME_ABORT_INFO (chapter 02, R48). -/
abbrev FRAME_ABORT_INFO : Nat := 0x1040
/-- FRAME_COMMIT_CNT (chapter 02, Table 2.5). -/
abbrev FRAME_COMMIT_CNT : Nat := 0x1100
/-- FRAME_ABORT_CNT (chapter 02, Table 2.5). -/
abbrev FRAME_ABORT_CNT : Nat := 0x1108
/-- FRAME_LATE_CNT (chapter 02, Table 2.5). -/
abbrev FRAME_LATE_CNT : Nat := 0x1110
/-- FENCE_EARLY_CNT (chapter 02, Table 2.5). -/
abbrev FENCE_EARLY_CNT : Nat := 0x1118
/-- FENCE_MISSING_CNT (chapter 02, Table 2.5). -/
abbrev FENCE_MISSING_CNT : Nat := 0x1120
/-- FB_LATE_WRITE_CNT (chapter 02, Table 2.5). -/
abbrev FB_LATE_WRITE_CNT : Nat := 0x1128
/-- FENCE_RENUMBER_CNT (chapter 02, Table 2.5). -/
abbrev FENCE_RENUMBER_CNT : Nat := 0x1130
/-- FRAME_CNT_CLR (chapter 02, R11). -/
abbrev FRAME_CNT_CLR : Nat := 0x1140
/-- TRUNK_STAT (chapter 17, R319). -/
abbrev TRUNK_STAT : Nat := 0x2000
/-- TRUNK_CFG (chapter 17, R325, R327). -/
abbrev TRUNK_CFG : Nat := 0x2008
/-- TRUNK_ID (chapter 17, R315). -/
abbrev TRUNK_ID : Nat := 0x2010
/-- QUOTA_PF (chapter 17, R329). -/
abbrev QUOTA_PF : Nat := 0x3000
/-- The active value of QUOTA_PF. -/
abbrev QUOTA_PF_ACT : Nat := 0x3008
/-- QUOTA_VF (chapter 17, R329). -/
abbrev QUOTA_VF : Nat := 0x3010
/-- The active value of QUOTA_VF. -/
abbrev QUOTA_VF_ACT : Nat := 0x3018
/-- QUOTA_USE (chapter 17, R328). -/
abbrev QUOTA_USE : Nat := 0x3100
/-- PLACE_STAT (chapter 17, R325). -/
abbrev PLACE_STAT : Nat := 0x3200
/-- TRUNK_LOAD_REFUSED (chapter 17, Table 17.6). -/
abbrev TRUNK_LOAD_REFUSED : Nat := 0x3300
/-- TRUNK_LAUNCH_REFUSED (chapter 17, Table 17.6). -/
abbrev TRUNK_LAUNCH_REFUSED : Nat := 0x3308
/-- TRUNK_SKIP_CNT (chapter 17, Table 17.6). -/
abbrev TRUNK_SKIP_CNT : Nat := 0x3310
/-- TRUNK_REPLACE_CNT (chapter 17, Table 17.6). -/
abbrev TRUNK_REPLACE_CNT : Nat := 0x3318
/-- TRUNK_CNT_CLR (chapter 17, R11). -/
abbrev TRUNK_CNT_CLR : Nat := 0x3380
/-- GATE_CFG (chapter 12, R226-R233). -/
abbrev GATE_CFG : Nat := 0x8000
/-- The active value of GATE_CFG. -/
abbrev GATE_CFG_ACT : Nat := 0x9000
/-- GATE_STAT (chapter 12, R232, R233). -/
abbrev GATE_STAT : Nat := 0xA000
/-- CLK_STAT (chapter 20, R388, R389). -/
abbrev CLK_STAT : Nat := 0x100000
/-- CLK_CTRL (chapter 20, R389). -/
abbrev CLK_CTRL : Nat := 0x100004
/-- CLK_XTAL_WIN (chapter 20, R388). -/
abbrev CLK_XTAL_WIN : Nat := 0x100010
/-- CLK_PLL_CFG2 (chapter 20, R386). -/
abbrev CLK_PLL_CFG2 : Nat := 0x100028
/-- CLK_PLL_CFG3 (chapter 20, R386). -/
abbrev CLK_PLL_CFG3 : Nat := 0x10002C
/-- CLK_OBS_CFG (chapter 20, R391). -/
abbrev CLK_OBS_CFG : Nat := 0x100040
/-- CLK_REF_LOST_CNT (chapter 20, R389, R388). -/
abbrev CLK_REF_LOST_CNT : Nat := 0x100100
/-- CLK_XTAL_BAD_WIN (chapter 20, R389, R388). -/
abbrev CLK_XTAL_BAD_WIN : Nat := 0x100108
/-- CLK_CNT_CLR (chapter 20, R11). -/
abbrev CLK_CNT_CLR : Nat := 0x100180
/-- CLK_GATE_RUN (chapter 20, R390). -/
abbrev CLK_GATE_RUN : Nat := 0x101000
/-- CLK_GATE_SLEEP (chapter 20, R390). -/
abbrev CLK_GATE_SLEEP : Nat := 0x101004
/-- CLK_GATE_DEEP (chapter 20, R390). -/
abbrev CLK_GATE_DEEP : Nat := 0x101008
/-- PWR_DOM_CTRL (chapter 20, R374, R377). -/
abbrev PWR_DOM_CTRL : Nat := 0x200000
/-- PWR_DOM_STAT (chapter 20, R373, R374). -/
abbrev PWR_DOM_STAT : Nat := 0x200004
/-- PWR_DOM_COST_CORE (chapter 20, R376). -/
abbrev PWR_DOM_COST_CORE : Nat := 0x200200
/-- The active value of PWR_DOM_COST_CORE. -/
abbrev PWR_DOM_COST_CORE_ACT : Nat := 0x200400
/-- PWR_DOM_COST_OTHER (chapter 20, R376). -/
abbrev PWR_DOM_COST_OTHER : Nat := 0x200320
/-- The active value of PWR_DOM_COST_OTHER. -/
abbrev PWR_DOM_COST_OTHER_ACT : Nat := 0x200520
/-- PWR_WAKE_STAT (chapter 20, R378). -/
abbrev PWR_WAKE_STAT : Nat := 0x200900
/-- PWR_BUDGET0 (chapter 20, R372, R376). -/
abbrev PWR_BUDGET0 : Nat := 0x200600
/-- The active value of PWR_BUDGET0. -/
abbrev PWR_BUDGET0_ACT : Nat := 0x200608
/-- PWR_BUDGET1 (chapter 20, R372, R376). -/
abbrev PWR_BUDGET1 : Nat := 0x200610
/-- The active value of PWR_BUDGET1. -/
abbrev PWR_BUDGET1_ACT : Nat := 0x200618
/-- PWR_BUDGET2 (chapter 20, R372, R376). -/
abbrev PWR_BUDGET2 : Nat := 0x200620
/-- The active value of PWR_BUDGET2. -/
abbrev PWR_BUDGET2_ACT : Nat := 0x200628
/-- PWR_BUDGET3 (chapter 20, R372, R376). -/
abbrev PWR_BUDGET3 : Nat := 0x200630
/-- The active value of PWR_BUDGET3. -/
abbrev PWR_BUDGET3_ACT : Nat := 0x200638
/-- PWR_STATIC (chapter 20, R376). -/
abbrev PWR_STATIC : Nat := 0x200640
/-- PWR_ARRAY (chapter 20, R379). -/
abbrev PWR_ARRAY : Nat := 0x200680
/-- The active value of PWR_ARRAY. -/
abbrev PWR_ARRAY_ACT : Nat := 0x200684
/-- PWR_TEST (chapter 20, R376). -/
abbrev PWR_TEST : Nat := 0x200688
/-- PWR_WAKE_CFG (chapter 20, R378). -/
abbrev PWR_WAKE_CFG : Nat := 0x200690
/-- PWR_OP (chapter 20, R382). -/
abbrev PWR_OP : Nat := 0x200700
/-- The active value of PWR_OP. -/
abbrev PWR_OP_ACT : Nat := 0x200704
/-- PWR_OP_LIMIT (chapter 20, R382). -/
abbrev PWR_OP_LIMIT : Nat := 0x200708
/-- The active value of PWR_OP_LIMIT. -/
abbrev PWR_OP_LIMIT_ACT : Nat := 0x20070C
/-- PWR_SEQ_CFG (chapter 20, R383). -/
abbrev PWR_SEQ_CFG : Nat := 0x200710
/-- PWR_SEQ_STAT (chapter 20, R383, R384). -/
abbrev PWR_SEQ_STAT : Nat := 0x200714
/-- PWR_MODE (chapter 20, R375). -/
abbrev PWR_MODE : Nat := 0x200720
/-- PWR_WAKE_SRC (chapter 20, R375). -/
abbrev PWR_WAKE_SRC : Nat := 0x200724
/-- PWR_WAKE_TIME (chapter 20, R375). -/
abbrev PWR_WAKE_TIME : Nat := 0x200728
/-- PWR_TELEM (chapter 20, R372). -/
abbrev PWR_TELEM : Nat := 0x200740
/-- PWR_WAKE_CNT (chapter 20, Table 20.12). -/
abbrev PWR_WAKE_CNT : Nat := 0x200800
/-- PWR_WAKE_SLOW_CNT (chapter 20, Table 20.12). -/
abbrev PWR_WAKE_SLOW_CNT : Nat := 0x200808
/-- PWR_THROTTLE_WIN (chapter 20, Table 20.12). -/
abbrev PWR_THROTTLE_WIN : Nat := 0x200810
/-- PWR_OVER_BUDGET (chapter 20, Table 20.12). -/
abbrev PWR_OVER_BUDGET : Nat := 0x200818
/-- PWR_AVS_ERR_CNT (chapter 20, Table 20.12). -/
abbrev PWR_AVS_ERR_CNT : Nat := 0x200820
/-- PWR_OP_CHANGES (chapter 20, Table 20.12). -/
abbrev PWR_OP_CHANGES : Nat := 0x200828
/-- PWR_CNT_CLR (chapter 20, R11). -/
abbrev PWR_CNT_CLR : Nat := 0x200880
/-- TIME_NOW_SEC (chapter 04, R82, R86). -/
abbrev TIME_NOW_SEC : Nat := 0x300000
/-- TIME_NOW_NS (chapter 04, R82, R86). -/
abbrev TIME_NOW_NS : Nat := 0x300008
/-- TIME_NOW_FRAC (chapter 04, R82, R86). -/
abbrev TIME_NOW_FRAC : Nat := 0x30000C
/-- TIME_RATE (chapter 04, R84). -/
abbrev TIME_RATE : Nat := 0x300010
/-- TIME_RATE_ACT (chapter 04, R84). -/
abbrev TIME_RATE_ACT : Nat := 0x300014
/-- TIME_STEP_SEC (chapter 04, R85). -/
abbrev TIME_STEP_SEC : Nat := 0x300018
/-- TIME_STEP_NS (chapter 04, R85). -/
abbrev TIME_STEP_NS : Nat := 0x300020
/-- TIME_STEP_CMD (chapter 04, R85). -/
abbrev TIME_STEP_CMD : Nat := 0x300024
/-- TIME_STAT (chapter 04, R84, R85). -/
abbrev TIME_STAT : Nat := 0x300028
/-- FRAME_TIMER_PERIOD (chapter 04, R90). -/
abbrev FRAME_TIMER_PERIOD : Nat := 0x300040
/-- The active value of FRAME_TIMER_PERIOD. -/
abbrev FRAME_TIMER_PERIOD_ACT : Nat := 0x300044
/-- FRAME_TIMER_START_SEC (chapter 04, R91). -/
abbrev FRAME_TIMER_START_SEC : Nat := 0x300048
/-- FRAME_TIMER_START_NS (chapter 04, R91). -/
abbrev FRAME_TIMER_START_NS : Nat := 0x300050
/-- TIME_SERVO_STAT (chapter 04, R89). -/
abbrev TIME_SERVO_STAT : Nat := 0x300080
/-- TOUT_CFG (chapter 04, R92, R93). -/
abbrev TOUT_CFG : Nat := 0x300200
/-- TOUT_TIME_SEC (chapter 04, R93). -/
abbrev TOUT_TIME_SEC : Nat := 0x300208
/-- TOUT_TIME_NS (chapter 04, R93). -/
abbrev TOUT_TIME_NS : Nat := 0x300210
/-- TOUT_PERIOD_NS (chapter 04, R93). -/
abbrev TOUT_PERIOD_NS : Nat := 0x300214
/-- TOUT_PHASE (chapter 04, R93). -/
abbrev TOUT_PHASE : Nat := 0x300218
/-- The active value of TOUT_PHASE. -/
abbrev TOUT_PHASE_ACT : Nat := 0x30021C
/-- TIN_CFG (chapter 04, R96). -/
abbrev TIN_CFG : Nat := 0x300400
/-- TIN_CAP_SEC (chapter 04, R97). -/
abbrev TIN_CAP_SEC : Nat := 0x300408
/-- TIN_CAP_NS (chapter 04, R97). -/
abbrev TIN_CAP_NS : Nat := 0x300410
/-- TIN_STAT (chapter 04, R97). -/
abbrev TIN_STAT : Nat := 0x300414
/-- TIME_STEP_REFUSED (chapter 04, R85). -/
abbrev TIME_STEP_REFUSED : Nat := 0x300500
/-- TOUT_MISS (chapter 04, R94, R95). -/
abbrev TOUT_MISS : Nat := 0x300508
/-- TIN_OVF (chapter 04, R97). -/
abbrev TIN_OVF : Nat := 0x300528
/-- TIME_CNT_CLR (chapter 04, R11). -/
abbrev TIME_CNT_CLR : Nat := 0x300580
/-- ETH_CFG (chapter 03, R51-R55). -/
abbrev ETH_CFG : Nat := 0x400000
/-- ETH_STAT (chapter 03, R51, R68). -/
abbrev ETH_STAT : Nat := 0x400004
/-- ETH_IPV4 (chapter 03, R55). -/
abbrev ETH_IPV4 : Nat := 0x400008
/-- ETH_MAC (chapter 03, R441). -/
abbrev ETH_MAC : Nat := 0x400010
/-- ETH_TS_LAT (chapter 04, R87). -/
abbrev ETH_TS_LAT : Nat := 0x400020
/-- ETH_RING_BASE (chapter 03, R57). -/
abbrev ETH_RING_BASE : Nat := 0x400100
/-- ETH_RING_CFG (chapter 03, R57). -/
abbrev ETH_RING_CFG : Nat := 0x400108
/-- ETH_RING_HEAD (chapter 03, R57). -/
abbrev ETH_RING_HEAD : Nat := 0x40010C
/-- ETH_RING_TAIL (chapter 03, R57). -/
abbrev ETH_RING_TAIL : Nat := 0x400110
/-- RX_FRAMES_CNT (chapter 03, Table 3.11). -/
abbrev RX_FRAMES_CNT : Nat := 0x400200
/-- RX_FCS_DROP (chapter 03, Table 3.11). -/
abbrev RX_FCS_DROP : Nat := 0x400208
/-- RX_LEN_DROP (chapter 03, Table 3.11). -/
abbrev RX_LEN_DROP : Nat := 0x400210
/-- RX_CTRL_DROP (chapter 03, Table 3.11). -/
abbrev RX_CTRL_DROP : Nat := 0x400218
/-- RX_VLAN_DROP (chapter 03, Table 3.11). -/
abbrev RX_VLAN_DROP : Nat := 0x400220
/-- RX_BUF_DROP (chapter 03, Table 3.11). -/
abbrev RX_BUF_DROP : Nat := 0x400228
/-- RX_IP_DROP (chapter 03, Table 3.11). -/
abbrev RX_IP_DROP : Nat := 0x400230
/-- RX_UNCLASS_DROP (chapter 03, Table 3.11). -/
abbrev RX_UNCLASS_DROP : Nat := 0x400238
/-- RX_RING_FULL (chapter 03, Table 3.11). -/
abbrev RX_RING_FULL : Nat := 0x400240
/-- RX_TRUNC_DROP (chapter 03, Table 3.11). -/
abbrev RX_TRUNC_DROP : Nat := 0x400248
/-- TX_FRAMES_CNT (chapter 03, Table 3.11). -/
abbrev TX_FRAMES_CNT : Nat := 0x400250
/-- TX_LINK_DROP (chapter 03, Table 3.11). -/
abbrev TX_LINK_DROP : Nat := 0x400258
/-- ETH_CNT_CLR (chapter 03, R11). -/
abbrev ETH_CNT_CLR : Nat := 0x400280
/-- PUB_QUEUE_BASE (chapter 03, R79). -/
abbrev PUB_QUEUE_BASE : Nat := 0x480000
/-- PUB_QUEUE_LINES (chapter 03, R79). -/
abbrev PUB_QUEUE_LINES : Nat := 0x480010
/-- PUB_DEST_LO (chapter 03, R80). -/
abbrev PUB_DEST_LO : Nat := 0x480040
/-- PUB_DEST_HI (chapter 03, R80). -/
abbrev PUB_DEST_HI : Nat := 0x480048
/-- PUB_TRUNC_CNT (chapter 03, Table 3.12). -/
abbrev PUB_TRUNC_CNT : Nat := 0x480100
/-- PUB_POISON_DROP (chapter 03, Table 3.12). -/
abbrev PUB_POISON_DROP : Nat := 0x480108
/-- PUB_LINK_DROP (chapter 03, Table 3.12). -/
abbrev PUB_LINK_DROP : Nat := 0x480110
/-- HEAD_SLOT_CFG (chapter 03, R75). -/
abbrev HEAD_SLOT_CFG : Nat := 0x500000
/-- The active value of HEAD_SLOT_CFG. -/
abbrev HEAD_SLOT_CFG_ACT : Nat := 0x500004
/-- HEAD_SLOT_ADDR (chapter 03, R64, R440). -/
abbrev HEAD_SLOT_ADDR : Nat := 0x500008
/-- HEAD_SLOT_SYNC (chapter 03, R75). -/
abbrev HEAD_SLOT_SYNC : Nat := 0x500010
/-- HEAD_SLOT_STAT (chapter 03, R68-R77). -/
abbrev HEAD_SLOT_STAT : Nat := 0x500018
/-- BLK_ACCEPT_CNT (chapter 03, Table 3.13). -/
abbrev BLK_ACCEPT_CNT : Nat := 0x500040
/-- BLK_FORMAT_DROP (chapter 03, Table 3.13). -/
abbrev BLK_FORMAT_DROP : Nat := 0x500048
/-- BLK_CRC_DROP (chapter 03, Table 3.13). -/
abbrev BLK_CRC_DROP : Nat := 0x500050
/-- BLK_UNAUTH_DROP (chapter 03, Table 3.13). -/
abbrev BLK_UNAUTH_DROP : Nat := 0x500058
/-- BLK_STALE_DROP (chapter 03, Table 3.13). -/
abbrev BLK_STALE_DROP : Nat := 0x500060
/-- BLK_SEQ_GAP (chapter 03, Table 3.13). -/
abbrev BLK_SEQ_GAP : Nat := 0x500068
/-- BLK_UNCHECKED (chapter 03, Table 3.13). -/
abbrev BLK_UNCHECKED : Nat := 0x500070
/-- REC_CHAN_DROP (chapter 03, Table 3.13). -/
abbrev REC_CHAN_DROP : Nat := 0x500078
/-- HEAD_CTL_DROP (chapter 03, Table 3.13). -/
abbrev HEAD_CTL_DROP : Nat := 0x500080
/-- HEAD_ONTIME (chapter 03, Table 3.13). -/
abbrev HEAD_ONTIME : Nat := 0x500088
/-- HEAD_CNT_CLR (chapter 03, R11). -/
abbrev HEAD_CNT_CLR : Nat := 0x5000C0
/-- HEAD_LIFE_CFG (chapter 03, R73). -/
abbrev HEAD_LIFE_CFG : Nat := 0x501000
/-- HEAD_FRAME_FLAGS (chapter 03, R74). -/
abbrev HEAD_FRAME_FLAGS : Nat := 0x501008
/-- PARSE_HDR (chapter 03, R66). -/
abbrev PARSE_HDR : Nat := 0x502000
/-- PARSE_DESC (chapter 03, R66). -/
abbrev PARSE_DESC : Nat := 0x502020
/-- GRID_CFG (chapter 05, R109, R115). -/
abbrev GRID_CFG : Nat := 0x600000
/-- The active value of GRID_CFG. -/
abbrev GRID_CFG_ACT : Nat := 0x600004
/-- GRID_VOXEL (chapter 05, R102). -/
abbrev GRID_VOXEL : Nat := 0x600008
/-- The active value of GRID_VOXEL. -/
abbrev GRID_VOXEL_ACT : Nat := 0x60000C
/-- GRID_ORIGIN (chapter 05, R102). -/
abbrev GRID_ORIGIN : Nat := 0x600010
/-- The active value of GRID_ORIGIN. -/
abbrev GRID_ORIGIN_ACT : Nat := 0x600018
/-- GRID_HWM (chapter 05, R105). -/
abbrev GRID_HWM : Nat := 0x600020
/-- The active value of GRID_HWM. -/
abbrev GRID_HWM_ACT : Nat := 0x600024
/-- GRID_NEAR (chapter 05, R105). -/
abbrev GRID_NEAR : Nat := 0x600028
/-- The active value of GRID_NEAR. -/
abbrev GRID_NEAR_ACT : Nat := 0x60002C
/-- GRID_HASH_SEED (chapter 05, R104). -/
abbrev GRID_HASH_SEED : Nat := 0x600030
/-- The active value of GRID_HASH_SEED. -/
abbrev GRID_HASH_SEED_ACT : Nat := 0x600034
/-- GRID_STAT (chapter 05, R105, R113). -/
abbrev GRID_STAT : Nat := 0x600040
/-- GRID_LAT_MAX (chapter 05, R118). -/
abbrev GRID_LAT_MAX : Nat := 0x600048
/-- GRID_POINT_CNT (chapter 05, Table 5.7). -/
abbrev GRID_POINT_CNT : Nat := 0x600100
/-- GRID_NEW_CNT (chapter 05, Table 5.7). -/
abbrev GRID_NEW_CNT : Nat := 0x600108
/-- GRID_SUPERSEDE (chapter 05, Table 5.7). -/
abbrev GRID_SUPERSEDE : Nat := 0x600110
/-- GRID_DROP_RANGE (chapter 05, Table 5.7). -/
abbrev GRID_DROP_RANGE : Nat := 0x600118
/-- GRID_DROP_FULL (chapter 05, Table 5.7). -/
abbrev GRID_DROP_FULL : Nat := 0x600120
/-- GRID_DROP_FAR (chapter 05, Table 5.7). -/
abbrev GRID_DROP_FAR : Nat := 0x600128
/-- GRID_DROP_BUCKET (chapter 05, Table 5.7). -/
abbrev GRID_DROP_BUCKET : Nat := 0x600130
/-- GRID_DROP_LEVEL (chapter 05, Table 5.7). -/
abbrev GRID_DROP_LEVEL : Nat := 0x600138
/-- GRID_OFF_DROP (chapter 05, Table 5.7). -/
abbrev GRID_OFF_DROP : Nat := 0x600140
/-- GRID_E2E_FAIL (chapter 05, Table 5.7). -/
abbrev GRID_E2E_FAIL : Nat := 0x600148
/-- GRID_LAT_OVER (chapter 05, Table 5.7). -/
abbrev GRID_LAT_OVER : Nat := 0x600150
/-- GRID_CNT_CLR (chapter 05, R11). -/
abbrev GRID_CNT_CLR : Nat := 0x600180
/-- GRID_ELEV (chapter 05, R100). -/
abbrev GRID_ELEV : Nat := 0x610000
/-- RB_JOB (chapter 06, R123, R125). -/
abbrev RB_JOB : Nat := 0x620000
/-- RB_OFFSET (chapter 06, R122, R125). -/
abbrev RB_OFFSET : Nat := 0x622000
/-- RB_OFFSET_N (chapter 06, R122). -/
abbrev RB_OFFSET_N : Nat := 0x622800
/-- RB_LIST (chapter 06, R125). -/
abbrev RB_LIST : Nat := 0x623000
/-- The active value of RB_LIST. -/
abbrev RB_LIST_ACT : Nat := 0x623004
/-- RB_STAT (chapter 06, R125). -/
abbrev RB_STAT : Nat := 0x623080
/-- RB_PROBE_CNT (chapter 06, Table 6.10). -/
abbrev RB_PROBE_CNT : Nat := 0x623100
/-- RB_MATCH_CNT (chapter 06, Table 6.10). -/
abbrev RB_MATCH_CNT : Nat := 0x623108
/-- RB_TILE_CNT (chapter 06, Table 6.10). -/
abbrev RB_TILE_CNT : Nat := 0x623110
/-- RB_OVERFLOW_CNT (chapter 06, Table 6.10). -/
abbrev RB_OVERFLOW_CNT : Nat := 0x623118
/-- RB_FAULT_CNT (chapter 06, Table 6.10). -/
abbrev RB_FAULT_CNT : Nat := 0x623120
/-- RB_E2E_FAIL (chapter 06, Table 6.10). -/
abbrev RB_E2E_FAIL : Nat := 0x623128
/-- RB_LEVEL_MISSING (chapter 06, Table 6.10). -/
abbrev RB_LEVEL_MISSING : Nat := 0x623130
/-- RB_CREDIT_WAIT (chapter 06, Table 6.10). -/
abbrev RB_CREDIT_WAIT : Nat := 0x623138
/-- RB_UNFINISHED (chapter 06, Table 6.10). -/
abbrev RB_UNFINISHED : Nat := 0x623140
/-- RB_CNT_CLR (chapter 06, R11). -/
abbrev RB_CNT_CLR : Nat := 0x623180
/-- CAL_ROT0 (chapter 07, R137, R144). -/
abbrev CAL_ROT0 : Nat := 0x700000
/-- The active value of CAL_ROT0. -/
abbrev CAL_ROT0_ACT : Nat := 0x700040
/-- CAL_ROT1 (chapter 07, R137, R144). -/
abbrev CAL_ROT1 : Nat := 0x700004
/-- The active value of CAL_ROT1. -/
abbrev CAL_ROT1_ACT : Nat := 0x700044
/-- CAL_ROT2 (chapter 07, R137, R144). -/
abbrev CAL_ROT2 : Nat := 0x700008
/-- The active value of CAL_ROT2. -/
abbrev CAL_ROT2_ACT : Nat := 0x700048
/-- CAL_ROT3 (chapter 07, R137, R144). -/
abbrev CAL_ROT3 : Nat := 0x70000C
/-- The active value of CAL_ROT3. -/
abbrev CAL_ROT3_ACT : Nat := 0x70004C
/-- CAL_ROT4 (chapter 07, R137, R144). -/
abbrev CAL_ROT4 : Nat := 0x700010
/-- The active value of CAL_ROT4. -/
abbrev CAL_ROT4_ACT : Nat := 0x700050
/-- CAL_ROT5 (chapter 07, R137, R144). -/
abbrev CAL_ROT5 : Nat := 0x700014
/-- The active value of CAL_ROT5. -/
abbrev CAL_ROT5_ACT : Nat := 0x700054
/-- CAL_ROT6 (chapter 07, R137, R144). -/
abbrev CAL_ROT6 : Nat := 0x700018
/-- The active value of CAL_ROT6. -/
abbrev CAL_ROT6_ACT : Nat := 0x700058
/-- CAL_ROT7 (chapter 07, R137, R144). -/
abbrev CAL_ROT7 : Nat := 0x70001C
/-- The active value of CAL_ROT7. -/
abbrev CAL_ROT7_ACT : Nat := 0x70005C
/-- CAL_ROT8 (chapter 07, R137, R144). -/
abbrev CAL_ROT8 : Nat := 0x700020
/-- The active value of CAL_ROT8. -/
abbrev CAL_ROT8_ACT : Nat := 0x700060
/-- CAL_TRANS (chapter 07, R137, R144). -/
abbrev CAL_TRANS : Nat := 0x700024
/-- The active value of CAL_TRANS. -/
abbrev CAL_TRANS_ACT : Nat := 0x700064
/-- CAL_RB_GAIN (chapter 07, R137, R144). -/
abbrev CAL_RB_GAIN : Nat := 0x700030
/-- The active value of CAL_RB_GAIN. -/
abbrev CAL_RB_GAIN_ACT : Nat := 0x700070
/-- CAL_SLOT_CFG (chapter 07, R137-R141). -/
abbrev CAL_SLOT_CFG : Nat := 0x700080
/-- CAL_SLOT_STAT (chapter 07, R142-R148). -/
abbrev CAL_SLOT_STAT : Nat := 0x700088
/-- CAL_LAST_STEP (chapter 07, R144). -/
abbrev CAL_LAST_STEP : Nat := 0x700090
/-- CAL_CTRL (chapter 07, R146, R148). -/
abbrev CAL_CTRL : Nat := 0x701000
/-- CAL_CFG (chapter 07, R139-R142). -/
abbrev CAL_CFG : Nat := 0x701004
/-- The active value of CAL_CFG. -/
abbrev CAL_CFG_ACT : Nat := 0x701008
/-- CAL_GATE (chapter 07, R143). -/
abbrev CAL_GATE : Nat := 0x70100C
/-- CAL_STAT (chapter 07, R138, R142). -/
abbrev CAL_STAT : Nat := 0x701010
/-- CAL_CAND_CNT (chapter 07, Table 7.2). -/
abbrev CAL_CAND_CNT : Nat := 0x701100
/-- CAL_CAND_SKIP (chapter 07, Table 7.2). -/
abbrev CAL_CAND_SKIP : Nat := 0x701108
/-- CAL_SAMPLE_CNT (chapter 07, Table 7.2). -/
abbrev CAL_SAMPLE_CNT : Nat := 0x701110
/-- CAL_REJECT_PLANE (chapter 07, Table 7.2). -/
abbrev CAL_REJECT_PLANE : Nat := 0x701118
/-- CAL_REJECT_RESID (chapter 07, Table 7.2). -/
abbrev CAL_REJECT_RESID : Nat := 0x701120
/-- CAL_UNFINISHED (chapter 07, Table 7.2). -/
abbrev CAL_UNFINISHED : Nat := 0x701128
/-- CAL_E2E_FAIL (chapter 07, Table 7.2). -/
abbrev CAL_E2E_FAIL : Nat := 0x701130
/-- CAL_DEGENERATE_CNT (chapter 07, Table 7.2). -/
abbrev CAL_DEGENERATE_CNT : Nat := 0x701138
/-- CAL_GATE_FAIL (chapter 07, Table 7.2). -/
abbrev CAL_GATE_FAIL : Nat := 0x701140
/-- CAL_CLAMP_CNT (chapter 07, Table 7.2). -/
abbrev CAL_CLAMP_CNT : Nat := 0x701148
/-- CAL_ACCEPT_CNT (chapter 07, Table 7.2). -/
abbrev CAL_ACCEPT_CNT : Nat := 0x701150
/-- CAL_PREEMPT_CNT (chapter 07, Table 7.2). -/
abbrev CAL_PREEMPT_CNT : Nat := 0x701158
/-- CAL_CNT_CLR (chapter 07, R11). -/
abbrev CAL_CNT_CLR : Nat := 0x701180
/-- MAP_DIR0 (chapter 16, R297, R299). -/
abbrev MAP_DIR0 : Nat := 0x800000
/-- The active value of MAP_DIR0. -/
abbrev MAP_DIR0_ACT : Nat := 0x800200
/-- MAP_DIR1 (chapter 16, R297, R299). -/
abbrev MAP_DIR1 : Nat := 0x800008
/-- The active value of MAP_DIR1. -/
abbrev MAP_DIR1_ACT : Nat := 0x800208
/-- MAP_UPD_BASE (chapter 16, R308). -/
abbrev MAP_UPD_BASE : Nat := 0x800400
/-- MAP_UPD_CFG (chapter 16, R308). -/
abbrev MAP_UPD_CFG : Nat := 0x800408
/-- MAP_UPD_TAIL (chapter 16, R308). -/
abbrev MAP_UPD_TAIL : Nat := 0x80040C
/-- MAP_UPD_HEAD (chapter 16, R308). -/
abbrev MAP_UPD_HEAD : Nat := 0x800410
/-- MAP_SEL_MIRROR (chapter 16, R312). -/
abbrev MAP_SEL_MIRROR : Nat := 0x800418
/-- MAP_STAT (chapter 16, R300-R314). -/
abbrev MAP_STAT : Nat := 0x800420
/-- MAP_PREV_BUSY (chapter 16, R313). -/
abbrev MAP_PREV_BUSY : Nat := 0x800428
/-- MAP_GATHER_CNT (chapter 16, Table 16.6). -/
abbrev MAP_GATHER_CNT : Nat := 0x800800
/-- MAP_INDEX_CNT (chapter 16, Table 16.6). -/
abbrev MAP_INDEX_CNT : Nat := 0x800808
/-- MAP_FETCH_CNT (chapter 16, Table 16.6). -/
abbrev MAP_FETCH_CNT : Nat := 0x800810
/-- MAP_COALESCE_CNT (chapter 16, Table 16.6). -/
abbrev MAP_COALESCE_CNT : Nat := 0x800818
/-- MAP_NULL_CNT (chapter 16, Table 16.6). -/
abbrev MAP_NULL_CNT : Nat := 0x800820
/-- MAP_IDX_DROP (chapter 16, Table 16.6). -/
abbrev MAP_IDX_DROP : Nat := 0x800828
/-- MAP_EMPTY_CRATE (chapter 16, Table 16.6). -/
abbrev MAP_EMPTY_CRATE : Nat := 0x800830
/-- MAP_POISON_ROWS (chapter 16, Table 16.6). -/
abbrev MAP_POISON_ROWS : Nat := 0x800838
/-- MAP_UPD_CNT (chapter 16, Table 16.6). -/
abbrev MAP_UPD_CNT : Nat := 0x800840
/-- MAP_UPD_BAD (chapter 16, Table 16.6). -/
abbrev MAP_UPD_BAD : Nat := 0x800848
/-- MAP_UPD_POISON (chapter 16, Table 16.6). -/
abbrev MAP_UPD_POISON : Nat := 0x800850
/-- MAP_UPD_WAIT (chapter 16, Table 16.6). -/
abbrev MAP_UPD_WAIT : Nat := 0x800858
/-- MAP_CNT_CLR (chapter 16, R11). -/
abbrev MAP_CNT_CLR : Nat := 0x800880
/-- SMU_STAT (chapter 15, R291, R292). -/
abbrev SMU_STAT : Nat := 0x900000
/-- SMU_TOPK_ROWS (chapter 15, Table 15.3). -/
abbrev SMU_TOPK_ROWS : Nat := 0x900100
/-- SMU_MERGE_CNT (chapter 15, Table 15.3). -/
abbrev SMU_MERGE_CNT : Nat := 0x900108
/-- SMU_EXTRA_PASS (chapter 15, Table 15.3). -/
abbrev SMU_EXTRA_PASS : Nat := 0x900110
/-- SMU_NAN_CNT (chapter 15, Table 15.3). -/
abbrev SMU_NAN_CNT : Nat := 0x900118
/-- SMU_DUP_CNT (chapter 15, Table 15.3). -/
abbrev SMU_DUP_CNT : Nat := 0x900120
/-- SMU_SUM_FLAG (chapter 15, Table 15.3). -/
abbrev SMU_SUM_FLAG : Nat := 0x900128
/-- SMU_POISON_CNT (chapter 15, Table 15.3). -/
abbrev SMU_POISON_CNT : Nat := 0x900130
/-- SMU_INPUT_FAIL (chapter 15, Table 15.3). -/
abbrev SMU_INPUT_FAIL : Nat := 0x900138
/-- SMU_CNT_CLR (chapter 15, R11). -/
abbrev SMU_CNT_CLR : Nat := 0x900180
/-- MEM_CFG (chapter 18, R333, R334). -/
abbrev MEM_CFG : Nat := 0xA00000
/-- MEM_CTRL (chapter 18, R333, R339). -/
abbrev MEM_CTRL : Nat := 0xA00004
/-- MEM_STAT (chapter 18, R333, R334, R339). -/
abbrev MEM_STAT : Nat := 0xA00008
/-- MEM_FILL_BASE (chapter 18, R339). -/
abbrev MEM_FILL_BASE : Nat := 0xA00010
/-- MEM_FILL_LINES (chapter 18, R339). -/
abbrev MEM_FILL_LINES : Nat := 0xA00018
/-- MEM_SCRUB_CFG (chapter 18, R338). -/
abbrev MEM_SCRUB_CFG : Nat := 0xA00020
/-- MEM_ERR_LOG (chapter 18, R337). -/
abbrev MEM_ERR_LOG : Nat := 0xA00030
/-- CELLAR (chapter 18, R345). -/
abbrev CELLAR : Nat := 0xA00100
/-- The active value of CELLAR. -/
abbrev CELLAR_ACT : Nat := 0xA00180
/-- CELLAR_LINES (chapter 18, R345). -/
abbrev CELLAR_LINES : Nat := 0xA00108
/-- The active value of CELLAR_LINES. -/
abbrev CELLAR_LINES_ACT : Nat := 0xA00188
/-- CELLAR_CFG (chapter 18, R346). -/
abbrev CELLAR_CFG : Nat := 0xA00200
/-- MEM_CE_CNT (chapter 18, Table 18.7). -/
abbrev MEM_CE_CNT : Nat := 0xA00400
/-- MEM_UE_CNT (chapter 18, Table 18.7). -/
abbrev MEM_UE_CNT : Nat := 0xA00408
/-- MEM_LINK_CE (chapter 18, Table 18.7). -/
abbrev MEM_LINK_CE : Nat := 0xA00410
/-- MEM_LINK_RETRY (chapter 18, Table 18.7). -/
abbrev MEM_LINK_RETRY : Nat := 0xA00418
/-- MEM_E2E_FAIL (chapter 18, Table 18.7). -/
abbrev MEM_E2E_FAIL : Nat := 0xA00420
/-- MEM_SCRUB_LINES (chapter 18, Table 18.7). -/
abbrev MEM_SCRUB_LINES : Nat := 0xA00428
/-- E2E_EXIT_FAIL (chapter 18, Table 18.7). -/
abbrev E2E_EXIT_FAIL : Nat := 0xA00430
/-- CELLAR_RING_DROP (chapter 18, Table 18.7). -/
abbrev CELLAR_RING_DROP : Nat := 0xA00438
/-- MEM_CNT_CLR (chapter 18, R11). -/
abbrev MEM_CNT_CLR : Nat := 0xA00480
/-- CELLAR_RING (chapter 18, R347). -/
abbrev CELLAR_RING : Nat := 0xA01000
/-- The active value of CELLAR_RING. -/
abbrev CELLAR_RING_ACT : Nat := 0xA02000
/-- CELLAR_RING_PROD (chapter 18, R347). -/
abbrev CELLAR_RING_PROD : Nat := 0xA01008
/-- CELLAR_RING_CONS (chapter 18, R347). -/
abbrev CELLAR_RING_CONS : Nat := 0xA0100C
/-- HQ_CFG (chapter 19, R351, R352). -/
abbrev HQ_CFG : Nat := 0xB00000
/-- HQ_SQ_BASE (chapter 19, R351). -/
abbrev HQ_SQ_BASE : Nat := 0xB00008
/-- HQ_CQ_BASE (chapter 19, R351). -/
abbrev HQ_CQ_BASE : Nat := 0xB00010
/-- HQ_SQ_TAIL (chapter 19, R351). -/
abbrev HQ_SQ_TAIL : Nat := 0xB00018
/-- HQ_SQ_HEAD (chapter 19, R351). -/
abbrev HQ_SQ_HEAD : Nat := 0xB0001C
/-- HQ_CQ_HEAD (chapter 19, R351). -/
abbrev HQ_CQ_HEAD : Nat := 0xB00020
/-- HQ_CQ_TAIL (chapter 19, R351). -/
abbrev HQ_CQ_TAIL : Nat := 0xB00024
/-- HQ_STAT (chapter 19, R351). -/
abbrev HQ_STAT : Nat := 0xB00028
/-- HQ_FUNC_WIN (chapter 19, R354). -/
abbrev HQ_FUNC_WIN : Nat := 0xB01010
/-- HQ_BAR2_WIN (chapter 19, R350). -/
abbrev HQ_BAR2_WIN : Nat := 0xB01100
/-- HQ_TRUNK_ABORT (chapter 19, R360). -/
abbrev HQ_TRUNK_ABORT : Nat := 0xB01104
/-- MBOX (chapter 19, R361). -/
abbrev MBOX : Nat := 0xB04000
/-- MBOX_CTRL (chapter 19, R361). -/
abbrev MBOX_CTRL : Nat := 0xB04040
/-- MBOX_STAT (chapter 19, R361). -/
abbrev MBOX_STAT : Nat := 0xB04044
/-- HQ_DESC_CNT (chapter 19, Table 19.14). -/
abbrev HQ_DESC_CNT : Nat := 0xB06000
/-- HQ_TAG_FAIL (chapter 19, Table 19.14). -/
abbrev HQ_TAG_FAIL : Nat := 0xB06008
/-- HQ_ABORT_IGN (chapter 19, Table 19.14). -/
abbrev HQ_ABORT_IGN : Nat := 0xB06010
/-- HRING_DROP (chapter 19, Table 19.14). -/
abbrev HRING_DROP : Nat := 0xB06018
/-- HRING_HDR_DROP (chapter 19, Table 19.14). -/
abbrev HRING_HDR_DROP : Nat := 0xB06020
/-- HQ_CNT_CLR (chapter 19, R11). -/
abbrev HQ_CNT_CLR : Nat := 0xB06080
/-- HRING (chapter 19, R356). -/
abbrev HRING : Nat := 0xB08000
/-- HRING_HDR (chapter 19, R356). -/
abbrev HRING_HDR : Nat := 0xB08008
/-- HRING_HDR_CFG (chapter 19, R356). -/
abbrev HRING_HDR_CFG : Nat := 0xB08010
/-- HRING_PROD (chapter 19, R356). -/
abbrev HRING_PROD : Nat := 0xB08014
/-- HRING_CONS (chapter 19, R356). -/
abbrev HRING_CONS : Nat := 0xB08018
/-- HRING_HDR_CONS (chapter 19, R357). -/
abbrev HRING_HDR_CONS : Nat := 0xB0801C
/-- LXL_CTRL (chapter 19, R361, R368). -/
abbrev LXL_CTRL : Nat := 0xC00000
/-- LXL_STAT (chapter 19, R368). -/
abbrev LXL_STAT : Nat := 0xC00004
/-- LXL_TX_FLITS (chapter 19, Table 19.15). -/
abbrev LXL_TX_FLITS : Nat := 0xC00100
/-- LXL_RX_FLITS (chapter 19, Table 19.15). -/
abbrev LXL_RX_FLITS : Nat := 0xC00108
/-- LXL_CRC_ERR (chapter 19, Table 19.15). -/
abbrev LXL_CRC_ERR : Nat := 0xC00110
/-- LXL_REPLAY (chapter 19, Table 19.15). -/
abbrev LXL_REPLAY : Nat := 0xC00118
/-- LXL_DOWN_CNT (chapter 19, Table 19.15). -/
abbrev LXL_DOWN_CNT : Nat := 0xC00120
/-- LXL_CNT_CLR (chapter 19, R11). -/
abbrev LXL_CNT_CLR : Nat := 0xC00180
/-- LINK_TOPO (chapter 19, R369). -/
abbrev LINK_TOPO : Nat := 0xC80000
/-- LINK_FENCE_FWD (chapter 19, R370). -/
abbrev LINK_FENCE_FWD : Nat := 0xC80004
/-- LINK_ROUTE_DROP (chapter 19, R369, R371). -/
abbrev LINK_ROUTE_DROP : Nat := 0xC80100
/-- LINK_COMMIT_LOST (chapter 19, R369, R371). -/
abbrev LINK_COMMIT_LOST : Nat := 0xC80108
/-- ROT_CFG (chapter 21, R394, R395). -/
abbrev ROT_CFG : Nat := 0xD00000
/-- The active value of ROT_CFG. -/
abbrev ROT_CFG_ACT : Nat := 0xD00004
/-- ROT_STAT (chapter 21, R394-R398). -/
abbrev ROT_STAT : Nat := 0xD00008
/-- TEST_REF (chapter 21, R398). -/
abbrev TEST_REF : Nat := 0xD00040
/-- TEST_RESULT (chapter 21, R398). -/
abbrev TEST_RESULT : Nat := 0xD00100
/-- ROT_SLICE (chapter 21, R398). -/
abbrev ROT_SLICE : Nat := 0xD00240
/-- FENCE_CFG (chapter 21, R402). -/
abbrev FENCE_CFG : Nat := 0xD00300
/-- FENCE_REQ (chapter 21, R402). -/
abbrev FENCE_REQ : Nat := 0xD00308
/-- FENCE_STAT (chapter 21, R402). -/
abbrev FENCE_STAT : Nat := 0xD00310
/-- FENCE_CLEAR (chapter 21, R402). -/
abbrev FENCE_CLEAR : Nat := 0xD00318
/-- SC_ROT_CFG (chapter 21, R401). -/
abbrev SC_ROT_CFG : Nat := 0xD00400
/-- SC_STAT (chapter 21, R401). -/
abbrev SC_STAT : Nat := 0xD00404
/-- SAFE_CFG (chapter 21, R403). -/
abbrev SAFE_CFG : Nat := 0xD00500
/-- SAFE_CTRL (chapter 21, R403). -/
abbrev SAFE_CTRL : Nat := 0xD00504
/-- SAFE_STAT (chapter 21, R403). -/
abbrev SAFE_STAT : Nat := 0xD00508
/-- TEMP_CFG (chapter 21, R403). -/
abbrev TEMP_CFG : Nat := 0xD00510
/-- TEMP_STAT (chapter 21, R403). -/
abbrev TEMP_STAT : Nat := 0xD00514
/-- FAULT_LOG_HEAD (chapter 21, R404). -/
abbrev FAULT_LOG_HEAD : Nat := 0xD00600
/-- ROT_STEP_CNT (chapter 21, Table 21.6). -/
abbrev ROT_STEP_CNT : Nat := 0xD00800
/-- ROT_POSTPONE_CNT (chapter 21, Table 21.6). -/
abbrev ROT_POSTPONE_CNT : Nat := 0xD00808
/-- LBIST_TRANSIENT (chapter 21, Table 21.6). -/
abbrev LBIST_TRANSIENT : Nat := 0xD00810
/-- LBIST_FAIL_CNT (chapter 21, Table 21.6). -/
abbrev LBIST_FAIL_CNT : Nat := 0xD00818
/-- MBIST_FAIL_CNT (chapter 21, Table 21.6). -/
abbrev MBIST_FAIL_CNT : Nat := 0xD00820
/-- FAULT_LOG_LOST (chapter 21, Table 21.6). -/
abbrev FAULT_LOG_LOST : Nat := 0xD00828
/-- TEST_CNT_CLR (chapter 21, R11). -/
abbrev TEST_CNT_CLR : Nat := 0xD00880
/-- FAULT_LOG (chapter 21, R404). -/
abbrev FAULT_LOG : Nat := 0xD01000
/-- SEC_BOOT_STAT (chapter 22, R407-R411). -/
abbrev SEC_BOOT_STAT : Nat := 0xE00000
/-- SEC_BOOT_CTRL (chapter 22, R408). -/
abbrev SEC_BOOT_CTRL : Nat := 0xE00004
/-- SEC_STAT (chapter 22, R414, R416, R423). -/
abbrev SEC_STAT : Nat := 0xE00008
/-- SEC_LOCK (chapter 22, R411, R414). -/
abbrev SEC_LOCK : Nat := 0xE00010
/-- SEC_FUSE_CMD (chapter 22, R414). -/
abbrev SEC_FUSE_CMD : Nat := 0xE00018
/-- SEC_MEAS_EXT (chapter 22, R420). -/
abbrev SEC_MEAS_EXT : Nat := 0xE00020
/-- SEC_MEAS_IN (chapter 22, R420). -/
abbrev SEC_MEAS_IN : Nat := 0xE00040
/-- SEC_MEAS (chapter 22, R420). -/
abbrev SEC_MEAS : Nat := 0xE00100
/-- SEC_BOOT_FAIL_CNT (chapter 22, Table 22.11). -/
abbrev SEC_BOOT_FAIL_CNT : Nat := 0xE00400
/-- SEC_CERT_NOTIME (chapter 22, Table 22.11). -/
abbrev SEC_CERT_NOTIME : Nat := 0xE00408
/-- SEC_ACCOUNT_BAD (chapter 22, Table 22.11). -/
abbrev SEC_ACCOUNT_BAD : Nat := 0xE00410
/-- SEC_DEBUG_FAIL (chapter 22, Table 22.11). -/
abbrev SEC_DEBUG_FAIL : Nat := 0xE00418
/-- SEC_CNT_CLR (chapter 22, R11). -/
abbrev SEC_CNT_CLR : Nat := 0xE00480
/-- EVT_ROUTE (chapter 19, R359). -/
abbrev EVT_ROUTE : Nat := 0xF00000
/-- EVT_PEND (chapter 19, R359). -/
abbrev EVT_PEND : Nat := 0xF01000
/-- EVT_VEC_DROP (chapter 19, R359). -/
abbrev EVT_VEC_DROP : Nat := 0xF01100
/-- CORE_INFO (chapter 08, R151 (reset + n)). -/
abbrev CORE_INFO : Nat := 0x1000000
/-- CORE_STAT (chapter 08, R149, R159). -/
abbrev CORE_STAT : Nat := 0x1000008
/-- SEQ_STAT (chapter 13, R254). -/
abbrev SEQ_STAT : Nat := 0x1000800
/-- CORE_ENTRY (chapter 13, R241). -/
abbrev CORE_ENTRY : Nat := 0x1000810
/-- The active value of CORE_ENTRY. -/
abbrev CORE_ENTRY_ACT : Nat := 0x1000814
/-- CORE_TRAP_INFO (chapter 13, R261). -/
abbrev CORE_TRAP_INFO : Nat := 0x1000820
/-- CORE_TRAP_WORD (chapter 13, R261). -/
abbrev CORE_TRAP_WORD : Nat := 0x1000828
/-- SEM_VAL (chapter 13, R251). -/
abbrev SEM_VAL : Nat := 0x1000900
/-- SEQ_ISSUE_CNT (chapter 13, Table 13.15). -/
abbrev SEQ_ISSUE_CNT : Nat := 0x1000A00
/-- SEQ_STALL_QUEUE (chapter 13, Table 13.15). -/
abbrev SEQ_STALL_QUEUE : Nat := 0x1000A08
/-- SEQ_STALL_DEP (chapter 13, Table 13.15). -/
abbrev SEQ_STALL_DEP : Nat := 0x1000A10
/-- SEQ_STALL_FETCH (chapter 13, Table 13.15). -/
abbrev SEQ_STALL_FETCH : Nat := 0x1000A18
/-- SEM_STALE_CNT (chapter 13, Table 13.15). -/
abbrev SEM_STALE_CNT : Nat := 0x1000A20
/-- CORE_TRAP_CNT (chapter 13, Table 13.15). -/
abbrev CORE_TRAP_CNT : Nat := 0x1000A28
/-- SEQ_CNT_CLR (chapter 13, R11). -/
abbrev SEQ_CNT_CLR : Nat := 0x1000A80
/-- SHELF (chapter 08, R155, R156). -/
abbrev SHELF : Nat := 0x1001000
/-- The active value of SHELF. -/
abbrev SHELF_ACT : Nat := 0x1001200
/-- PEER_MAP (chapter 08, Table 8.7). -/
abbrev PEER_MAP : Nat := 0x1001400
/-- The active value of PEER_MAP. -/
abbrev PEER_MAP_ACT : Nat := 0x1001480
/-- CREDIT_POOL (chapter 08, R164). -/
abbrev CREDIT_POOL : Nat := 0x1001610
/-- CREDIT_POOL_STAT (chapter 08, R164). -/
abbrev CREDIT_POOL_STAT : Nat := 0x1001618
/-- SPAD_ECC_LOG (chapter 08, R154). -/
abbrev SPAD_ECC_LOG : Nat := 0x1002000
/-- SPAD_REPAIR (chapter 08, R168). -/
abbrev SPAD_REPAIR : Nat := 0x1002100
/-- SPAD_CE_CNT (chapter 08, Table 8.8). -/
abbrev SPAD_CE_CNT : Nat := 0x1003000
/-- SPAD_UE_CNT (chapter 08, Table 8.8). -/
abbrev SPAD_UE_CNT : Nat := 0x1003008
/-- SPAD_CONFLICT_CNT (chapter 08, Table 8.8). -/
abbrev SPAD_CONFLICT_CNT : Nat := 0x1003010
/-- REMOTE_RD_CNT (chapter 08, Table 8.8). -/
abbrev REMOTE_RD_CNT : Nat := 0x1003018
/-- REMOTE_WR_CNT (chapter 08, Table 8.8). -/
abbrev REMOTE_WR_CNT : Nat := 0x1003020
/-- CREDIT_STALE (chapter 08, Table 8.8). -/
abbrev CREDIT_STALE : Nat := 0x1003028
/-- CREDIT_REFUSED (chapter 08, Table 8.8). -/
abbrev CREDIT_REFUSED : Nat := 0x1003030
/-- CREDIT_OVERSIZE (chapter 08, Table 8.8). -/
abbrev CREDIT_OVERSIZE : Nat := 0x1003038
/-- CREDIT_OVER_RET (chapter 08, Table 8.8). -/
abbrev CREDIT_OVER_RET : Nat := 0x1003040
/-- CORE_CNT_CLR (chapter 08, R11). -/
abbrev CORE_CNT_CLR : Nat := 0x1003080
/-- ARRAY_CHK_TOL (chapter 09, R180). -/
abbrev ARRAY_CHK_TOL : Nat := 0x1004000
/-- ARRAY_STAT (chapter 09, R182, R188). -/
abbrev ARRAY_STAT : Nat := 0x1004008
/-- ARRAY_PART_STAT (chapter 09, R183). -/
abbrev ARRAY_PART_STAT : Nat := 0x1004010
/-- ARRAY_ROW_CNT (chapter 09, Table 9.9). -/
abbrev ARRAY_ROW_CNT : Nat := 0x1004100
/-- ARRAY_BUB_INPUT (chapter 09, Table 9.9). -/
abbrev ARRAY_BUB_INPUT : Nat := 0x1004108
/-- ARRAY_BUB_WEIGHT (chapter 09, Table 9.9). -/
abbrev ARRAY_BUB_WEIGHT : Nat := 0x1004110
/-- ARRAY_BUB_DRAIN (chapter 09, Table 9.9). -/
abbrev ARRAY_BUB_DRAIN : Nat := 0x1004118
/-- ARRAY_BUB_THROTTLE (chapter 09, Table 9.9). -/
abbrev ARRAY_BUB_THROTTLE : Nat := 0x1004120
/-- ARRAY_CHECK_CNT (chapter 09, Table 9.9). -/
abbrev ARRAY_CHECK_CNT : Nat := 0x1004128
/-- ARRAY_CHK_SKIP (chapter 09, Table 9.9). -/
abbrev ARRAY_CHK_SKIP : Nat := 0x1004130
/-- ARRAY_POISON_ROWS (chapter 09, Table 9.9). -/
abbrev ARRAY_POISON_ROWS : Nat := 0x1004138
/-- ARRAY_CNT_CLR (chapter 09, R11). -/
abbrev ARRAY_CNT_CLR : Nat := 0x1004180
/-- FMT_SAT_CNT (chapter 10, Table 10.7). -/
abbrev FMT_SAT_CNT : Nat := 0x1005000
/-- FMT_UNDERFLOW_CNT (chapter 10, Table 10.7). -/
abbrev FMT_UNDERFLOW_CNT : Nat := 0x1005008
/-- FMT_NAN_CNT (chapter 10, Table 10.7). -/
abbrev FMT_NAN_CNT : Nat := 0x1005010
/-- FMT_CNT_CLR (chapter 10, R11). -/
abbrev FMT_CNT_CLR : Nat := 0x1005080
/-- SPARSE_CFG (chapter 11, R216, R221). -/
abbrev SPARSE_CFG : Nat := 0x1006000
/-- SPARSE_STAT (chapter 11, R223). -/
abbrev SPARSE_STAT : Nat := 0x1006008
/-- MMS_ROW_CNT (chapter 11, Table 11.6). -/
abbrev MMS_ROW_CNT : Nat := 0x1006100
/-- MMS_LINE_WAIT (chapter 11, Table 11.6). -/
abbrev MMS_LINE_WAIT : Nat := 0x1006108
/-- ZERO_ROW_SKIP (chapter 11, Table 11.6). -/
abbrev ZERO_ROW_SKIP : Nat := 0x1006110
/-- PACK_DENSE_CNT (chapter 11, Table 11.6). -/
abbrev PACK_DENSE_CNT : Nat := 0x1006118
/-- MATCH_PROBE_CNT (chapter 11, Table 11.6). -/
abbrev MATCH_PROBE_CNT : Nat := 0x1006120
/-- MATCH_HIT_CNT (chapter 11, Table 11.6). -/
abbrev MATCH_HIT_CNT : Nat := 0x1006128
/-- MATCH_TRUNC_CNT (chapter 11, Table 11.6). -/
abbrev MATCH_TRUNC_CNT : Nat := 0x1006130
/-- SPARSE_CNT_CLR (chapter 11, R11). -/
abbrev SPARSE_CNT_CLR : Nat := 0x1006180
/-- SCA_SPILL_BASE (chapter 12, R238). -/
abbrev SCA_SPILL_BASE : Nat := 0x1007000
/-- SCA_SPILL_LINES (chapter 12, R238). -/
abbrev SCA_SPILL_LINES : Nat := 0x1007008
/-- SCA_STAT (chapter 12, R240). -/
abbrev SCA_STAT : Nat := 0x1007010
/-- GATE_SKIP_CNT (chapter 12, Table 12.3). -/
abbrev GATE_SKIP_CNT : Nat := 0x1007100
/-- GATE_SHADOW_CNT (chapter 12, Table 12.3). -/
abbrev GATE_SHADOW_CNT : Nat := 0x1007108
/-- GATE_MISS_CNT (chapter 12, Table 12.3). -/
abbrev GATE_MISS_CNT : Nat := 0x1007110
/-- SCA_PAIR_CNT (chapter 12, Table 12.3). -/
abbrev SCA_PAIR_CNT : Nat := 0x1007118
/-- SCA_NEW_CNT (chapter 12, Table 12.3). -/
abbrev SCA_NEW_CNT : Nat := 0x1007120
/-- SCA_HOT_CNT (chapter 12, Table 12.3). -/
abbrev SCA_HOT_CNT : Nat := 0x1007128
/-- SCA_SPILL_CNT (chapter 12, Table 12.3). -/
abbrev SCA_SPILL_CNT : Nat := 0x1007130
/-- SCA_POISON_DROP (chapter 12, Table 12.3). -/
abbrev SCA_POISON_DROP : Nat := 0x1007138
/-- SCA_CNT_CLR (chapter 12, R11). -/
abbrev SCA_CNT_CLR : Nat := 0x1007180
/-- MOVE_STAT (chapter 14, R270). -/
abbrev MOVE_STAT : Nat := 0x1008008
/-- GETX_ROW_CNT (chapter 14, Table 14.14). -/
abbrev GETX_ROW_CNT : Nat := 0x1008100
/-- GETX_REUSE_CNT (chapter 14, Table 14.14). -/
abbrev GETX_REUSE_CNT : Nat := 0x1008108
/-- GETX_LOCAL_CNT (chapter 14, Table 14.14). -/
abbrev GETX_LOCAL_CNT : Nat := 0x1008110
/-- GETX_STOP_CNT (chapter 14, Table 14.14). -/
abbrev GETX_STOP_CNT : Nat := 0x1008118
/-- MMG_REC_SKIP (chapter 14, Table 14.14). -/
abbrev MMG_REC_SKIP : Nat := 0x1008120
/-- TENSOR_CNT_CLR (chapter 14, R11). -/
abbrev TENSOR_CNT_CLR : Nat := 0x1008180
end Reg

/-- Registers of the SYS block. -/
def sysRegs0 : List RegSpec := [
  ⟨Reg.SYS_ID, [], 64, 0x1F3A0960B0, .ro, 0x0, 0x0, 0x0, none⟩,
  ⟨Reg.FRAME_CTRL, [], 32, 0x0, .rw, 0x1, 0x0, 0x6, none⟩,
  ⟨Reg.FRAME_SRC, [], 32, 0x0, .fb, 0x1F, 0x0, 0x0, (some Reg.FRAME_SRC_ACT)⟩,
  ⟨Reg.FRAME_DEADLINE, [], 32, 0x0, .fb, 0xFFFFFFFF, 0x0, 0x0, (some Reg.FRAME_DEADLINE_ACT)⟩,
  ⟨Reg.FRAME_GUARD, [], 32, 0xC350, .rw, 0xFFFFFF, 0x0, 0x0, none⟩,
  ⟨Reg.FRAME_NUM, [], 32, 0x0, .ro, 0x0, 0x0, 0x0, none⟩,
  ⟨Reg.FRAME_STAT, [], 32, 0x0, .ro, 0x0, 0x0, 0x0, none⟩,
  ⟨Reg.FRAME_FENCE_SEC, [], 64, 0x0, .ro, 0x0, 0x0, 0x0, none⟩,
  ⟨Reg.FRAME_FENCE_NS, [], 32, 0x0, .ro, 0x0, 0x0, 0x0, none⟩,
  ⟨Reg.FRAME_ABORT_INFO, [], 64, 0x0, .ro, 0x0, 0x8000000000000000, 0x0, none⟩,
  ⟨Reg.FRAME_COMMIT_CNT, [], 64, 0x0, .cnt, 0x0, 0x0, 0x0, none⟩,
  ⟨Reg.FRAME_ABORT_CNT, [], 64, 0x0, .cnt, 0x0, 0x0, 0x0, none⟩,
  ⟨Reg.FRAME_LATE_CNT, [], 64, 0x0, .cnt, 0x0, 0x0, 0x0, none⟩,
  ⟨Reg.FENCE_EARLY_CNT, [], 64, 0x0, .cnt, 0x0, 0x0, 0x0, none⟩,
  ⟨Reg.FENCE_MISSING_CNT, [], 64, 0x0, .cnt, 0x0, 0x0, 0x0, none⟩,
  ⟨Reg.FB_LATE_WRITE_CNT, [], 64, 0x0, .cnt, 0x0, 0x0, 0x0, none⟩,
  ⟨Reg.FENCE_RENUMBER_CNT, [], 64, 0x0, .cnt, 0x0, 0x0, 0x0, none⟩,
  ⟨Reg.FRAME_CNT_CLR, [], 32, 0x0, .wo, 0x7F, 0x0, 0x0, none⟩,
  ⟨Reg.TRUNK_STAT, [(8, 0x20)], 64, 0x0, .ro, 0x0, 0x0, 0x0, none⟩,
  ⟨Reg.TRUNK_CFG, [(8, 0x20)], 32, 0x0, .rw, 0x1F, 0x0, 0x0, none⟩,
  ⟨Reg.TRUNK_ID, [(8, 0x20)], 64, 0x0, .ro, 0x0, 0x0, 0x0, none⟩,
  ⟨Reg.QUOTA_PF, [], 64, 0x100000208, .fb, 0x1FFFFFFFF, 0x0, 0x0, (some Reg.QUOTA_PF_ACT)⟩,
  ⟨Reg.QUOTA_VF, [(8, 0x10)], 64, 0x0, .fb, 0x1FFFFFFFF, 0x0, 0x0, (some Reg.QUOTA_VF_ACT)⟩,
  ⟨Reg.QUOTA_USE, [(9, 0x8)], 64, 0x0, .ro, 0x0, 0x0, 0x0, none⟩,
  ⟨Reg.PLACE_STAT, [], 32, 0x0, .ro, 0x0, 0x0, 0x0, none⟩]

/-- Registers of the SYS block. -/
def sysRegs1 : List RegSpec := [
  ⟨Reg.TRUNK_LOAD_REFUSED, [], 64, 0x0, .cnt, 0x0, 0x0, 0x0, none⟩,
  ⟨Reg.TRUNK_LAUNCH_REFUSED, [], 64, 0x0, .cnt, 0x0, 0x0, 0x0, none⟩,
  ⟨Reg.TRUNK_SKIP_CNT, [], 64, 0x0, .cnt, 0x0, 0x0, 0x0, none⟩,
  ⟨Reg.TRUNK_REPLACE_CNT, [], 64, 0x0, .cnt, 0x0, 0x0, 0x0, none⟩,
  ⟨Reg.TRUNK_CNT_CLR, [], 32, 0x0, .wo, 0xF, 0x0, 0x0, none⟩,
  ⟨Reg.GATE_CFG, [(8, 0x200), (64, 0x8)], 32, 0x20088, .fb, 0xFFFFFFFF, 0x0, 0x0, (some Reg.GATE_CFG_ACT)⟩,
  ⟨Reg.GATE_STAT, [(8, 0x200), (64, 0x8)], 64, 0x0, .ro, 0x0, 0x0, 0x0, none⟩]

/-- Registers of the SYS block, all. -/
def sysRegs : List RegSpec := sysRegs0 ++ sysRegs1

/-- Registers of the CLK block. -/
def clkRegs : List RegSpec := [
  ⟨Reg.CLK_STAT, [], 32, 0x0, .ro, 0x0, 0x1C, 0x0, none⟩,
  ⟨Reg.CLK_CTRL, [], 32, 0x0, .ro, 0x0, 0x0, 0x1, none⟩,
  ⟨Reg.CLK_XTAL_WIN, [], 32, 0xCB20834, .rw, 0xFFFFFFFF, 0x0, 0x0, none⟩,
  ⟨Reg.CLK_PLL_CFG2, [], 32, 0x30, .rw, 0x3F, 0x0, 0x0, none⟩,
  ⟨Reg.CLK_PLL_CFG3, [], 32, 0x28, .rw, 0x3F, 0x0, 0x0, none⟩,
  ⟨Reg.CLK_OBS_CFG, [], 32, 0x0, .rw, 0x3FFFF, 0x0, 0x0, none⟩,
  ⟨Reg.CLK_REF_LOST_CNT, [], 64, 0x0, .cnt, 0x0, 0x0, 0x0, none⟩,
  ⟨Reg.CLK_XTAL_BAD_WIN, [], 64, 0x0, .cnt, 0x0, 0x0, 0x0, none⟩,
  ⟨Reg.CLK_CNT_CLR, [], 32, 0x0, .wo, 0x3, 0x0, 0x0, none⟩,
  ⟨Reg.CLK_GATE_RUN, [(48, 0x10)], 32, 0xFF, .rw, 0xFF, 0x0, 0x0, none⟩,
  ⟨Reg.CLK_GATE_SLEEP, [(48, 0x10)], 32, 0x0, .rw, 0xFF, 0x0, 0x0, none⟩,
  ⟨Reg.CLK_GATE_DEEP, [(48, 0x10)], 32, 0x1, .rw, 0x1, 0x0, 0x0, none⟩]

/-- Registers of the PWR block. -/
def pwrRegs0 : List RegSpec := [
  ⟨Reg.PWR_DOM_CTRL, [(48, 0x8)], 32, 0x3, .rw, 0xF, 0x0, 0x0, none⟩,
  ⟨Reg.PWR_DOM_STAT, [(48, 0x8)], 32, 0x3, .ro, 0x0, 0x0, 0x0, none⟩,
  ⟨Reg.PWR_DOM_COST_CORE, [(36, 0x8)], 64, 0x818000204, .fb, 0xFFFFFFFFFF, 0x0, 0x0, (some Reg.PWR_DOM_COST_CORE_ACT)⟩,
  ⟨Reg.PWR_DOM_COST_OTHER, [(12, 0x8)], 64, 0x410000102, .fb, 0xFFFFFFFFFF, 0x0, 0x0, (some Reg.PWR_DOM_COST_OTHER_ACT)⟩,
  ⟨Reg.PWR_WAKE_STAT, [(48, 0x8)], 32, 0x0, .ro, 0x0, 0x0, 0x0, none⟩,
  ⟨Reg.PWR_BUDGET0, [], 32, 0x41E0, .fb, 0xFFFFF, 0x0, 0x0, (some Reg.PWR_BUDGET0_ACT)⟩,
  ⟨Reg.PWR_BUDGET1, [], 32, 0x10A0, .fb, 0xFFFFF, 0x0, 0x0, (some Reg.PWR_BUDGET1_ACT)⟩,
  ⟨Reg.PWR_BUDGET2, [], 32, 0x1050, .fb, 0xFFFFF, 0x0, 0x0, (some Reg.PWR_BUDGET2_ACT)⟩,
  ⟨Reg.PWR_BUDGET3, [], 32, 0x103C, .fb, 0xFFFFF, 0x0, 0x0, (some Reg.PWR_BUDGET3_ACT)⟩,
  ⟨Reg.PWR_STATIC, [(4, 0x8)], 32, 0x0, .ro, 0x0, 0x0, 0x0, none⟩,
  ⟨Reg.PWR_ARRAY, [], 32, 0x40A, .fb, 0x3FFF, 0x0, 0x0, (some Reg.PWR_ARRAY_ACT)⟩,
  ⟨Reg.PWR_TEST, [], 32, 0x4, .fb, 0xFF, 0x0, 0x0, none⟩,
  ⟨Reg.PWR_WAKE_CFG, [], 32, 0x64, .rw, 0xFFFF, 0x0, 0x0, none⟩,
  ⟨Reg.PWR_OP, [], 32, 0x4, .fb, 0x7, 0x0, 0x0, (some Reg.PWR_OP_ACT)⟩,
  ⟨Reg.PWR_OP_LIMIT, [], 32, 0x74, .fb, 0x77, 0x0, 0x0, (some Reg.PWR_OP_LIMIT_ACT)⟩,
  ⟨Reg.PWR_SEQ_CFG, [], 32, 0xA, .rw, 0xFF, 0x0, 0x0, none⟩,
  ⟨Reg.PWR_SEQ_STAT, [], 32, 0x4, .ro, 0x0, 0x0, 0x0, none⟩,
  ⟨Reg.PWR_MODE, [], 32, 0x0, .rw, 0x3, 0x0, 0x0, none⟩,
  ⟨Reg.PWR_WAKE_SRC, [], 32, 0x0, .rw, 0x7, 0x0, 0x0, none⟩,
  ⟨Reg.PWR_WAKE_TIME, [], 64, 0x0, .rw, 0xFFFFFFFFFFFF, 0x0, 0x0, none⟩,
  ⟨Reg.PWR_TELEM, [(9, 0x8)], 64, 0x0, .rw, 0xFFFFFFFF, 0x0, 0x0, none⟩,
  ⟨Reg.PWR_WAKE_CNT, [], 64, 0x0, .cnt, 0x0, 0x0, 0x0, none⟩,
  ⟨Reg.PWR_WAKE_SLOW_CNT, [], 64, 0x0, .cnt, 0x0, 0x0, 0x0, none⟩,
  ⟨Reg.PWR_THROTTLE_WIN, [], 64, 0x0, .cnt, 0x0, 0x0, 0x0, none⟩,
  ⟨Reg.PWR_OVER_BUDGET, [], 64, 0x0, .cnt, 0x0, 0x0, 0x0, none⟩]

/-- Registers of the PWR block. -/
def pwrRegs1 : List RegSpec := [
  ⟨Reg.PWR_AVS_ERR_CNT, [], 64, 0x0, .cnt, 0x0, 0x0, 0x0, none⟩,
  ⟨Reg.PWR_OP_CHANGES, [], 64, 0x0, .cnt, 0x0, 0x0, 0x0, none⟩,
  ⟨Reg.PWR_CNT_CLR, [], 32, 0x0, .wo, 0x3F, 0x0, 0x0, none⟩]

/-- Registers of the PWR block, all. -/
def pwrRegs : List RegSpec := pwrRegs0 ++ pwrRegs1

/-- Registers of the TIME block. -/
def timeRegs0 : List RegSpec := [
  ⟨Reg.TIME_NOW_SEC, [], 64, 0x0, .ro, 0x0, 0x0, 0x0, none⟩,
  ⟨Reg.TIME_NOW_NS, [], 32, 0x0, .ro, 0x0, 0x0, 0x0, none⟩,
  ⟨Reg.TIME_NOW_FRAC, [], 32, 0x0, .ro, 0x0, 0x0, 0x0, none⟩,
  ⟨Reg.TIME_RATE, [], 32, 0x0, .rw, 0xFFFFFFFF, 0x0, 0x0, none⟩,
  ⟨Reg.TIME_RATE_ACT, [], 32, 0x0, .ro, 0x0, 0x0, 0x0, none⟩,
  ⟨Reg.TIME_STEP_SEC, [], 64, 0x0, .rw, 0xFFFFFFFFFFFF, 0x0, 0x0, none⟩,
  ⟨Reg.TIME_STEP_NS, [], 32, 0x0, .rw, 0x3FFFFFFF, 0x0, 0x0, none⟩,
  ⟨Reg.TIME_STEP_CMD, [], 32, 0x0, .wo, 0x3, 0x0, 0x0, none⟩,
  ⟨Reg.TIME_STAT, [], 32, 0x0, .ro, 0x0, 0x2, 0x0, none⟩,
  ⟨Reg.FRAME_TIMER_PERIOD, [], 32, 0x2FAF080, .fb, 0x1FFFFFFF, 0x0, 0x0, (some Reg.FRAME_TIMER_PERIOD_ACT)⟩,
  ⟨Reg.FRAME_TIMER_START_SEC, [], 64, 0x0, .rw, 0xFFFFFFFFFFFF, 0x0, 0x0, none⟩,
  ⟨Reg.FRAME_TIMER_START_NS, [], 32, 0x0, .rw, 0x3FFFFFFF, 0x0, 0x0, none⟩,
  ⟨Reg.TIME_SERVO_STAT, [], 64, 0x0, .ro, 0x0, 0x0, 0x0, none⟩,
  ⟨Reg.TOUT_CFG, [(4, 0x40)], 32, 0x0, .rw, 0xFFFFFF1F, 0x0, 0x0, none⟩,
  ⟨Reg.TOUT_TIME_SEC, [(4, 0x40)], 64, 0x0, .rw, 0xFFFFFFFFFFFF, 0x0, 0x0, none⟩,
  ⟨Reg.TOUT_TIME_NS, [(4, 0x40)], 32, 0x0, .rw, 0x3FFFFFFF, 0x0, 0x0, none⟩,
  ⟨Reg.TOUT_PERIOD_NS, [(4, 0x40)], 32, 0x0, .rw, 0xFFFFFFFF, 0x0, 0x0, none⟩,
  ⟨Reg.TOUT_PHASE, [(4, 0x40)], 32, 0x0, .fb, 0x3FFFFFFF, 0x0, 0x0, (some Reg.TOUT_PHASE_ACT)⟩,
  ⟨Reg.TIN_CFG, [(2, 0x40)], 32, 0x0, .rw, 0x3, 0x0, 0x0, none⟩,
  ⟨Reg.TIN_CAP_SEC, [(2, 0x40)], 64, 0x0, .ro, 0x0, 0x0, 0x0, none⟩,
  ⟨Reg.TIN_CAP_NS, [(2, 0x40)], 32, 0x0, .ro, 0x0, 0x0, 0x0, none⟩,
  ⟨Reg.TIN_STAT, [(2, 0x40)], 32, 0x0, .ro, 0x0, 0x0, 0x0, none⟩,
  ⟨Reg.TIME_STEP_REFUSED, [], 64, 0x0, .cnt, 0x0, 0x0, 0x0, none⟩,
  ⟨Reg.TOUT_MISS, [(4, 0x8)], 64, 0x0, .cnt, 0x0, 0x0, 0x0, none⟩,
  ⟨Reg.TIN_OVF, [(2, 0x8)], 64, 0x0, .cnt, 0x0, 0x0, 0x0, none⟩]

/-- Registers of the TIME block. -/
def timeRegs1 : List RegSpec := [
  ⟨Reg.TIME_CNT_CLR, [], 32, 0x0, .wo, 0x7F, 0x0, 0x0, none⟩]

/-- Registers of the TIME block, all. -/
def timeRegs : List RegSpec := timeRegs0 ++ timeRegs1

/-- Registers of the ETH block. -/
def ethRegs0 : List RegSpec := [
  ⟨Reg.ETH_CFG, [(8, 0x10000)], 32, 0x0, .rw, 0xFFFFF, 0x0, 0x0, none⟩,
  ⟨Reg.ETH_STAT, [(8, 0x10000)], 32, 0x0, .ro, 0x0, 0x0, 0x0, none⟩,
  ⟨Reg.ETH_IPV4, [(8, 0x10000)], 32, 0x0, .rw, 0xFFFFFFFF, 0x0, 0x0, none⟩,
  ⟨Reg.ETH_MAC, [(8, 0x10000)], 64, 0x0, .rw, 0xFFFFFFFFFFFF, 0x0, 0x0, none⟩,
  ⟨Reg.ETH_TS_LAT, [(8, 0x10000)], 32, 0x0, .rw, 0xFFFFFFFF, 0x0, 0x0, none⟩,
  ⟨Reg.ETH_RING_BASE, [(8, 0x10000), (4, 0x20)], 64, 0x0, .rw, 0xFFFFFFFFFF, 0x0, 0x0, none⟩,
  ⟨Reg.ETH_RING_CFG, [(8, 0x10000), (4, 0x20)], 32, 0x0, .rw, 0x80001FFF, 0x0, 0x0, none⟩,
  ⟨Reg.ETH_RING_HEAD, [(8, 0x10000), (4, 0x20)], 32, 0x0, .ro, 0x0, 0x0, 0x0, none⟩,
  ⟨Reg.ETH_RING_TAIL, [(8, 0x10000), (4, 0x20)], 32, 0x0, .rw, 0xFFF, 0x0, 0x0, none⟩,
  ⟨Reg.RX_FRAMES_CNT, [(8, 0x10000)], 64, 0x0, .cnt, 0x0, 0x0, 0x0, none⟩,
  ⟨Reg.RX_FCS_DROP, [(8, 0x10000)], 64, 0x0, .cnt, 0x0, 0x0, 0x0, none⟩,
  ⟨Reg.RX_LEN_DROP, [(8, 0x10000)], 64, 0x0, .cnt, 0x0, 0x0, 0x0, none⟩,
  ⟨Reg.RX_CTRL_DROP, [(8, 0x10000)], 64, 0x0, .cnt, 0x0, 0x0, 0x0, none⟩,
  ⟨Reg.RX_VLAN_DROP, [(8, 0x10000)], 64, 0x0, .cnt, 0x0, 0x0, 0x0, none⟩,
  ⟨Reg.RX_BUF_DROP, [(8, 0x10000)], 64, 0x0, .cnt, 0x0, 0x0, 0x0, none⟩,
  ⟨Reg.RX_IP_DROP, [(8, 0x10000)], 64, 0x0, .cnt, 0x0, 0x0, 0x0, none⟩,
  ⟨Reg.RX_UNCLASS_DROP, [(8, 0x10000)], 64, 0x0, .cnt, 0x0, 0x0, 0x0, none⟩,
  ⟨Reg.RX_RING_FULL, [(8, 0x10000)], 64, 0x0, .cnt, 0x0, 0x0, 0x0, none⟩,
  ⟨Reg.RX_TRUNC_DROP, [(8, 0x10000)], 64, 0x0, .cnt, 0x0, 0x0, 0x0, none⟩,
  ⟨Reg.TX_FRAMES_CNT, [(8, 0x10000)], 64, 0x0, .cnt, 0x0, 0x0, 0x0, none⟩,
  ⟨Reg.TX_LINK_DROP, [(8, 0x10000)], 64, 0x0, .cnt, 0x0, 0x0, 0x0, none⟩,
  ⟨Reg.ETH_CNT_CLR, [(8, 0x10000)], 32, 0x0, .wo, 0xFFF, 0x0, 0x0, none⟩,
  ⟨Reg.PUB_QUEUE_BASE, [], 64, 0x0, .fb, 0xFFFFFFFFFF, 0x0, 0x0, none⟩,
  ⟨Reg.PUB_QUEUE_LINES, [], 32, 0x0, .fb, 0x1FFFFF, 0x0, 0x0, none⟩,
  ⟨Reg.PUB_DEST_LO, [(4, 0x20)], 64, 0x0, .rw, 0xFFFFFFFFFFFFFFFF, 0x0, 0x0, none⟩]

/-- Registers of the ETH block. -/
def ethRegs1 : List RegSpec := [
  ⟨Reg.PUB_DEST_HI, [(4, 0x20)], 64, 0x0, .rw, 0xFFFFFFFFFFFFFF, 0x0, 0x0, none⟩,
  ⟨Reg.PUB_TRUNC_CNT, [], 64, 0x0, .cnt, 0x0, 0x0, 0x0, none⟩,
  ⟨Reg.PUB_POISON_DROP, [], 64, 0x0, .cnt, 0x0, 0x0, 0x0, none⟩,
  ⟨Reg.PUB_LINK_DROP, [], 64, 0x0, .cnt, 0x0, 0x0, 0x0, none⟩]

/-- Registers of the ETH block, all. -/
def ethRegs : List RegSpec := ethRegs0 ++ ethRegs1

/-- Registers of the HEAD block. -/
def headRegs : List RegSpec := [
  ⟨Reg.HEAD_SLOT_CFG, [(16, 0x100)], 32, 0x0, .fb, 0x1FFFFF, 0x0, 0x0, (some Reg.HEAD_SLOT_CFG_ACT)⟩,
  ⟨Reg.HEAD_SLOT_ADDR, [(16, 0x100)], 64, 0x0, .fb, 0xFFFFFFFFFFFF, 0x0, 0x0, none⟩,
  ⟨Reg.HEAD_SLOT_SYNC, [(16, 0x100)], 32, 0x0, .fb, 0x3FFFFFFF, 0x0, 0x0, none⟩,
  ⟨Reg.HEAD_SLOT_STAT, [(16, 0x100)], 64, 0x0, .ro, 0x0, 0x0, 0x0, none⟩,
  ⟨Reg.BLK_ACCEPT_CNT, [(16, 0x100)], 64, 0x0, .cnt, 0x0, 0x0, 0x0, none⟩,
  ⟨Reg.BLK_FORMAT_DROP, [(16, 0x100)], 64, 0x0, .cnt, 0x0, 0x0, 0x0, none⟩,
  ⟨Reg.BLK_CRC_DROP, [(16, 0x100)], 64, 0x0, .cnt, 0x0, 0x0, 0x0, none⟩,
  ⟨Reg.BLK_UNAUTH_DROP, [(16, 0x100)], 64, 0x0, .cnt, 0x0, 0x0, 0x0, none⟩,
  ⟨Reg.BLK_STALE_DROP, [(16, 0x100)], 64, 0x0, .cnt, 0x0, 0x0, 0x0, none⟩,
  ⟨Reg.BLK_SEQ_GAP, [(16, 0x100)], 64, 0x0, .cnt, 0x0, 0x0, 0x0, none⟩,
  ⟨Reg.BLK_UNCHECKED, [(16, 0x100)], 64, 0x0, .cnt, 0x0, 0x0, 0x0, none⟩,
  ⟨Reg.REC_CHAN_DROP, [(16, 0x100)], 64, 0x0, .cnt, 0x0, 0x0, 0x0, none⟩,
  ⟨Reg.HEAD_CTL_DROP, [(16, 0x100)], 64, 0x0, .cnt, 0x0, 0x0, 0x0, none⟩,
  ⟨Reg.HEAD_ONTIME, [(16, 0x100)], 64, 0x0, .cnt, 0x0, 0x0, 0x0, none⟩,
  ⟨Reg.HEAD_CNT_CLR, [(16, 0x100)], 32, 0x0, .wo, 0x1FF, 0x0, 0x0, none⟩,
  ⟨Reg.HEAD_LIFE_CFG, [], 32, 0x2, .rw, 0xFF, 0x0, 0x0, none⟩,
  ⟨Reg.HEAD_FRAME_FLAGS, [], 64, 0x0, .ro, 0x0, 0x0, 0x0, none⟩,
  ⟨Reg.PARSE_HDR, [(8, 0x100), (4, 0x8)], 64, 0x0, .rw, 0xFFFFFFFFFFFFFFFF, 0x0, 0x0, none⟩,
  ⟨Reg.PARSE_DESC, [(8, 0x100), (16, 0x8)], 64, 0x0, .rw, 0xFFFFFFFFFFFFFFFF, 0x0, 0x0, none⟩]

/-- Registers of the GRID block. -/
def gridRegs0 : List RegSpec := [
  ⟨Reg.GRID_CFG, [], 32, 0x7, .fb, 0x7, 0x0, 0x0, (some Reg.GRID_CFG_ACT)⟩,
  ⟨Reg.GRID_VOXEL, [], 32, 0x64064, .fb, 0xFFFFFF, 0x0, 0x0, (some Reg.GRID_VOXEL_ACT)⟩,
  ⟨Reg.GRID_ORIGIN, [], 64, 0x4E00027000138000, .fb, 0x7FFFFFFFFFFFFFFF, 0x0, 0x0, (some Reg.GRID_ORIGIN_ACT)⟩,
  ⟨Reg.GRID_HWM, [], 32, 0xE0000, .fb, 0x1FFFFF, 0x0, 0x0, (some Reg.GRID_HWM_ACT)⟩,
  ⟨Reg.GRID_NEAR, [], 32, 0x9C40, .fb, 0xFFFFF, 0x0, 0x0, (some Reg.GRID_NEAR_ACT)⟩,
  ⟨Reg.GRID_HASH_SEED, [], 32, 0xFFFFFFFF, .fb, 0xFFFFFFFF, 0x0, 0x0, (some Reg.GRID_HASH_SEED_ACT)⟩,
  ⟨Reg.GRID_STAT, [], 32, 0x0, .ro, 0x0, 0x0, 0x0, none⟩,
  ⟨Reg.GRID_LAT_MAX, [], 32, 0x0, .rc, 0x0, 0x0, 0x0, none⟩,
  ⟨Reg.GRID_POINT_CNT, [], 64, 0x0, .cnt, 0x0, 0x0, 0x0, none⟩,
  ⟨Reg.GRID_NEW_CNT, [], 64, 0x0, .cnt, 0x0, 0x0, 0x0, none⟩,
  ⟨Reg.GRID_SUPERSEDE, [], 64, 0x0, .cnt, 0x0, 0x0, 0x0, none⟩,
  ⟨Reg.GRID_DROP_RANGE, [], 64, 0x0, .cnt, 0x0, 0x0, 0x0, none⟩,
  ⟨Reg.GRID_DROP_FULL, [], 64, 0x0, .cnt, 0x0, 0x0, 0x0, none⟩,
  ⟨Reg.GRID_DROP_FAR, [], 64, 0x0, .cnt, 0x0, 0x0, 0x0, none⟩,
  ⟨Reg.GRID_DROP_BUCKET, [], 64, 0x0, .cnt, 0x0, 0x0, 0x0, none⟩,
  ⟨Reg.GRID_DROP_LEVEL, [], 64, 0x0, .cnt, 0x0, 0x0, 0x0, none⟩,
  ⟨Reg.GRID_OFF_DROP, [], 64, 0x0, .cnt, 0x0, 0x0, 0x0, none⟩,
  ⟨Reg.GRID_E2E_FAIL, [], 64, 0x0, .cnt, 0x0, 0x0, 0x0, none⟩,
  ⟨Reg.GRID_LAT_OVER, [], 64, 0x0, .cnt, 0x0, 0x0, 0x0, none⟩,
  ⟨Reg.GRID_CNT_CLR, [], 32, 0x0, .wo, 0x7FF, 0x0, 0x0, none⟩,
  ⟨Reg.GRID_ELEV, [(16, 0x800), (256, 0x8)], 64, 0x0, .rw, 0xFFFFFFFFFFFFFFFF, 0x0, 0x0, none⟩,
  ⟨Reg.RB_JOB, [(256, 0x20), (4, 0x8)], 64, 0x0, .rw, 0xFFFFFFFFFFFFFFFF, 0x0, 0x0, none⟩,
  ⟨Reg.RB_OFFSET, [(8, 0x100), (64, 0x4)], 32, 0x0, .rw, 0xFFFFFFFF, 0x0, 0x0, none⟩,
  ⟨Reg.RB_OFFSET_N, [(8, 0x4)], 32, 0x0, .rw, 0xFF, 0x0, 0x0, none⟩,
  ⟨Reg.RB_LIST, [(8, 0x8)], 32, 0x0, .fb, 0x3FFFF, 0x0, 0x0, (some Reg.RB_LIST_ACT)⟩]

/-- Registers of the GRID block. -/
def gridRegs1 : List RegSpec := [
  ⟨Reg.RB_STAT, [], 32, 0x0, .ro, 0x0, 0x0, 0x0, none⟩,
  ⟨Reg.RB_PROBE_CNT, [], 64, 0x0, .cnt, 0x0, 0x0, 0x0, none⟩,
  ⟨Reg.RB_MATCH_CNT, [], 64, 0x0, .cnt, 0x0, 0x0, 0x0, none⟩,
  ⟨Reg.RB_TILE_CNT, [], 64, 0x0, .cnt, 0x0, 0x0, 0x0, none⟩,
  ⟨Reg.RB_OVERFLOW_CNT, [], 64, 0x0, .cnt, 0x0, 0x0, 0x0, none⟩,
  ⟨Reg.RB_FAULT_CNT, [], 64, 0x0, .cnt, 0x0, 0x0, 0x0, none⟩,
  ⟨Reg.RB_E2E_FAIL, [], 64, 0x0, .cnt, 0x0, 0x0, 0x0, none⟩,
  ⟨Reg.RB_LEVEL_MISSING, [], 64, 0x0, .cnt, 0x0, 0x0, 0x0, none⟩,
  ⟨Reg.RB_CREDIT_WAIT, [], 64, 0x0, .cnt, 0x0, 0x0, 0x0, none⟩,
  ⟨Reg.RB_UNFINISHED, [], 64, 0x0, .cnt, 0x0, 0x0, 0x0, none⟩,
  ⟨Reg.RB_CNT_CLR, [], 32, 0x0, .wo, 0x1FF, 0x0, 0x0, none⟩]

/-- Registers of the GRID block, all. -/
def gridRegs : List RegSpec := gridRegs0 ++ gridRegs1

/-- Registers of the CAL block. -/
def calRegs0 : List RegSpec := [
  ⟨Reg.CAL_ROT0, [(16, 0x100)], 32, 0x400000, .fb, 0xFFFFFF, 0x0, 0x0, (some Reg.CAL_ROT0_ACT)⟩,
  ⟨Reg.CAL_ROT1, [(16, 0x100)], 32, 0x0, .fb, 0xFFFFFF, 0x0, 0x0, (some Reg.CAL_ROT1_ACT)⟩,
  ⟨Reg.CAL_ROT2, [(16, 0x100)], 32, 0x0, .fb, 0xFFFFFF, 0x0, 0x0, (some Reg.CAL_ROT2_ACT)⟩,
  ⟨Reg.CAL_ROT3, [(16, 0x100)], 32, 0x0, .fb, 0xFFFFFF, 0x0, 0x0, (some Reg.CAL_ROT3_ACT)⟩,
  ⟨Reg.CAL_ROT4, [(16, 0x100)], 32, 0x400000, .fb, 0xFFFFFF, 0x0, 0x0, (some Reg.CAL_ROT4_ACT)⟩,
  ⟨Reg.CAL_ROT5, [(16, 0x100)], 32, 0x0, .fb, 0xFFFFFF, 0x0, 0x0, (some Reg.CAL_ROT5_ACT)⟩,
  ⟨Reg.CAL_ROT6, [(16, 0x100)], 32, 0x0, .fb, 0xFFFFFF, 0x0, 0x0, (some Reg.CAL_ROT6_ACT)⟩,
  ⟨Reg.CAL_ROT7, [(16, 0x100)], 32, 0x0, .fb, 0xFFFFFF, 0x0, 0x0, (some Reg.CAL_ROT7_ACT)⟩,
  ⟨Reg.CAL_ROT8, [(16, 0x100)], 32, 0x400000, .fb, 0xFFFFFF, 0x0, 0x0, (some Reg.CAL_ROT8_ACT)⟩,
  ⟨Reg.CAL_TRANS, [(16, 0x100), (3, 0x4)], 32, 0x0, .fb, 0xFFFFFF, 0x0, 0x0, (some Reg.CAL_TRANS_ACT)⟩,
  ⟨Reg.CAL_RB_GAIN, [(16, 0x100)], 32, 0x1000000, .fb, 0xFFFFFFFF, 0x0, 0x0, (some Reg.CAL_RB_GAIN_ACT)⟩,
  ⟨Reg.CAL_SLOT_CFG, [(16, 0x100)], 32, 0x18, .rw, 0x1F, 0x0, 0x0, none⟩,
  ⟨Reg.CAL_SLOT_STAT, [(16, 0x100)], 64, 0x0, .ro, 0x0, 0x0, 0x0, none⟩,
  ⟨Reg.CAL_LAST_STEP, [(16, 0x100)], 64, 0x0, .ro, 0x0, 0x0, 0x0, none⟩,
  ⟨Reg.CAL_CTRL, [], 32, 0x1, .rw, 0x3, 0x0, 0x0, none⟩,
  ⟨Reg.CAL_CFG, [], 32, 0x32081000, .fb, 0xFFFF7FFF, 0x0, 0x0, (some Reg.CAL_CFG_ACT)⟩,
  ⟨Reg.CAL_GATE, [], 32, 0x191405, .rw, 0xFFFFFF, 0x0, 0x0, none⟩,
  ⟨Reg.CAL_STAT, [], 32, 0x0, .ro, 0x0, 0x0, 0x0, none⟩,
  ⟨Reg.CAL_CAND_CNT, [], 64, 0x0, .cnt, 0x0, 0x0, 0x0, none⟩,
  ⟨Reg.CAL_CAND_SKIP, [], 64, 0x0, .cnt, 0x0, 0x0, 0x0, none⟩,
  ⟨Reg.CAL_SAMPLE_CNT, [], 64, 0x0, .cnt, 0x0, 0x0, 0x0, none⟩,
  ⟨Reg.CAL_REJECT_PLANE, [], 64, 0x0, .cnt, 0x0, 0x0, 0x0, none⟩,
  ⟨Reg.CAL_REJECT_RESID, [], 64, 0x0, .cnt, 0x0, 0x0, 0x0, none⟩,
  ⟨Reg.CAL_UNFINISHED, [], 64, 0x0, .cnt, 0x0, 0x0, 0x0, none⟩,
  ⟨Reg.CAL_E2E_FAIL, [], 64, 0x0, .cnt, 0x0, 0x0, 0x0, none⟩]

/-- Registers of the CAL block. -/
def calRegs1 : List RegSpec := [
  ⟨Reg.CAL_DEGENERATE_CNT, [], 64, 0x0, .cnt, 0x0, 0x0, 0x0, none⟩,
  ⟨Reg.CAL_GATE_FAIL, [], 64, 0x0, .cnt, 0x0, 0x0, 0x0, none⟩,
  ⟨Reg.CAL_CLAMP_CNT, [], 64, 0x0, .cnt, 0x0, 0x0, 0x0, none⟩,
  ⟨Reg.CAL_ACCEPT_CNT, [], 64, 0x0, .cnt, 0x0, 0x0, 0x0, none⟩,
  ⟨Reg.CAL_PREEMPT_CNT, [], 64, 0x0, .cnt, 0x0, 0x0, 0x0, none⟩,
  ⟨Reg.CAL_CNT_CLR, [], 32, 0x0, .wo, 0xFFF, 0x0, 0x0, none⟩]

/-- Registers of the CAL block, all. -/
def calRegs : List RegSpec := calRegs0 ++ calRegs1

/-- Registers of the MAP block. -/
def mapRegs : List RegSpec := [
  ⟨Reg.MAP_DIR0, [(32, 0x10)], 64, 0x0, .fb, 0xFFFFFFFFFFFFFFF, 0x0, 0x0, (some Reg.MAP_DIR0_ACT)⟩,
  ⟨Reg.MAP_DIR1, [(32, 0x10)], 64, 0x0, .fb, 0x3FFFFF1FFFFFFF, 0x0, 0x0, (some Reg.MAP_DIR1_ACT)⟩,
  ⟨Reg.MAP_UPD_BASE, [], 64, 0x0, .rw, 0xFFFFFFFFFF, 0x0, 0x0, none⟩,
  ⟨Reg.MAP_UPD_CFG, [], 32, 0x0, .rw, 0x8001FFFF, 0x0, 0x0, none⟩,
  ⟨Reg.MAP_UPD_TAIL, [], 32, 0x0, .rw, 0xFFFF, 0x0, 0x0, none⟩,
  ⟨Reg.MAP_UPD_HEAD, [], 32, 0x0, .ro, 0x0, 0x0, 0x0, none⟩,
  ⟨Reg.MAP_SEL_MIRROR, [], 64, 0x0, .rw, 0xFFFFFFFFFF, 0x0, 0x0, none⟩,
  ⟨Reg.MAP_STAT, [], 32, 0x0, .ro, 0x0, 0x0, 0x0, none⟩,
  ⟨Reg.MAP_PREV_BUSY, [], 32, 0x0, .ro, 0x0, 0x0, 0x0, none⟩,
  ⟨Reg.MAP_GATHER_CNT, [], 64, 0x0, .cnt, 0x0, 0x0, 0x0, none⟩,
  ⟨Reg.MAP_INDEX_CNT, [], 64, 0x0, .cnt, 0x0, 0x0, 0x0, none⟩,
  ⟨Reg.MAP_FETCH_CNT, [], 64, 0x0, .cnt, 0x0, 0x0, 0x0, none⟩,
  ⟨Reg.MAP_COALESCE_CNT, [], 64, 0x0, .cnt, 0x0, 0x0, 0x0, none⟩,
  ⟨Reg.MAP_NULL_CNT, [], 64, 0x0, .cnt, 0x0, 0x0, 0x0, none⟩,
  ⟨Reg.MAP_IDX_DROP, [], 64, 0x0, .cnt, 0x0, 0x0, 0x0, none⟩,
  ⟨Reg.MAP_EMPTY_CRATE, [], 64, 0x0, .cnt, 0x0, 0x0, 0x0, none⟩,
  ⟨Reg.MAP_POISON_ROWS, [], 64, 0x0, .cnt, 0x0, 0x0, 0x0, none⟩,
  ⟨Reg.MAP_UPD_CNT, [], 64, 0x0, .cnt, 0x0, 0x0, 0x0, none⟩,
  ⟨Reg.MAP_UPD_BAD, [], 64, 0x0, .cnt, 0x0, 0x0, 0x0, none⟩,
  ⟨Reg.MAP_UPD_POISON, [], 64, 0x0, .cnt, 0x0, 0x0, 0x0, none⟩,
  ⟨Reg.MAP_UPD_WAIT, [], 64, 0x0, .cnt, 0x0, 0x0, 0x0, none⟩,
  ⟨Reg.MAP_CNT_CLR, [], 32, 0x0, .wo, 0xFFF, 0x0, 0x0, none⟩]

/-- Registers of the SMU block. -/
def smuRegs : List RegSpec := [
  ⟨Reg.SMU_STAT, [], 32, 0x0, .ro, 0x0, 0x0, 0x0, none⟩,
  ⟨Reg.SMU_TOPK_ROWS, [], 64, 0x0, .cnt, 0x0, 0x0, 0x0, none⟩,
  ⟨Reg.SMU_MERGE_CNT, [], 64, 0x0, .cnt, 0x0, 0x0, 0x0, none⟩,
  ⟨Reg.SMU_EXTRA_PASS, [], 64, 0x0, .cnt, 0x0, 0x0, 0x0, none⟩,
  ⟨Reg.SMU_NAN_CNT, [], 64, 0x0, .cnt, 0x0, 0x0, 0x0, none⟩,
  ⟨Reg.SMU_DUP_CNT, [], 64, 0x0, .cnt, 0x0, 0x0, 0x0, none⟩,
  ⟨Reg.SMU_SUM_FLAG, [], 64, 0x0, .cnt, 0x0, 0x0, 0x0, none⟩,
  ⟨Reg.SMU_POISON_CNT, [], 64, 0x0, .cnt, 0x0, 0x0, 0x0, none⟩,
  ⟨Reg.SMU_INPUT_FAIL, [], 64, 0x0, .cnt, 0x0, 0x0, 0x0, none⟩,
  ⟨Reg.SMU_CNT_CLR, [], 32, 0x0, .wo, 0xFF, 0x0, 0x0, none⟩]

/-- Registers of the MEM block. -/
def memRegs : List RegSpec := [
  ⟨Reg.MEM_CFG, [], 32, 0x0, .rw, 0x7F, 0x0, 0x0, none⟩,
  ⟨Reg.MEM_CTRL, [], 32, 0x0, .wo, 0x3, 0x0, 0x0, none⟩,
  ⟨Reg.MEM_STAT, [], 32, 0x0, .ro, 0x0, 0x0, 0x0, none⟩,
  ⟨Reg.MEM_FILL_BASE, [], 64, 0x0, .rw, 0xFFFFFFFFFF, 0x0, 0x0, none⟩,
  ⟨Reg.MEM_FILL_LINES, [], 32, 0x0, .rw, 0x3FFFFFFF, 0x0, 0x0, none⟩,
  ⟨Reg.MEM_SCRUB_CFG, [], 32, 0x31, .rw, 0x1FFF, 0x0, 0x0, none⟩,
  ⟨Reg.MEM_ERR_LOG, [], 64, 0x0, .ro, 0x0, 0x8000000000000000, 0x0, none⟩,
  ⟨Reg.CELLAR, [(8, 0x10)], 64, 0x0, .fb, 0xFFFFFFFFFF, 0x0, 0x0, (some Reg.CELLAR_ACT)⟩,
  ⟨Reg.CELLAR_LINES, [(8, 0x10)], 32, 0x0, .fb, 0x3FFFFFFF, 0x0, 0x0, (some Reg.CELLAR_LINES_ACT)⟩,
  ⟨Reg.CELLAR_CFG, [], 32, 0x0, .rw, 0x1, 0x0, 0x0, none⟩,
  ⟨Reg.MEM_CE_CNT, [], 64, 0x0, .cnt, 0x0, 0x0, 0x0, none⟩,
  ⟨Reg.MEM_UE_CNT, [], 64, 0x0, .cnt, 0x0, 0x0, 0x0, none⟩,
  ⟨Reg.MEM_LINK_CE, [], 64, 0x0, .cnt, 0x0, 0x0, 0x0, none⟩,
  ⟨Reg.MEM_LINK_RETRY, [], 64, 0x0, .cnt, 0x0, 0x0, 0x0, none⟩,
  ⟨Reg.MEM_E2E_FAIL, [], 64, 0x0, .cnt, 0x0, 0x0, 0x0, none⟩,
  ⟨Reg.MEM_SCRUB_LINES, [], 64, 0x0, .cnt, 0x0, 0x0, 0x0, none⟩,
  ⟨Reg.E2E_EXIT_FAIL, [], 64, 0x0, .cnt, 0x0, 0x0, 0x0, none⟩,
  ⟨Reg.CELLAR_RING_DROP, [], 64, 0x0, .cnt, 0x0, 0x0, 0x0, none⟩,
  ⟨Reg.MEM_CNT_CLR, [], 32, 0x0, .wo, 0xFF, 0x0, 0x0, none⟩,
  ⟨Reg.CELLAR_RING, [(8, 0x100), (16, 0x10)], 64, 0x0, .fb, 0xFFFFFFFFFFFFFF, 0x0, 0x0, (some Reg.CELLAR_RING_ACT)⟩,
  ⟨Reg.CELLAR_RING_PROD, [(8, 0x100), (16, 0x10)], 32, 0x0, .ro, 0x0, 0x0, 0x0, none⟩,
  ⟨Reg.CELLAR_RING_CONS, [(8, 0x100), (16, 0x10)], 32, 0x0, .rw, 0xFFFFFFFF, 0x0, 0x0, none⟩]

/-- Registers of the HOSTQ block. -/
def hostqRegs0 : List RegSpec := [
  ⟨Reg.HQ_CFG, [(64, 0x40)], 32, 0x0, .rw, 0x8003FFFF, 0x0, 0x0, none⟩,
  ⟨Reg.HQ_SQ_BASE, [(64, 0x40)], 64, 0x0, .rw, 0xFFFFFFFFFFFFFFFF, 0x0, 0x0, none⟩,
  ⟨Reg.HQ_CQ_BASE, [(64, 0x40)], 64, 0x0, .rw, 0xFFFFFFFFFFFFFFFF, 0x0, 0x0, none⟩,
  ⟨Reg.HQ_SQ_TAIL, [(64, 0x40)], 32, 0x0, .rw, 0xFFF, 0x0, 0x0, none⟩,
  ⟨Reg.HQ_SQ_HEAD, [(64, 0x40)], 32, 0x0, .ro, 0x0, 0x0, 0x0, none⟩,
  ⟨Reg.HQ_CQ_HEAD, [(64, 0x40)], 32, 0x0, .rw, 0xFFF, 0x0, 0x0, none⟩,
  ⟨Reg.HQ_CQ_TAIL, [(64, 0x40)], 32, 0x0, .ro, 0x0, 0x0, 0x0, none⟩,
  ⟨Reg.HQ_STAT, [(64, 0x40)], 32, 0x0, .ro, 0x0, 0x0, 0x0, none⟩,
  ⟨Reg.HQ_FUNC_WIN, [(8, 0x10)], 64, 0x0, .rw, 0xFFFFFFFFFFFFFFFF, 0x0, 0x0, none⟩,
  ⟨Reg.HQ_BAR2_WIN, [], 32, 0x0, .rw, 0x3F, 0x0, 0x0, none⟩,
  ⟨Reg.HQ_TRUNK_ABORT, [], 32, 0x0, .wo, 0x107, 0x0, 0x0, none⟩,
  ⟨Reg.MBOX, [(9, 0x100), (16, 0x4)], 32, 0x0, .rw, 0xFFFFFFFF, 0x0, 0x0, none⟩,
  ⟨Reg.MBOX_CTRL, [(9, 0x100)], 32, 0x0, .ro, 0x0, 0x0, 0x1, none⟩,
  ⟨Reg.MBOX_STAT, [(9, 0x100)], 32, 0x0, .ro, 0x0, 0x2, 0x0, none⟩,
  ⟨Reg.HQ_DESC_CNT, [], 64, 0x0, .cnt, 0x0, 0x0, 0x0, none⟩,
  ⟨Reg.HQ_TAG_FAIL, [], 64, 0x0, .cnt, 0x0, 0x0, 0x0, none⟩,
  ⟨Reg.HQ_ABORT_IGN, [], 64, 0x0, .cnt, 0x0, 0x0, 0x0, none⟩,
  ⟨Reg.HRING_DROP, [], 64, 0x0, .cnt, 0x0, 0x0, 0x0, none⟩,
  ⟨Reg.HRING_HDR_DROP, [], 64, 0x0, .cnt, 0x0, 0x0, 0x0, none⟩,
  ⟨Reg.HQ_CNT_CLR, [], 32, 0x0, .wo, 0x1F, 0x0, 0x0, none⟩,
  ⟨Reg.HRING, [(8, 0x400), (16, 0x40)], 64, 0x0, .fb, 0xFFFFFFFFFFFFFFFF, 0x0, 0x0, none⟩,
  ⟨Reg.HRING_HDR, [(8, 0x400), (16, 0x40)], 64, 0x0, .fb, 0xFFFFFFFFFFFFFFFF, 0x0, 0x0, none⟩,
  ⟨Reg.HRING_HDR_CFG, [(8, 0x400), (16, 0x40)], 32, 0x0, .fb, 0x80001FFF, 0x0, 0x0, none⟩,
  ⟨Reg.HRING_PROD, [(8, 0x400), (16, 0x40)], 32, 0x0, .ro, 0x0, 0x0, 0x0, none⟩,
  ⟨Reg.HRING_CONS, [(8, 0x400), (16, 0x40)], 32, 0x0, .rw, 0xFFFFFFFF, 0x0, 0x0, none⟩]

/-- Registers of the HOSTQ block. -/
def hostqRegs1 : List RegSpec := [
  ⟨Reg.HRING_HDR_CONS, [(8, 0x400), (16, 0x40)], 32, 0x0, .rw, 0xFFFFFFFF, 0x0, 0x0, none⟩]

/-- Registers of the HOSTQ block, all. -/
def hostqRegs : List RegSpec := hostqRegs0 ++ hostqRegs1

/-- Registers of the LINK block. -/
def linkRegs : List RegSpec := [
  ⟨Reg.LXL_CTRL, [(4, 0x10000)], 32, 0x0, .rw, 0x1, 0x0, 0x2, none⟩,
  ⟨Reg.LXL_STAT, [(4, 0x10000)], 32, 0x0, .ro, 0x0, 0x0, 0x0, none⟩,
  ⟨Reg.LXL_TX_FLITS, [(4, 0x10000)], 64, 0x0, .cnt, 0x0, 0x0, 0x0, none⟩,
  ⟨Reg.LXL_RX_FLITS, [(4, 0x10000)], 64, 0x0, .cnt, 0x0, 0x0, 0x0, none⟩,
  ⟨Reg.LXL_CRC_ERR, [(4, 0x10000)], 64, 0x0, .cnt, 0x0, 0x0, 0x0, none⟩,
  ⟨Reg.LXL_REPLAY, [(4, 0x10000)], 64, 0x0, .cnt, 0x0, 0x0, 0x0, none⟩,
  ⟨Reg.LXL_DOWN_CNT, [(4, 0x10000)], 64, 0x0, .cnt, 0x0, 0x0, 0x0, none⟩,
  ⟨Reg.LXL_CNT_CLR, [(4, 0x10000)], 32, 0x0, .wo, 0x1F, 0x0, 0x0, none⟩,
  ⟨Reg.LINK_TOPO, [], 32, 0x0, .rw, 0xFFFFFFFF, 0x0, 0x0, none⟩,
  ⟨Reg.LINK_FENCE_FWD, [], 32, 0x0, .rw, 0xF, 0x0, 0x0, none⟩,
  ⟨Reg.LINK_ROUTE_DROP, [], 64, 0x0, .cnt, 0x0, 0x0, 0x0, none⟩,
  ⟨Reg.LINK_COMMIT_LOST, [], 64, 0x0, .cnt, 0x0, 0x0, 0x0, none⟩]

/-- Registers of the TEST block. -/
def testRegs : List RegSpec := [
  ⟨Reg.ROT_CFG, [], 32, 0x10, .fb, 0xFFFFFFFF, 0x0, 0x0, (some Reg.ROT_CFG_ACT)⟩,
  ⟨Reg.ROT_STAT, [], 32, 0x8C0, .ro, 0x0, 0x0, 0x0, none⟩,
  ⟨Reg.TEST_REF, [(8, 0x4)], 32, 0x0, .rw, 0xFFFFFFFF, 0x0, 0x0, none⟩,
  ⟨Reg.TEST_RESULT, [(36, 0x8)], 64, 0x0, .ro, 0x0, 0x0, 0x0, none⟩,
  ⟨Reg.ROT_SLICE, [(36, 0x4)], 32, 0x0, .ro, 0x0, 0x0, 0x0, none⟩,
  ⟨Reg.FENCE_CFG, [], 32, 0x3, .rw, 0xF, 0x0, 0x0, none⟩,
  ⟨Reg.FENCE_REQ, [], 64, 0x0, .ro, 0x0, 0x0, 0xFFFFFFFFF, none⟩,
  ⟨Reg.FENCE_STAT, [], 64, 0x0, .ro, 0x0, 0x0, 0x0, none⟩,
  ⟨Reg.FENCE_CLEAR, [], 64, 0x0, .ro, 0x0, 0x0, 0xFFFFFFFFF, none⟩,
  ⟨Reg.SC_ROT_CFG, [], 32, 0x3203E8, .rw, 0xFFFFFF, 0x0, 0x0, none⟩,
  ⟨Reg.SC_STAT, [], 32, 0xF, .ro, 0x0, 0x0, 0x0, none⟩,
  ⟨Reg.SAFE_CFG, [], 32, 0x0, .rw, 0x13F, 0x0, 0x0, none⟩,
  ⟨Reg.SAFE_CTRL, [], 32, 0x0, .ro, 0x0, 0x0, 0x3, none⟩,
  ⟨Reg.SAFE_STAT, [], 32, 0x0, .ro, 0x0, 0x0, 0x0, none⟩,
  ⟨Reg.TEMP_CFG, [], 32, 0x7D73, .rw, 0xFFFF, 0x0, 0x0, none⟩,
  ⟨Reg.TEMP_STAT, [], 32, 0x0, .ro, 0x0, 0x0, 0x0, none⟩,
  ⟨Reg.FAULT_LOG_HEAD, [], 32, 0x0, .ro, 0x0, 0x0, 0x0, none⟩,
  ⟨Reg.ROT_STEP_CNT, [], 64, 0x0, .cnt, 0x0, 0x0, 0x0, none⟩,
  ⟨Reg.ROT_POSTPONE_CNT, [], 64, 0x0, .cnt, 0x0, 0x0, 0x0, none⟩,
  ⟨Reg.LBIST_TRANSIENT, [], 64, 0x0, .cnt, 0x0, 0x0, 0x0, none⟩,
  ⟨Reg.LBIST_FAIL_CNT, [], 64, 0x0, .cnt, 0x0, 0x0, 0x0, none⟩,
  ⟨Reg.MBIST_FAIL_CNT, [], 64, 0x0, .cnt, 0x0, 0x0, 0x0, none⟩,
  ⟨Reg.FAULT_LOG_LOST, [], 64, 0x0, .cnt, 0x0, 0x0, 0x0, none⟩,
  ⟨Reg.TEST_CNT_CLR, [], 32, 0x0, .wo, 0x3F, 0x0, 0x0, none⟩,
  ⟨Reg.FAULT_LOG, [(256, 0x20), (4, 0x8)], 64, 0x0, .ro, 0x0, 0x0, 0x0, none⟩]

/-- Registers of the SEC block. -/
def secRegs : List RegSpec := [
  ⟨Reg.SEC_BOOT_STAT, [], 32, 0x0, .ro, 0x0, 0x0, 0x0, none⟩,
  ⟨Reg.SEC_BOOT_CTRL, [], 32, 0x0, .ro, 0x0, 0x0, 0x1, none⟩,
  ⟨Reg.SEC_STAT, [], 32, 0x0, .ro, 0x0, 0x0, 0x0, none⟩,
  ⟨Reg.SEC_LOCK, [], 32, 0x0, .ro, 0x0, 0x0, 0x3, none⟩,
  ⟨Reg.SEC_FUSE_CMD, [], 64, 0x0, .wo, 0xFFFFFFFFFFFFFFFF, 0x0, 0x0, none⟩,
  ⟨Reg.SEC_MEAS_EXT, [], 64, 0x0, .wo, 0x1, 0x0, 0x0, none⟩,
  ⟨Reg.SEC_MEAS_IN, [(6, 0x8)], 64, 0x0, .wo, 0xFFFFFFFFFFFFFFFF, 0x0, 0x0, none⟩,
  ⟨Reg.SEC_MEAS, [(8, 0x40), (6, 0x8)], 64, 0x0, .ro, 0x0, 0x0, 0x0, none⟩,
  ⟨Reg.SEC_BOOT_FAIL_CNT, [], 64, 0x0, .cnt, 0x0, 0x0, 0x0, none⟩,
  ⟨Reg.SEC_CERT_NOTIME, [], 64, 0x0, .cnt, 0x0, 0x0, 0x0, none⟩,
  ⟨Reg.SEC_ACCOUNT_BAD, [], 64, 0x0, .cnt, 0x0, 0x0, 0x0, none⟩,
  ⟨Reg.SEC_DEBUG_FAIL, [], 64, 0x0, .cnt, 0x0, 0x0, 0x0, none⟩,
  ⟨Reg.SEC_CNT_CLR, [], 32, 0x0, .wo, 0xF, 0x0, 0x0, none⟩]

/-- Registers of the EVT block. -/
def evtRegs : List RegSpec := [
  ⟨Reg.EVT_ROUTE, [(1024, 0x4)], 32, 0x2000, .rw, 0x3FFFF, 0x0, 0x0, none⟩,
  ⟨Reg.EVT_PEND, [(32, 0x4)], 32, 0x0, .ro, 0x0, 0xFFFFFFFF, 0x0, none⟩,
  ⟨Reg.EVT_VEC_DROP, [], 64, 0x0, .cnt, 0x0, 0x0, 0x0, none⟩]

/-- Registers of the CORE block. -/
def coreRegs0 : List RegSpec := [
  ⟨Reg.CORE_INFO, [(36, 0x100000)], 64, 0x840800000D000, .ro, 0x0, 0x0, 0x0, none⟩,
  ⟨Reg.CORE_STAT, [(36, 0x100000)], 32, 0x0, .ro, 0x0, 0x0, 0x0, none⟩,
  ⟨Reg.SEQ_STAT, [(36, 0x100000)], 64, 0x0, .ro, 0x0, 0x0, 0x0, none⟩,
  ⟨Reg.CORE_ENTRY, [(36, 0x100000)], 32, 0x0, .fb, 0x3FFFFFF, 0x0, 0x0, (some Reg.CORE_ENTRY_ACT)⟩,
  ⟨Reg.CORE_TRAP_INFO, [(36, 0x100000)], 64, 0x0, .ro, 0x0, 0x8000000000000000, 0x0, none⟩,
  ⟨Reg.CORE_TRAP_WORD, [(36, 0x100000)], 64, 0x0, .ro, 0x0, 0x0, 0x0, none⟩,
  ⟨Reg.SEM_VAL, [(36, 0x100000), (16, 0x4)], 32, 0x0, .ro, 0x0, 0x0, 0x0, none⟩,
  ⟨Reg.SEQ_ISSUE_CNT, [(36, 0x100000)], 64, 0x0, .cnt, 0x0, 0x0, 0x0, none⟩,
  ⟨Reg.SEQ_STALL_QUEUE, [(36, 0x100000)], 64, 0x0, .cnt, 0x0, 0x0, 0x0, none⟩,
  ⟨Reg.SEQ_STALL_DEP, [(36, 0x100000)], 64, 0x0, .cnt, 0x0, 0x0, 0x0, none⟩,
  ⟨Reg.SEQ_STALL_FETCH, [(36, 0x100000)], 64, 0x0, .cnt, 0x0, 0x0, 0x0, none⟩,
  ⟨Reg.SEM_STALE_CNT, [(36, 0x100000)], 64, 0x0, .cnt, 0x0, 0x0, 0x0, none⟩,
  ⟨Reg.CORE_TRAP_CNT, [(36, 0x100000)], 64, 0x0, .cnt, 0x0, 0x0, 0x0, none⟩,
  ⟨Reg.SEQ_CNT_CLR, [(36, 0x100000)], 32, 0x0, .wo, 0x3F, 0x0, 0x0, none⟩,
  ⟨Reg.SHELF, [(36, 0x100000), (64, 0x8)], 64, 0x0, .fb, 0x1FFFFFFFFFFFFF, 0x0, 0x0, (some Reg.SHELF_ACT)⟩,
  ⟨Reg.PEER_MAP, [(36, 0x100000), (32, 0x4)], 32, 0x0, .fb, 0x8000003F, 0x0, 0x0, (some Reg.PEER_MAP_ACT)⟩,
  ⟨Reg.CREDIT_POOL, [(36, 0x100000), (15, 0x10)], 64, 0x0, .fb, 0xFFFF001FFFFF, 0x0, 0x0, none⟩,
  ⟨Reg.CREDIT_POOL_STAT, [(36, 0x100000), (15, 0x10)], 64, 0x0, .ro, 0x0, 0x0, 0x0, none⟩,
  ⟨Reg.SPAD_ECC_LOG, [(36, 0x100000)], 64, 0x0, .ro, 0x0, 0x8000000000000000, 0x0, none⟩,
  ⟨Reg.SPAD_REPAIR, [(36, 0x100000), (16, 0x4)], 32, 0x0, .ro, 0x0, 0x0, 0x0, none⟩,
  ⟨Reg.SPAD_CE_CNT, [(36, 0x100000)], 64, 0x0, .cnt, 0x0, 0x0, 0x0, none⟩,
  ⟨Reg.SPAD_UE_CNT, [(36, 0x100000)], 64, 0x0, .cnt, 0x0, 0x0, 0x0, none⟩,
  ⟨Reg.SPAD_CONFLICT_CNT, [(36, 0x100000)], 64, 0x0, .cnt, 0x0, 0x0, 0x0, none⟩,
  ⟨Reg.REMOTE_RD_CNT, [(36, 0x100000)], 64, 0x0, .cnt, 0x0, 0x0, 0x0, none⟩,
  ⟨Reg.REMOTE_WR_CNT, [(36, 0x100000)], 64, 0x0, .cnt, 0x0, 0x0, 0x0, none⟩]

/-- Registers of the CORE block. -/
def coreRegs1 : List RegSpec := [
  ⟨Reg.CREDIT_STALE, [(36, 0x100000)], 64, 0x0, .cnt, 0x0, 0x0, 0x0, none⟩,
  ⟨Reg.CREDIT_REFUSED, [(36, 0x100000)], 64, 0x0, .cnt, 0x0, 0x0, 0x0, none⟩,
  ⟨Reg.CREDIT_OVERSIZE, [(36, 0x100000)], 64, 0x0, .cnt, 0x0, 0x0, 0x0, none⟩,
  ⟨Reg.CREDIT_OVER_RET, [(36, 0x100000)], 64, 0x0, .cnt, 0x0, 0x0, 0x0, none⟩,
  ⟨Reg.CORE_CNT_CLR, [(36, 0x100000)], 32, 0x0, .wo, 0x1FF, 0x0, 0x0, none⟩,
  ⟨Reg.ARRAY_CHK_TOL, [(36, 0x100000)], 32, 0xC0C0C, .rw, 0x1F1F1F, 0x0, 0x0, none⟩,
  ⟨Reg.ARRAY_STAT, [(36, 0x100000)], 32, 0x0, .ro, 0x0, 0x100, 0x0, none⟩,
  ⟨Reg.ARRAY_PART_STAT, [(36, 0x100000), (4, 0x8)], 64, 0x0, .ro, 0x0, 0x8000000000000000, 0x0, none⟩,
  ⟨Reg.ARRAY_ROW_CNT, [(36, 0x100000)], 64, 0x0, .cnt, 0x0, 0x0, 0x0, none⟩,
  ⟨Reg.ARRAY_BUB_INPUT, [(36, 0x100000)], 64, 0x0, .cnt, 0x0, 0x0, 0x0, none⟩,
  ⟨Reg.ARRAY_BUB_WEIGHT, [(36, 0x100000)], 64, 0x0, .cnt, 0x0, 0x0, 0x0, none⟩,
  ⟨Reg.ARRAY_BUB_DRAIN, [(36, 0x100000)], 64, 0x0, .cnt, 0x0, 0x0, 0x0, none⟩,
  ⟨Reg.ARRAY_BUB_THROTTLE, [(36, 0x100000)], 64, 0x0, .cnt, 0x0, 0x0, 0x0, none⟩,
  ⟨Reg.ARRAY_CHECK_CNT, [(36, 0x100000)], 64, 0x0, .cnt, 0x0, 0x0, 0x0, none⟩,
  ⟨Reg.ARRAY_CHK_SKIP, [(36, 0x100000)], 64, 0x0, .cnt, 0x0, 0x0, 0x0, none⟩,
  ⟨Reg.ARRAY_POISON_ROWS, [(36, 0x100000)], 64, 0x0, .cnt, 0x0, 0x0, 0x0, none⟩,
  ⟨Reg.ARRAY_CNT_CLR, [(36, 0x100000)], 32, 0x0, .wo, 0xFF, 0x0, 0x0, none⟩,
  ⟨Reg.FMT_SAT_CNT, [(36, 0x100000)], 64, 0x0, .cnt, 0x0, 0x0, 0x0, none⟩,
  ⟨Reg.FMT_UNDERFLOW_CNT, [(36, 0x100000)], 64, 0x0, .cnt, 0x0, 0x0, 0x0, none⟩,
  ⟨Reg.FMT_NAN_CNT, [(36, 0x100000)], 64, 0x0, .cnt, 0x0, 0x0, 0x0, none⟩,
  ⟨Reg.FMT_CNT_CLR, [(36, 0x100000)], 32, 0x0, .wo, 0x7, 0x0, 0x0, none⟩,
  ⟨Reg.SPARSE_CFG, [(36, 0x100000)], 32, 0xF, .rw, 0xF, 0x0, 0x0, none⟩,
  ⟨Reg.SPARSE_STAT, [(36, 0x100000)], 32, 0x0, .ro, 0x0, 0x0, 0x0, none⟩,
  ⟨Reg.MMS_ROW_CNT, [(36, 0x100000)], 64, 0x0, .cnt, 0x0, 0x0, 0x0, none⟩,
  ⟨Reg.MMS_LINE_WAIT, [(36, 0x100000)], 64, 0x0, .cnt, 0x0, 0x0, 0x0, none⟩]

/-- Registers of the CORE block. -/
def coreRegs2 : List RegSpec := [
  ⟨Reg.ZERO_ROW_SKIP, [(36, 0x100000)], 64, 0x0, .cnt, 0x0, 0x0, 0x0, none⟩,
  ⟨Reg.PACK_DENSE_CNT, [(36, 0x100000)], 64, 0x0, .cnt, 0x0, 0x0, 0x0, none⟩,
  ⟨Reg.MATCH_PROBE_CNT, [(36, 0x100000)], 64, 0x0, .cnt, 0x0, 0x0, 0x0, none⟩,
  ⟨Reg.MATCH_HIT_CNT, [(36, 0x100000)], 64, 0x0, .cnt, 0x0, 0x0, 0x0, none⟩,
  ⟨Reg.MATCH_TRUNC_CNT, [(36, 0x100000)], 64, 0x0, .cnt, 0x0, 0x0, 0x0, none⟩,
  ⟨Reg.SPARSE_CNT_CLR, [(36, 0x100000)], 32, 0x0, .wo, 0x7F, 0x0, 0x0, none⟩,
  ⟨Reg.SCA_SPILL_BASE, [(36, 0x100000)], 64, 0x0, .rw, 0xFFFFFFFFFF, 0x0, 0x0, none⟩,
  ⟨Reg.SCA_SPILL_LINES, [(36, 0x100000)], 32, 0x0, .rw, 0x1FFFFF, 0x0, 0x0, none⟩,
  ⟨Reg.SCA_STAT, [(36, 0x100000)], 64, 0x0, .ro, 0x0, 0x0, 0x0, none⟩,
  ⟨Reg.GATE_SKIP_CNT, [(36, 0x100000)], 64, 0x0, .cnt, 0x0, 0x0, 0x0, none⟩,
  ⟨Reg.GATE_SHADOW_CNT, [(36, 0x100000)], 64, 0x0, .cnt, 0x0, 0x0, 0x0, none⟩,
  ⟨Reg.GATE_MISS_CNT, [(36, 0x100000)], 64, 0x0, .cnt, 0x0, 0x0, 0x0, none⟩,
  ⟨Reg.SCA_PAIR_CNT, [(36, 0x100000)], 64, 0x0, .cnt, 0x0, 0x0, 0x0, none⟩,
  ⟨Reg.SCA_NEW_CNT, [(36, 0x100000)], 64, 0x0, .cnt, 0x0, 0x0, 0x0, none⟩,
  ⟨Reg.SCA_HOT_CNT, [(36, 0x100000)], 64, 0x0, .cnt, 0x0, 0x0, 0x0, none⟩,
  ⟨Reg.SCA_SPILL_CNT, [(36, 0x100000)], 64, 0x0, .cnt, 0x0, 0x0, 0x0, none⟩,
  ⟨Reg.SCA_POISON_DROP, [(36, 0x100000)], 64, 0x0, .cnt, 0x0, 0x0, 0x0, none⟩,
  ⟨Reg.SCA_CNT_CLR, [(36, 0x100000)], 32, 0x0, .wo, 0xFF, 0x0, 0x0, none⟩,
  ⟨Reg.MOVE_STAT, [(36, 0x100000)], 64, 0x0, .ro, 0x0, 0x0, 0x0, none⟩,
  ⟨Reg.GETX_ROW_CNT, [(36, 0x100000)], 64, 0x0, .cnt, 0x0, 0x0, 0x0, none⟩,
  ⟨Reg.GETX_REUSE_CNT, [(36, 0x100000)], 64, 0x0, .cnt, 0x0, 0x0, 0x0, none⟩,
  ⟨Reg.GETX_LOCAL_CNT, [(36, 0x100000)], 64, 0x0, .cnt, 0x0, 0x0, 0x0, none⟩,
  ⟨Reg.GETX_STOP_CNT, [(36, 0x100000)], 64, 0x0, .cnt, 0x0, 0x0, 0x0, none⟩,
  ⟨Reg.MMG_REC_SKIP, [(36, 0x100000)], 64, 0x0, .cnt, 0x0, 0x0, 0x0, none⟩,
  ⟨Reg.TENSOR_CNT_CLR, [(36, 0x100000)], 32, 0x0, .wo, 0x1F, 0x0, 0x0, none⟩]

/-- Registers of the CORE block, all. -/
def coreRegs : List RegSpec := coreRegs0 ++ coreRegs1 ++ coreRegs2

/-- The registers of the block an offset lies in (Table 1.8). -/
def blockRegs (o : Nat) : List RegSpec :=
  match o / 0x100000 with
  | 0 => sysRegs
  | 1 => clkRegs
  | 2 => pwrRegs
  | 3 => timeRegs
  | 4 => ethRegs
  | 5 => headRegs
  | 6 => gridRegs
  | 7 => calRegs
  | 8 => mapRegs
  | 9 => smuRegs
  | 10 => memRegs
  | 11 => hostqRegs
  | 12 => linkRegs
  | 13 => testRegs
  | 14 => secRegs
  | 15 => evtRegs
  | n => if n < 52 then coreRegs else []

/-- The element of an array that covers an offset: its own offset. -/
def elemAt (size o : Nat) : List (Nat × Nat) → Nat → Option Nat
  | [], b => if b ≤ o ∧ o < b + size then some b else none
  | (c, st) :: r, b => if o < b then none else
    let i := (o - b) / st
    if i < c then elemAt size o r (b + i * st) else none

/-- The register that occupies an offset: its description and the offset of the element. -/
def regAt (o : Nat) : Option (RegSpec × Nat) :=
  (blockRegs o).findSome? fun r => (elemAt (r.width / 8) o r.dims r.base).map fun e => (r, e)

/-- The FB register whose _ACT mirror occupies an offset: its description and the offset of the pending element. -/
def actAt (o : Nat) : Option (RegSpec × Nat) :=
  (blockRegs o).findSome? fun r => r.act.bind fun a =>
    (elemAt (r.width / 8) o r.dims a).map fun e => (r, e + r.base - a)

/-- The reset value of the register at an element's offset: CORE_INFO adds its core number (chapter 8). -/
def regReset (o : Nat) : BitVec 64 :=
  match regAt o with
  | none => 0
  | some (r, _) => BitVec.ofNat 64 (r.reset + if r.base = Reg.CORE_INFO then (o - Reg.CORE_INFO) / 0x100000 else 0)

/-- Every register description. -/
def allRegs : List RegSpec :=
  sysRegs ++ clkRegs ++ pwrRegs ++ timeRegs ++ ethRegs ++ headRegs ++ gridRegs ++ calRegs ++ mapRegs ++ smuRegs ++ memRegs ++ hostqRegs ++ linkRegs ++ testRegs ++ secRegs ++ evtRegs ++ coreRegs

/-- The offsets of every element of an array. -/
def elemOffs : List (Nat × Nat) → Nat → List Nat
  | [], b => [b]
  | (c, st) :: r, b => (List.range c).flatMap fun i => elemOffs r (b + i * st)

end Sys2Proof.Machine
end

