-- ==== Sys2Proof/Machine/State.lean ====
section
/-! DEFINITION. The machine's state as plain data, its reset value, and the reasons a step can stop. -/

namespace Sys2Proof.Machine

/-! ## Messages inside the device -/

/-- What a mesh message is (Table 1.2, chapters 2, 8, 12 to 16). -/
inductive MsgKind where
  | readReq | readRsp | write | writeAck | memRead | memWrite | ringWrite | gridRead
  | creditReq | creditAns | signal | commit | trapReport | poisonReport | gateReport
  | gather | smuWork | fence | ready | decision | abortMsg
deriving DecidableEq, Repr

/-- A message sent and not yet delivered. `seq` is the requester's identifier, echoed in the answer; `slot` the
requester's trunk slot; `shelf`/`idx` the target shelf and line (or, in `addr`, a 40-bit address); `dshelf`/`didx` where the
requester writes the answer; `k`, `pool`, `stamp`, `frame` as the kind needs; `err` a trap code carried back, 0 for none;
`ringWrite` is a line of a STORE in ring form that
waits in its core for its turn, `idx` naming the ring. `cd` marks a write issued after its core's COMMIT (R43), `disc` a write to a result ring, cellar ring or publisher queue
(R41). -/
structure Msg where
  kind   : MsgKind
  src    : Agent
  dst    : Agent
  seq    : Nat := 0
  slot   : Nat := 0
  shelf  : Nat := 0
  idx    : Nat := 0
  addr   : Nat := 0
  dshelf : Nat := 0
  didx   : Nat := 0
  line   : Line := ⟨0, 0⟩
  pool   : Nat := 0
  k      : Nat := 0
  stamp  : Nat := 0
  frame  : BitVec 32 := 0
  err    : Nat := 0
  cd     : Bool := false
  disc   : Bool := false
deriving DecidableEq, Repr

/-! ## A core (chapters 8, 9, 11 to 14) -/

/-- An instruction issued to a unit queue with the operands captured at issue (R245): the words, and the values of the
registers its fields name. -/
structure Op where
  mn  : Mn
  q   : Nat
  pc  : Nat
  seq : Nat
  w0  : Word
  w1  : Word
  a   : Word
  b   : Word
  c   : Word
  n   : Word
  d   : Word
  x   : Word
  pa  : Bool
  pb  : Bool
deriving DecidableEq, Repr

/-- An instruction that has started and not completed: what it still has to send, how many answers it waits for, and the
scalar registers it writes on completion (R248). -/
structure Active where
  op   : Op
  todo : List Msg
  wait : Nat
  regs : List (Nat × Word)
deriving DecidableEq, Repr

/-- A loop-stack entry (R258): body start, the word after the body, and the remaining count. -/
structure LoopEnt where
  start : Nat
  stop  : Nat
  left  : Nat
deriving DecidableEq, Repr

/-- A semaphore (R251). -/
structure Sem where
  count : Nat
  held  : Nat
deriving DecidableEq, Repr

/-- An entry of the move unit's credit ledger (R270). -/
structure Ledger where
  peer  : Nat
  remote : Bool
  x     : Nat
  y     : Nat
  pool  : Nat
  count : Nat
  stamp : Nat
deriving DecidableEq, Repr

/-- A credit request waiting in a pool's queue (R165). -/
structure PoolReq where
  src  : Agent
  seq  : Nat
  slot : Nat
  k    : Nat
deriving DecidableEq, Repr

/-- Credits granted and not yet spent (R167). -/
structure Grant where
  src   : Agent
  stamp : Nat
  left  : Nat
deriving DecidableEq, Repr

/-- A credit pool (R164). -/
structure Pool where
  avail  : Nat
  queue  : List PoolReq
  grants : List Grant
deriving DecidableEq, Repr

/-- Where the sequencer stands (SEQ_STAT.state, R247, R250, R254, R261). -/
inductive IssueSt where
  | unplaced
  | running
  | qwait (mask limit : Nat)
  | frameWait (d pc : Nat) (w : Word)
  | trapped
deriving DecidableEq, Repr

/-- A weight set of one partition (R169 to R172, R206 to R214, R229). `w` holds, per expanded reduction row, one entry per
column: the element's bits where the tile stores one. `chk` holds the checksum and magnitude weights fixed at load, per
reduction row: one list, or for an FP32 tile those of the high parts and those of the low parts (R172, R185). -/
structure WSet where
  mode      : Nat
  fmt       : Nat
  nLen      : Nat
  expand    : Nat
  w         : List (List (Option Nat))
  chk       : List (List (BitVec 32 × BitVec 32))
  scale     : List (List Nat)
  poison    : Bool
  nonfinite : Bool
deriving DecidableEq, Repr

/-- An accumulator row (R176): 64 lanes, check and magnitude lanes, the flags, and the class of the products that updated
it (R180). -/
structure AccRow where
  lanes   : List (BitVec 32)
  chk     : BitVec 32
  mag     : BitVec 32
  pending : Bool
  poison  : Bool
  touched : Bool
  cls     : Nat
deriving DecidableEq, Repr

/-- What ACC_INIT gives a bank (R177). -/
structure BankInit where
  isInt  : Bool
  init   : List (BitVec 32)
  scale  : List (BitVec 32)
  poison : Bool
deriving DecidableEq, Repr

/-- The matrix array's state (chapter 9, R274). `sets` is keyed by 2 × partition + set, `acc` by 1,024 × bank + row; `upsets` are
accumulator rows with an uncorrectable error not yet met, `failed` says that a running operation met one in a partition in trap
mode (R176, R183), and `stopped` that an array operation has trapped, after which no later one starts (R183). -/
structure ArraySt where
  mode    : Nat
  contain : Nat
  sets    : Store WSet
  acc     : Store AccRow
  bank0   : Option BankInit
  bank1   : Option BankInit
  curSet  : Option Nat
  curBank : Option Nat
  upsets  : List Nat
  failed  : Bool
  stopped : Bool
deriving DecidableEq, Repr

/-- A key of the Match CAM: its position in the loaded list, the key and whether it is ignored (R223). -/
structure CamKey where
  pos    : Nat
  key    : Nat
  ignore : Bool
deriving DecidableEq, Repr

/-- The Match CAM: mode 0 empty, 1 joint, 2 split; keys per group. -/
structure CamSt where
  mode   : Nat
  groups : Store (List CamKey)
  poison : List Nat
deriving DecidableEq, Repr

/-- A gate mask register (R226). -/
structure GateMask where
  pred    : Nat
  act     : Nat
  shadow  : Nat
  gate    : Nat
  nGroups : Nat
deriving DecidableEq, Repr

/-- A key of the scatter index: its key, the bucket that holds it; its slot is its position in the list (R236). -/
structure ScaKey where
  key    : Nat
  bucket : Nat
deriving DecidableEq, Repr

/-- The scatter accumulator (R235 to R240). -/
structure ScaSt where
  init     : Bool
  poisoned : Bool
  shelf    : Nat
  lanes    : Nat
  isInt    : Bool
  keys     : List ScaKey
  spillPos : Nat
  spilled  : Nat
deriving DecidableEq, Repr

/-- A physical core. `vp` marks the vector registers that a poisoned line has contributed to (R342); `cclk` is the CCLK cycle count
last read (Table 13.7), `ahead` the code lines that the fetch port read ahead and found uncorrectable (R150). -/
structure CoreSt where
  issue    : IssueSt
  slot     : Nat
  logical  : Nat
  pc       : Nat
  s        : Vector Word 32
  p        : BitVec 8
  v        : Vector (BitVec 2048) 32
  vp       : BitVec 32
  pendS    : BitVec 32
  pendP    : BitVec 8
  loops    : List LoopEnt
  rets     : List Nat
  cur      : BitVec 32
  capFrame : BitVec 32
  captured : Bool
  fwDone   : Bool
  committed : Option Nat
  sems     : Vector Sem 16
  queues   : Vector (List Op) 6
  active   : List Active
  nextSeq  : Nat
  ledger   : List Ledger
  pools    : Vector Pool 16
  spad     : Store Line
  upsets   : Store Bool
  ceRows   : Store Nat
  repairQ  : List Nat
  swap     : BitVec 64
  dirty    : List (Nat × Nat)
  loftCopy : Bool
  faultHdr : List (Nat × Nat)
  array    : ArraySt
  cam      : CamSt
  gm       : Store GateMask
  rot      : Store Nat
  gateCnt  : Store (Nat × Nat)
  sca      : ScaSt
  cclk     : BitVec 64
  ahead    : List Nat
deriving DecidableEq, Repr

/-- The array right after reset: mode 0 with contain 0 (R183), nothing loaded. -/
def ArraySt.reset : ArraySt :=
  { mode := 0, contain := 0, sets := [], acc := [], bank0 := none, bank1 := none, curSet := none, curBank := none,
    upsets := [], failed := false, stopped := false }

/-- A core right after reset: unplaced, every register zero (log entry 1). -/
def CoreSt.reset : CoreSt :=
  { issue := .unplaced, slot := 0, logical := 0, pc := 0, s := Vector.replicate 32 0, p := 0,
    v := Vector.replicate 32 0, vp := 0, pendS := 0, pendP := 0, loops := [], rets := [], cur := 0, capFrame := 0,
    captured := false, fwDone := false, committed := none, sems := Vector.replicate 16 ⟨0, 0⟩,
    queues := Vector.replicate 6 [], active := [], nextSeq := 0, ledger := [], pools := Vector.replicate 16 ⟨0, [], []⟩,
    spad := [], upsets := [], ceRows := [], repairQ := [], swap := 0, dirty := [], loftCopy := false, faultHdr := [],
    array := ArraySt.reset, cam := ⟨0, [], []⟩, gm := [], rot := [], gateCnt := [],
    sca := ⟨false, false, 0, 0, false, [], 0, 0⟩, cclk := 0, ahead := [] }

/-! ## Time base (chapter 4) -/

/-- A TIME_OUT pin (R92, R93): the configuration in effect (TOUT_CFG, TOUT_TIME in ns, TOUT_PERIOD_NS), whether a write
takes effect in the next cycle, the scheduled edges in ns of device time, earliest first, each with whether a backward step has
left it standing (R95), and the end of the pulse it drives, by its width. -/
structure ToutPin where
  cfg    : Half
  start  : Nat
  period : Nat
  wrote  : Bool
  edges  : List (Nat × Bool)
  ends   : Option Nat
deriving DecidableEq, Repr

/-- A pin at reset: off, nothing scheduled. -/
def ToutPin.reset : ToutPin := { cfg := 0, start := 0, period := 0, wrote := false, edges := [], ends := none }

/-- The firmware's PTP servo (R88, R89): port, sequence number and device-time stamp of a Sync that waits for its Follow_Up;
the latest Sync measured (port, stamp, origin time) and the previous measurement (stamp, master time); the frequency term in
units of TIME_RATE; Sync intervals left of the phase term; consecutive offsets below 100 ns; the next sequence numbers of the
Sync messages and of the delay requests sent, by port; the delay request awaiting its answer, by port (sequence number, transmit
stamp); the answer of a peer awaiting its Follow_Up, by port (sequence number, the peer's receive time, our receive stamp); and
the path delay measured, in ns, by port. -/
structure ServoSt where
  sync   : Option (Nat × Nat × Nat)
  last   : Option (Nat × Nat × Nat)
  prev   : Option (Nat × Nat)
  freq   : Option Int
  phase  : Nat
  streak : Nat
  txSeq  : Store Nat
  reqSeq : Store Nat
  reqs   : Store (Nat × Nat)
  peers  : Store (Nat × Nat × Nat)
  delays : Store Int
deriving DecidableEq, Repr

/-- The servo at reset. -/
def ServoSt.reset : ServoSt :=
  { sync := none, last := none, prev := none, freq := none, phase := 0, streak := 0, txSeq := [], reqSeq := [], reqs := [],
    peers := [], delays := [] }

/-- Device time (R82), the TCLK cycle count since reset, the cycle of the previous fence instant (R31), the cycle in which
FRAME_CTRL.enable registered, the cycle of the frame timer's next fence (R91), the values latched by TIME_NOW_NS reads
(R86; the two halves of the seconds apart, since a 32-bit read takes one), the pins, the capture queues (R97), and the servo. -/
structure TimeSt where
  sec       : Nat
  ns        : Nat
  frac      : Nat
  cyc       : Nat
  lastFence : Option Nat
  armedAt   : Nat
  due       : Option Nat
  nowSec    : List (Requester × Nat)
  nowHigh   : List (Requester × Nat)
  nowFrac   : List (Requester × Nat)
  pins      : Vector ToutPin 4
  caps      : Vector (List (Nat × Nat)) 2
  servo     : ServoSt
deriving DecidableEq, Repr

/-- The time base at reset: device time zero (R82), nothing scheduled. -/
def TimeSt.reset : TimeSt :=
  { sec := 0, ns := 0, frac := 0, cyc := 0, lastFence := none, armedAt := 0, due := none, nowSec := [], nowHigh := [], nowFrac := [],
    pins := Vector.replicate 4 ToutPin.reset, caps := Vector.replicate 2 [], servo := ServoSt.reset }

/-! ## The PCI Express interface and what leaves the device (chapter 19) -/

/-- Something that leaves the device. -/
inductive Out where
  /-- An MSI-X message of a function (R359). -/
  | msix (fn vector : Nat)
  /-- A write to host memory (R351, R356). -/
  | hostWrite (addr : Nat) (bytes : List Nat)
  /-- A line sent to the host, with the EP bit (R344, R353). -/
  | hostLine (addr : Nat) (data : BitVec 512) (ep : Bool)
  /-- The completion of a host read through BAR2 (R26, R350): bytes, EP bit, Unsupported Request. -/
  | bar2Rsp (bytes : List Nat) (ep ur : Bool)
  /-- An Ethernet frame sent on a port, and whether its FCS is inverted (R59, R344). -/
  | ethFrame (port : Nat) (bytes : List Nat) (badFcs : Bool)
  /-- A flit sent on a link port: type, sequence number, acknowledgement, credits returned, and the packet it begins or completes (R364 to
  R367). -/
  | flit (port type seq ack : Nat) (credits : List (Nat × Nat)) (packet : Option Packet)
  /-- A PTP message of the firmware (R88): port, type, sequence number, the device time it carries. -/
  | ptp (port type seq sec ns : Nat)
  /-- A pin driven to a level. -/
  | pin (name : String) (level : Bool)
deriving DecidableEq, Repr

/-- The PCI Express configuration the rules read (R348, R355, R359). -/
structure PcieSt where
  linkUp   : Bool
  inReset  : Bool
  vfEnable : Bool
  numVfs   : Nat
  d3hot    : List Nat
  masked   : List (Nat × Nat)
  msixPend : List (Nat × Nat)
  bar2Log2 : Nat
deriving DecidableEq, Repr

/-- The interface after reset: link down, one function, BAR2 of 16 GiB (R349). -/
def PcieSt.reset : PcieSt :=
  { linkUp := false, inReset := false, vfEnable := false, numVfs := 0, d3hot := [], masked := [], msixPend := [],
    bar2Log2 := 34 }

/-! ## Larxus links (R364 to R371) -/

/-- One link port: packets waiting, the next sequence number to send, unacknowledged flits with their packets, the next
sequence number expected, free credits per link VC, replays without progress, whether a
NAK is outstanding, received flits not yet acknowledged, slots freed and not yet returned by link VC, per link VC the slots sent of
its oldest packet, and the link VC of the round-robin that sent last (R366; log entry 50). -/
structure LinkPort where
  queue   : List Packet
  txSeq   : Nat
  unacked : List (Nat × Packet)
  rxNext  : Nat
  credits : List Nat
  replays : Nat
  nakSent : Bool
  owed    : Nat
  back    : List (Nat × Nat)
  sent    : List Nat
  turn    : Nat
deriving DecidableEq, Repr

/-- A port after training: every link VC holds 512 credits (R366). -/
def LinkPort.fresh : LinkPort :=
  { queue := [], txSeq := 0, unacked := [], rxNext := 0, credits := List.replicate 8 512, replays := 0, nakSent := false,
    owed := 0, back := [], sent := List.replicate 8 0, turn := 6 }

/-! ## External memory and rings (chapters 18, 19) -/

/-- External memory: the lines written or filled (an absent line is undefined, R339), the capacity mapped in GiB (R333),
the MEM_CFG that a running training uses and the one the contents were trained under, a running fill (next address, lines left), the patrol
scrub's position (R338), and the rings: pending producer indices by 64 × slot + ring (R271), host rings overrun in the frame,
whether CELLAR_RING_FULL was raised in the frame (R347), header entries written and headers lost since (R356, R357). -/
structure MemSt where
  lines      : Store Line
  capGib     : Nat
  training   : Option Word
  trainedCfg : Option Word
  fillNext   : Nat
  fillLeft   : Nat
  scrubPos   : Nat
  rings      : Store Nat
  hostOver   : List Nat
  fullRaised : Bool
  hdrCount   : Store Nat
  hdrLost    : List Nat
deriving DecidableEq, Repr

/-- Memory after reset: nothing trained, every line undefined. -/
def MemSt.reset : MemSt :=
  { lines := [], capGib := 0, training := none, trainedCfg := none, fillNext := 0, fillLeft := 0, scrubPos := 0,
    rings := [], hostOver := [], fullRaised := false, hdrCount := [], hdrLost := [] }

/-- A frame in the publisher queue (R79): its number, slot, first line and lines, fence time, head flags, whether it is
truncated, and for each destination still to be served the next fragment and next line. -/
structure PubFrame where
  frame : BitVec 32
  slot  : Nat
  first : Nat
  lines : Nat
  sec   : Nat
  ns    : Nat
  flags : Word
  trunc : Bool
  todo  : List (Nat × Nat × Nat)
deriving DecidableEq, Repr

/-- The publisher (R79 to R81): committed producer index, index of the first line not yet freed, frames to send in order,
and whether the owning slot's running frame lost lines. -/
structure PubSt where
  prod   : Nat
  cons   : Nat
  frames : List PubFrame
  trunc  : Bool
deriving DecidableEq, Repr

/-! ## The Select and Merge Unit (chapter 15) -/

/-- A context in use (R291): the issuing core, its instruction, the row it serves, and the lines that the select port has sent for
it. -/
structure SmuCtx where
  core : CoreId
  seq  : Nat
  row  : Nat
  lines : List DLine
deriving DecidableEq, Repr

/-! ## Boot flash, fuses and the running firmware image (chapters 3, 21, 22) -/

/-- A life record of a head identity (R71): key_id, counted seconds (none until the first LIFE report of a first sighting),
the device time in ns of its last accepted block, and whether its HMAC verifies (R422). -/
structure LifeRec where
  key  : Nat
  secs : Option Nat
  last : Nat
  ok   : Bool
deriving DecidableEq, Repr

/-- The boot flash (Table 22.2): the bytes of the two image slots and of the device certificate with its CA, whether it lacks
the 8D-8D-8D profile (R409), trunk images and data by 64-byte unit, and the account area: life records, the identity last
authenticated per head slot with its HMAC finding (R78), fence records (R402), fault-log copies (R404). -/
structure FlashSt where
  slotA   : List Nat
  slotB   : List Nat
  cert    : List Nat
  slow    : Bool
  data    : Store (BitVec 512)
  life    : List LifeRec
  slotKey : Store (Nat × Bool)
  fences  : List CoreId
  log     : List (Nat × Word × Word × Word × Word)
deriving DecidableEq, Repr

/-- An erased flash. -/
def FlashSt.blank : FlashSt :=
  { slotA := [], slotB := [], cert := [], slow := false, data := [], life := [], slotKey := [], fences := [], log := [] }

/-- The security fuses (Table 22.6); the device secret itself stays inside the opaque key functions. -/
structure FuseSt where
  serial    : BitVec 128
  rootV     : BitVec 384
  rootO     : BitVec 384
  lifecycle : BitVec 8
  fwSvn     : BitVec 64
  trunkSvn  : BitVec 64
  repair    : List (CoreId × Nat)
deriving DecidableEq, Repr

/-- Unprogrammed fuses: life-cycle BLANK (Table 22.7). -/
def FuseSt.blank : FuseSt :=
  { serial := 0, rootV := 0, rootO := 0, lifecycle := 0, fwSvn := 0, trunkSvn := 0, repair := [] }

/-- The accepted firmware image (R410): versions, flags, the head trust store, the key certificates, the housekeeping-core
code and data, and the configuration record's entries of 16 bytes. -/
structure FwImage where
  svn         : Nat
  trunkSvnMin : Nat
  svnCommit   : Bool
  trust       : List (List Nat)
  keys        : List (List Nat)
  code        : List Nat
  config      : List (List Nat)
deriving DecidableEq, Repr

/-- The security engine (chapter 22): measurements, boot staging SRAM (R408), the debug challenge outstanding, failed unlock
attempts, the alias and device certificates. -/
structure SecSt where
  meas    : Vector (BitVec 384) 8
  staging : List Nat
  chal    : Option (List Nat)
  fails   : Nat
  aliasCert : List Nat
  fw      : Option FwImage
deriving DecidableEq, Repr

/-- The security engine at reset: measurements zero (R420). -/
def SecSt.reset : SecSt :=
  { meas := Vector.replicate 8 0, staging := [], chal := none, fails := 0, aliasCert := [], fw := none }

/-! ## Ethernet ports and sensor heads (chapter 3) -/

/-- An accepted frame on its way to the firmware or the parser: receiving port, order number of Table 3.2, bytes without FCS,
start-of-frame stamp, and the TCLK cycle of its end-of-frame stamp, the instant of its last byte (R28, R64, R87). -/
structure RxFrame where
  port   : Nat
  cls    : Nat
  bytes  : List Nat
  sec    : Nat
  ns     : Nat
  cyc    : Nat
deriving DecidableEq, Repr

/-- A head slot beyond its registers (R68 to R78, R440, R441): reference of received and last sent control sequence numbers,
source MAC and tag of the latest accepted message, model code, IDENT fragment count and fragments, the challenge nonce, the
authenticated identity and its rated life in hours, whether that identity replaced another and its replaced bit is still owed,
whether its nominal values await a fence (R74, R78), the reference of accepted blocks, whether a block was accepted in the
10 ms tick, the device count in seconds at its start and the ticks since, the latest LIFE report, ticks when the record was
last written, CONFIG resends while an echo is awaited, whether the slot was enabled when the filling grid began and has
contributed a block to it, and the TCLK cycles at which the slot last entered and last left ACTIVE. -/
structure HeadSt where
  ctlRef   : Option Nat
  txSeq    : Nat
  mac      : Nat
  tagged   : Bool
  model    : Nat
  nFrag    : Option Nat
  frags    : Store (List Nat)
  chain    : List Nat
  nonce    : Option (List Nat)
  key      : Option Nat
  rated    : Nat
  replaced : Bool
  nominal  : Bool
  blkRef   : Option Nat
  onTick   : Bool
  base     : Option Nat
  ticks    : Nat
  life     : Option Nat
  saved    : Nat
  echo     : Option Nat
  atFill   : Bool
  filled   : Bool
  actFrom  : Nat
  actTo    : Nat
deriving DecidableEq, Repr

/-- A head slot at reset. -/
def HeadSt.reset : HeadSt :=
  { ctlRef := none, txSeq := 0, mac := 0, tagged := false, model := 0, nFrag := none, frags := [], chain := [],
    nonce := none, key := none, rated := 0, replaced := false, nominal := false, blkRef := none, onTick := false,
    base := none, ticks := 0, life := none, saved := 0, echo := none, atFill := false, filled := false,
    actFrom := 0, actTo := 0 }

/-- Ports and heads: frames for the firmware and for the parser, ports held down for an unlisted rate (R51), the slots, the
10 ms tick last ended, and identities already reported for mismatch, warning and end of life (R73). -/
structure IngestSt where
  fwq      : List RxFrame
  parserq  : List RxFrame
  held     : List Nat
  slots    : Vector HeadSt 16
  tick     : Nat
  mismatch : List Nat
  warned   : List Nat
  ended    : List Nat
deriving DecidableEq, Repr

/-- Ports and heads at reset. -/
def IngestSt.reset : IngestSt :=
  { fwq := [], parserq := [], held := [], slots := Vector.replicate 16 HeadSt.reset, tick := 0, mismatch := [],
    warned := [], ended := [] }

/-! ## Grid, calibration, rulebooks (chapters 5 to 7) -/

/-- The settings of a buffer (R99): the GRID block's values and, per head slot, rotation (9), translation (3), and range bias
with gain, as the registers hold them. -/
structure GridSet where
  cfg    : Word
  voxel  : Word
  origin : Word
  hwm    : Word
  near   : Word
  seed   : Word
  cal    : Vector (List Word) 16
deriving DecidableEq, Repr

/-- A grid buffer: its level-0 and coarse entries (Table 5.2), the active list and count of each level and the slot maps
(R110), the header's counts and flags (Table 5.4), and its settings. -/
structure GridBuf where
  e0         : Store (BitVec 128)
  e1         : Store (BitVec 128)
  lists      : Vector (Store Nat) 4
  n          : Vector Nat 4
  map0       : Store Nat
  map1       : Store Nat
  frame      : BitVec 32
  points     : Nat
  dropRange  : Nat
  dropFull   : Nat
  dropFar    : Nat
  dropBucket : Nat
  dropLevel  : Nat
  supersede  : Nat
  hwm        : Bool
  full       : Bool
  loss       : Bool
  set        : GridSet
deriving DecidableEq, Repr

/-- A sealed block on its way to the transform stage (R65): slot, sequence number, sweep slot, records, the records
the parser drops, lines, and the TCLK cycle of its end-of-frame stamp. -/
structure GridBlock where
  slot  : Nat
  seq   : Nat
  sweep : Nat
  count : Nat
  drop  : List Nat
  lines : List Line
  cyc   : Nat
deriving DecidableEq, Repr

/-- The grid builder: both buffers, which one fills, blocks waiting, and whether GRID_LAT_OVER was
raised in the frame. -/
structure GridSt where
  bufs      : Vector GridBuf 2
  filling   : Fin 2
  queue     : List GridBlock
  latRaised : Bool
deriving DecidableEq, Repr

/-- A slot's calibration at reset: identity rotation, no translation, gain 1.0 (Table 7.1). -/
def calReset : List Word := [0x400000, 0, 0, 0, 0x400000, 0, 0, 0, 0x400000, 0, 0, 0, 0x1000000]

/-- The GRID registers' reset values. -/
def GridSet.reset : GridSet :=
  { cfg := 7, voxel := 0x64064, origin := 0x4E00027000138000, hwm := 0xE0000, near := 0x9C40, seed := 0xFFFFFFFF,
    cal := Vector.replicate 16 calReset }

/-- An empty buffer under given settings (R113). -/
def GridBuf.fresh (g : GridSet) : GridBuf :=
  { e0 := [], e1 := [], lists := Vector.replicate 4 [], n := Vector.replicate 4 0, map0 := [], map1 := [], frame := 0,
    points := 0, dropRange := 0, dropFull := 0, dropFar := 0, dropBucket := 0, dropLevel := 0, supersede := 0, hwm := false,
    full := false, loss := false, set := g }

/-- The grid at reset: two empty buffers, buffer A filling (GRID_STAT). -/
def GridSt.reset : GridSt :=
  { bufs := Vector.replicate 2 (GridBuf.fresh GridSet.reset), filling := 0, queue := [], latRaised := false }

/-- A calibration candidate (R139): key and old offsets, slot and intensity of the entry, slot, position (1/16 mm) and
intensity of the point. -/
structure CalCand where
  key : Nat × Nat × Nat
  off : Nat × Nat × Nat
  a   : Nat
  ia  : Nat
  b   : Nat
  p   : Int × Int × Int
  ib  : Nat
deriving DecidableEq, Repr

/-- A row that a sample adds to a slot's normal equations (R141): j and r, lengths in metres, in units of 2⁻⁴⁰. -/
structure CalRow where
  slot : Nat
  j    : List Int
  r    : Int
deriving DecidableEq, Repr

/-- An accepted sample (R141): its slots, the rows it adds, and its intensities as (slot, reference, own). -/
structure CalSample where
  a    : Nat
  b    : Nat
  rows : List CalRow
  gain : List (Nat × Nat × Nat)
deriving DecidableEq, Repr

/-- A frame estimate or proposal (R137, R142): rotation vector in 10⁻⁹ degrees, translation and range-bias step in nm, gain
factor − 1 in units of 2⁻²⁴. -/
structure CalEst where
  rx   : Int
  ry   : Int
  rz   : Int
  tx   : Int
  ty   : Int
  tz   : Int
  db   : Int
  gain : Int
deriving DecidableEq, Repr

/-- A slot's calibration (R142 to R147): its history, state, whether a software write is pending (R145), whether the buffer
now filling forms no estimate (R144), whether a solution of the closed buffer is still to come, which of the thirteen pending
values the engine wrote (R146), and whether calibration starts anew at the next fence (R78, R147). -/
structure CalSlot where
  hist   : List CalEst
  state  : Nat
  swPend : Bool
  skip   : Bool
  solve  : Bool
  mine   : List Nat
  restart : Bool
deriving DecidableEq, Repr

/-- The calibration engine: candidate queue, samples taken from the filling buffer, accepted samples of the filling buffer
and of the latest closed one, the slots. -/
structure CalSt where
  queue   : List CalCand
  taken   : Nat
  samples : List CalSample
  closed  : List CalSample
  slots   : Vector CalSlot 16
deriving DecidableEq, Repr

/-- The engine at reset: nothing collected, every slot IDLE. -/
def CalSt.reset : CalSt :=
  { queue := [], taken := 0, samples := [], closed := [], slots := Vector.replicate 16 ⟨[], 0, false, false, false, [], false⟩ }

/-- A rulebook list being run (R125): trunk slot, the job running and the index after the last, the tile reached and whether
the job's first output has begun, the placement by logical core taken at the fence (R124), the next ring slot by 64 ×
logical core + shelf, overflow lines used (R130), whether the terminal headers are next, credits asked for as (core,
request), the grants held as (core, stamp), whether the list stops with fault headers (R132), and whether it waits for the abort
of its frame (R129). -/
structure RbRun where
  slot   : Nat
  job    : Nat
  stop   : Nat
  tile   : Nat
  begun  : Bool
  place  : List CoreId
  used   : Store Nat
  ovf    : Nat
  term   : Bool
  asked  : List (CoreId × Nat)
  held   : List (CoreId × Nat)
  fault  : Bool
  halt   : Bool
deriving DecidableEq, Repr

/-- A tile written and not yet fully acknowledged (R129): trunk slot, consumer, semaphore, request identifier, shelf lines
still to be acknowledged, body lines still to be acknowledged by memory (R130), and the header that waits for them. -/
structure RbTile where
  slot : Nat
  core : CoreId
  sem  : Nat
  seq  : Nat
  left : Nat
  mem  : Nat
  hold : List Msg
deriving DecidableEq, Repr

/-- The rulebook engine: lists running, tiles in flight, the next request identifier, and whether RB_LEVEL was raised in the
frame. -/
structure RbSt where
  runs   : List RbRun
  tiles  : List RbTile
  seq    : Nat
  level  : Bool
  last   : Nat
deriving DecidableEq, Repr

/-- The rulebook engine at reset. -/
def RbSt.reset : RbSt := { runs := [], tiles := [], seq := 0, level := false, last := 7 }

/-! ## The Map Store (chapter 16) -/

/-- A gather in a context (R300 to R305): its core and instruction, the trunk slot, the table and its entry read at start,
the mode, the index list and crate ends, lines of them that were poisoned, fetches in flight with the selector bit each read and its number,
positions still to be fetched, rows returned by position (lines), whether the crate ends break off in a violation (R272),
whether the table's active entry has changed since, and whether the frame was aborted. -/
structure MapCtx where
  core  : CoreId
  seq   : Nat
  slot  : Nat
  table : Nat
  w0    : Word
  w1    : Word
  mode  : Nat
  idx   : List Nat
  ends  : List Nat
  ibad  : List Nat
  cbad  : List Nat
  fly   : List (Nat × Nat × Nat)
  rest  : List Nat
  rows  : Store (List DLine)
  bad   : Bool
  prev  : Bool
  dead  : Bool
deriving DecidableEq, Repr

/-- An update descriptor that the engine has started (R309): its row and table, the entry taken, its source, and whether the
inactive slot has been written. -/
structure UpdJob where
  row   : Nat
  table : Nat
  w0    : Word
  w1    : Word
  src   : Nat
  written : Bool
deriving DecidableEq, Repr

/-- The gather engine: contexts (at most 8), the selector bits that are 1, tables whose range is being cleared (R313), whether
the selector memory is to be reloaded (R312), whether a descriptor waits under R310, and whether MAP_IDX was raised in the
frame; fetches issued since reset, the descriptor under way, and the recorded flips, each the number of fetches issued before it
(R310). -/
structure MapSt where
  ctx      : List MapCtx
  sel      : Store Bool
  clearing : List Nat
  loading  : Bool
  updWait  : Bool
  idxRaised : Bool
  issued   : Nat
  upd      : Option UpdJob
  flips    : List Nat
deriving DecidableEq, Repr

/-- The gather engine at reset: selector bits 0 (R312). -/
def MapSt.reset : MapSt :=
  { ctx := [], sel := [], clearing := [], loading := false, updWait := false, idxRaised := false, issued := 0, upd := none,
    flips := [] }

/-! ## Frames and trunks (chapters 2 and 17) -/

/-- A frame of a trunk in progress (R33): its number, the device time of its fence and its head flags, the TCLK cycle of
its deadline, the placement that runs it, cores whose COMMIT has arrived, and, for a trunk across devices (R371), whether
ready was sent and which devices are ready at the coordinator. -/
structure SlotFrame where
  frame  : BitVec 32
  sec    : Nat
  ns     : Nat
  flags  : Word
  dead   : Nat
  place  : List CoreId
  got    : List CoreId
  ready  : Bool
  peers  : List (Nat × Nat)
deriving DecidableEq, Repr

/-- A section of a trunk image (Table 17.2). -/
structure TrunkSec where
  kind     : Nat
  variants : Nat
  lcore    : Nat
  shelf    : Nat
  offset   : Nat
  bytes    : Nat
  count    : Nat
deriving DecidableEq, Repr

/-- A resident trunk beyond TRUNK_STAT and TRUNK_ID: the region its image lies in, logical cores per variant, sections, the
CORE_DECL words per variant and logical core (64 shelves, 15 pools, the entry word) by 32 × variant + core, rulebook jobs
(first, count) per variant, offset lists, nominal calibrations by head slot, its devices; the placement by logical
core, where each logical core's loft is parked with the working-copy marks of its committed lofts, whether it was ever launched, logical cores whose images are being copied,
whether the copy has ended and the pending values are written, whether a fence made it eligible (R38), and the first frame
agreed with its other devices (R326). -/
structure TrunkSt where
  addr    : Nat
  bytes   : Nat
  nLog    : List Nat
  secs    : List TrunkSec
  decl    : Store (List Word)
  jobs    : List (Nat × Nat)
  lists   : List Nat
  nominal : Store (List Word)
  devices : List (Nat × Nat)
  place   : List CoreId
  parked  : List (Nat × CoreId)
  marks   : Store (BitVec 64)
  ever    : Bool
  fresh   : List Nat
  copied  : Bool
  written : Bool
  elig    : Bool
  agreed  : Option (BitVec 32)
deriving DecidableEq, Repr

/-- An empty slot. -/
def TrunkSt.empty : TrunkSt :=
  { addr := 0, bytes := 0, nLog := [], secs := [], decl := [], jobs := [], lists := [], nominal := [],
    devices := [], place := [], parked := [], marks := [], ever := false, fresh := [], copied := false, written := false, elig := false,
    agreed := none }

/-! ## Power and clocks (chapter 20) -/

/-- A domain transition in progress: the state it ends in, the state it began in, and whether it is in the wake_qa or
ungate_qa period of a wake (R376). -/
structure DomTrans where
  goal : Nat
  start : Nat
  ramp : Bool
deriving DecidableEq, Repr

/-- An operating-point sequence (R383): target, voltage acknowledged, idle PLL locked, CCLK switched. -/
structure OpSeq where
  target   : Nat
  up       : Bool
  acked    : Bool
  locked   : Bool
  switched : Bool
deriving DecidableEq, Repr

/-- The PBA, the sequencer and the clocks: transitions by domain, domains waiting for admission with the TCLK cycle of their
request in order of age, waits already reported slow, the TCLK cycle of each rail's last admission, parking (R393), array
allowances by core (R379), whether PWR_OVER_BUDGET was raised in the frame, the sequence running, good crystal windows in a
row and windows judged (R388), references whose PLLs coast or whose ports are down (0 crystal, 1 HCSL, 2 156.25 MHz), those
of them that have returned, whether STANDBY has stopped PLLs, and whether PLL[1] of the pair drives CCLK. -/
structure PwrSt where
  trans      : Store DomTrans
  queue      : List (Nat × Nat)
  slow       : List Nat
  lastAdmit  : Vector (Option Nat) 4
  park       : Bool
  allow      : Store Nat
  overRaised : Bool
  seq        : Option OpSeq
  good       : Nat
  windows    : Nat
  coast      : List Nat
  back       : List Nat
  standby    : Bool
  pllB       : Bool
deriving DecidableEq, Repr

/-- Power and clocks at reset. -/
def PwrSt.reset : PwrSt :=
  { trans := [], queue := [], slow := [], lastAdmit := Vector.replicate 4 none, park := false, allow := [],
    overRaised := false, seq := none, good := 0, windows := 0, coast := [], back := [], standby := false,
    pllB := false }

/-! ## Self-test and faults (chapter 21) -/

/-- A rotation step being prepared (R395): outgoing and incoming core, the frame number of its fence, whether the copy runs
or has ended, whether the program state has been transferred, and the frame number at which it is abandoned (R397). -/
structure RotMove where
  out    : CoreId
  inc    : CoreId
  step   : BitVec 32
  limit  : BitVec 32
  copying : Bool
  copied : Bool
  moved  : Bool
deriving DecidableEq, Repr

/-- Test and fault state: the step being prepared, cores asked for by TEST_CORE or after a check trap, cores ordered fenced at the next fence, frames in which each core trapped with ARRAY_CHECK in the last 64, what
runs in the slot (0 nothing, 1 slice, 2 slice again, 3 March), cores whose tests are to run again, whether a sensor is above
warn_c, the causes now present (Table 21.2), whether leaving the safe state needs a write of release, and the spares. -/
structure TestSt where
  move    : Option RotMove
  reqs    : List CoreId
  orders  : List CoreId
  checks  : Store (List (BitVec 32))
  phase   : Nat
  again   : Bool
  hot     : Bool
  causes  : List Nat
  hold    : Bool
  spares  : List CoreId
deriving DecidableEq, Repr

/-- Test state at reset. -/
def TestSt.reset : TestSt :=
  { move := none, reqs := [], orders := [], checks := [], phase := 0, again := false, hot := false,
    causes := [], hold := false, spares := [] }

/-! ## Work queues and mailboxes (chapter 19) -/

/-- A descriptor in progress (Table 19.2, R352): its identifier on the mesh, queue, ring index,
fields, the host data fetched for it, the line of a host-read failure, credit runs asked for as (lines, identifier), lines requested so far, lines sent,
lines done, status, whether it has ended. -/
structure HqDesc where
  id      : Nat
  q       : Nat
  idx     : Nat
  op      : Nat
  flags   : Nat
  pool    : Nat
  lines   : Nat
  host    : Nat
  dev     : Nat
  cookie  : Nat
  tagList : Nat
  data    : List HostLine
  hostErr : Option Nat
  asked   : List (Nat × Nat)
  reqd    : Nat
  sent    : Nat
  done    : Nat
  status  : Nat
  fin     : Bool
deriving DecidableEq, Repr

/-- The work-queue engine: descriptors in progress in submission order, the next request identifier, the phase bit and
whether the ring passed its end by queue, and the queue served last at each priority (R352). -/
structure HqSt where
  descs : List HqDesc
  seq   : Nat
  phase : Store Bool
  last0 : Nat
  last1 : Nat
deriving DecidableEq, Repr

/-- The engine at reset. -/
def HqSt.reset : HqSt := { descs := [], seq := 0, phase := [], last0 := 63, last1 := 63 }

/-! ## The device -/

/-- The state of the device: the queue of commands waiting, and everything the spec gives the part. -/
structure State where
  /-- Commands waiting, first in, first out. -/
  pending : List Instr
  /-- What the last read returned (the model's own; log entry 8). -/
  lastRead : Word
  /-- How many free values have been drawn (the model's own; log entry 3). -/
  freeCtr : Nat
  /-- Registers that differ from their reset value, by BAR0 offset; FB registers hold their pending value. -/
  regs : Store Word
  /-- Active values of FB registers that differ from reset, by the pending register's offset (R6). -/
  act : Store Word
  /-- High halves latched by 32-bit counter reads, by requester and counter (R10). -/
  latch : List (Requester × Nat × Half)
  /-- Messages in flight on the mesh, oldest first. -/
  net : List Msg
  /-- What has left the device, oldest first (the model's own record; log entry 8). -/
  out : List Out
  /-- Events notified to the system controller's firmware, oldest first (R359). -/
  fwNotes : List Nat
  pcie : PcieSt
  cores : Vector CoreSt 36
  time : TimeSt
  flash : FlashSt
  fuse : FuseSt
  sec : SecSt
  /-- Fault-log entries the firmware has copied to flash (R404). -/
  logCopied : Nat
  ingest : IngestSt
  grid : GridSt
  cal : CalSt
  rb : RbSt
  map : MapSt
  /-- The frames in progress of each trunk slot, oldest first. -/
  frames : Vector (List SlotFrame) 8
  trunks : Vector TrunkSt 8
  pwr : PwrSt
  test : TestSt
  hq : HqSt
  /-- Functions whose mailbox commands wait, in the order of their go writes (R361). -/
  mbox : List Nat
  /-- Trunk slots whose committed loft has lost its contents: their next launch is refused (R50). -/
  loftLost : List Nat
  links : Vector LinkPort 4
  mem : MemSt
  pub : PubSt
  /-- SMU contexts in use, at most 64 (R291). -/
  smu : List SmuCtx
deriving DecidableEq, Repr

/-- The machine right after reset. -/
def State.reset : State :=
  { pending := [], lastRead := 0, freeCtr := 0, regs := [], act := [], latch := [], net := [], out := [], fwNotes := [],
    pcie := PcieSt.reset, cores := Vector.replicate 36 CoreSt.reset, time := TimeSt.reset,
    flash := FlashSt.blank, fuse := FuseSt.blank, sec := SecSt.reset, logCopied := 0, ingest := IngestSt.reset,
    grid := GridSt.reset, cal := CalSt.reset, rb := RbSt.reset, map := MapSt.reset,
    frames := Vector.replicate 8 [], trunks := Vector.replicate 8 TrunkSt.empty, pwr := PwrSt.reset,
    test := TestSt.reset, hq := HqSt.reset, mbox := [], loftLost := [],
    links := Vector.replicate 4 LinkPort.fresh, mem := MemSt.reset, pub := ⟨0, 0, [], false⟩, smu := [] }

/-- Reasons the machine stops. None: every command of the table has an effect in the spec, so no step ends in a fault. -/
inductive Fault where
  /-- Raised by no meaning: a place for a stop the spec would back; safe. -/
  | unreachable
deriving DecidableEq, Repr

/-- Reasons a command has no meaning. -/
inductive Refusal where
  /-- A command whose meaning is not written, by its mnemonic; safe. -/
  | notModelled (mnemonic : String)
deriving DecidableEq, Repr

/-- What starting an instruction at the head of its queue comes to (the model's own): it completed, it started and has
requests outstanding, it cannot start yet, or it trapped with a code and an argument. -/
inductive Start where
  | done (s : State)
  | active (a : Active) (s : State)
  | hold
  | trap (code arg : Nat) (s : State)
deriving DecidableEq, Repr

end Sys2Proof.Machine
end

