-- ==== Sys2Proof/Machine/Ops.lean ====
section
/-! DEFINITION. The named operations over the state: registers and their active values, cores, free values, messages. -/

namespace Sys2Proof.Machine

/-! ## Registers -/

/-- A register's value (the pending value of an FB register). -/
def State.reg (s : State) (o : Nat) : Word := (sget o s.regs).getD (regReset o)

/-- Set a register; the store lists only what differs from reset. -/
def State.setReg (o : Nat) (v : Word) (s : State) : State :=
  { s with regs := if v = regReset o then sdel o s.regs else sput o v s.regs }

/-- An FB register's active value (R6). -/
def State.actReg (s : State) (o : Nat) : Word := (sget o s.act).getD (regReset o)

/-- Set an FB register's active value. -/
def State.setAct (o : Nat) (v : Word) (s : State) : State :=
  { s with act := if v = regReset o then sdel o s.act else sput o v s.act }

/-- A field of a register. -/
def State.regF (s : State) (o hi lo : Nat) : Nat := fld (s.reg o) hi lo
/-- A field of an active value. -/
def State.actF (s : State) (o hi lo : Nat) : Nat := fld (s.actReg o) hi lo
/-- Replace a field of a register. -/
def State.setF (o hi lo x : Nat) (s : State) : State := s.setReg o (setFld (s.reg o) hi lo x)

/-- The offset of a CORE register on core `c`. -/
def coreOff (o : Nat) (c : CoreId) : Nat := o + 0x100000 * c.val

/-! ## Cores, free values, messages -/

/-- A core's state. -/
def State.core (s : State) (c : CoreId) : CoreSt := s.cores[c.val]
/-- Replace a core's state. -/
def State.setCore (c : CoreId) (k : CoreSt) (s : State) : State := { s with cores := s.cores.set c.val k }
/-- Change a core's state. -/
def State.modCore (c : CoreId) (f : CoreSt → CoreSt) (s : State) : State := s.setCore c (f (s.core c))

/-- A fresh free value (log entry 3). -/
def State.free (s : State) (site w : Nat) : BitVec w := Config.free site s.freeCtr w
/-- One free value drawn. -/
def State.drawn (s : State) : State := { s with freeCtr := s.freeCtr + 1 }

/-- Put a message on the mesh. -/
def State.send (m : Msg) (s : State) : State := { s with net := s.net ++ [m] }
/-- Record something that leaves the device. -/
def State.emit (o : Out) (s : State) : State := { s with out := s.out ++ [o] }

/-! ## The mesh (R15 to R17) -/

/-- Channel and sub-channel of an address (R332). -/
def memPlace (s : State) (a : Nat) : Nat × Nat :=
  let l := a / 64
  if bitOf (s.reg Reg.MEM_CFG) 0 then
    let i := (l ^^^ (l >>> 3) ^^^ (l >>> 6)) % 8
    ((i / 4) * 4 + i / 2 % 2, i % 2)
  else
    let i := (l ^^^ (l >>> 4) ^^^ (l >>> 8)) % 16
    (i / 2, i % 2)

/-- The mesh stop (X, Y) of an agent (R15, Table 1.1). A memory message goes to the stop of the half whose channel holds its
address (R332). Packets of other devices leave and enter at the SYS stop. -/
def stopOf (s : State) (addr : Nat) : Agent → Nat × Nat
  | .core c => (c.val % 6, 1 + c.val / 6)
  | .mem => if (memPlace s addr).1 < 4 then (0, 0) else (5, 0)
  | .grid => (1, 0)
  | .map => (2, 0)
  | .smu => (3, 0)
  | .sys => (4, 0)
  | .hq => (4, 0)
  | .dev _ _ _ => (4, 0)

/-- The stops a packet passes, X first and then Y (R16). -/
def meshRoute (a b : Nat × Nat) : List (Nat × Nat) :=
  let span (i j : Nat) : List Nat := if i ≤ j then (List.range (j + 1 - i)).map (i + ·) else (List.range (i + 1 - j)).map (i - ·)
  (span a.1 b.1).map (fun x => (x, a.2)) ++ ((span a.2 b.2).drop 1).map (fun y => (b.1, y))

/-- The virtual channel of a kind of message (Table 1.2). -/
def vcOf : MsgKind → Nat
  | .readReq | .memRead | .gridRead | .gather => 0
  | .write | .memWrite | .ringWrite | .smuWork => 1
  | .readRsp | .writeAck => 2
  | .creditReq | .creditAns | .signal | .commit | .trapReport | .poisonReport | .gateReport | .fence | .ready | .decision
  | .abortMsg => 3

/-- The way of a message across the mesh; one that stays at its stop has no way. -/
def wayOf (s : State) (m : Msg) : List (Nat × Nat) := meshRoute (stopOf s m.addr m.src) (stopOf s m.addr m.dst)

/-- Must a message arrive before another that is sent later (R16): the same virtual channel between the same two stops? -/
def sameWay (s : State) (a b : Msg) : Bool :=
  vcOf a.kind == vcOf b.kind && decide (1 < (wayOf s a).length) && wayOf s a == wayOf s b

/-- The oldest message that satisfies `p`, and the state without it; none while an older message is still ahead of it on its
way (R16). -/
def State.takeMsg (s : State) (p : Msg → Bool) : Option (Msg × State) :=
  match takeFirst p s.net with
  | some (m, rest) => if (s.net.takeWhile fun x => !p x).any (sameWay s m) then none else some (m, { s with net := rest })
  | none => none

/-- The oldest message of a kind from one agent to another, when it has arrived (R16), and the state without it. -/
def State.receive (s : State) (k : MsgKind) (src dst : Agent) : Option (Msg × State) :=
  s.takeMsg fun m => m.kind == k && m.src == src && m.dst == dst

/-- The frames in progress of a trunk slot, oldest first. -/
def State.slotFrames (s : State) (k : Nat) : List SlotFrame := if h : k < 8 then s.frames[k] else []
/-- Replace them. -/
def State.setFrames (k : Nat) (l : List SlotFrame) (s : State) : State :=
  if h : k < 8 then { s with frames := s.frames.set k l } else s
/-- The number of the latest frame in progress of a slot, or FRAME_NUM. -/
def State.runFrame (s : State) (k : Nat) : BitVec 32 :=
  match (s.slotFrames k).getLast? with
  | some f => f.frame
  | none => (s.reg Reg.FRAME_NUM).truncate 32

/-- All cores. -/
def allCores : List CoreId := List.finRange 36

/-- A core by number. -/
def coreOf (n : Nat) : Option CoreId := if h : n < 36 then some ⟨n, h⟩ else none

/-- Is frame number `a` later than `b` (R12)? -/
def later (a b : BitVec 32) : Bool :=
  let d := (a - b).toNat
  decide (1 ≤ d) && decide (d ≤ 2 ^ 31 - 1)

/-- The comparison of R13 for sequence numbers of `w` bits. -/
def laterSeq (w a b : Nat) : Bool :=
  let d := (a + 2 ^ w - b % 2 ^ w) % 2 ^ w
  decide (1 ≤ d) && decide (d ≤ 2 ^ (w - 1) - 1)

/-- The device's own coordinate (LINK_TOPO, R369). -/
def State.coordX (s : State) : Nat := s.regF Reg.LINK_TOPO 7 0
/-- The device's own coordinate, y. -/
def State.coordY (s : State) : Nat := s.regF Reg.LINK_TOPO 15 8

/-- The fields of word `w` of a job descriptor that are not reserved (Table 6.2). -/
def jobMask (w : Nat) : Word :=
  match w with
  | 0 => 0xFFFFFFFF0F3FFF7F
  | 2 => 0xFFFFFFFFFF
  | _ => 0xFFFFFFFF

end Sys2Proof.Machine
end

