-- ==== Sys2Proof/Machine/Certs.lean ====
section
/-! DEFINITION. Certificates and chains (R412, R413, R415, R417, R418). -/

namespace Sys2Proof.Machine

/-- Bytes `[lo, lo + n)` of a byte list. -/
def sub (bs : List Nat) (lo n : Nat) : List Nat := (bs.drop lo).take n

/-- The 48 bytes of a digest. -/
def digestBytes (d : BitVec 384) : List Nat := bytesLE 48 d.toNat

/-- The key_id of a certificate's two public keys: the first 8 bytes of their SHA-384 digest (R412). -/
def keyIdOf (c : List Nat) : Nat := (Config.sha384 (sub c 96 1984)).toNat % 2 ^ 64

/-- A certificate's kind. -/
def certKind (c : List Nat) : Nat := leAt c 5 1
/-- A certificate's key_id field. -/
def certKey (c : List Nat) : Nat := leAt c 8 8
/-- A certificate's issuer_id field. -/
def certIssuer (c : List Nat) : Nat := leAt c 16 8

/-- Are all bytes zero? -/
def allZero (bs : List Nat) : Bool := bs.all fun b => b == 0

/-- Is a certificate of the format of Table 22.5? -/
def certFormat (c : List Nat) : Bool :=
  c.length == 5453 && leAt c 0 4 == 0x43545254 && leAt c 4 1 == 1 && decide (1 ≤ certKind c) && decide (certKind c ≤ 8) &&
  decide (leAt c 6 2 ≤ 1) && certKey c == keyIdOf c && (certKind c != 1 || certIssuer c == certKey c) &&
  (certKind c == 5 || leAt c 56 8 == 0) && allZero (sub c 64 32)

/-- Do both signatures verify under a certificate's keys: Ed25519 at `ed`, ML-DSA-65 at `ml`, over a message? -/
def bothSigs (signer msg ed ml : List Nat) : Bool :=
  Config.sigValid 0 (sub signer 96 32) msg ed && Config.sigValid 1 (sub signer 128 1952) msg ml

/-- Is a certificate signed by an issuer (R412)? -/
def certSigned (issuer c : List Nat) : Bool :=
  bothSigs issuer (digestBytes (Config.sha384 (c.take 2080))) (sub c 2080 64) (sub c 2144 3309)

/-- Does a certificate name, and verify under, an issuer that may issue certificates (R413)? -/
def issuedBy (issuer c : List Nat) : Bool :=
  certIssuer c == certKey issuer && leAt issuer 6 1 % 2 == 1 && certSigned issuer c

/-- Is device time within a certificate's validity? -/
def certValidAt (sec : Nat) (c : List Nat) : Bool :=
  decide (leAt c 40 6 ≤ sec) && (leAt c 46 6 == 0 || decide (sec ≤ leAt c 46 6))

/-- Does a chain verify against anchors (R413)? `timed` says that device time has been set; a root is accepted only as an
anchor, and is signed by itself. -/
def chainOk (anchors : List (List Nat)) (timed : Bool) (sec : Nat) : List (List Nat) → Bool
  | [] => false
  | c :: rest =>
    certFormat c && certKind c != 1 && (!timed || certValidAt sec c) &&
    match rest with
    | [] => anchors.any fun a =>
      certFormat a && (certKind a != 1 || certSigned a a) && (!timed || certValidAt sec a) && issuedBy a c
    | i :: _ => issuedBy i c && chainOk anchors timed sec rest

/-- Split bytes into certificates. -/
def splitCerts : Nat → List Nat → List (List Nat)
  | 0, _ => []
  | n + 1, bs => if bs.isEmpty then [] else bs.take 5453 :: splitCerts n (bs.drop 5453)

/-- May device time judge validity (R413)? -/
def timeSet (s : State) : Bool := bitOf (s.reg Reg.TIME_STAT) 0

/-- The head trust store of the running image. -/
def trustStore (s : State) : List (List Nat) := match s.sec.fw with
  | none => []
  | some f => f.trust
/-- The key certificates of the running image. -/
def keyCerts (s : State) : List (List Nat) := match s.sec.fw with
  | none => []
  | some f => f.keys

/-- Number of set bits of a thermometer code (Table 22.6). -/
def svnOf (v : BitVec 64) : Nat := popcnt 64 v.toNat

/-- Does a head's certificate chain verify (R418): head certificate first, at most two CAs, anchored in the trust store,
model as HELLO gave it, rated life not zero? -/
def headChainOk (s : State) (model : Nat) (bytes : List Nat) : Bool :=
  let cs := splitCerts 4 bytes
  bytes.length % 5453 == 0 && decide (cs.length ≤ 3) &&
  (match cs with
   | [] => false
   | h :: cas => certKind h == 5 && (cas.all fun c => certKind c == 2) && leAt h 60 4 == model && leAt h 56 4 != 0) &&
  chainOk (trustStore s) (timeSet s) s.time.sec cs

end Sys2Proof.Machine
end

