-- ==== Sys2Proof/Machine/Flags.lean ====
section
/-! DEFINITION. Events, their routing to MSI-X, firmware and pins (R358, R359), and the statistics counters (R9). -/

namespace Sys2Proof.Machine

/-! ## Event numbers (Table 19.7, R392, R406, R424) -/

/-- The register-access error event. -/
abbrev evRegAccess : Nat := 0x000
/-- FRAME_FENCE. -/
abbrev evFrameFence : Nat := 0x002
/-- FRAME_COMMIT. -/
abbrev evFrameCommit : Nat := 0x003
/-- FRAME_ABORT. -/
abbrev evFrameAbort : Nat := 0x004
/-- FRAME_LATE. -/
abbrev evFrameLate : Nat := 0x005
/-- FRAME_RENUMBER. -/
abbrev evFrameRenumber : Nat := 0x038
/-- HQ_ERR. -/
abbrev evHqErr : Nat := 0x006
/-- TIME_STEP_DENIED. -/
abbrev evTimeStepDenied : Nat := 0x041
/-- TIME_SERVO. -/
abbrev evTimeServo : Nat := 0x042
/-- PUB_POISON. -/
abbrev evPubPoison : Nat := 0x061
/-- GRID_HWM. -/
abbrev evGridHwm : Nat := 0x101
/-- GRID_FULL. -/
abbrev evGridFull : Nat := 0x102
/-- GRID_E2E. -/
abbrev evGridE2e : Nat := 0x103
/-- GRID_LAT_OVER. -/
abbrev evGridLatOver : Nat := 0x104
/-- RB_FAULT. -/
abbrev evRbFault : Nat := 0x105
/-- RB_E2E. -/
abbrev evRbE2e : Nat := 0x106
/-- RB_LEVEL. -/
abbrev evRbLevel : Nat := 0x107
/-- CAL_NO_ANCHOR. -/
abbrev evCalNoAnchor : Nat := 0x111
/-- CAL_E2E. -/
abbrev evCalE2e : Nat := 0x112
/-- MAP_IDX. -/
abbrev evMapIdx : Nat := 0x141
/-- MAP_E2E. -/
abbrev evMapE2e : Nat := 0x142
/-- MAP_UPD_ERR. -/
abbrev evMapUpdErr : Nat := 0x143
/-- MAP_SEL_LOST. -/
abbrev evMapSelLost : Nat := 0x144
/-- SMU_E2E. -/
abbrev evSmuE2e : Nat := 0x149
/-- MEM_UE. -/
abbrev evMemUe : Nat := 0x151
/-- MEM_TRAIN_FAIL. -/
abbrev evMemTrainFail : Nat := 0x152
/-- MEM_E2E. -/
abbrev evMemE2e : Nat := 0x153
/-- CELLAR_RING_FULL. -/
abbrev evCellarRingFull : Nat := 0x154
/-- LINK_COMMIT_LOST. -/
abbrev evLinkCommitLost : Nat := 0x165
/-- LINK_ROUTE_DROP. -/
abbrev evLinkRouteDrop : Nat := 0x166
/-- PWR_WAKE_SLOW. -/
abbrev evWakeSlow : Nat := 0x181
/-- PWR_OVER_BUDGET. -/
abbrev evOverBudget : Nat := 0x182
/-- PWR_AVS_ERR. -/
abbrev evAvsErr : Nat := 0x183
/-- PWR_OP_DONE. -/
abbrev evOpDone : Nat := 0x184
/-- PWR_STANDBY_WAKE. -/
abbrev evStandbyWake : Nat := 0x185
/-- CLK_REF_LOST. -/
abbrev evRefLost : Nat := 0x191
/-- CLK_REF_BACK. -/
abbrev evRefBack : Nat := 0x192
/-- CLK_XTAL_FAIL. -/
abbrev evXtalFail : Nat := 0x193
/-- CLK_RELOCK_DONE. -/
abbrev evRelockDone : Nat := 0x194
/-- ROT_STEP. -/
abbrev evRotStep : Nat := 0x1A1
/-- ROT_POSTPONE. -/
abbrev evRotPostpone : Nat := 0x1A2
/-- LBIST_FAIL. -/
abbrev evLbistFail : Nat := 0x1A3
/-- MBIST_FAIL. -/
abbrev evMbistFail : Nat := 0x1A4
/-- CORE_FENCE. -/
abbrev evCoreFence : Nat := 0x1A5
/-- SC_DEGRADED. -/
abbrev evScDegraded : Nat := 0x1A6
/-- SAFE_STATE. -/
abbrev evSafeState : Nat := 0x1A7
/-- THERM_WARN. -/
abbrev evThermWarn : Nat := 0x1A8
/-- LBIST_TRANSIENT. -/
abbrev evLbistTransient : Nat := 0x1A9
/-- SEC_BOOT_SLOT_FAIL. -/
abbrev evBootSlotFail : Nat := 0x1C1
/-- SEC_BOOT_FALLBACK. -/
abbrev evBootFallback : Nat := 0x1C2
/-- SEC_DEBUG_UNLOCK. -/
abbrev evDebugUnlock : Nat := 0x1C3
/-- SEC_SVN_ADVANCED. -/
abbrev evSvnAdvanced : Nat := 0x1C4
/-- SEC_ACCOUNT_BAD. -/
abbrev evAccountBad : Nat := 0x1C5
/-- SEC_FUSE_ERR. -/
abbrev evFuseErr : Nat := 0x1C6
/-- SEC_DEBUG_FAIL. -/
abbrev evDebugFail : Nat := 0x1C7
/-- MBOX_DONE[f]. -/
def evMboxDone (f : Nat) : Nat := 0x007 + f
/-- TOUT_MISS[i]. -/
def evToutMiss (i : Nat) : Nat := 0x043 + i
/-- TIN_OVF[i]. -/
def evTinOvf (i : Nat) : Nat := 0x047 + i
/-- ETH_LINK[p]. -/
def evEthLink (p : Nat) : Nat := 0x050 + p
/-- CAL_ACCEPT of head slot n. -/
def evCalAccept (n : Nat) : Nat := 0x120 + n
/-- CAL_DEGENERATE of head slot n. -/
def evCalDegenerate (n : Nat) : Nat := 0x130 + n
/-- LXL_DOWN[p]. -/
def evLxlDown (p : Nat) : Nat := 0x161 + p
/-- HQ_CQ[q]. -/
def evHqCq (q : Nat) : Nat := 0x320 + q
/-- Event `i` of trunk slot `k`: 0 GATE_FALLBACK, 1 GATE_RETURN, 2 TRUNK_REFUSED, 3 TRUNK_STOPPED, 4 NO_CORES. -/
def evSlot (k i : Nat) : Nat := 0x010 + 5 * k + i
/-- Event `i` of head slot `n`: 0 HEAD_AUTH_FAIL, 1 HEAD_REPLACED, 2 HEAD_LIFE_WARN, 3 HEAD_EOL, 4 HEAD_LIFE_MISMATCH,
5 HEAD_FAULT, 6 counter overflow, 7 HEAD_ACCOUNT_EVICT. -/
def evHead (n i : Nat) : Nat := 0x080 + 8 * n + i
/-- Event `i` of core `c`: 0 counter overflow, 1 SPAD_UE, 2 SPAD_REPAIR_FAIL, 3 LOFT_LOST, 4 ARRAY_PART_FAULT,
5 CORE_FAULT. -/
def evCore (c : CoreId) (i : Nat) : Nat := 0x200 + 8 * c.val + i

/-- The overflow event of the block that owns the counter at an offset (R358). -/
def ovfEvent (o : Nat) : Nat :=
  match o / 0x100000 with
  | 0 => 0x001
  | 1 => 0x190
  | 2 => 0x180
  | 3 => 0x040
  | 4 => if o % 0x100000 < 0x80000 then 0x058 + (o % 0x100000) / 0x10000 else 0x060
  | 5 => 0x080 + 8 * ((o % 0x1000) / 0x100) + 6
  | 6 => 0x100
  | 7 => 0x110
  | 8 => 0x140
  | 9 => 0x148
  | 10 => 0x150
  | 11 => 0x039
  | 12 => 0x160
  | 13 => 0x1A0
  | 14 => 0x1C0
  | 15 => 0x03A
  | n => 0x200 + 8 * (n - 16)

/-! ## Raising -/

/-- The size of a function's MSI-X table (R348, R359): 0 for a virtual function that SR-IOV has not enabled. -/
def msixSize (p : PcieSt) (fn : Nat) : Nat :=
  if fn = 0 then 256 else if p.vfEnable ∧ fn ≤ p.numVfs then 16 else 0

/-- A counter's value after `n` more (R9): 48 bits, saturating, with the sticky overflow bit. -/
def cntAdd (v : Word) (n : Nat) : Word :=
  let c := v.toNat % 2 ^ 48 + n
  if c ≥ 2 ^ 48 - 1 then BitVec.ofNat 64 (2 ^ 63 + (2 ^ 48 - 1))
  else BitVec.ofNat 64 ((if v.getLsbD 63 then 2 ^ 63 else 0) + c)

/-- Does adding `n` take the counter into saturation (R9)? -/
def cntSaturates (v : Word) (n : Nat) : Bool := !v.getLsbD 63 && decide (v.toNat % 2 ^ 48 + n ≥ 2 ^ 48 - 1)

/-- Set an event's pending bit. -/
def State.setPend (e : Nat) (s : State) : State :=
  let o := Reg.EVT_PEND + 4 * (e / 32)
  s.setReg o (s.reg o ||| BitVec.ofNat 64 (2 ^ (e % 32)))

/-- Is an event pending? -/
def State.isPend (s : State) (e : Nat) : Bool := (s.reg (Reg.EVT_PEND + 4 * (e / 32))).getLsbD (e % 32)

/-- Raise an event (R359). The first argument bounds the chain event, dropped vector, overflow of EVT_VEC_DROP, its event. -/
def raiseN : Nat → Nat → State → State
  | 0, _, s => s
  | k + 1, e, s =>
    if s.isPend e then s
    else
      let s := s.setPend e
      let r := s.reg (Reg.EVT_ROUTE + 4 * e)
      let fn := if fld r 11 8 ≥ 9 then 0 else fld r 11 8
      let vec := fld r 7 0
      let s :=
        if !bitOf r 12 then s
        else if vec ≥ msixSize s.pcie fn then
          let v := s.reg Reg.EVT_VEC_DROP
          let s := s.setReg Reg.EVT_VEC_DROP (cntAdd v 1)
          if cntSaturates v 1 then raiseN k 0x03A s else s
        else if !s.pcie.linkUp then s
        else if s.pcie.masked.contains (fn, vec) || s.pcie.d3hot.contains fn then
          { s with pcie := { s.pcie with msixPend := (fn, vec) :: s.pcie.msixPend.erase (fn, vec) } }
        else s.emit (.msix fn vec)
      if bitOf r 13 then { s with fwNotes := s.fwNotes ++ [e] } else s

/-- Raise an event (R359). -/
def raise (e : Nat) (s : State) : State := raiseN 2 e s

/-- Add to a statistics counter (R9). -/
def bumpN (o n : Nat) (s : State) : State :=
  if n = 0 then s
  else
    let v := s.reg o
    let s := s.setReg o (cntAdd v n)
    if cntSaturates v n then raise (ovfEvent o) s else s

/-- Count one. -/
def bump (o : Nat) (s : State) : State := bumpN o 1 s

/-- Count one in a counter of core `c`. -/
def bumpC (c : CoreId) (o : Nat) (s : State) : State := bump (coreOff o c) s

/-- The register-access error event (R8). -/
def accessError (s : State) : State := raise evRegAccess s

/-- A write of an FB register's pending value; one that completes in the guard interval is counted (R37, R40). -/
def fbPut (o : Nat) (v : Word) (s : State) : State :=
  let s := s.setReg o v
  if bitOf (s.reg Reg.FRAME_STAT) 1 then bump Reg.FB_LATE_WRITE_CNT s else s

/-- The level of EVT_OUT[i] (R359): high while any pending event routes to it. -/
def evtOut (s : State) (i : Nat) : Bool :=
  (List.range 1024).any fun e => s.isPend e && (s.reg (Reg.EVT_ROUTE + 4 * e)).getLsbD (14 + i)

end Sys2Proof.Machine
end

