-- ==== Sys2Proof/Machine/FaultLog.lean ====
section
/-! DEFINITION. The fault log (R404, Table 21.3). -/

namespace Sys2Proof.Machine

/-- The four 64-bit words of a fault-log entry (Table 21.3). -/
def faultWords (s : State) (event code inst detail : Nat) : Word × Word × Word × Word :=
  (BitVec.ofNat 64 (s.time.sec % 2 ^ 48 + (s.time.ns % 2 ^ 16) * 2 ^ 48),
   BitVec.ofNat 64 (s.time.ns / 2 ^ 16 % 2 ^ 16 + (event % 2 ^ 16) * 2 ^ 16 + (code % 256) * 2 ^ 32 + (inst % 256) * 2 ^ 40),
   BitVec.ofNat 64 ((s.reg Reg.FRAME_NUM).toNat % 2 ^ 32 + (detail % 2 ^ 32) * 2 ^ 32),
   BitVec.ofNat 64 (detail / 2 ^ 32 % 2 ^ 32))

/-- Write one entry of the fault log: entry FAULT_LOG_HEAD mod 256; an entry overwritten before its copy is counted as
lost. -/
def logFault (event code inst detail : Nat) (s : State) : State :=
  let h := (s.reg Reg.FAULT_LOG_HEAD).toNat
  let w := faultWords s event code inst detail
  let o := Reg.FAULT_LOG + 0x20 * (h % 256)
  let lost := (h + 2 ^ 32 - s.logCopied % 2 ^ 32) % 2 ^ 32 ≥ 256
  let s := ((((s.setReg o w.1).setReg (o + 8) w.2.1).setReg (o + 16) w.2.2.1).setReg (o + 24) w.2.2.2)
  let s := s.setReg Reg.FAULT_LOG_HEAD (BitVec.ofNat 64 ((h + 1) % 2 ^ 32))
  if lost then bump Reg.FAULT_LOG_LOST { s with logCopied := (s.logCopied + 1) % 2 ^ 32 } else s

end Sys2Proof.Machine
end

