-- ==== Sys2Proof/Machine/Scratch.lean ====
section
/-! DEFINITION. The scratchpad: line storage with its error checking and repair queue (R151 to R154, R161, R168), the shelf
table (R155 to R159), and core traps (R261). -/

namespace Sys2Proof.Machine

/-! ## Trap codes (Table 13.9) -/

abbrev trapIllegal : Nat := 0x01
abbrev trapAlign : Nat := 0x02
abbrev trapLoopDepth : Nat := 0x03
abbrev trapCallDepth : Nat := 0x04
abbrev trapSemOverflow : Nat := 0x05
abbrev trapSw : Nat := 0x06
abbrev trapEntry : Nat := 0x07
abbrev trapCommitStale : Nat := 0x08
abbrev trapCommitOrder : Nat := 0x09
abbrev trapUnmapped : Nat := 0x10
abbrev trapDenied : Nat := 0x11
abbrev trapShelfInvalid : Nat := 0x12
abbrev trapShelfOwner : Nat := 0x13
abbrev trapShelfBound : Nat := 0x14
abbrev trapCreditTimeout : Nat := 0x15
abbrev trapBankEcc : Nat := 0x18
abbrev trapPoison : Nat := 0x19
abbrev trapArrayShape : Nat := 0x20
abbrev trapNoWeight : Nat := 0x21
abbrev trapArrayCheck : Nat := 0x22
abbrev trapFmt : Nat := 0x23
abbrev trapTileFormat : Nat := 0x28
abbrev trapTileTransp : Nat := 0x29
abbrev trapGateMask : Nat := 0x2A
abbrev trapSpillFull : Nat := 0x2B
abbrev trapScaInit : Nat := 0x2C
abbrev trapRbFault : Nat := 0x2D
abbrev trapRange : Nat := 0x30

/-- The abort cause of a trap code (Table 13.9, last column). -/
def trapCause (code : Nat) : Nat :=
  match code with
  | 0x08 => 0x06 | 0x15 => 0x05 | 0x18 => 0x04 | 0x22 => 0x03 | _ => 0x07

/-! ## Shelf entries (Table 8.4) -/

/-- The active entry of shelf `i` of core `c` (R156). -/
def shelfEnt (s : State) (c : CoreId) (i : Nat) : Word := s.actReg (coreOff (Reg.SHELF + 8 * (i % 64)) c)

/-- Entry in use. -/
def seValid (e : Word) : Bool := bitOf e 0
/-- Owning trunk slot. -/
def seSlot (e : Word) : Nat := fld e 3 1
/-- 0 none, 1 loft, 2 committed loft. -/
def seLoft (e : Word) : Nat := fld e 5 4
/-- Format field. -/
def seFmt (e : Word) : Nat := fld e 10 6
/-- Banks spanned, log2. -/
def seIlv (e : Word) : Nat := fld e 13 11
/-- Physical line of shelf line 0. -/
def seBase (e : Word) : Nat := fld e 30 14
/-- Shelf lines. -/
def seLen (e : Word) : Nat := fld e 48 31
/-- Credit pool that admits remote writes. -/
def sePool (e : Word) : Nat := fld e 52 49

/-- Rows per bank of one copy (R155). -/
def seRows (e : Word) : Nat := cdiv (seLen e) (2 ^ seIlv e)

/-- The physical line of shelf line `j`, of the second copy when `second` (R155). -/
def physOf (e : Word) (second : Bool) (j : Nat) : Nat :=
  let nb := 2 ^ seIlv e
  (seBase e / 8192 + j % nb) * 8192 + seBase e % 8192 + j / nb + (if second then seRows e else 0)

/-- The shelf line that a physical line holds in the named copy, if any. -/
def lineOfPhys (e : Word) (second : Bool) (p : Nat) : Option Nat :=
  let nb := 2 ^ seIlv e
  let b0 := seBase e / 8192
  let r0 := seBase e % 8192 + (if second then seRows e else 0)
  if p / 8192 < b0 || b0 + nb ≤ p / 8192 || p % 8192 < r0 then none
  else
    let j := (p % 8192 - r0) * nb + (p / 8192 - b0)
    if j < seLen e then some j else none

/-- Is the layout of an entry valid, with no reserved loft, format or interleave (R155)? -/
def shelfLayoutOk (e : Word) : Bool :=
  let nb := 2 ^ seIlv e
  let b0 := seBase e / 8192
  let c := if seLoft e = 2 then 2 else 1
  decide (seLoft e ≤ 2) && decide (seFmt e ≤ 0x12) && decide (seIlv e ≤ 4) &&
    decide (b0 % nb = 0) && decide (b0 + nb ≤ 16) && decide (seBase e % 8192 + c * seRows e ≤ 8192)

/-- Is the second copy of shelf `i` the working one (R158, R159)? -/
def workSecond (s : State) (c : CoreId) (i : Nat) : Bool :=
  seLoft (shelfEnt s c i) == 2 && (s.core c).swap.getLsbD (i % 64)

/-- The committed loft shelf, if any, of which a physical line is in the committed copy. -/
def committedAt (s : State) (c : CoreId) (p : Nat) : Option Nat :=
  (List.range 64).find? fun i =>
    let e := shelfEnt s c i
    seValid e && seLoft e == 2 && (lineOfPhys e (!(workSecond s c i)) p).isSome

/-! ## Trunk slots and the lofts they have parked (R158, R322) -/

/-- A slot's trunk. -/
def State.trunk (s : State) (k : Idx8) : TrunkSt := s.trunks[k.val]
/-- Replace it. -/
def State.setTrunk (k : Idx8) (t : TrunkSt) (s : State) : State := { s with trunks := s.trunks.set k.val t }
/-- Change it. -/
def State.modTrunk (k : Idx8) (f : TrunkSt → TrunkSt) (s : State) : State := s.setTrunk k (f (s.trunk k))
/-- All slots. -/
def allSlots : List Idx8 := List.finRange 8

/-- The shelf words a trunk declares for a logical core. -/
def declWords (t : TrunkSt) (v l : Nat) : List Word := (sget (32 * v + l) t.decl).getD []

/-- The loft shelves of a trunk's logical core, as (number, entry): the same in every variant (Table 17.4). -/
def declLofts (t : TrunkSt) (l : Nat) : List (Nat × Word) :=
  ((declWords t 0 l).take 64).mapIdx (fun i w => (i, w)) |>.filter fun e => seValid e.2 && seLoft e.2 != 0

/-- The lofts parked on a core, as (slot, shelf, entry). -/
def parkedOn (s : State) (c : CoreId) : List (Nat × Nat × Word) :=
  allSlots.flatMap fun k =>
    let t := s.trunk k
    (t.parked.filter fun e => e.2 == c).flatMap fun e => (declLofts t e.1).map fun l => (k.val, l.1, l.2)

/-- The parked committed loft, as (slot, shelf), of which a physical line is in the committed copy. -/
def parkedCommitted (s : State) (c : CoreId) (p : Nat) : Option (Nat × Nat) :=
  allSlots.findSome? fun k =>
    let t := s.trunk k
    (t.parked.filter fun e => e.2 == c).findSome? fun e =>
      ((declLofts t e.1).find? fun l => seLoft l.2 == 2 &&
        (lineOfPhys l.2 (!(((sget e.1 t.marks).getD 0).getLsbD (l.1 % 64))) p).isSome).map fun l => (k.val, l.1)

/-! ## Lines -/

/-- A committed loft shelf lost its contents: LOFT_LOST, and the slot's next launch is refused (R50, R154, R161). -/
def loseLoft (c : CoreId) (i : Nat) (s : State) : State :=
  let k := seSlot (shelfEnt s c i)
  let s := logFault (evCore c 3) 0 c.val i s
  raise (evCore c 3) { s with loftLost := if s.loftLost.contains k then s.loftLost else s.loftLost ++ [k] }

/-- A parked committed loft has lost its contents. -/
def loseParked (c : CoreId) (k i : Nat) (s : State) : State :=
  let s := logFault (evCore c 3) 0 c.val i s
  raise (evCore c 3) { s with loftLost := if s.loftLost.contains k then s.loftLost else s.loftLost ++ [k] }

/-- A bank needs a repair and no spare is left: SPAD_REPAIR_FAIL; the core is fenced at the next fence (R168, R402). -/
def repairFail (c : CoreId) (bank : Nat) (s : State) : State :=
  let s := s.setF (coreOff (Reg.SPAD_REPAIR + 4 * bank) c) 8 8 1
  raise (evCore c 2) { s with test := { s.test with
    orders := if s.test.orders.contains c then s.test.orders else s.test.orders ++ [c] } }

/-- Queue the row of a physical line for soft repair; a row for which no spare would be left fails at once (R168). -/
def queueRow (c : CoreId) (p : Nat) (s : State) : State :=
  let row := p / 8
  if (s.core c).repairQ.contains row then s
  else
    let o := coreOff (Reg.SPAD_REPAIR + 4 * (p / 8192)) c
    if 8 ≤ s.regF o 3 0 + s.regF o 7 4 + s.regF o 15 9 then repairFail c (p / 8192) s
    else
      let s := s.modCore c fun k => { k with repairQ := k.repairQ ++ [row] }
      s.setF o 15 9 (min 127 (s.regF o 15 9 + 1))

/-- An uncorrectable error on a line that holds `d` (R154): counted, logged unless a record is held, raised; the line then holds
plain poison. In a committed copy, of a parked trunk too, it loses the loft (R50). -/
def uncorrectable (c : CoreId) (p port : Nat) (d : BitVec 512) (s : State) : State :=
  let s := bumpC c Reg.SPAD_UE_CNT s
  let o := coreOff Reg.SPAD_ECC_LOG c
  let cm := committedAt s c p
  let pk := parkedCommitted s c p
  let s := if bitOf (s.reg o) 63 then s
    else s.setReg o (BitVec.ofNat 64 (2 ^ 63 + p % 2 ^ 17 + port * 2 ^ 17 + b2n (cm.isSome || pk.isSome) * 2 ^ 21))
  let s := raise (evCore c 1) s
  let s := queueRow c p s
  let s := match cm, pk with
    | some i, _ => loseLoft c i s
    | none, some e => loseParked c e.1 e.2 s
    | none, none => s
  s.modCore c fun k => { k with spad := sput p ⟨d, 0⟩ k.spad, upsets := sdel p k.upsets }

/-- A corrected single-bit error (R154, R168). -/
def corrected (c : CoreId) (p : Nat) (s : State) : State :=
  let s := bumpC c Reg.SPAD_CE_CNT s
  let n := (sget (p / 8) (s.core c).ceRows).getD 0 + 1
  let s := s.modCore c fun k => { k with ceRows := sput (p / 8) n k.ceRows, upsets := sdel p k.upsets }
  if n ≥ 4 then queueRow c p s else s

/-- Read a physical line (R153, R154, R161): what is delivered, whether an uncorrectable error was found, the state after.
The data of a line nothing has written, or that is uncorrectable, is a free value; it is delivered poisoned. -/
def spadRead (c : CoreId) (p port : Nat) (s : State) : DLine × Bool × State :=
  let x := s.free 1 512
  let l := (sget p (s.core c).spad).getD ⟨x, 0⟩
  let u := sget p (s.core c).upsets
  let s := if (sget p (s.core c).spad).isNone || u == some true then s.drawn else s
  if u = some true then (⟨x, true⟩, true, uncorrectable c p port x s)
  else
    let s := if u.isSome then corrected c p s else s
    if l.tag = 0 then (⟨l.data, true⟩, false, s)
    else if tagGood (saltSpad c.val p) l then (⟨l.data, false⟩, false, s)
    else (⟨l.data, true⟩, true, uncorrectable c p port l.data s)

/-- Does a read of a physical line find a storage error (R154)? -/
def lineFaulty (s : State) (c : CoreId) (p : Nat) : Bool :=
  (sget p (s.core c).upsets).isSome ||
    match sget p (s.core c).spad with
    | some l => l.tag != 0 && !tagGood (saltSpad c.val p) l
    | none => false

/-- Read a physical line as a requester that is none of its trunk's cores does: of a committed loft shelf it gets the committed
copy (R41, R158). -/
def windowRead (c : CoreId) (p port : Nat) (s : State) : DLine × Bool × State :=
  let q := ((List.range 64).findSome? fun i =>
    let e := shelfEnt s c i
    if seValid e && seLoft e == 2 then
      (lineOfPhys e (workSecond s c i) p).map fun j => physOf e (!(workSecond s c i)) j
    else none).getD p
  spadRead c q port s

/-- Write a physical line, sealed for its place (Table 18.4, domain 0x2). -/
def spadWrite (c : CoreId) (p : Nat) (d : DLine) (s : State) : State :=
  s.modCore c fun k => { k with spad := sput p (sealLine (saltSpad c.val p) d) k.spad, upsets := sdel p k.upsets }

/-- Read line `j` of shelf `i` as the trunk's own cores do: the working copy (R158). -/
def shelfRead (c : CoreId) (i j port : Nat) (s : State) : DLine × Bool × State :=
  spadRead c (physOf (shelfEnt s c i) (workSecond s c i) j) port s

/-- The frame that a write into a core's shelves belongs to (R47): the one its core runs, or, while the core waits in FRAME_WAIT,
the one its trunk runs. -/
def writeFrame (s : State) (c : CoreId) : BitVec 32 :=
  match (s.core c).issue with
  | .frameWait _ _ _ => s.runFrame (s.core c).slot
  | _ => (s.core c).cur

/-- Write line `j` of shelf `i`: the working copy, its dirty bit set when committed loft (R158); a poisoned line written to
a committed loft shelf is reported to SYS (R343). -/
def shelfWrite (c : CoreId) (i j : Nat) (d : DLine) (s : State) : State :=
  let e := shelfEnt s c i
  let s := spadWrite c (physOf e (workSecond s c i) j) d s
  let s := if (s.core c).faultHdr.contains (i % 64, j) then
      s.modCore c fun k => { k with faultHdr := k.faultHdr.erase (i % 64, j) }
    else s
  if seLoft e = 2 then
    let s := if d.poison then
        s.send { kind := .poisonReport, src := .core c, dst := .sys, slot := (s.core c).slot, frame := writeFrame s c }
      else s
    s.modCore c fun k => { k with dirty := if k.dirty.contains (i % 64, j) then k.dirty else k.dirty ++ [(i % 64, j)] }
  else s

/-- Read `n` consecutive lines of a shelf; the flag says whether any was uncorrectable. -/
def shelfReadN (c : CoreId) (i j port : Nat) : Nat → State → List DLine × Bool × State
  | 0, s => ([], false, s)
  | n + 1, s =>
    let r := shelfRead c i j port s
    let r' := shelfReadN c i (j + 1) port n r.2.2
    (r.1 :: r'.1, r.2.1 || r'.2.1, r'.2.2)

/-- Write consecutive lines of a shelf. -/
def shelfWriteN (c : CoreId) (i j : Nat) : List DLine → State → State
  | [], s => s
  | d :: r, s => shelfWriteN c i (j + 1) r (shelfWrite c i j d s)

/-- The checks of Table 8.5 for lines `j` to `j + n − 1` of shelf `i` of core `c`, by a requester of trunk slot `slot`;
0 when they pass, else the trap code. -/
def shelfCheck (s : State) (c : CoreId) (i slot j n : Nat) (remoteWrite : Bool) : Nat :=
  let e := shelfEnt s c i
  if !seValid e then trapShelfInvalid
  else if seSlot e ≠ slot then trapShelfOwner
  else if seLen e < j + n || seLen e ≤ j then trapShelfBound
  else if remoteWrite && sePool e == 0 then trapShelfOwner
  else 0

/-- Does a run of lines hold a rulebook header with fault set that a read would find (R132)? -/
def readsFault (s : State) (c : CoreId) (i j n : Nat) : Bool :=
  (s.core c).faultHdr.any fun e => e.1 == i % 64 && decide (j ≤ e.2) && decide (e.2 < j + n) &&
    !lineFaulty s c (physOf (shelfEnt s c i) (workSecond s c i) e.2)

/-- The checks of Table 8.5 on a local operand run (R266): a run of no lines is not an access. -/
def localCheck (s : State) (c : CoreId) (i j n : Nat) : Nat :=
  if n = 0 then 0 else shelfCheck s c i (s.core c).slot j n false

/-- The checks of a local run that an instruction reads: Table 8.5, then RB_FAULT for a header with fault set. -/
def runCheck (s : State) (c : CoreId) (i j n : Nat) : Nat :=
  let t := localCheck s c i j n
  if t = 0 && readsFault s c i j n then trapRbFault else t

/-- The checks of a local run that an instruction writes: Table 8.5, then COMMIT_ORDER for a committed loft shelf written by
an instruction issued after the frame's COMMIT (R43). -/
def writeCheck (s : State) (c : CoreId) (seq i j n : Nat) : Nat :=
  let t := localCheck s c i j n
  if t ≠ 0 then t
  else if n ≠ 0 && seLoft (shelfEnt s c i) == 2 &&
      (match (s.core c).committed with
       | some q => decide (q < seq)
       | none => false) then trapCommitOrder
  else 0

/-- The first non-zero code. -/
def firstCode : List Nat → Nat
  | [] => 0
  | 0 :: r => firstCode r
  | x :: _ => x

/-! ## Scalar registers and the scoreboard (R241, R246) -/

/-- Write a scalar register and clear its pending bit; writes to s0 are discarded (Table 13.1). -/
def wrS (c : CoreId) (d : Nat) (v : Word) (s : State) : State :=
  s.modCore c fun k =>
    if h : d < 32 then
      { k with s := if d = 0 then k.s else k.s.set d v, pendS := k.pendS &&& ~~~ (BitVec.ofNat 32 (2 ^ d)) }
    else k

/-- Write scalar registers. -/
def wrSs (c : CoreId) (rs : List (Nat × Word)) (s : State) : State := rs.foldl (fun s r => wrS c r.1 r.2 s) s

/-- Write a predicate register and clear its pending bit; writes to p0 are discarded. -/
def wrP (c : CoreId) (d : Nat) (v : Bool) (s : State) : State :=
  s.modCore c fun k =>
    let m := BitVec.ofNat 8 (2 ^ (d % 8))
    { k with p := if d % 8 = 0 then k.p else if v then k.p ||| m else k.p &&& ~~~ m, pendP := k.pendP &&& ~~~ m }

/-- A scalar register's value; s0 reads zero. -/
def rdS (k : CoreSt) (i : Nat) : Word := if h : i < 32 then (if i = 0 then 0 else k.s[i]) else 0
/-- A predicate register's value; p0 reads 1. -/
def rdP (k : CoreSt) (i : Nat) : Bool := i % 8 == 0 || k.p.getLsbD (i % 8)
/-- A vector register's value. -/
def rdV (k : CoreSt) (i : Nat) : BitVec 2048 := if h : i < 32 then k.v[i] else 0
/-- Write a vector register. -/
def wrV (c : CoreId) (d : Nat) (v : BitVec 2048) (s : State) : State :=
  s.modCore c fun k => if h : d < 32 then { k with v := k.v.set d v } else k
/-- Lane `j` of a vector register. -/
def lane (v : BitVec 2048) (j : Nat) : BitVec 32 := v.extractLsb' (32 * j) 32
/-- A vector register of 64 lanes. -/
def ofLanes (ls : List (BitVec 32)) : BitVec 2048 :=
  ls.foldr (fun l acc => (acc <<< 32) ||| l.zeroExtend 2048) 0
/-- The lanes of a vector register. -/
def lanesOf (v : BitVec 2048) : List (BitVec 32) := (List.range 64).map (lane v)

/-! ## Traps (R261) -/

/-- A core trap: recorded unless a record is held, issue stopped, CORE_FAULT raised, counted, and reported to SYS. -/
def coreTrap (c : CoreId) (code q pc : Nat) (w : Word) (arg : Nat) (s : State) : State :=
  let o := coreOff Reg.CORE_TRAP_INFO c
  let s := if bitOf (s.reg o) 63 then s
    else
      let s := s.setReg o (BitVec.ofNat 64 (2 ^ 63 + code % 256 + (q % 8) * 2 ^ 8 + (pc % 2 ^ 20) * 2 ^ 16 + (arg % 2 ^ 16) * 2 ^ 36))
      s.setReg (coreOff Reg.CORE_TRAP_WORD c) w
  let s := s.modCore c fun k => { k with issue := .trapped }
  let s := logFault (evCore c 5) code c.val (s.reg o).toNat s
  let s := raise (evCore c 5) s
  let s := bumpC c Reg.CORE_TRAP_CNT s
  let k := s.core c
  s.send { kind := .trapReport, src := .core c, dst := .sys, slot := k.slot, k := trapCause code, frame := k.cur }

/-- What one storage error or fault leaves behind until it is met: an upset of a line, an uncorrectable accumulator row, or other
bits in a PE, whose checksum weights stay (R154, R172, R176). A single-bit accumulator error is corrected. A line on its way to
the SMU is struck there (`smuChecked`). -/
def strikeOne (e : LineErr) (k : CoreSt) : CoreSt :=
  match e.spot with
  | .line p => { k with upsets := sput p e.ue k.upsets }
  | .acc r =>
    if e.ue && !k.array.upsets.contains r then { k with array := { k.array with upsets := k.array.upsets ++ [r] } } else k
  | .weight set i n bits =>
    match sget set k.array.sets with
    | none => k
    | some t =>
      let row := (t.w[i]?).getD []
      { k with array := { k.array with sets := sput set { t with w := t.w.set i (row.set n (some (bits % 2 ^ 32))) } k.array.sets } }
  | .sent _ => k

/-- Storage errors and faults that struck since the last command (operands of the commands that read a core's storage). -/
def strike (es : List LineErr) (s : State) : State := es.foldl (fun s e => s.modCore e.core (strikeOne e)) s

end Sys2Proof.Machine
end

