-- ==== Sys2Proof/Machine/MemOps.lean ====
section
/-! DEFINITION. External memory as every agent reaches it (R20, R333, R339, R340 to R342), and the rings that STORE writes:
host result rings, cellar output rings and the publisher queue (R79, R271, R345, R347, R356). -/

namespace Sys2Proof.Machine

/-- Installed capacity in bytes (R331, R333); 0 until training has completed. -/
def memBytes (s : State) : Nat := s.mem.capGib * 2 ^ 30

/-- A line as the controller holds it: a line never written or filled is delivered poisoned (R339), its data a free value. -/
def memLine (a : Nat) (s : State) : Line × State :=
  match sget (a / 64) s.mem.lines with
  | some l => (l, s)
  | none => (⟨s.free 2 512, 0⟩, s.drawn)

/-- Store a line at its address as it arrived: a tag that fails its check is stored poisoned, counted and raised (Table 18.5,
R336). -/
def memStore (a : Nat) (l : Line) (s : State) : State :=
  let bad := tagFails (saltAddr a) l
  let l' : Line := if bad then ⟨l.data, 0⟩ else l
  let s := { s with mem := { s.mem with lines := sput (a / 64) l' s.mem.lines } }
  if bad then raise 0x153 (bump Reg.MEM_E2E_FAIL s) else s

/-- The canonical form of external memory and of every scratchpad: lines listed once, at strictly rising addresses. -/
def Memory.wf (s : State) : Bool := storeWf s.mem.lines && allCores.all fun c => storeWf (s.core c).spad

/-- Read a line and verify it for its address. -/
def memRead (a : Nat) (s : State) : DLine × State :=
  let r := memLine a s
  (checked (saltAddr a) r.1, r.2)

/-- Seal a line for its address and store it. -/
def memPut (a : Nat) (d : DLine) (s : State) : State := memStore a (sealLine (saltAddr a) d) s

/-- Store consecutive lines. -/
def memPutN (a : Nat) : List DLine → State → State
  | [], s => s
  | d :: r, s => memPutN (a + 64) r (memPut a d s)

/-- Read consecutive lines. -/
def memReadN (a : Nat) : Nat → State → List DLine × State
  | 0, s => ([], s)
  | n + 1, s =>
    let r := memRead a s
    let r' := memReadN (a + 64) n r.2
    (r.1 :: r'.1, r'.2)

/-- Bytes `[a, a + n)` of memory, and whether any line read was poisoned. -/
def memGet (a n : Nat) (s : State) : List Nat × Bool × State :=
  let r := memReadN (a / 64 * 64) (cdiv (a % 64 + n) 64) s
  (((r.1.flatMap fun d => lineBytes d.data).drop (a % 64)).take n, r.1.any (·.poison), r.2)

/-- Bytes `[a, a + n)` of memory on their way out of the device (R344): their lines are checked once more, and each that is poisoned
or fails is counted; the bytes, how many such lines, the state after. -/
def memExit (a n : Nat) (s : State) : List Nat × Nat × State :=
  let r := memReadN (a / 64 * 64) (cdiv (a % 64 + n) 64) s
  let bad := r.1.countP (·.poison)
  (((r.1.flatMap fun d => lineBytes d.data).drop (a % 64)).take n, bad, bumpN Reg.E2E_EXIT_FAIL bad r.2)

/-- Write bytes that lie within one line: a whole line is sealed, part of one is merged (R153). -/
def memSetLine (a : Nat) (bs : List Nat) (s : State) : State :=
  if bs.length = 64 then memPut a ⟨lineOfBytes bs, false⟩ s
  else
    let r := memRead (a / 64 * 64) s
    memPut (a / 64 * 64) ⟨putBits r.1.data (8 * (a % 64)) (8 * bs.length) (ofBytesLE bs), r.1.poison⟩ r.2

/-- Write bytes; the first argument bounds the lines touched. -/
def memSetN : Nat → Nat → List Nat → State → State
  | 0, _, _, s => s
  | k + 1, a, bs, s =>
    if bs.isEmpty then s
    else memSetN k (a + (64 - a % 64)) (bs.drop (64 - a % 64)) (memSetLine a (bs.take (64 - a % 64)) s)

/-- Write bytes at an address. -/
def memSet (a : Nat) (bs : List Nat) (s : State) : State := memSetN (bs.length / 64 + 2) a bs s

/-! ## The internal address map (Table 1.6, Table 5.3) -/

/-- What an internal address reaches. -/
inductive Region where
  | lpddr | spad | grid | regs | unmapped
deriving DecidableEq, Repr

/-- The populated grid-store window (Table 5.3). -/
def gridMapped (o : Nat) : Bool := decide (o < 0x2800040)

/-- The region of an internal address (R20, R22, R111). -/
def regionOf (s : State) (a : Nat) : Region :=
  if a < 0x1000000000 then (if a < memBytes s then .lpddr else .unmapped)
  else if a < 0x1024000000 then (if a % 0x1000000 < 0x800000 then .spad else .unmapped)
  else if a < 0x1100000000 then .unmapped
  else if a < 0x1200000000 then (if gridMapped (a - 0x1100000000) then .grid else .unmapped)
  else if a < 0x1204000000 then .regs
  else .unmapped

/-! ## Cellars and rings -/

/-- The active cellar of a slot: base and length in lines (R345). -/
def cellarOf (s : State) (k : Nat) : Nat × Nat :=
  ((s.actReg (Reg.CELLAR + 0x10 * k)).toNat % 2 ^ 40, (s.actReg (Reg.CELLAR_LINES + 0x10 * k)).toNat % 2 ^ 30)

/-- Do `n` lines from an address lie in a slot's active cellar? -/
def inCellar (s : State) (k a n : Nat) : Bool :=
  let c := cellarOf s k
  decide (c.1 ≤ a) && decide (a + 64 * n ≤ c.1 + 64 * c.2)

/-- The publisher queue's active declaration, 0 lines when it is disabled (R79). -/
def pubQueue (s : State) : Nat × Nat :=
  let b := (s.actReg Reg.PUB_QUEUE_BASE).toNat % 2 ^ 40
  let n := (s.actReg Reg.PUB_QUEUE_LINES).toNat % 2 ^ 21
  if b % 64 = 0 && 1024 ≤ n && n ≤ 2 ^ 20 then (b, n) else (b, 0)

/-- The slot that owns the publisher queue (R79). -/
def pubOwner (s : State) : Option Nat :=
  let q := pubQueue s
  if q.2 = 0 then none else (List.range 8).find? fun k => inCellar s k q.1 q.2

/-- Offset of an HRING register of ring `r` of slot `k`. -/
def hringOff (o k r : Nat) : Nat := o + 0x400 * k + 0x40 * r
/-- Offset of a CELLAR_RING register. -/
def cringOff (o k r : Nat) : Nat := o + 0x100 * k + 0x10 * r

/-- Ring `r` of slot `k` (R271): base address, length in lines, committed producer index, consumer index. -/
def ringInfo (s : State) (k r : Nat) : Nat × Nat × Nat × Nat :=
  if r < 16 then
    let v := s.actReg (hringOff Reg.HRING k r)
    let b := fld v 39 0
    (b, if b % 64 = 0 then fld v 63 40 else 0, (s.reg (hringOff Reg.HRING_PROD k r)).toNat,
      (s.reg (hringOff Reg.HRING_CONS k r)).toNat)
  else if r < 32 then
    let v := s.actReg (cringOff Reg.CELLAR_RING k (r - 16))
    let c := cellarOf s k
    let b := c.1 + 64 * fld v 27 0
    let n := fld v 55 28
    (b, if inCellar s k b n then n else 0, (s.reg (cringOff Reg.CELLAR_RING_PROD k (r - 16))).toNat,
      (s.reg (cringOff Reg.CELLAR_RING_CONS k (r - 16))).toNat)
  else
    let q := pubQueue s
    (q.1, if pubOwner s = some k then q.2 else 0, s.pub.prod, s.pub.cons)

/-- The pending producer index of a ring (R271): the committed one until the frame writes a line. -/
def ringPending (s : State) (k r : Nat) : Nat := (sget (64 * k + r) s.mem.rings).getD (ringInfo s k r).2.2.1

/-- Free lines of a ring: length − ((pending − consumer) mod 2³²) (R347). -/
def ringFree (s : State) (k r : Nat) : Nat :=
  let i := ringInfo s k r
  i.2.1 - (ringPending s k r + 2 ^ 32 - i.2.2.2 % 2 ^ 32) % 2 ^ 32

/-- A ring line that finds no free space is discarded and counted by the ring's owner (R79, R347, R356). -/
def ringDrop (k r : Nat) (s : State) : State :=
  if r < 16 then
    let s := bump Reg.HRING_DROP s
    { s with mem := { s.mem with hostOver := if s.mem.hostOver.contains (64 * k + r) then s.mem.hostOver
                                             else s.mem.hostOver ++ [64 * k + r] } }
  else if r < 32 then
    let s := bump Reg.CELLAR_RING_DROP s
    let o := cringOff Reg.CELLAR_RING k (r - 16)
    let s := s.setAct o (s.actReg o ||| BitVec.ofNat 64 (2 ^ 63))
    if s.mem.fullRaised then s else raise 0x154 { s with mem := { s.mem with fullRaised := true } }
  else
    let s := bump Reg.PUB_TRUNC_CNT s
    if pubOwner s = some k then { s with pub := { s.pub with trunc := true } } else s

/-- Take the place of one ring line: the address it goes to, or none when the line is discarded (R271). -/
def ringTake (k r : Nat) (s : State) : Option Nat × State :=
  let i := ringInfo s k r
  if ringFree s k r = 0 then (none, ringDrop k r s)
  else
    let p := ringPending s k r
    (some (i.1 + 64 * (p % i.2.1)),
      { s with mem := { s.mem with rings := sput (64 * k + r) ((p + 1) % 2 ^ 32) s.mem.rings } })

end Sys2Proof.Machine
end

