-- ==== Sys2Proof/Machine/LinkSend.lean ====
section
/-! DEFINITION. Sending on the Larxus links: routing on the torus (R369), credits and the replay window (R366, R367), and
the translation between mesh messages and packets (R365). -/

namespace Sys2Proof.Machine

/-- A link port's state. -/
def State.link (s : State) (p : Idx4) : LinkPort := s.links[p.val]
/-- Replace a link port's state. -/
def State.setLink (p : Idx4) (l : LinkPort) (s : State) : State := { s with links := s.links.set p.val l }

/-- Offset of a LINK register of port `p`. -/
def linkOff (o : Nat) (p : Idx4) : Nat := o + 0x10000 * p.val

/-- LXL_STAT.state of a port: 0 down, 1 training, 2 up, 3 miswired. -/
def linkState (s : State) (p : Idx4) : Nat := s.regF (linkOff Reg.LXL_STAT p) 2 0

/-- The torus sizes (LINK_TOPO). -/
def torusX (s : State) : Nat := s.regF Reg.LINK_TOPO 23 16 + 1
/-- The torus size in y. -/
def torusY (s : State) : Nat := s.regF Reg.LINK_TOPO 31 24 + 1

/-- The port a packet for a coordinate leaves on; none when it is for this device (R369). -/
def routePort (s : State) (xd yd : Nat) : Option Idx4 :=
  let sx := torusX s
  let sy := torusY s
  let dx := (xd + sx - s.coordX % sx) % sx
  let dy := (yd + sy - s.coordY % sy) % sy
  if dx ≠ 0 then some (if dx ≤ sx - dx then 0 else 1)
  else if dy ≠ 0 then some (if dy ≤ sy - dy then 2 else 3)
  else none

/-- Does leaving on a port cross the wrap (R369)? -/
def crossesWrap (s : State) (p : Idx4) : Bool :=
  match p.val with
  | 0 => s.coordX == torusX s - 1
  | 1 => s.coordX == 0
  | 2 => s.coordY == torusY s - 1
  | _ => s.coordY == 0

/-- Slots of a packet: its header and its data (R365). -/
def packetSlots (k : Packet) : Nat := 1 + k.lines.length

/-- The link VC of a packet (R365). -/
def packetVc (k : Packet) : Nat := k.vc % 4 + if k.date then 4 else 0

/-- The acknowledgement a port puts into its flits: the last flit received good and in order (Table 19.11). -/
def linkAck (l : LinkPort) : Nat := (l.rxNext + 2 ^ 16 - 1) % 2 ^ 16

/-- The packet of a link VC that is being sent: the oldest one in the queue (R365, R366). -/
def vcHead (l : LinkPort) (v : Nat) : Option Packet := l.queue.find? fun k => packetVc k == v

/-- How many slots of a link VC the next flit can carry: at most four, those of its oldest packet not yet sent, each against a
credit. -/
def vcSlots (l : LinkPort) (v : Nat) : Nat :=
  match vcHead l v with
  | some k => min 4 (min (packetSlots k - (l.sent[v]?).getD 0) ((l.credits[v]?).getD 0))
  | none => 0

/-- The link VC that sends the next flit (R366): 3 and 7 first, then the others round-robin from the one after the last. -/
def vcPick (l : LinkPort) : Option Nat :=
  match [3, 7].find? fun v => decide (0 < vcSlots l v) with
  | some v => some v
  | none => (((List.range 7).filter fun v => v ≠ 3 ∧ l.turn < v) ++ ((List.range 7).filter fun v => v ≠ 3 ∧ v ≤ l.turn)).find?
      fun v => decide (0 < vcSlots l v)

/-- Put a flit of a link VC on the wire: the port then, and the flit's packet. -/
def sendFlit (l : LinkPort) (v : Nat) (k : Packet) : LinkPort :=
  let m := vcSlots l v
  let n := (l.sent[v]?).getD 0 + m
  let done := decide (packetSlots k ≤ n)
  { l with
    queue := if done then (match takeFirst (fun q => packetVc q == v) l.queue with | some r => r.2 | none => l.queue) else l.queue
    sent := l.sent.set v (if done then 0 else n), txSeq := (l.txSeq + 1) % 2 ^ 16, unacked := l.unacked ++ [(l.txSeq, k)]
    credits := l.credits.set v ((l.credits[v]?).getD 0 - m), owed := 0, back := l.back.drop 2
    turn := if v = 3 ∨ v = 7 then l.turn else v }

/-- Send flits of a port's queue while credits and the 128-flit window allow (R366, R367). -/
def linkDrain : Nat → Idx4 → State → State
  | 0, _, s => s
  | fuel + 1, p, s =>
    let l := s.link p
    if linkState s p ≠ 2 ∨ 128 ≤ l.unacked.length then s
    else match vcPick l with
      | none => s
      | some v => match vcHead l v with
        | none => s
        | some k =>
          let s := (s.setLink p (sendFlit l v k)).emit (.flit p.val 1 l.txSeq (linkAck l) (l.back.take 2) (some k))
          linkDrain fuel p (bump (linkOff Reg.LXL_TX_FLITS p) s)

/-- Hand a packet to the port that its destination asks for, with its dateline bit (R369). `turn` says that it leaves on a
new dimension. -/
def linkQueue (p : Idx4) (turn : Bool) (k : Packet) (s : State) : State :=
  let d := (if turn then false else k.date) || crossesWrap s p
  let l := s.link p
  linkDrain 128 p (s.setLink p { l with queue := l.queue ++ [{ k with date := d }] })

/-- Is a coordinate inside the torus? -/
def inTorus (s : State) (x y : Nat) : Bool := decide (x < torusX s) && decide (y < torusY s)

/-- What becomes of a packet this device sends (R368, R369): queued on its port; refused outside the torus; or its port is
down. -/
inductive LinkSend where
  | sent (s : State)
  | outside (s : State)
  | portDown (s : State)
deriving DecidableEq, Repr

/-- Send a packet from this device. -/
def linkSend (k : Packet) (s : State) : LinkSend :=
  if !inTorus s k.dx k.dy then .outside (raise 0x166 (bump Reg.LINK_ROUTE_DROP s))
  else match routePort s k.dx k.dy with
    | none => .sent s
    | some p => if linkState s p = 2 then .sent (linkQueue p true k s) else .portDown s

end Sys2Proof.Machine
end

