-- ==== Sys2Proof/Machine/Float.lean ====
section
/-! DEFINITION. Exact floating values, rounding to nearest with ties to even (R197), the sixteen formats (Tables 10.1,
10.2), conversions (Table 10.4) and the ordering key (R202). -/

namespace Sys2Proof.Machine

/-! ## Exact arithmetic -/

/-- Negation. -/
def fneg : FVal → FVal
  | .nan => .nan
  | .inf n => .inf (!n)
  | .fin n m e => .fin (!n) m e

/-- Magnitude. -/
def fabs : FVal → FVal
  | .nan => .nan
  | .inf _ => .inf false
  | .fin _ m e => .fin false m e

/-- A signed integer scaled by a power of two; `z` is the sign of a zero. -/
def ofScaled (z : Bool) (x e : Int) : FVal := if x = 0 then .fin z 0 e else .fin (decide (x < 0)) x.natAbs e

/-- The exact sum; ∞ − ∞ is a NaN, and a zero sum is −0 only when both operands are negative (R193). -/
def fadd : FVal → FVal → FVal
  | .nan, _ => .nan
  | _, .nan => .nan
  | .inf a, .inf b => if a = b then .inf a else .nan
  | .inf a, _ => .inf a
  | _, .inf b => .inf b
  | .fin na ma ea, .fin nb mb eb =>
    let e := min ea eb
    let x : Int := (ma * 2 ^ (ea - e).toNat : Nat)
    let y : Int := (mb * 2 ^ (eb - e).toNat : Nat)
    ofScaled (na && nb) ((if na then -x else x) + (if nb then -y else y)) e

/-- The exact product; 0 × ∞ is a NaN (R193). -/
def fmul : FVal → FVal → FVal
  | .nan, _ => .nan
  | _, .nan => .nan
  | .inf a, .inf b => .inf (a != b)
  | .inf a, .fin b m _ => if m = 0 then .nan else .inf (a != b)
  | .fin a m _, .inf b => if m = 0 then .nan else .inf (a != b)
  | .fin a m e, .fin b m' e' => .fin (a != b) (m * m') (e + e')

/-- An integer as an exact value. -/
def fofInt (x : Int) : FVal := ofScaled false x 0

/-- Is the value finite? -/
def ffinite : FVal → Bool
  | .fin _ _ _ => true
  | _ => false

/-- `a < b` on numbers (false when either is a NaN). -/
def flt (a b : FVal) : Bool :=
  match a, b with
  | .nan, _ => false
  | _, .nan => false
  | .inf n, .inf n' => n && !n'
  | .inf n, _ => n
  | _, .inf n => !n
  | .fin na ma ea, .fin nb mb eb =>
    let e := min ea eb
    let x : Int := (ma * 2 ^ (ea - e).toNat : Nat)
    let y : Int := (mb * 2 ^ (eb - e).toNat : Nat)
    decide ((if na then -x else x) < (if nb then -y else y))

/-- `m × 2^e` to `p` significant bits with least exponent `emin`, to nearest, ties to even. -/
def roundNE (p : Nat) (emin : Int) (m : Nat) (e : Int) : Nat × Int :=
  if m = 0 then (0, emin) else
  let len := Nat.log2 m + 1
  let e' := max (e + len - p) emin
  if e' ≤ e then (m * 2 ^ (e - e').toNat, e')
  else
    let k := (e' - e).toNat
    let q := m / 2 ^ k
    let r := m % 2 ^ k
    let half := 2 ^ (k - 1)
    let q' := if r > half || (r = half && q % 2 = 1) then q + 1 else q
    if q' = 2 ^ p then (2 ^ (p - 1), e' + 1) else (q', e')

/-- A value rounded to the internal double precision that R180 and the calibration engine name. -/
def froundF64 : FVal → FVal
  | .fin n m e => let r := roundNE 53 (-1074) m e; .fin n r.1 r.2
  | v => v

/-- An integer nearest to a finite value, ties to even. -/
def fnearestInt (neg : Bool) (m : Nat) (e : Int) : Int :=
  let a : Nat :=
    if 0 ≤ e then m * 2 ^ e.toNat
    else
      let k := (-e).toNat
      let q := m / 2 ^ k
      let r := m % 2 ^ k
      let half := 2 ^ (k - 1)
      if r > half || (r = half && q % 2 = 1) then q + 1 else q
  if neg then -(a : Int) else a

/-- floor(log2) of a finite non-zero value (R196). -/
def ffloorLog2 (m : Nat) (e : Int) : Int := (Nat.log2 m : Int) + e

/-! ## Formats -/

/-- Element width in bits of a format code (Table 10.1). -/
def fmtBits (f : Nat) : Nat :=
  match f with
  | 0 => 32 | 1 => 16 | 2 => 16 | 3 => 8 | 4 => 8 | 5 => 8 | 6 => 6 | 7 => 6 | 8 => 4 | 9 => 8
  | 10 => 32 | 11 => 16 | 12 => 8 | 13 => 4 | 14 => 8 | _ => 64

/-- Class of a format (Table 10.1): 0 FP32, 1 16-bit, 2 8-bit, 3 4-bit, 4 none. -/
def fmtClass (f : Nat) : Nat :=
  match f with
  | 0 => 0 | 1 => 1 | 2 => 1 | 11 => 1 | 8 => 3 | 13 => 3 | 10 => 4 | 15 => 4 | _ => 2

/-- Formats 0x00 to 0x09 are floating (R191). -/
def fmtFloat (f : Nat) : Bool := decide (f ≤ 9)

/-- Formats with an MX block scale. -/
def fmtMx (f : Nat) : Bool := decide (5 ≤ f) && decide (f ≤ 9)

/-- Integer formats 0x0A to 0x0E. -/
def fmtInt (f : Nat) : Bool := decide (10 ≤ f) && decide (f ≤ 14)

/-- Exponent bits, fraction bits and bias of a floating element (Table 10.2). -/
def fpShape (f : Nat) : Nat × Nat × Nat :=
  match f with
  | 0 => (8, 23, 127) | 1 => (5, 10, 15) | 2 => (8, 7, 127) | 3 => (4, 3, 7) | 5 => (4, 3, 7)
  | 4 => (5, 2, 15) | 6 => (2, 3, 1) | 7 => (3, 2, 3) | _ => (2, 1, 1)

/-- The encoding of the largest finite magnitude. -/
def fpMaxEnc (f : Nat) : Nat :=
  match f with
  | 0 => 0x7F7FFFFF | 1 => 0x7BFF | 2 => 0x7F7F | 3 => 0x7E | 5 => 0x7E | 4 => 0x7B | 6 => 0x1F | 7 => 0x1F | _ => 7

/-- Does the element format have an infinity? -/
def fpHasInf (f : Nat) : Bool := f == 0 || f == 1 || f == 2 || f == 4

/-- The canonical NaN of an element format that has a NaN (Table 10.2). -/
def fpCanonNan (f : Nat) : Option Nat :=
  match f with
  | 0 => some 0x7FC00000 | 1 => some 0x7E00 | 2 => some 0x7FC0 | 3 => some 0x7F | 5 => some 0x7F | 4 => some 0x7E | _ => none

/-- The value of a floating element's bits (R192). -/
def fpDecode (f bits : Nat) : FVal :=
  let (eb, mb, bias) := fpShape f
  let m := bits % 2 ^ mb
  let e := (bits / 2 ^ mb) % 2 ^ eb
  let neg := (bits / 2 ^ (mb + eb)) % 2 = 1
  if fpHasInf f && e == 2 ^ eb - 1 then (if m = 0 then .inf neg else .nan)
  else if (f == 3 || f == 5) && e == 15 && m == 7 then .nan
  else if e = 0 then .fin neg m (1 - (bias : Int) - mb)
  else .fin neg (m + 2 ^ mb) ((e : Int) - bias - mb)

/-- How a conversion ended (Table 10.4): exact or rounded, saturated, underflowed to zero, or a NaN counted. -/
structure ConvCount where
  sat   : Nat
  under : Nat
  nan   : Nat
deriving DecidableEq, Repr

/-- No outcome counted. -/
def ConvCount.zero : ConvCount := ⟨0, 0, 0⟩
/-- Outcomes of two conversions together. -/
def ConvCount.plus (a b : ConvCount) : ConvCount := ⟨a.sat + b.sat, a.under + b.under, a.nan + b.nan⟩

/-- The magnitude encoding of a rounded finite value. -/
def fpEncMag (f m : Nat) (e : Int) : Nat :=
  let (_, mb, bias) := fpShape f
  let emin : Int := 1 - (bias : Int) - mb
  let r := roundNE (mb + 1) emin m e
  if r.1 < 2 ^ mb then r.1 else (((r.2 - emin).toNat + 1) * 2 ^ mb) + (r.1 - 2 ^ mb)

/-- A value as a floating element under Table 10.4. -/
def fpEncode (f : Nat) (v : FVal) : Nat × ConvCount :=
  let (eb, mb, _) := fpShape f
  let sgn (n : Bool) := if n then 2 ^ (eb + mb) else 0
  match v with
  | .nan => match fpCanonNan f with
    | some c => (c, ⟨0, 0, 0⟩)
    | none => (0, ⟨0, 0, 1⟩)
  | .inf n => if fpHasInf f then (sgn n + (2 ^ eb - 1) * 2 ^ mb, ⟨0, 0, 0⟩) else (sgn n + fpMaxEnc f, ⟨1, 0, 0⟩)
  | .fin n m e =>
    let k := fpEncMag f m e
    if k > fpMaxEnc f then (sgn n + fpMaxEnc f, ⟨1, 0, 0⟩)
    else if k = 0 && m ≠ 0 then (sgn n, ⟨0, 1, 0⟩)
    else (sgn n + k, ⟨0, 0, 0⟩)

/-- Bounds of an integer format. -/
def intRange (f : Nat) : Int × Int :=
  match f with
  | 10 => (-2147483648, 2147483647) | 11 => (-32768, 32767) | 12 => (-128, 127) | 13 => (-8, 7) | _ => (0, 255)

/-- A value as an integer within bounds under Table 10.4. -/
def toIntSat (lo hi : Int) (v : FVal) : Int × ConvCount :=
  match v with
  | .nan => (0, ⟨0, 0, 1⟩)
  | .inf n => (if n then lo else hi, ⟨1, 0, 0⟩)
  | .fin n m e =>
    let x := fnearestInt n m e
    if x < lo then (lo, ⟨1, 0, 0⟩)
    else if hi < x then (hi, ⟨1, 0, 0⟩)
    else if x = 0 && m ≠ 0 then (0, ⟨0, 1, 0⟩)
    else (x, ⟨0, 0, 0⟩)

/-- A value converted to an element of a format without block scale. An MXINT8 element, a floating one, is at most 127/64 in
magnitude (R194). -/
def toElem (f : Nat) (v : FVal) : Nat × ConvCount :=
  if fmtFloat f && f != 9 then fpEncode f v
  else if f = 9 then
    let r := toIntSat (-127) 127 (fmul v (.fin false 64 0))
    (wrapInt 8 r.1, r.2)
  else
    let rg := intRange f
    let r := toIntSat rg.1 rg.2 v
    (wrapInt (fmtBits f) r.1, r.2)

/-- The value of an element's bits, the block scale apart. -/
def ofElem (f bits : Nat) : FVal :=
  if f = 9 then ofScaled false (asInt 8 bits) (-6)
  else if fmtFloat f then fpDecode f bits
  else if f = 14 then fofInt bits
  else fofInt (asInt (fmtBits f) bits)

/-- An integer element's value. -/
def intElem (f bits : Nat) : Int := if f = 14 then bits else asInt (fmtBits f) bits

/-- The value of an E8M0 block scale; 0xFF is a NaN. -/
def e8m0 (x : Nat) : FVal := if x = 255 then .nan else .fin false 1 ((x : Int) - 127)

/-! ## FP32 lanes -/

/-- The value of an FP32 pattern. -/
def f32 (b : BitVec 32) : FVal := fpDecode 0 b.toNat

/-- A NaN pattern with the sign and payload that the spec leaves open (R193, log entry 4). -/
def nanBits (a b : BitVec 32) : BitVec 32 :=
  let x := Config.nanPattern a b
  let p := x &&& 0x7FFFFF#32
  (x &&& 0x80000000#32) ||| 0x7F800000#32 ||| (if p = 0 then 0x400000#32 else p)

/-- A floating result rounded to FP32 with `n` standing for a NaN. A result beyond the range is an infinity (DEDUCED, log
entry 7). -/
def toF32 (n : BitVec 32) (v : FVal) : BitVec 32 :=
  match v with
  | .nan => n
  | .inf s => if s then 0xFF800000#32 else 0x7F800000#32
  | .fin s m e =>
    let k := fpEncMag 0 m e
    let k' := if k > 0x7F7FFFFF then 0x7F800000 else k
    BitVec.ofNat 32 (k' + if s then 0x80000000 else 0)

/-- A value as an FP32 pattern by conversion (Table 10.4): beyond the range, the largest finite magnitude. -/
def convF32 (v : FVal) : BitVec 32 × ConvCount :=
  let r := fpEncode 0 v
  (BitVec.ofNat 32 r.1, r.2)

/-- A lane as a shelf stores it: a NaN is the canonical one (R193). -/
def canonF32 (b : BitVec 32) : BitVec 32 := if f32 b = .nan then 0x7FC00000#32 else b

/-- FP32 addition. -/
def f32add (a b : BitVec 32) : BitVec 32 := toF32 (nanBits a b) (fadd (f32 a) (f32 b))
/-- FP32 subtraction. -/
def f32sub (a b : BitVec 32) : BitVec 32 := toF32 (nanBits a b) (fadd (f32 a) (fneg (f32 b)))
/-- FP32 multiplication. -/
def f32mul (a b : BitVec 32) : BitVec 32 := toF32 (nanBits a b) (fmul (f32 a) (f32 b))
/-- FP32 fused multiply-add with one rounding. -/
def f32fma (a b c : BitVec 32) : BitVec 32 := toF32 (nanBits a (b ^^^ c)) (fadd (fmul (f32 a) (f32 b)) (f32 c))
/-- Is an FP32 pattern a NaN? -/
def f32nan (a : BitVec 32) : Bool := decide (a.toNat % 2 ^ 31 > 0x7F800000)

/-- The ordering key of an FP32 pattern (R202). -/
def keyF32 (b : BitVec 32) : Nat :=
  if f32nan b then 0
  else
    let b := if b = 0x80000000#32 then 0#32 else b
    if b.getLsbD 31 then (~~~b).toNat else (b ||| 0x80000000#32).toNat

/-- An element widened as a result record stores it (R279): FP32 bits for floating formats, INT32 otherwise. -/
def widen (f bits : Nat) : BitVec 32 :=
  if f = 0 then BitVec.ofNat 32 bits
  else if fmtFloat f then toF32 0x7FC00000#32 (fpDecode f bits)
  else BitVec.ofInt 32 (intElem f bits)

/-- The ordering key of an element of a select-port format (R202). -/
def keyElem (f bits : Nat) : Nat :=
  if fmtFloat f then keyF32 (widen f bits)
  else if f = 14 then bits + 0x80000000
  else (BitVec.ofInt 32 (intElem f bits) ^^^ 0x80000000#32).toNat

/-- Is an element a NaN? -/
def elemNan (f bits : Nat) : Bool := fmtFloat f && (fpDecode f bits == .nan)

/-- The most negative value of a format as a record stores it (R286). -/
def mostNegative (f : Nat) : BitVec 32 :=
  if fmtFloat f then 0xFF800000#32
  else if f = 10 then 0x80000000#32
  else if f = 11 then BitVec.ofInt 32 (-32768)
  else if f = 12 then BitVec.ofInt 32 (-128)
  else 0#32

/-- The select-port formats of Table 10.5. -/
def selectFmt (f : Nat) : Bool := f == 0 || f == 1 || f == 2 || f == 10 || f == 11 || f == 12 || f == 14

/-- Sum of a list of exact values, with the sign rules of R287: a NaN for both infinities. -/
def fsum (vs : List FVal) : FVal := vs.foldl fadd (.fin false 0 0)

/-! ## MX blocks -/

/-- One MX block from 32 values (R196): its scale byte, elements and counts. -/
def mxBlock (f : Nat) (vs : List FVal) : Nat × List Nat × ConvCount :=
  let emax : Int := if f = 5 then 8 else if f = 7 then 4 else if f = 6 || f = 8 then 2 else 0
  let fltMax : FVal := fpDecode 0 0x7F7FFFFF
  let mags := vs.map fun v => match v with
    | .inf _ => fltMax
    | v => fabs v
  let amax := mags.foldl (fun a v => if flt a v then v else a) (.fin false 0 0)
  if vs.contains .nan then (255, List.replicate 32 0, ⟨0, 0, if f = 5 then 0 else (vs.filter (· == .nan)).length⟩)
  else match amax with
    | .fin _ 0 _ => (0, List.replicate 32 0, .zero)
    | .fin _ m e =>
      let x := max (-127) (min 127 (ffloorLog2 m e - emax))
      let rs := vs.map fun v =>
        let v := match v with
          | .inf n => if n then fneg fltMax else fltMax
          | v => v
        toElem f (fmul v (.fin false 1 (-x)))
      ((x + 127).toNat, rs.map (·.1), rs.foldl (fun c r => c.plus r.2) .zero)
    | _ => (0, List.replicate 32 0, .zero)

end Sys2Proof.Machine
end

