-- ==== Sys2Proof/Machine/Operands.lean ====
section
/-! DEFINITION. Instruction words: header and field layouts (Tables 13.2, 13.3, 14.1), decoding a word at the sequencer to a
mnemonic or a refusal by ILLEGAL_OP (R243, R244, Tables 13.10 to 13.12), operand capture (R245, R265). -/

namespace Sys2Proof.Machine

/-! ## Fields -/

/-- Queue. -/
def iQ (w : Word) : Nat := fld w 2 0
/-- Opcode. -/
def iOp (w : Word) : Nat := fld w 8 3
/-- Long bit. -/
def iLong (w : Word) : Bool := bitOf w 9
/-- Predicate register. -/
def iPr (w : Word) : Nat := fld w 12 10
/-- Predicate negated. -/
def iPn (w : Word) : Bool := bitOf w 13
/-- Field d of formats R and I. -/
def iD (w : Word) : Nat := fld w 18 14
/-- Field a of formats R, I and B. -/
def iA (w : Word) : Nat := fld w 23 19
/-- Field b of format R. -/
def iB (w : Word) : Nat := fld w 28 24
/-- Field x of format R. -/
def iX (w : Word) : Nat := fld w 63 29
/-- Field f of format I. -/
def iF (w : Word) : Nat := fld w 31 24
/-- The immediate of formats I and B, sign-extended to 64 bits. -/
def iImm (w : Word) : Word := (w.extractLsb' 32 32).signExtend 64
/-- The immediate's bits. -/
def iImmN (w : Word) : Nat := fld w 63 32
/-- Semaphore of format Y. -/
def iT (w : Word) : Nat := fld w 17 14
/-- Count of format Y. -/
def iN (w : Word) : Nat := fld w 25 18
/-- Register a of format Y. -/
def iYa (w : Word) : Nat := fld w 30 26
/-- Register b of format Y. -/
def iYb (w : Word) : Nat := fld w 35 31
/-- rd bit of format Y. -/
def iYrd (w : Word) : Bool := bitOf w 36

/-- Long form: shelf of A. -/
def lSa (w : Word) : Nat := fld w 19 14
/-- Long form: line register of A. -/
def lRa (w : Word) : Nat := fld w 24 20
/-- Long form: shelf of B. -/
def lSb (w : Word) : Nat := fld w 30 25
/-- Long form: line register of B. -/
def lRb (w : Word) : Nat := fld w 35 31
/-- Long form: shelf of C. -/
def lSc (w : Word) : Nat := fld w 41 36
/-- Long form: line register of C. -/
def lRc (w : Word) : Nat := fld w 46 42
/-- Long form: count register. -/
def lRn (w : Word) : Nat := fld w 51 47
/-- Long form: register rd. -/
def lRd (w : Word) : Nat := fld w 56 52
/-- Long form: option bits. -/
def lOpt (w : Word) : Nat := fld w 63 57
/-- Long form: option bit `i`. -/
def lOptB (w : Word) (i : Nat) : Bool := bitOf w (57 + i)

/-! ## Decoding -/

/-- A row of the opcode tables: queue, opcode, long bit, mnemonic. -/
structure OpRow where
  q  : Nat
  op : Nat
  l  : Bool
  m  : Mn
deriving DecidableEq, Repr

/-- The opcodes of queue 0. -/
def opTable0 : List OpRow :=
  [⟨0, 0x01, false, .alu⟩, ⟨0, 0x02, false, .alui⟩, ⟨0, 0x03, false, .li⟩, ⟨0, 0x04, false, .lui⟩, ⟨0, 0x05, false, .cmp⟩,
   ⟨0, 0x06, false, .cmpi⟩, ⟨0, 0x07, false, .plog⟩, ⟨0, 0x08, false, .ld⟩, ⟨0, 0x09, false, .st⟩, ⟨0, 0x0A, false, .rds⟩,
   ⟨0, 0x0B, false, .wrs⟩, ⟨0, 0x10, false, .br⟩, ⟨0, 0x11, false, .brr⟩, ⟨0, 0x12, false, .call⟩, ⟨0, 0x13, false, .ret⟩,
   ⟨0, 0x14, false, .loop⟩, ⟨0, 0x15, false, .loopi⟩, ⟨0, 0x18, false, .qwait⟩, ⟨0, 0x1C, false, .frameWait⟩,
   ⟨0, 0x1D, false, .commit⟩, ⟨0, 0x1E, false, .trap⟩]

/-- The opcodes of queues 1 and 2. -/
def opTable1 : List OpRow :=
  [⟨1, 0x01, true, .copy⟩, ⟨1, 0x02, true, .get⟩, ⟨1, 0x03, true, .put⟩, ⟨1, 0x04, true, .fetch⟩, ⟨1, 0x05, true, .store⟩,
   ⟨1, 0x06, true, .gather⟩, ⟨1, 0x08, false, .creditReq⟩, ⟨1, 0x09, false, .creditRet⟩, ⟨2, 0x01, true, .wload⟩,
   ⟨2, 0x02, true, .mm⟩, ⟨2, 0x03, true, .mmg⟩, ⟨2, 0x04, true, .mms⟩, ⟨2, 0x05, true, .mmp⟩, ⟨2, 0x08, true, .accInit⟩,
   ⟨2, 0x09, true, .accDrain⟩, ⟨2, 0x0C, false, .part⟩]

/-- The opcodes of queues 3 to 5. -/
def opTable2 : List OpRow :=
  [⟨3, 0x01, true, .vld⟩, ⟨3, 0x02, true, .vst⟩, ⟨3, 0x04, false, .valu⟩, ⟨3, 0x05, false, .vfma⟩, ⟨3, 0x06, false, .vsf⟩,
   ⟨3, 0x07, true, .vcvt⟩, ⟨3, 0x08, false, .vred⟩, ⟨3, 0x09, false, .vbcast⟩, ⟨3, 0x0A, false, .vext⟩,
   ⟨3, 0x0C, true, .argmax⟩, ⟨4, 0x01, true, .predGate⟩, ⟨4, 0x02, true, .pack⟩, ⟨4, 0x03, true, .matchLoad⟩,
   ⟨4, 0x08, false, .scaInit⟩, ⟨4, 0x09, true, .scaAdd⟩, ⟨4, 0x0A, true, .scaDrain⟩, ⟨5, 0x01, true, .topk⟩,
   ⟨5, 0x02, true, .merge⟩]

/-- Queue, opcode, long bit and mnemonic (Tables 13.10 to 13.12). -/
def opTable : List OpRow := opTable0 ++ opTable1 ++ opTable2

/-- Opcodes that every queue has: WAIT, SIG, SIGR, NOP and the register-free NOP. -/
def commonOp (op : Nat) : Option Mn :=
  if op = 0x38 then some .wait else if op = 0x39 then some .sig else if op = 0x3A then some .sigr
  else if op = 0x3B || op = 0x3F then some .nop else none

/-- The mnemonic of a queue, opcode and long bit (Tables 13.10 to 13.12); GETX, the ring form of STORE and the two forms
of MATCH are told apart by their option bits. -/
def decodeHead (w : Word) : Option Mn :=
  match (opTable.find? fun e => e.q == iQ w && e.op == iOp w && e.l == iLong w).map OpRow.m with
  | some .get => some (if lOptB w 2 then .getx else .get)
  | some .store => some (if lOptB w 1 then .storeRing else .store)
  | some .matchLoad => some (if lOptB w 0 then .matchProbe else .matchLoad)
  | some m => some m
  | none => if iQ w ≤ 5 && !iLong w then commonOp (iOp w) else none

/-- Bits of a word that must be zero: `[hi:lo]`. -/
def zeroF (w : Word) (hi lo : Nat) : Bool := fld w hi lo == 0

/-- Unused long-form operands are zero: which of A, B, C, n, rd the instruction uses, and its option bits. -/
def longZero (w : Word) (a b c n d : Bool) (opts : Nat) : Bool :=
  (a || (zeroF w 24 14)) && (b || zeroF w 35 25) && (c || zeroF w 46 36) && (n || zeroF w 51 47) && (d || zeroF w 56 52) &&
    (lOpt w &&& opts == lOpt w)

/-- Every field that the scalar instructions do not use is zero, and no reserved function is named; true for others. -/
def formScalar (m : Mn) (w : Word) : Bool :=
  match m with
  | .alu => decide (iX w % 16 ≤ 12) && zeroF w 63 33
  | .alui => decide (iF w % 16 ≤ 12) && zeroF w 31 28
  | .li => zeroF w 31 19
  | .lui => zeroF w 31 24
  | .cmp => decide (iX w % 8 ≤ 5) && zeroF w 63 32 && zeroF w 18 17
  | .cmpi => decide (iF w % 8 ≤ 5) && zeroF w 31 27 && zeroF w 18 17
  | .plog => zeroF w 63 33 && zeroF w 18 17 && zeroF w 23 22 && zeroF w 28 27
  | .ld => true
  | .st => true
  | .rds => zeroF w 31 19 && zeroF w 63 44
  | .wrs => zeroF w 18 14 && zeroF w 31 24 && zeroF w 63 44
  | _ => true

/-- Every field that the control and synchronisation instructions do not use is zero, and no reserved function is named; true for others. -/
def formControl (m : Mn) (w : Word) : Bool :=
  match m with
  | .br => zeroF w 31 14
  | .brr => zeroF w 18 14 && zeroF w 63 24
  | .call => zeroF w 31 14
  | .ret => zeroF w 63 14
  | .loop => zeroF w 18 14 && zeroF w 31 24 && zeroF w 63 44 && !zeroF w 43 32
  | .loopi => zeroF w 31 14 && !zeroF w 43 32
  | .qwait => zeroF w 31 14 && zeroF w 63 38
  | .frameWait => zeroF w 63 19
  | .commit => zeroF w 18 14 && zeroF w 63 24
  | .trap => zeroF w 31 14 && zeroF w 63 48
  | .wait => zeroF w 63 26
  | .sig => zeroF w 63 26
  | .sigr => zeroF w 63 37 && (iYrd w || zeroF w 35 31)
  | .nop => iOp w == 0x3F || zeroF w 63 14
  | _ => true

/-- Every field that the move instructions do not use is zero, and no reserved function is named; true for others. -/
def formMove (m : Mn) (w w1 : Word) : Bool :=
  match m with
  | .copy => longZero w true false true true false 0 && w1 == 0
  | .get => longZero w true true false true true 1 && w1 == 0
  | .getx => longZero w true true false true true 4 && zeroF w1 63 30
  | .put => longZero w true true false true true 1 && zeroF w1 63 4
  | .fetch => longZero w false true true true false 0 && zeroF w 30 25 && w1 == 0
  | .store => longZero w true true false true false 0 && zeroF w 30 25 && w1 == 0
  | .storeRing => longZero w true false false true false 2 && zeroF w1 63 6
  | .gather => longZero w true (fld w1 6 5 != 0) true true (fld w1 6 5 != 0) 0 && zeroF w1 63 7
  | .creditReq => zeroF w 18 14 && zeroF w 63 34
  | .creditRet => zeroF w 23 14 && zeroF w 63 33
  | _ => true

/-- Every field that the array instructions do not use is zero, and no reserved function is named; true for others. -/
def formArray (m : Mn) (w w1 : Word) : Bool :=
  match m with
  | .wload => longZero w true false (fmtMx (fld w1 4 0)) (bitOf w1 26) false 0 && zeroF w1 63 38 &&
      (bitOf w1 26 || zeroF w1 29 27) && (!bitOf w1 26 || fld w1 8 7 == 1) && (fld w1 8 7 == 3 || (zeroF w1 31 30 && zeroF w1 37 32)) &&
      (fld w1 8 7 == 0 || (zeroF w1 15 9 && zeroF w1 23 16))
  | .mm => longZero w true false (fmtMx (fld w1 4 0)) true false 0 && zeroF w1 63 50 && zeroF w1 39 39
  | .mmg => longZero w true true (fmtMx (fld w1 4 0)) true true 0 && zeroF w1 63 39
  | .mms => longZero w true (lOptB w 0) (fmtMx (fld w1 4 0)) true (lOptB w 0) 1 && zeroF w1 63 50 &&
      (!lOptB w 0 || zeroF w1 49 40)
  | .mmp => longZero w true (lOptB w 0) (fmtMx (fld w1 4 0)) true (lOptB w 0) 1 && zeroF w1 63 50 &&
      (!lOptB w 0 || zeroF w1 49 40)
  | .accInit => longZero w (lOptB w 0) (lOptB w 1) false true false 3 && zeroF w1 63 13
  | .accDrain => longZero w (fmtMx (fld w1 4 0)) (bitOf w1 18) true true false 0 && zeroF w1 63 23 &&
      (bitOf w1 19 || zeroF w1 22 20)
  | .part => zeroF w 31 14 && zeroF w 63 38
  | _ => true

/-- Every field that the vector instructions do not use is zero, and no reserved function is named; true for others. -/
def formVector (m : Mn) (w w1 : Word) : Bool :=
  match m with
  | .vld => longZero w true (fmtMx (fld w1 4 0)) false true true 0 && zeroF w1 63 7 && (fld w1 4 0 == 15 || zeroF w1 6 5)
  | .vst => longZero w true (fmtMx (fld w1 4 0)) false true true 0 && zeroF w1 63 5
  | .valu => decide (iX w % 32 ≤ 13) && zeroF w 63 35 && ((iX w % 32 != 11 && iX w % 32 != 12 && iX w % 32 != 13) || zeroF w 28 24)
  | .vfma => zeroF w 63 35 && zeroF w 33 29
  | .vsf => decide (iX w % 8 ≤ 4) && zeroF w 28 24 && zeroF w 63 32
  | .vred => decide (iX w % 4 ≤ 2) && zeroF w 28 24 && zeroF w 63 35 && zeroF w 33 31
  | .vbcast => zeroF w 63 24
  | .vext => zeroF w 63 35 && zeroF w 33 29
  | .vcvt => longZero w true (fmtMx (fld w1 4 0)) true true false 0 && zeroF w1 63 25 &&
      (fmtMx (fld w1 9 5) || zeroF w1 20 10) && (fld w1 9 5 == 15 || zeroF w1 24 21)
  | .argmax => longZero w true false true true false 0 && zeroF w1 63 22
  | _ => true

/-- Every field that the sparse and select instructions do not use is zero, and no reserved function is named; true for others. -/
def formSparse (m : Mn) (w w1 : Word) : Bool :=
  match m with
  | .predGate => longZero w true false false true true 0 && zeroF w1 63 25
  | .pack => longZero w true (bitOf w1 6) true true true 0 && zeroF w1 63 14 &&
      (!(bitOf w1 6 || bitOf w1 5) || zeroF w1 13 7) && !(bitOf w1 6 && bitOf w1 5)
  | .matchLoad => longZero w true false false true false 2 && zeroF w1 63 2 && (lOptB w 1 || w1 == 0)
  | .matchProbe => longZero w true false true true true 3 && zeroF w1 63 42 && (lOptB w 1 || zeroF w1 41 21)
  | .scaInit => zeroF w 23 14 && zeroF w 31 30 && zeroF w 63 40
  | .scaAdd => longZero w true false false true false 0 && w1 == 0
  | .scaDrain => longZero w false false true false true 0 && w1 == 0
  | .topk => longZero w true false true true false 0 && zeroF w1 63 43
  | .merge => longZero w true false true true false 0 && zeroF w1 63 43 && zeroF w1 29 18
  | _ => true

/-- Every field an instruction does not use is zero, and no reserved function is named (R243, R258, R265, Tables 13.4 to
13.6, 14.2 to 14.11). -/
def formOk (m : Mn) (w w1 : Word) : Bool :=
  formScalar m w && formControl m w && formMove m w w1 && formArray m w w1 && formVector m w w1 && formSparse m w w1

/-- Does a decoded word trap with OPERAND_RANGE at issue because a pair or triple of registers passes s31 (R265)? -/
def pairRange (m : Mn) (w : Word) : Bool :=
  match m with
  | .getx => lRd w > 30
  | .matchProbe => lOptB w 1 && lRd w > 30
  | .scaDrain => lRd w > 29
  | _ => false

/-- The scalar registers an instruction reads at issue. -/
def readsS (m : Mn) (w w1 : Word) : List Nat :=
  match m with
  | .alu => [iA w, iB w] | .alui => [iA w] | .lui => [iA w] | .cmp => [iA w, iB w] | .cmpi => [iA w]
  | .ld => [iA w] | .st => [iA w, iD w] | .wrs => [iA w] | .brr => [iA w] | .loop => [iA w] | .commit => [iA w]
  | .sigr => if iYrd w then [iYa w, iYb w] else [iYa w]
  | .creditReq => [iA w, iB w] | .creditRet => [iB w] | .vbcast => [iA w] | .vext => [iB w]
  | .li => [] | .plog => [] | .rds => [] | .br => [] | .call => [] | .ret => [] | .loopi => [] | .qwait => []
  | .frameWait => [] | .trap => [] | .wait => [] | .sig => [] | .nop => [] | .part => [] | .valu => [] | .vfma => []
  | .vsf => [] | .vred => [] | .scaInit => []
  | .get => [lRa w, lRb w, lRn w, lRd w] | .put => [lRa w, lRb w, lRn w, lRd w]
  | .mmg => [lRa w, lRb w, lRc w, lRn w, lRd w]
  | .mms => [lRa w, lRb w, lRc w, lRn w] ++ (if lOptB w 0 then [lRd w] else [])
  | .mmp => [lRa w, lRb w, lRc w, lRn w] ++ (if lOptB w 0 then [lRd w] else [])
  | .gather => [lRa w, lRb w, lRc w, lRn w, lRd w]
  | .vcvt => [lRa w, lRb w, lRc w, lRn w, fld w1 20 16]
  | .predGate => [lRa w, lRn w, fld w1 24 20]
  | .copy | .getx | .fetch | .store | .storeRing | .wload | .mm | .accInit | .accDrain | .vld | .vst | .argmax | .pack
  | .matchLoad | .matchProbe | .scaAdd | .scaDrain | .topk | .merge => [lRa w, lRb w, lRc w, lRn w]

/-- The scalar registers an instruction writes. -/
def writesS (m : Mn) (w : Word) : List Nat :=
  match m with
  | .alu | .alui | .li | .lui | .ld | .rds | .frameWait | .vred | .vext => [iD w]
  | .getx => [lRd w, lRd w + 1]
  | .predGate | .pack => [lRd w]
  | .matchProbe => if lOptB w 1 then [lRd w, lRd w + 1] else [lRd w]
  | .scaDrain => [lRd w, lRd w + 1, lRd w + 2]
  | _ => []

/-- The predicate registers an instruction reads, its own predicate apart. -/
def readsP (m : Mn) (w : Word) : List Nat :=
  match m with
  | .plog => [iA w % 8, iB w % 8]
  | _ => []

/-- The predicate register an instruction writes. -/
def writesP (m : Mn) (w : Word) : List Nat :=
  match m with
  | .cmp | .cmpi | .plog => [iD w % 8]
  | _ => []

/-- Capture the operands of an instruction at issue (R245). -/
def capture (k : CoreSt) (m : Mn) (pc : Nat) (w w1 : Word) : Op :=
  let g := rdS k
  let base : Op :=
    { mn := m, q := iQ w, pc := pc, seq := k.nextSeq, w0 := w, w1 := w1, a := g (iA w), b := g (iB w), c := 0, n := 0,
      d := g (iD w), x := 0, pa := rdP k (iA w), pb := rdP k (iB w) }
  if m = .sigr then { base with a := g (iYa w), b := g (iYb w) }
  else if iLong w then
    { base with a := g (lRa w), b := g (lRb w), c := g (lRc w), n := g (lRn w), d := g (lRd w),
                x := if m = .vcvt then g (fld w1 20 16) else if m = .predGate then g (fld w1 24 20) else 0 }
  else base

/-- The upper 32 bits of a line or count register are zero (R265). -/
def upperZero (v : Word) : Bool := decide (v.toNat < 2 ^ 32)

/-- The line or count a register gives. -/
def low32 (v : Word) : Nat := v.toNat % 2 ^ 32

/-- A peer register: logical core in [4:0], coordinate in [23:8] when the peer is on another device, the rest zero (R269). -/
def peerOk (v : Word) (remote : Bool) : Bool :=
  if remote then fld v 7 5 == 0 && fld v 63 24 == 0 else fld v 63 5 == 0

end Sys2Proof.Machine
end

