-- ==== Sys2Proof/Machine/Status.lean ====
section
/-! DEFINITION. Values that status registers show of state held elsewhere: CORE_STAT, SEQ_STAT, SEM_VAL, CREDIT_POOL_STAT,
ARRAY_STAT, SPARSE_STAT, SCA_STAT, MOVE_STAT, domain states, placement (Table 13.7 and the owning chapters). -/

namespace Sys2Proof.Machine

/-- Is a power domain in RUN (PWR_DOM_STAT, R373)? -/
def domRun (s : State) (d : Nat) : Bool := s.regF (Reg.PWR_DOM_STAT + 8 * d) 2 0 == 0

/-- Domain state of PD[d]: 0 RUN, 1 SLEEP, 2 DEEP_RET, 3 DEEP. -/
def domState (s : State) (d : Nat) : Nat := s.regF (Reg.PWR_DOM_STAT + 8 * d) 1 0

/-- CORE_STAT.in_service. -/
def inService (s : State) (c : CoreId) : Bool := bitOf (s.reg (coreOff Reg.CORE_STAT c)) 0
/-- CORE_STAT.rotation_slot. -/
def inRotation (s : State) (c : CoreId) : Bool := bitOf (s.reg (coreOff Reg.CORE_STAT c)) 1
/-- CORE_STAT.fenced. -/
def isFenced (s : State) (c : CoreId) : Bool := bitOf (s.reg (coreOff Reg.CORE_STAT c)) 2

/-- May another unit reach this core's scratchpad (R163)? -/
def reachable (s : State) (c : CoreId) : Bool := (inService s c || inRotation s c) && domRun s c.val

/-- Entries of a unit queue (R149). -/
def qLen (k : CoreSt) (q : Nat) : Nat := if h : q < 6 then k.queues[q].length else 0

/-- CORE_STAT as a read returns it (R149, R159). -/
def coreStatVal (s : State) (c : CoreId) : Word :=
  let k := s.core c
  let full := (List.range 6).foldl (fun a q => a + if qLen k q ≥ 16 then 2 ^ q else 0) 0
  let cw := k.active.any fun a => a.op.mn == .creditReq
  BitVec.ofNat 64 ((s.reg (coreOff Reg.CORE_STAT c)).toNat % 8 + b2n k.loftCopy * 8 + b2n cw * 16 + full * 32 +
    (k.slot % 8) * 2048)

/-- SEM_VAL[t] (R251). -/
def semVal (k : CoreSt) (t : Nat) : Word :=
  if h : t < 16 then BitVec.ofNat 64 (k.sems[t].count + k.sems[t].held * 2 ^ 16) else 0

/-- CREDIT_POOL_STAT[p] (R164). -/
def poolStatVal (k : CoreSt) (p : Nat) : Word :=
  if h : p < 16 then BitVec.ofNat 64 (k.pools[p].avail + k.pools[p].queue.length * 2 ^ 32) else 0

/-- ARRAY_STAT (R182, R188): operations are atomic steps of this model, so busy and draining read 0 between them. -/
def arrayStatVal (s : State) (c : CoreId) : Word :=
  let k := s.core c
  BitVec.ofNat 64 (k.array.mode + b2n (bitOf (s.reg (coreOff Reg.ARRAY_STAT c)) 8) * 2 ^ 8 + (k.array.contain % 16) * 2 ^ 9)

/-- The key of a weight set in the array's store. -/
def setKey (q set : Nat) : Nat := 2 * q + set

/-- Is a current weight set marked non-finite, in any partition (R221)? An FP32 tile occupies both sets. -/
def curNonfinite (k : CoreSt) : Bool :=
  match k.array.curSet with
  | none => false
  | some i => (List.range 4).any fun q => match sget (setKey q i) k.array.sets, sget (setKey q 0) k.array.sets with
    | some w, _ => w.nonfinite
    | none, some w => fmtClass w.fmt == 0 && w.nonfinite
    | none, none => false

/-- SPARSE_STAT (R223): `mms_active` reads 0 between steps. -/
def sparseStatVal (k : CoreSt) : Word :=
  let g := (List.range 4).foldl (fun a g => a + if (sget g k.cam.groups).isSome then 2 ^ g else 0) 0
  BitVec.ofNat 64 (k.cam.mode * 2 + g * 8 + b2n (curNonfinite k) * 128)

/-- SCA_STAT (R240). -/
def scaStatVal (k : CoreSt) : Word :=
  BitVec.ofNat 64 (b2n k.sca.init + b2n k.sca.poisoned * 2 + k.sca.keys.length * 4 + (k.sca.spillPos % 2 ^ 21) * 2 ^ 32)

/-- Is an instruction one whose outstanding requests are reads (R162, R271)? -/
def isReader (m : Mn) : Bool := m == .get || m == .getx || m == .fetch
/-- Is an instruction one whose outstanding requests are writes? -/
def isWriter (m : Mn) : Bool := m == .put || m == .store || m == .storeRing

/-- Reads outstanding (R162). -/
def rdOut (k : CoreSt) : Nat := (k.active.filter fun a => isReader a.op.mn).foldl (fun n a => n + a.wait) 0
/-- Writes outstanding. -/
def wrOut (k : CoreSt) : Nat := (k.active.filter fun a => isWriter a.op.mn).foldl (fun n a => n + a.wait) 0

/-- Ledger entries in use: those whose stamp is that of cur_frame (R270). -/
def ledgerUsed (k : CoreSt) : Nat := (k.ledger.filter fun l => l.stamp == k.cur.toNat % 256).length

/-- MOVE_STAT (chapter 14). -/
def moveStatVal (k : CoreSt) : Word :=
  BitVec.ofNat 64 (rdOut k + wrOut k * 2 ^ 7 + ledgerUsed k * 2 ^ 14 +
    (k.active.filter fun a => a.op.mn == .topk || a.op.mn == .merge).length * 2 ^ 19)

/-- The core a logical number names under core `c`'s own map (PEER_MAP_ACT, R162). -/
def peerCore (s : State) (c : CoreId) (l : Nat) : Option CoreId :=
  let v := s.actReg (coreOff (Reg.PEER_MAP + 4 * (l % 32)) c)
  if bitOf v 31 then coreOf (fld v 5 0) else none

/-- The CCLK cycles since reset as a read finds them (Table 13.7): later than at every earlier read, by a number that nothing
fixes (log entry 9). -/
def cclkNow (s : State) (c : CoreId) : Word := (s.core c).cclk + 1 + BitVec.ofNat 64 (s.free 3 32).toNat

/-- A status value by RDS index (Table 13.7); none when the table does not list it. CCLK cycles since reset are a free value
(log entry 9). -/
def statusVal (s : State) (c : CoreId) (i : Nat) : Option Word :=
  let k := s.core c
  if i = 0 then some (cclkNow s c)
  else if i = 1 then some (k.cur.zeroExtend 64)
  else if i = 2 then some (BitVec.ofNat 64 k.logical)
  else if i = 3 then some (BitVec.ofNat 64 c.val)
  else if i = 4 then some (BitVec.ofNat 64 k.slot)
  else if i = 5 then some (BitVec.ofNat 64 (s.coordX + s.coordY * 256))
  else if i = 0x10 then some (coreStatVal s c)
  else if i = 0x11 then some (arrayStatVal s c)
  else if 0x12 ≤ i ∧ i ≤ 0x15 then some (s.reg (coreOff (Reg.ARRAY_PART_STAT + 8 * (i - 0x12)) c))
  else if i = 0x16 then some (sparseStatVal k)
  else if i = 0x17 then some (scaStatVal k)
  else if 0x20 ≤ i ∧ i ≤ 0x2E then some (poolStatVal k (i - 0x20 + 1))
  else if 0x40 ≤ i ∧ i ≤ 0x7F then some (shelfEnt s c (i - 0x40))
  else if 0x80 ≤ i ∧ i ≤ 0x8F then some (semVal k (i - 0x80))
  else none

end Sys2Proof.Machine
end

