-- ==== Sys2Proof/Machine/Time.lean ====
section
/-! DEFINITION. Device time, its rate and step, the timed outputs and the timed inputs (chapter 4). -/

namespace Sys2Proof.Machine

/-- A command's outcome. -/
abbrev Res := Host.Outcome State Fault Refusal

/-- Change the time base. -/
def State.modTime (f : TimeSt → TimeSt) (s : State) : State := { s with time := f s.time }

/-- Device time in nanoseconds. -/
def State.nowNs (s : State) : Nat := s.time.sec * 1000000000 + s.time.ns

/-- The time base with device time at a number of nanoseconds, the fraction given. -/
def TimeSt.setNs (t : TimeSt) (n frac : Nat) : TimeSt :=
  { t with sec := n / 1000000000, ns := n % 1000000000, frac := frac }

/-! ## Rate (R83, R84) -/

/-- One cycle's increment (R83): fraction, nanoseconds and seconds after it, at a signed rate. What follows second 2^48 − 1
is left open (R14); the model counts on, and TIME_NOW_SEC shows the low 48 bits (log entry 146). -/
def TimeSt.advance (t : TimeSt) (rate : Int) : TimeSt :=
  let acc := ((t.frac : Int) + 2 * 2 ^ 32 + rate).toNat
  let n := t.ns + acc / 2 ^ 32
  let t := { t with frac := acc % 2 ^ 32, cyc := t.cyc + 1 }
  if n ≥ 1000000000 then { t with ns := n - 1000000000, sec := t.sec + 1 } else { t with ns := n }

/-- The rate of the present cycle's increment: TIME_RATE_ACT. -/
def State.rateAct (s : State) : Int := sfld (s.reg Reg.TIME_RATE_ACT) 31 0

/-- A signed 32-bit field as a register value. -/
def i32 (x : Int) : Word := BitVec.ofNat 64 (wrapInt 32 x)

/-- A write of TIME_RATE (R84): clamped to ±8,589,934 with TIME_STAT.rate_clamped set. -/
def rateWrite (rate : Int) (s : State) : State :=
  let r := max (-8589934) (min 8589934 rate)
  let s := s.setReg Reg.TIME_RATE (i32 r)
  if r = rate then s else s.setF Reg.TIME_STAT 1 1 1

/-- TIME_RATE_WRITE: `v` holds the 32 bits written. -/
def execTimeRateWrite (v : Half) (s : State) : Res := .next (rateWrite v.toInt s)

/-! ## Timed outputs (R92 to R95) -/

/-- The active fence source. -/
def frameSrc (s : State) : Nat := s.actF Reg.FRAME_SRC 2 0

/-- Offset of a register of a pin. -/
def toutOff (o : Nat) (i : Idx4) : Nat := o + 0x40 * i.val
/-- Replace a pin. -/
def State.setPin (i : Idx4) (p : ToutPin) (s : State) : State := s.modTime fun t => { t with pins := t.pins.set i.val p }
/-- A pin. -/
def State.pin (s : State) (i : Idx4) : ToutPin := s.time.pins[i.val]

/-- A pin's mode in effect; codes 5 to 7 act as 0 (Table 4.1). -/
def toutMode (s : State) (i : Idx4) : Nat :=
  let m := fld (s.pin i).cfg 2 0
  if m > 4 then 0 else m
/-- Pulse width in ns: values below 8 act as 8. -/
def toutWidth (s : State) (i : Idx4) : Nat := max 8 (fld (s.pin i).cfg 31 8)
/-- The period of mode 2 in ns: values below 16 act as 16 (R93). -/
def toutPeriod (s : State) (i : Idx4) : Nat := max 16 (s.pin i).period
/-- The device time that TOUT_TIME names, as the registers hold it. -/
def toutTime (s : State) (i : Idx4) : Nat :=
  s.regF (toutOff Reg.TOUT_TIME_SEC i) 47 0 * 1000000000 + s.regF (toutOff Reg.TOUT_TIME_NS i) 29 0

/-- Are the pins held inactive: in the safe state with SAFE_CFG.tout_off (R403)? -/
def toutOffNow (s : State) : Bool := bitOf (s.reg Reg.SAFE_STAT) 31 && bitOf (s.reg Reg.SAFE_CFG) 8

/-- Is the pin active: in a pulse, or in mode 4 with level 1, and not held inactive? -/
def toutActive (s : State) (i : Idx4) : Bool :=
  if toutOffNow s then false
  else if toutMode s i = 4 then bitOf (s.pin i).cfg 4 else (s.pin i).ends.isSome

/-- Names of the TIME_OUT pins. -/
def toutName (i : Idx4) : String :=
  match i.val with
  | 0 => "TIME_OUT[0]"
  | 1 => "TIME_OUT[1]"
  | 2 => "TIME_OUT[2]"
  | _ => "TIME_OUT[3]"

/-- Drive the pin at its present level, under its polarity. -/
def toutDrive (i : Idx4) (s : State) : State :=
  s.emit (.pin (toutName i) (toutActive s i != bitOf (s.pin i).cfg 3))

/-- Count `n` edges not emitted; the event is raised once for the occurrence (R95). -/
def toutMiss (i : Idx4) (n : Nat) (s : State) : State :=
  if n = 0 then s else raise (evToutMiss i.val) (bumpN (Reg.TOUT_MISS + 8 * i.val) n s)

/-- The device time in ns of TCLK cycle `d`, counted forward from now at the rate active now. -/
def timeAt (s : State) (d : Nat) : Nat :=
  (s.nowNs * 2 ^ 32 + s.time.frac + (d - s.time.cyc) * ((2 * 2 ^ 32 : Int) + s.rateAct).toNat) / 2 ^ 32

/-- The next edge of a pin: the earliest scheduled, and in mode 3 with a timer-driven fence the one that the time base
schedules ahead of that fence (R94), with the phase that the fence makes active. -/
def toutNext (s : State) (i : Idx4) : Option Nat :=
  match (s.pin i).edges with
  | e :: _ => some e.1
  | [] =>
    if toutMode s i = 3 ∧ frameSrc s = 0 then
      s.time.due.map fun d => timeAt s d + s.regF (toutOff Reg.TOUT_PHASE i) 29 0
    else none

/-- The end of the pulse in progress: its width, cut 8 ns before the next edge where it would reach that edge (R92). -/
def toutStop (s : State) (i : Idx4) : Option Nat :=
  (s.pin i).ends.map fun e => match toutNext s i with
    | some t => if t ≤ e then t - 8 else e
    | none => e

/-- Add an edge, earliest first. -/
def edgePut (e : Nat × Bool) : List (Nat × Bool) → List (Nat × Bool)
  | [] => [e]
  | x :: r => if e.1 < x.1 then e :: x :: r else x :: edgePut e r

/-- Schedule a pin's edge at a device time, or count it as missed when that time is past (R95): mode 2 resumes at the first
edge that is not past. -/
def toutArm (i : Idx4) (t : Nat) (s : State) : State :=
  let now := s.nowNs
  let p := s.pin i
  if t ≥ now then s.setPin i { p with edges := edgePut (t, false) p.edges }
  else if toutMode s i = 2 then
    let n := cdiv (now - t) (toutPeriod s i)
    toutMiss i n (s.setPin i { p with edges := edgePut (t + n * toutPeriod s i, false) p.edges })
  else toutMiss i 1 s

/-- The registers of a pin come into effect (R93): pending edges are cancelled, an active pulse ends. -/
def toutReplan (i : Idx4) (s : State) : State :=
  let s := s.setPin i
    { cfg := (s.reg (toutOff Reg.TOUT_CFG i)).truncate 32, start := toutTime s i,
      period := s.regF (toutOff Reg.TOUT_PERIOD_NS i) 31 0, wrote := false, edges := [], ends := none }
  let s := toutDrive i s
  if toutMode s i = 1 ∨ toutMode s i = 2 then toutArm i (s.pin i).start s else s

/-- A write to a pin's TOUT_CFG (`which` 0), TOUT_TIME_SEC (1), TOUT_TIME_NS (2) or TOUT_PERIOD_NS (3): it takes effect in the
next TCLK cycle. -/
def toutWrite (i : Idx4) (which : Nat) (v : Word) (s : State) : State :=
  let s := s.setPin i { s.pin i with wrote := true }
  match which with
  | 0 =>
    let s := s.setReg (toutOff Reg.TOUT_CFG i) (v &&& 0xFFFFFF1F)
    if fld v 2 0 > 4 then accessError s else s
  | 1 => s.setReg (toutOff Reg.TOUT_TIME_SEC i) (v &&& 0xFFFFFFFFFFFF)
  | 2 => s.setReg (toutOff Reg.TOUT_TIME_NS i) (v &&& 0x3FFFFFFF)
  | _ => s.setReg (toutOff Reg.TOUT_PERIOD_NS i) (v &&& 0xFFFFFFFF)

/-- TOUT_CFG_WRITE (R92, R93). -/
def execToutCfgWrite (i : Idx4) (which : Nat) (v : Word) (s : State) : Res := .next (toutWrite i which v s)

/-- Has a timer-driven fence ended the interval that an edge of mode 3 belongs to, an edge that a step has left standing
apart (R94)? -/
def edgeLate (s : State) (i : Idx4) (e : Nat × Bool) : Bool :=
  toutMode s i == 3 && !e.2 && frameSrc s == 0 &&
    match s.time.due with
    | some d => decide (d ≤ s.time.cyc) && decide (s.nowNs ≤ e.1)
    | none => false

/-- TOUT_EDGE (R92): when device time has reached the earliest edge the pulse starts; mode 2 schedules its next edge. -/
def toutEdge (i : Idx4) (s : State) : State :=
  let p := s.pin i
  match p.edges with
  | [] => s
  | e :: r =>
    if e.1 > s.nowNs || edgeLate s i e then s
    else
      let stop := some (e.1 + toutWidth s i)
      toutDrive i (s.setPin i (if toutMode s i = 2 then { p with edges := edgePut (e.1 + toutPeriod s i, false) r, ends := stop }
        else { p with edges := r, ends := stop }))

/-- TOUT_EDGE. -/
def execToutEdge (i : Idx4) (s : State) : Res := .next (toutEdge i s)

/-- TOUT_PULSE_END (R92): a pulse whose end device time has reached. -/
def toutEnd (i : Idx4) (s : State) : State :=
  match toutStop s i with
  | none => s
  | some t => if t > s.nowNs then s else toutDrive i (s.setPin i { s.pin i with ends := none })

/-- TOUT_PULSE_END. -/
def execToutPulseEnd (i : Idx4) (s : State) : Res := .next (toutEnd i s)

/-- All pins. -/
def allPins : List Idx4 := List.finRange 4

/-- TIME_ADVANCE (R83, R84, R93): the present cycle's increment at the active rate; from the next cycle the written rate and
the written pin registers are in effect. -/
def timeAdvance (s : State) : State :=
  let s := (s.modTime fun t => t.advance s.rateAct).setReg Reg.TIME_RATE_ACT (s.reg Reg.TIME_RATE)
  allPins.foldl (fun s i => if (s.pin i).wrote then toutReplan i s else s) s

/-- TIME_ADVANCE. -/
def execTimeAdvance (s : State) : Res := .next (timeAdvance s)

/-- After a step of device time (R95): edges that it moved past are missed, mode 2 resuming; after a step backward every edge
stands at its device time. -/
def toutAfterStep (back : Bool) (s : State) : State :=
  allPins.foldl (fun s i =>
    let p := s.pin i
    let past := p.edges.filter fun e => decide (e.1 < s.nowNs)
    let rest := (p.edges.filter fun e => decide (s.nowNs ≤ e.1)).map fun e => (e.1, e.2 || back)
    let s := s.setPin i { p with edges := rest }
    match past with
    | [] => s
    | e :: _ => if toutMode s i = 2 then toutArm i e.1 s else toutMiss i past.length s) s

/-- Mode 3 at a fence (R92, R94, R95): an edge of the ending interval that was not reached is missed, but one that a step has
left standing stays; the edge of the new interval is scheduled at the fence's device time plus the active phase; under sources
1 to 4 a phase below 40 ns acts as 40. -/
def toutFence (timer : Bool) (s : State) : State :=
  allPins.foldl (fun s i =>
    if toutMode s i ≠ 3 then s
    else
      let p := s.pin i
      let old := p.edges.filter fun e => !e.2
      let s := toutMiss i old.length (s.setPin i { p with edges := p.edges.filter fun e => e.2 })
      let ph := s.actF (toutOff Reg.TOUT_PHASE i) 29 0
      toutArm i (s.nowNs + (if timer then ph else max 40 ph)) s) s

/-! ## Steps (R85) -/

/-- A refused step: counted and raised. -/
def stepRefused (s : State) : State := raise evTimeStepDenied (bump Reg.TIME_STEP_REFUSED s)

/-- An accepted step to a device time. -/
def stepTo (n : Nat) (frac : Nat) (s : State) : State :=
  toutAfterStep (decide (n < s.nowNs)) ((s.modTime fun t => t.setNs n frac).setF Reg.TIME_STAT 0 0 1)

/-- Is a step possible at all: no step accepted since reset, TIME_STEP_NS below 1,000,000,000? -/
def stepAllowed (s : State) : Bool :=
  !bitOf (s.reg Reg.TIME_STAT) 0 && decide (s.regF Reg.TIME_STEP_NS 29 0 < 1000000000)

/-- TIME_STEP_ABSOLUTE: device time becomes TIME_STEP_SEC and TIME_STEP_NS, the fraction zero. -/
def stepAbsolute (s : State) : State :=
  if stepAllowed s then
    stepTo (s.regF Reg.TIME_STEP_SEC 47 0 * 1000000000 + s.regF Reg.TIME_STEP_NS 29 0) 0 s
  else stepRefused s

/-- TIME_STEP_ABSOLUTE. -/
def execTimeStepAbsolute (s : State) : Res := .next (stepAbsolute s)

/-- TIME_STEP_OFFSET: the signed offset is added, the fraction kept; refused where it would leave the 48-bit seconds. -/
def stepOffset (s : State) : State :=
  let n : Int := (s.nowNs : Int) + sfld (s.reg Reg.TIME_STEP_SEC) 47 0 * 1000000000 + s.regF Reg.TIME_STEP_NS 29 0
  if stepAllowed s && decide (0 ≤ n) && decide (n < 2 ^ 48 * 1000000000) then stepTo n.toNat s.time.frac s
  else stepRefused s

/-- TIME_STEP_OFFSET. -/
def execTimeStepOffset (s : State) : Res := .next (stepOffset s)

/-! ## Reading device time (R86) -/

/-- Replace a requester's entry. -/
def latchPut (r : Requester) (v : Nat) (l : List (Requester × Nat)) : List (Requester × Nat) :=
  (r, v) :: l.filter fun e => e.1 != r

/-- TIME_NOW_READ: the nanoseconds; seconds and fraction of the same cycle are latched for the requester. -/
def nowRead (r : Requester) (s : State) : State :=
  { s.modTime fun t => { t with nowSec := latchPut r t.sec t.nowSec, nowHigh := latchPut r t.sec t.nowHigh, nowFrac := latchPut r t.frac t.nowFrac } with
    lastRead := BitVec.ofNat 64 s.time.ns }

/-- TIME_NOW_READ. -/
def execTimeNowRead (r : Requester) (s : State) : Res := .next (nowRead r s)

/-! ## Timed inputs (R96, R97) -/

/-- The capture queue of an input. -/
def State.caps (s : State) (j : Fin 2) : List (Nat × Nat) := s.time.caps[j.val]
/-- Replace an input's capture queue. -/
def State.setCaps (j : Fin 2) (q : List (Nat × Nat)) (s : State) : State := s.modTime fun t => { t with caps := t.caps.set j.val q }

/-- TIN_CAPTURE: the device time of the sampling cycle minus 4 ns enters the queue of 4, or is dropped and counted. Before
device time 4 ns the recorded value is free. -/
def tinCapture (j : Fin 2) (s : State) : State :=
  let q := s.caps j
  if q.length ≥ 4 then raise (evTinOvf j.val) (bump (Reg.TIN_OVF + 8 * j.val) s)
  else if s.nowNs < 4 then (s.setCaps j (q ++ [((s.free 20 48).toNat, (s.free 21 30).toNat)])).drawn
  else
    let n := s.nowNs - 4
    s.setCaps j (q ++ [(n / 1000000000, n % 1000000000)])

/-- Does TIN_CFG select an edge for capture? -/
def tinSelects (s : State) (j : Fin 2) (rising : Bool) : Bool :=
  bitOf (s.reg (Reg.TIN_CFG + 0x40 * j.val)) (if rising then 0 else 1)

/-- TIN_CAP_READ (R97): the oldest capture's nanoseconds; its seconds enter TIN_CAP_SEC. An empty queue reads zero. -/
def tinCapRead (j : Fin 2) (s : State) : State :=
  match s.caps j with
  | [] => { s with lastRead := 0 }
  | c :: r =>
    { ((s.setCaps j r).setReg (Reg.TIN_CAP_SEC + 0x40 * j.val) (BitVec.ofNat 64 c.1)) with lastRead := BitVec.ofNat 64 c.2 }

/-- TIN_CAP_READ. -/
def execTinCapRead (j : Fin 2) (s : State) : Res := .next (tinCapRead j s)

/-! ## The frame timer (R90, R91) -/

/-- The active frame period in TCLK cycles. -/
def framePeriod (s : State) : Nat := s.actF Reg.FRAME_TIMER_PERIOD 28 0

/-- FRAME_TIMER_PERIOD as a write leaves it: clamped, with the register-access error event when outside its range (R90). -/
def periodWrite (v : Nat) (s : State) : State :=
  let p := max 5000000 (min 500000000 v)
  let s := fbPut Reg.FRAME_TIMER_PERIOD (BitVec.ofNat 64 p) s
  if p = v then s else accessError s

/-- The TCLK cycle of the first timer fence when enable registers now (R91): a start time that this cycle reaches is not
past. -/
def firstDue (s : State) : Nat :=
  let t := s.regF Reg.FRAME_TIMER_START_SEC 47 0 * 1000000000 + s.regF Reg.FRAME_TIMER_START_NS 29 0
  let now := s.nowNs * 2 ^ 32 + s.time.frac
  if t = 0 ∨ t * 2 ^ 32 < now then s.time.cyc + framePeriod s
  else s.time.cyc + cdiv (t * 2 ^ 32 - now) ((2 * 2 ^ 32 : Int) + s.rateAct).toNat

end Sys2Proof.Machine
end

