-- ==== Sys2Proof/Machine/Eth.lean ====
section
/-! DEFINITION. The Ethernet ports: modes, reception, classification, descriptor rings, transmission (R51 to R59, R87). -/

namespace Sys2Proof.Machine

/-- Offset of a register of a port. -/
def ethOff (o : Nat) (p : Idx8) : Nat := o + 0x10000 * p.val
/-- Is a port's link up (ETH_STAT.link)? -/
def ethUp (s : State) (p : Nat) : Bool := bitOf (s.reg (Reg.ETH_STAT + 0x10000 * p)) 0
/-- A port's mode; codes 5 to 7 act as 0 (R51). -/
def ethMode (s : State) (p : Idx8) : Nat :=
  let m := s.regF (ethOff Reg.ETH_CFG p) 2 0
  if m ≥ 5 then 0 else m

/-! ## Parsing -/

/-- EtherType of an untagged frame, or of what follows the first tag. -/
def outerType (b : List Nat) : Nat := beAt b 12 2
/-- Does a frame carry a VLAN tag (R52)? -/
def isTagged (b : List Nat) : Bool := outerType b == 0x8100
/-- Where the payload begins: after the Ethernet header and any tag. -/
def l3Off (b : List Nat) : Nat := if isTagged b then 18 else 14
/-- The EtherType of the payload. -/
def innerType (b : List Nat) : Nat := beAt b (l3Off b - 2) 2
/-- Is the payload IPv4? -/
def isIp (b : List Nat) : Bool := innerType b == 0x0800
/-- Bytes of the IPv4 header. -/
def ihl (b : List Nat) : Nat := 4 * (leAt b (l3Off b) 1 % 16)
/-- IPv4 protocol. -/
def ipProto (b : List Nat) : Nat := leAt b (l3Off b + 9) 1
/-- Source IPv4 address. -/
def ipSrc (b : List Nat) : Nat := beAt b (l3Off b + 12) 4
/-- Destination IPv4 address. -/
def ipDst (b : List Nat) : Nat := beAt b (l3Off b + 16) 4
/-- Where UDP begins. -/
def l4Off (b : List Nat) : Nat := l3Off b + ihl b
/-- Is the payload a UDP datagram? -/
def isUdp (b : List Nat) : Bool := isIp b && ipProto b == 17
/-- UDP source port. -/
def udpSrc (b : List Nat) : Nat := beAt b (l4Off b) 2
/-- UDP destination port. -/
def udpDst (b : List Nat) : Nat := beAt b (l4Off b + 2) 2
/-- The UDP length field. -/
def udpLen (b : List Nat) : Nat := beAt b (l4Off b + 4) 2
/-- The UDP payload, as far as the packet holds it. -/
def udpData (b : List Nat) : List Nat := ((b.take (l3Off b + beAt b (l3Off b + 2) 2)).drop (l4Off b + 8)).take (udpLen b - 8)

/-- The ones-complement sum of big-endian 16-bit words. -/
def ipSum : List Nat → Nat
  | [] => 0
  | [a] => a * 256
  | a :: b :: r =>
    let x := a * 256 + b + ipSum r
    x % 65536 + x / 65536

/-- The IPv4 header checks of R56 on a frame without FCS. A packet that does not say version 4 is dropped as well (DESIGN CHOICE,
log entry 157). -/
def ipOk (b : List Nat) : Bool :=
  let h := ipHdr b (l3Off b) 20
  let total := beAt b (l3Off b + 2) 2
  let room := b.length - l3Off b
  ihl b == 20 && leAt b (l3Off b) 1 / 16 == 4 && h.length == 20 && ipSum h == 0xFFFF &&
    beAt b (l3Off b + 6) 2 % 0x4000 == 0 && (total == room || (decide (b.length + 4 ≤ 68) && decide (total ≤ room)))
where
  /-- Bytes `[lo, lo + n)`. -/
  ipHdr (bs : List Nat) (lo n : Nat) : List Nat := (bs.drop lo).take n

/-! ## Classification (R55) -/

/-- Offset of a register of a head slot. -/
def headOff (o n : Nat) : Nat := o + 0x100 * n
/-- Is a slot enabled in HEAD_SLOT_CFG_ACT? -/
def headOn (s : State) (n : Nat) : Bool := bitOf (s.actReg (headOff Reg.HEAD_SLOT_CFG n)) 0
/-- The port of a slot. -/
def headPort (s : State) (n : Nat) : Nat := s.actF (headOff Reg.HEAD_SLOT_CFG n) 3 1
/-- The parser program of a slot: 0 native; 9 to 15 act as 0. -/
def headProg (s : State) (n : Nat) : Nat :=
  let m := s.actF (headOff Reg.HEAD_SLOT_CFG n) 7 4
  if m > 8 then 0 else m
/-- The state of a slot (R68). -/
def headState (s : State) (n : Nat) : Nat := s.regF (headOff Reg.HEAD_SLOT_STAT n) 2 0
/-- Byte `i` of parser program `m`'s header (Table 3.7), `n` bytes little-endian. -/
def progHdr (s : State) (m i n : Nat) : Nat :=
  leAt ((List.range 4).flatMap fun w => bytesLE 8 (s.reg (Reg.PARSE_HDR + 0x100 * (m - 1) + 8 * w)).toNat) i n

/-- Ports that parser programs named by slots on a port serve; a disabled slot makes no port the parser's (DESIGN CHOICE, log
entry 156). -/
def progPorts (s : State) (p : Nat) : List Nat :=
  (List.range 16).filterMap fun n =>
    if headOn s n && headPort s n == p && headProg s n != 0 then some (progHdr s (headProg s n) 0 2) else none

/-- The row of Table 3.2 that a frame matches. -/
def rxClass (s : State) (p : Idx8) (b : List Nat) : Nat :=
  let me := isIp b && ipDst b == (s.reg (ethOff Reg.ETH_IPV4 p)).toNat
  if innerType b = 0x88F7 || (isUdp b && (udpDst b == 319 || udpDst b == 320)) then 1
  else if me && isUdp b && (udpDst b == 47611 || (progPorts s p.val).contains (udpDst b)) then 2
  else if me && isUdp b && udpDst b == 47610 then 3
  else if innerType b = 0x0806 || (me && ipProto b == 1) then 4
  else if bitOf (s.reg (ethOff Reg.ETH_CFG p)) 6 then 5
  else 6

/-! ## Descriptor rings (R57, R58) -/

/-- Offset of a register of ring `i` of a port. -/
def ringOff (o : Nat) (p : Idx8) (i : Nat) : Nat := o + 0x10000 * p.val + 0x20 * i

/-- Is a ring size valid: a power of two from 64 to 4,096? -/
def ringSizeOk (n : Nat) : Bool := [64, 128, 256, 512, 1024, 2048, 4096].contains n

/-- A ring in use: base, size, head, tail; none when it is disabled. A base that is not 32-byte aligned disables it (DESIGN CHOICE, log
entry 158). -/
def ethRing (s : State) (p : Idx8) (i : Nat) : Option (Nat × Nat × Nat × Nat) :=
  let c := s.reg (ringOff Reg.ETH_RING_CFG p i)
  let b := s.regF (ringOff Reg.ETH_RING_BASE p i) 39 0
  if bitOf c 31 && ringSizeOk (fld c 12 0) && b % 32 == 0 then
    some (b, fld c 12 0, s.regF (ringOff Reg.ETH_RING_HEAD p i) 11 0, s.regF (ringOff Reg.ETH_RING_TAIL p i) 11 0)
  else none

/-- Advance a ring's head. -/
def ringAdvance (p : Idx8) (i size head : Nat) (s : State) : State :=
  s.setReg (ringOff Reg.ETH_RING_HEAD p i) (BitVec.ofNat 64 ((head + 1) % size))

/-- Deliver a frame to a receive ring: buffer, write-back of bytes 14 to 31, then the head. True when it was delivered. A
disabled ring takes no frame and counts as full. -/
def rxDeliver (p : Idx8) (i : Nat) (f : RxFrame) (s : State) : Bool × State :=
  let full := bump (ethOff Reg.RX_RING_FULL p) s
  match ethRing s p i with
  | none => (false, full)
  | some (base, size, head, tail) =>
    if head = tail then (false, full)
    else
      let d := base + 32 * (head % size)
      let r := memGet d 32 s
      let buf := leAt r.1 0 5
      let len := leAt r.1 8 2
      if f.bytes.length > len then (false, bump (ethOff Reg.RX_TRUNC_DROP p) r.2.2)
      else
        let s := memSet buf f.bytes r.2.2
        let tci := if isTagged f.bytes then beAt f.bytes 14 2 else 0
        let wb := bytesLE 2 f.bytes.length ++ [f.cls, 0x80 + b2n (isTagged f.bytes)] ++ bytesLE 2 tci ++ bytesLE 4 f.ns ++
          bytesLE 6 f.sec ++ [0, 0]
        (true, ringAdvance p i size head (memSet (d + 14) wb s))

/-! ## Reception (R52 to R55) -/

/-- The counter that a received frame drops into, if any (R52, R53), in order. -/
def rxJudge (s : State) (p : Idx8) (b : List Nat) : Option Nat :=
  let body := b.take (b.length - 4)
  let cfg := s.reg (ethOff Reg.ETH_CFG p)
  if b.length < 64 ∨ b.length > 9216 then some Reg.RX_LEN_DROP
  else if leAt b (b.length - 4) 4 ≠ (crc32Ieee body).toNat then some Reg.RX_FCS_DROP
  else if outerType b = 0x8808 then some Reg.RX_CTRL_DROP
  else if isTagged b && beAt b 16 2 == 0x8100 then some Reg.RX_VLAN_DROP
  else if bitOf cfg 4 then
    (if isTagged b then (if beAt b 14 2 % 4096 = fld cfg 19 8 then none else some Reg.RX_VLAN_DROP)
     else if bitOf cfg 5 then none else some Reg.RX_VLAN_DROP)
  else if isTagged b then some Reg.RX_VLAN_DROP else none

/-- A device time in ns plus a signed correction (R87), as seconds and ns. -/
def stampAt (n : Nat) (corr : Int) : Nat × Nat :=
  let t := ((n : Int) + corr).toNat
  (t / 1000000000 % 2 ^ 48, t % 1000000000)

/-- Change ports and heads. -/
def State.modIngest (f : IngestSt → IngestSt) (s : State) : State := { s with ingest := f s.ingest }

/-- The TCLK cycle of a correction of `corr` ns from now. -/
def stampCyc (s : State) (corr : Int) : Nat := ((s.time.cyc : Int) + corr / 2).toNat

/-- ETH_FRAME_RECEIVE: `b` is the frame with its FCS, `ago` the ns from its start-of-frame instant to its end-of-frame
instant, which is now; `noRoom` says that the receive buffer cannot hold it (R54). -/
def ethReceive (p : Idx8) (b : List Nat) (ago : Nat) (noRoom : Bool) (s : State) : State :=
  if !bitOf (s.reg (ethOff Reg.ETH_CFG p)) 7 || !ethUp s p.val || !domRun s 36 then s
  else if noRoom then bump (ethOff Reg.RX_BUF_DROP p) s
  else match rxJudge s p b with
    | some o => bump (ethOff o p) s
    | none =>
      let s := bump (ethOff Reg.RX_FRAMES_CNT p) s
      let body := b.take (b.length - 4)
      let lat := sfld (s.reg (ethOff Reg.ETH_TS_LAT p)) 15 0
      let st := stampAt (s.nowNs - ago) lat
      let cls := rxClass s p body
      let f : RxFrame := ⟨p.val, cls, body, st.1, st.2, stampCyc s lat⟩
      if cls = 2 then
        if ipOk body then s.modIngest fun g => { g with parserq := g.parserq ++ [f] } else bump (ethOff Reg.RX_IP_DROP p) s
      else if cls = 6 then bump (ethOff Reg.RX_UNCLASS_DROP p) s
      else
        let r := rxDeliver p (if cls = 5 then 1 else 0) f s
        if r.1 && (cls == 1 || cls == 3) then r.2.modIngest fun g => { g with fwq := g.fwq ++ [f] } else r.2

/-- ETH_FRAME_RECEIVE. -/
def execEthFrameReceive (p : Idx8) (b : List Nat) (ago : Nat) (noRoom : Bool) (s : State) : Res := .next (ethReceive p b ago noRoom s)

/-- ETH_RING_TAIL_WRITE. -/
def execEthRingTailWrite (p : Idx8) (ring : Fin 4) (v : Half) (s : State) : Res :=
  .next (s.setReg (ringOff Reg.ETH_RING_TAIL p ring.val) (BitVec.ofNat 64 (v.toNat % 4096)))

/-! ## Transmission (R58, R59, R87, R344) -/

/-- A frame leaves a port: padded to 60 bytes, FCS added by the MAC, inverted for a poisoned line. -/
def ethSend (p : Nat) (b : List Nat) (bad : Bool) (s : State) : State :=
  bump (Reg.TX_FRAMES_CNT + 0x10000 * p) (s.emit (.ethFrame p (b ++ List.replicate (60 - b.length) 0) bad))

/-- Send or discard the descriptor at the head of transmit ring `i` (2 or 3); the state unchanged when the ring is empty. A bad
length takes status 2 also while the link is down; a port sends whatever ETH_CFG.enable; a tag is added to a frame of any
allowed length (DESIGN CHOICE, log entry 155). -/
def txRing (p : Idx8) (i : Nat) (s : State) : Option State :=
  match ethRing s p i with
  | none => none
  | some (base, size, head, tail) =>
    if head = tail then none
    else
      let d := base + 32 * (head % size)
      let r := memGet d 32 s
      let len := leAt r.1 8 2
      let fl := leAt r.1 10 1
      let done (status sec ns : Nat) (s : State) : State :=
        ringAdvance p i size head
          (memSet (d + 14) ([0, 0, status, 0x80, 0, 0] ++ bytesLE 4 ns ++ bytesLE 6 sec ++ [0, 0]) s)
      let s := r.2.2
      if len < 60 ∨ len > 9212 then some (done 2 0 0 s)
      else if !ethUp s p.val then some (done 1 0 0 (bump (ethOff Reg.TX_LINK_DROP p) s))
      else
        let r2 := memExit (leAt r.1 0 5) len s
        let b := if fl.testBit 1 then r2.1.take 12 ++ [0x81, 0x00] ++ bytesBE 2 (leAt r.1 12 2) ++ r2.1.drop 12 else r2.1
        let st := stampAt s.nowNs (-(sfld (s.reg (ethOff Reg.ETH_TS_LAT p)) 31 16))
        let s := ethSend p.val b (r2.2.1 != 0) r2.2.2
        some (if fl.testBit 0 then done 0 st.1 st.2 s else done 0 0 0 s)

/-- An Ethernet, IPv4 and UDP datagram that the device builds itself (R441), without FCS. `tci` is the tag control
information of a tagged datagram. -/
def datagram (s : State) (p : Nat) (dmac dip dport : Nat) (tci : Option Nat) (payload : List Nat) : List Nat :=
  let smac := bytesLE 6 (s.reg (Reg.ETH_MAC + 0x10000 * p)).toNat
  let sip := bytesBE 4 (s.reg (Reg.ETH_IPV4 + 0x10000 * p)).toNat
  let h (sum : Nat) : List Nat := [0x45, 0] ++ bytesBE 2 (28 + payload.length) ++ [0, 0, 0x40, 0, 64, 17] ++ bytesBE 2 sum ++
    sip ++ bytesBE 4 dip
  let tag := match tci with
    | none => []
    | some t => [0x81, 0x00] ++ bytesBE 2 t
  bytesLE 6 dmac ++ smac ++ tag ++ [0x08, 0x00] ++ h (0xFFFF - ipSum (h 0)) ++
    bytesBE 2 47610 ++ bytesBE 2 dport ++ bytesBE 2 (8 + payload.length) ++ [0, 0] ++ payload

/-! ## Link and rate (R51, R68) -/

/-- Does a MAC follow its link: PD[36] in RUN, or in SLEEP with the MAC's branch clocked (R390)? -/
def macLive (s : State) (p : Idx8) : Bool :=
  domRun s 36 || (s.regF (Reg.PWR_DOM_STAT + 8 * 36) 2 0 == 1 && bitOf (s.reg (Reg.CLK_GATE_SLEEP + 0x10 * 36)) (min 7 (p.val + 1)))

/-- A port's link goes up or down: ETH_STAT, and the event on each change. A port held for an unlisted rate stays down. -/
def ethSetLink (p : Idx8) (up : Bool) (s : State) : State :=
  let up := up && !s.ingest.held.contains p.val
  if up == ethUp s p.val then s
  else raise (evEthLink p.val) (s.setF (ethOff Reg.ETH_STAT p) 0 0 (b2n up))

/-- A write of ETH_CFG (R51): a reserved mode acts as 0 and raises; ETH_STAT.rate shows the active mode. A port that no longer
follows the in-band rate is no longer held down by one. -/
def ethCfgWrite (p : Idx8) (v : Word) (s : State) : State :=
  let s := s.setReg (ethOff Reg.ETH_CFG p) (v &&& 0xFFFFF)
  let s := if fld v 2 0 ≥ 5 then accessError s else s
  if bitOf v 3 && decide (1 ≤ ethMode s p) then s
  else (s.modIngest fun g => { g with held := g.held.filter (· != p.val) }).setF (ethOff Reg.ETH_STAT p) 3 1 (ethMode s p)

/-- The mode code of a USXGMII rate in Mb/s (Table 3.1). -/
def usxRate (mbps : Nat) : Option Nat :=
  match mbps with
  | 10000 => some 1
  | 5000 => some 2
  | 2500 => some 3
  | 1000 => some 4
  | _ => none

end Sys2Proof.Machine
end

