-- ==== Sys2Proof/Machine/Heads.lean ====
section
/-! DEFINITION. Sensor heads: control messages, authentication, life accounts, head control (R60, R61, R68 to R78, R440,
R441). -/

namespace Sys2Proof.Machine

/-! ## Slots -/

/-- A slot beyond its registers. -/
def State.head (s : State) (n : HeadId) : HeadSt := s.ingest.slots[n.val]
/-- Replace a slot. -/
def State.setHead (n : HeadId) (h : HeadSt) (s : State) : State := s.modIngest fun g => { g with slots := g.slots.set n.val h }
/-- Change a slot. -/
def State.modHead (n : HeadId) (f : HeadSt → HeadSt) (s : State) : State := s.setHead n (f (s.head n))
/-- All slots. -/
def allHeads : List HeadId := List.finRange 16

/-- Set HEAD_SLOT_STAT.state, noting when the slot enters and leaves ACTIVE. -/
def headEnter (n : HeadId) (st : Nat) (s : State) : State :=
  let was := headState s n.val == 4
  (s.modHead n fun h => { h with actFrom := if st = 4 ∧ !was then s.time.cyc else h.actFrom,
                                 actTo := if st ≠ 4 ∧ was then s.time.cyc else h.actTo }).setF (headOff Reg.HEAD_SLOT_STAT n.val) 2 0 st
/-- Was a slot ACTIVE in a TCLK cycle (R64 step 5)? -/
def activeAt (s : State) (n : HeadId) (cyc : Nat) : Bool :=
  decide ((s.head n).actFrom ≤ cyc) && (headState s n.val == 4 || decide (cyc < (s.head n).actTo))
/-- HEAD_SLOT_STAT.fail_count. -/
def headFails (s : State) (n : HeadId) : Nat := s.regF (headOff Reg.HEAD_SLOT_STAT n.val) 4 3
/-- Set HEAD_SLOT_STAT.fail_count. -/
def setFails (n : HeadId) (k : Nat) (s : State) : State := s.setF (headOff Reg.HEAD_SLOT_STAT n.val) 4 3 k

/-- The slot enters DOWN (R68, R70, R440): failures and the control reference are cleared, authentication ends. What the
next fence still owes a replacement stays. -/
def headDown (n : HeadId) (s : State) : State :=
  let s := s.modHead n fun h => { HeadSt.reset with
    atFill := h.atFill, filled := h.filled, onTick := h.onTick, replaced := h.replaced, nominal := h.nominal, actFrom := h.actFrom,
    actTo := h.actTo }
  headEnter n 0 (setFails n 0 s)

/-- A port's link changes: its slots move to DOWN or WAIT (R68). -/
def portLink (p : Idx8) (up : Bool) (s : State) : State :=
  let was := ethUp s p.val
  let s := ethSetLink p up s
  if ethUp s p.val == was then s
  else allHeads.foldl (fun s n =>
    if headOn s n.val && headPort s n.val == p.val then (if was then headDown n s else headEnter n 1 s) else s) s

/-- ETH_LINK_CHANGE: seen while the MAC is clocked. -/
def execEthLinkChange (p : Idx8) (up : Bool) (s : State) : Res := .next (if macLive s p then portLink p up s else s)

/-- USXGMII_RATE_CHANGE (R51): with rate_auto, a USXGMII port follows a listed rate, and is held down at any other. -/
def rateChange (p : Idx8) (mbps : Nat) (s : State) : State :=
  if !bitOf (s.reg (ethOff Reg.ETH_CFG p)) 3 || ethMode s p == 0 then s
  else match usxRate mbps with
    | some c => (s.setF (ethOff Reg.ETH_STAT p) 3 1 c).modIngest fun g => { g with held := g.held.filter (· != p.val) }
    | none => portLink p false (s.modIngest fun g => { g with held := p.val :: g.held.filter (· != p.val) })

/-- USXGMII_RATE_CHANGE. -/
def execUsxgmiiRateChange (p : Idx8) (mbps : Nat) (s : State) : Res := .next (rateChange p mbps s)

/-! ## Control messages (R60, R61, R440, R441) -/

/-- CRC-32C of bytes as RHP carries it. -/
def crc32c (bs : List Nat) : Nat := (~~~ (crc32cRaw 0xFFFFFFFF#32 bs)).toNat

/-- The bytes of an RHP control message (R60, R61); its flags byte is sent as 0 and ignored on receipt (DESIGN CHOICE, log entry
159). -/
def rhpMessage (type slot seq : Nat) (body : List Nat) : List Nat :=
  let m := [0x5E, 0xA9, 0x01, type, slot, 0] ++ bytesLE 2 body.length ++ bytesLE 4 seq ++ [0, 0, 0, 0] ++ body
  m ++ bytesLE 4 (crc32c m)

/-- Send a control message to a slot's head (R441). -/
def ctlSend (n : HeadId) (type : Nat) (body : List Nat) (s : State) : State :=
  let h := s.head n
  let p := headPort s n.val
  let cfg := s.reg (Reg.ETH_CFG + 0x10000 * p)
  let s := s.setHead n { h with txSeq := (h.txSeq + 1) % 2 ^ 32 }
  let ip := s.actF (headOff Reg.HEAD_SLOT_ADDR n.val) 31 0
  let tci := if bitOf cfg 4 && h.tagged then some (fld cfg 19 8) else none
  let b := datagram s p h.mac ip 47610 tci (rhpMessage type n.val ((h.txSeq + 1) % 2 ^ 32) body)
  if ethUp s p then ethSend p b false s else bump (Reg.TX_LINK_DROP + 0x10000 * p) s

/-- Send CONFIG (R75): its body is the firmware's configuration, which the spec does not fix. -/
def configSend (n : HeadId) (tries : Nat) (s : State) : State :=
  let b := bytesLE 41 (s.free 30 328).toNat
  (ctlSend n 5 b s.drawn).modHead n fun h => { h with echo := some tries }

/-- Drop a control message of a slot (HEAD_CTL_DROP). -/
def ctlDrop (n : HeadId) (s : State) : State := bump (headOff Reg.HEAD_CTL_DROP n.val) s

/-- What the judgement of R440 makes of a frame: nothing, a drop against a slot, or a message for a slot. -/
inductive CtlRes where
  | ignore
  | drop (n : HeadId)
  | take (n : HeadId) (type seq : Nat) (body : List Nat)
deriving DecidableEq, Repr

/-- The types that a head sends (Table 3.4). -/
def headSends (t : Nat) : Bool := [0x01, 0x02, 0x04, 0x05, 0x07, 0x08, 0x09].contains t

/-- R440 and R56 on a frame that the firmware takes from ring 0. -/
def ctlJudge (s : State) (f : RxFrame) : CtlRes :=
  let cand := allHeads.filter fun n =>
    headOn s n.val && headPort s n.val == f.port && s.actF (headOff Reg.HEAD_SLOT_ADDR n.val) 31 0 == ipSrc f.bytes
  match cand with
  | [] => .ignore
  | low :: _ =>
    if udpSrc f.bytes ≠ 47610 then .ignore
    else
      let m := udpData f.bytes
      if m.length < 20 then .drop low
      else match cand.find? fun n => n.val == leAt m 4 1 with
        | none => .drop low
        | some n =>
          let seq := leAt m 8 4
          if !ipOk f.bytes then .drop n
          else if leAt m 6 2 ≠ m.length - 20 then .drop n
          else if leAt m 0 2 ≠ 0xA95E ∨ leAt m 2 1 ≠ 1 ∨ leAt m (m.length - 4) 4 ≠ crc32c (m.take (m.length - 4)) ∨
              !headSends (leAt m 3 1) then .drop n
          else
            let dup := match (s.head n).ctlRef with
              | none => false
              | some r => !laterSeq 32 seq r
            if dup && leAt m 3 1 != 1 then .drop n
            else .take n (leAt m 3 1) seq ((m.drop 16).take (m.length - 20))

/-- Take the oldest control frame of a port when it is one the command handles: dropped, ignored, or accepted for its slot
and handed on. A message of another type waits for its own command; an accepted POINT_BLOCK on the control port has no handler
and leaves only its acceptance. -/
def ctlTake (p : Idx8) (type : Nat) (k : HeadId → List Nat → State → State) (s : State) : State :=
  match takeFirst (fun f : RxFrame => f.cls == 3 && f.port == p.val) s.ingest.fwq with
  | none => s
  | some (f, rest) =>
    let s' := s.modIngest fun g => { g with fwq := rest }
    match ctlJudge s f with
    | .ignore => s'
    | .drop n => ctlDrop n s'
    | .take n t seq body =>
      let s' := s'.modHead n fun h => { h with ctlRef := some seq, mac := leAt f.bytes 6 6, tagged := isTagged f.bytes }
      if t = 7 then s' else if t ≠ type then s else k n body s'

/-! ## Authentication (R69, R70, R72, R78) -/

/-- A failed attempt (R70): back to WAIT, or FAILED with HEAD_AUTH_FAIL at the third in a row. -/
def headFail (n : HeadId) (s : State) : State :=
  let k := headFails s n + 1
  let s := s.modHead n fun h => { h with nFrag := none, frags := [], nonce := none }
  let s := setFails n (min 3 k) s
  if k ≥ 3 then raise (evHead n.val 0) (headEnter n 5 s) else headEnter n 1 s

/-- HELLO (R70): authentication starts or restarts, except in DOWN and FAILED. -/
def helloIn (n : HeadId) (body : List Nat) (s : State) : State :=
  let st := headState s n.val
  if st = 0 ∨ st = 5 then s
  else headEnter n 2 (s.modHead n fun h => { h with
    txSeq := 0, model := leAt body 0 4, nFrag := none, frags := [], chain := [], nonce := none, key := none, rated := 0,
    echo := none, blkRef := none })

/-- HELLO. -/
def execHello (p : Idx8) (s : State) : Res := .next (ctlTake p 1 helloIn s)

/-- The chain is complete: it is verified, and CHALLENGE goes out with a fresh nonce (R69, R418). -/
def chainDone (n : HeadId) (s : State) : State :=
  let h := s.head n
  let bytes := h.frags.flatMap (·.2)
  let s := if timeSet s then s else bump Reg.SEC_CERT_NOTIME s
  if headChainOk s h.model bytes then
    let nonce := bytesLE 32 (s.free 31 256).toNat
    let s := s.drawn.modHead n fun h => { h with chain := bytes.take 5453, nonce := some nonce }
    ctlSend n 3 (nonce ++ bytesLE 16 s.fuse.serial.toNat) s
  else headFail n s

/-- IDENT (R69). -/
def identIn (n : HeadId) (body : List Nat) (s : State) : State :=
  let h := s.head n
  if headState s n.val ≠ 2 ∨ h.nonce.isSome then s
  else
    let idx := leAt body 0 1
    let cnt := h.nFrag.getD (leAt body 1 1)
    let s := s.modHead n fun h => { h with nFrag := some cnt }
    if leAt body 1 1 ≠ cnt ∨ idx ≥ cnt ∨ (sget idx h.frags).isSome then s
    else
      let fr := sput idx (body.drop 2) h.frags
      let s := s.modHead n fun h => { h with frags := fr }
      if fr.length = cnt then chainDone n s else s

/-- IDENT. -/
def execIdent (p : Idx8) (s : State) : Res := .next (ctlTake p 2 identIn s)

/-- Write a head's life record (R71, R422). -/
def lifePut (key : Nat) (secs : Option Nat) (last : Nat) (s : State) : State :=
  { s with flash := { s.flash with life := ⟨key, secs, last, true⟩ :: s.flash.life.filter fun r => r.key != key } }

/-- Make room for a new identity's record (R72): the unauthenticated identity whose last accepted block is the oldest goes; one
without an accepted block counts as the oldest (DESIGN CHOICE, log entry 162). -/
def lifeRoom (n : HeadId) (s : State) : State :=
  if s.flash.life.length < 64 then s
  else
    let used := allHeads.filterMap fun m => (s.head m).key
    let free := s.flash.life.filter fun r => !used.contains r.key
    match free with
    | [] => s
    | r :: rs =>
      let old := rs.foldl (fun a b => if b.last < a.last then b else a) r
      let s := { s with flash := { s.flash with life := s.flash.life.filter fun x => x.key != old.key } }
      raise (evHead n.val 7) (logFault (evHead n.val 7) 0 n.val old.key s)

/-- Count an ignored account record (R422). -/
def badRecord (s : State) : State := raise evAccountBad (bump Reg.SEC_ACCOUNT_BAD s)

/-- The life account of an identity that has authenticated on a slot (R71, R72): from its record, or a first sighting. -/
def lifeAccount (n : HeadId) (key : Nat) (s : State) : State :=
  match s.flash.life.find? fun r => r.key == key with
  | some r =>
    if r.ok then s.modHead n fun h => { h with base := r.secs, ticks := 0, saved := 0, life := none }
    else (lifePut key none r.last (badRecord s)).modHead n fun h => { h with base := none, ticks := 0, saved := 0, life := none }
  | none =>
    (lifePut key none 0 (lifeRoom n s)).modHead n fun h => { h with base := none, ticks := 0, saved := 0, life := none }

/-- The nominal values of a head slot (R78): from the lowest-numbered trunk slot in states LOADED to STOPPING that names
it. -/
def nominalOf (s : State) (n : HeadId) : Option (List Word) :=
  (List.range 8).findSome? fun k =>
    let st := s.regF (Reg.TRUNK_STAT + 0x20 * k) 2 0
    if 2 ≤ st ∧ st ≤ 5 then (if h : k < 8 then sget n.val s.trunks[k].nominal else none) else none

/-- Offsets of a slot's 13 calibration registers: rotation, translation, range bias and gain (Table 7.1). -/
def calOffs (n : Nat) : List Nat :=
  ((List.range 9).map fun j => Reg.CAL_ROT0 + 0x100 * n + 4 * j) ++ ((List.range 3).map fun j => Reg.CAL_TRANS + 0x100 * n + 4 * j) ++
    [Reg.CAL_RB_GAIN + 0x100 * n]

/-- Write a slot's pending calibration registers. -/
def calWrite (n : Nat) (vs : List Word) (s : State) : State := ((calOffs n).zip vs).foldl (fun s e => fbPut e.1 e.2 s) s

/-- Change the calibration engine. -/
def State.modCal (f : CalSt → CalSt) (s : State) : State := { s with cal := f s.cal }
/-- Change a slot's calibration. -/
def State.modSlot (n : HeadId) (f : CalSlot → CalSlot) (s : State) : State :=
  s.modCal fun c => { c with slots := c.slots.set n.val (f c.slots[n.val]) }

/-- A software write to some of a slot's calibration registers has completed (R145): they are no longer the engine's. -/
def calSoft (n : HeadId) (idx : List Nat) (s : State) : State :=
  let mine := s.cal.slots[n.val].mine.filter fun i => !idx.contains i
  (s.setF (Reg.CAL_SLOT_STAT + 0x100 * n.val) 3 3 (b2n !mine.isEmpty)).modSlot n fun c => { c with swPend := true, mine := mine }

/-- The identity differs from the one last authenticated on the slot (R78). -/
def headReplaced (n : HeadId) (key : Nat) (s : State) : State :=
  let s := { s with flash := { s.flash with slotKey := sput n.val (key, true) s.flash.slotKey } }
  let s := raise (evHead n.val 1) s
  let s := s.modSlot n fun c => { c with restart := true }
  match nominalOf s n with
  | some vs => calSoft n (List.range 13) (calWrite n.val vs (s.modHead n fun h => { h with replaced := true, nominal := true }))
  | none => s.modHead n fun h => { h with replaced := true }

/-- A verified head (R69, R78): PENDING, its account opened, CONFIG sent. -/
def headVerified (n : HeadId) (s : State) : State :=
  let h := s.head n
  let key := certKey h.chain
  let s := lifeAccount n key s
  let s := s.modHead n fun h => { h with key := some key, rated := leAt h.chain 56 4, nonce := none, blkRef := none }
  let s := headEnter n 3 (setFails n 0 s)
  let s := match sget n.val s.flash.slotKey with
    | some (k, ok) => if !ok then headReplaced n key (badRecord s) else if k = key then s else headReplaced n key s
    | none => headReplaced n key s
  configSend n 0 s

/-- RESPONSE (R69): taken once after each CHALLENGE. -/
def responseIn (n : HeadId) (body : List Nat) (s : State) : State :=
  let h := s.head n
  match h.nonce with
  | none => s
  | some nonce =>
    if headState s n.val ≠ 2 then s
    else if bothSigs h.chain (nonce ++ bytesLE 16 s.fuse.serial.toNat ++ [n.val]) (sub body 0 64) (sub body 64 3309) then
      headVerified n s
    else headFail n s

/-- RESPONSE. -/
def execResponse (p : Idx8) (s : State) : Res := .next (ctlTake p 4 responseIn s)

/-- IDENT_TIMEOUT (R70). -/
def identTimeout (n : HeadId) (s : State) : State :=
  if headState s n.val = 2 ∧ (s.head n).nonce = none then headFail n s else s
/-- IDENT_TIMEOUT. -/
def execIdentTimeout (n : HeadId) (s : State) : Res := .next (identTimeout n s)

/-- RESPONSE_TIMEOUT (R70). -/
def responseTimeout (n : HeadId) (s : State) : State :=
  if headState s n.val = 2 ∧ (s.head n).nonce ≠ none then headFail n s else s
/-- RESPONSE_TIMEOUT. -/
def execResponseTimeout (n : HeadId) (s : State) : Res := .next (responseTimeout n s)

/-! ## Head control (R75, R77) -/

/-- CONFIG_ECHO: the echo awaited has come. -/
def execConfigEcho (p : Idx8) (s : State) : Res := .next (ctlTake p 5 (fun n _ s => s.modHead n fun h => { h with echo := none }) s)

/-- CONFIG_ECHO_TIMEOUT (R75): counted and resent, up to three times; then HEAD_FAULT. -/
def echoTimeout (n : HeadId) (s : State) : State :=
  match (s.head n).echo with
  | none => s
  | some k =>
    let s := ctlDrop n s
    if k < 3 then configSend n (k + 1) s else raise (evHead n.val 5) (s.modHead n fun h => { h with echo := none })
/-- CONFIG_ECHO_TIMEOUT. -/
def execConfigEchoTimeout (n : HeadId) (s : State) : Res := .next (echoTimeout n s)

/-- HEALTH (R77): the fault bits are copied; any set raises HEAD_FAULT. -/
def healthIn (n : HeadId) (body : List Nat) (s : State) : State :=
  let s := s.setF (headOff Reg.HEAD_SLOT_STAT n.val) 63 32 (leAt body 2 4)
  if leAt body 2 4 = 0 then s else raise (evHead n.val 5) s
/-- HEALTH. -/
def execHealth (p : Idx8) (s : State) : Res := .next (ctlTake p 8 healthIn s)

/-- SCAN_SYNC (R75): sent to a sync_mode 2 head no later than 1 ms before the sweep start it names. -/
def scanSync (n : HeadId) (start period sweep : Nat) (s : State) : State :=
  if headOn s n.val ∧ s.actF (headOff Reg.HEAD_SLOT_CFG n.val) 9 8 = 2 ∧ 3 ≤ headState s n.val ∧ headState s n.val ≤ 4 ∧
      s.nowNs + 1000000 ≤ start then
    ctlSend n 6 (bytesLE 6 (start / 1000000000) ++ bytesLE 4 (start % 1000000000) ++ bytesLE 4 period ++ [sweep % 16]) s
  else s
/-- SCAN_SYNC. -/
def execScanSync (n : HeadId) (start period sweep : Nat) (s : State) : Res := .next (scanSync n start period sweep s)

/-! ## Life accounts (R71, R73) -/

/-- The device count in seconds; none before the first LIFE report of a first sighting. -/
def devCount (h : HeadSt) : Option Nat := h.base.map fun b => b + h.ticks / 100

/-- HEAD_LIFE_MISMATCH (R73): the head's report and the device's count differ by more than the tolerance and an hour. -/
def lifeMismatch (n : HeadId) (key dev : Nat) (life : Option Nat) (s : State) : State :=
  let l := life.getD 0
  let diff := max dev l - min dev l
  if life.isSome && decide (diff * 100 > s.regF Reg.HEAD_LIFE_CFG 7 0 * dev) && decide (diff > 3600) &&
      !s.ingest.mismatch.contains key then
    raise (evHead n.val 4) (s.modIngest fun g => { g with mismatch := key :: g.mismatch })
  else s

/-- HEAD_LIFE_WARN (R73): nine tenths of the rated life used. -/
def lifeWarn (n : HeadId) (key used rated : Nat) (s : State) : State :=
  if used * 10 ≥ rated * 3600 * 9 then
    let s := s.setF (headOff Reg.HEAD_SLOT_STAT n.val) 5 5 1
    if s.ingest.warned.contains key then s
    else raise (evHead n.val 2) (s.modIngest fun g => { g with warned := key :: g.warned })
  else s

/-- HEAD_EOL (R73): the rated life used. -/
def lifeEnd (n : HeadId) (key used rated : Nat) (s : State) : State :=
  if used ≥ rated * 3600 then
    let s := s.setF (headOff Reg.HEAD_SLOT_STAT n.val) 6 6 1
    if s.ingest.ended.contains key then s
    else raise (evHead n.val 3) (s.modIngest fun g => { g with ended := key :: g.ended })
  else s

/-- R73 on an ACTIVE slot. -/
def lifeJudge (n : HeadId) (s : State) : State :=
  let h := s.head n
  match h.key, devCount h with
  | some key, some dev =>
    let used := max dev (h.life.getD 0)
    if headState s n.val ≠ 4 then s
    else lifeEnd n key used h.rated (lifeWarn n key used h.rated (lifeMismatch n key dev h.life s))
  | _, _ => s

/-- LIFE (R71, R73). -/
def lifeIn (n : HeadId) (body : List Nat) (s : State) : State :=
  lifeJudge n (s.modHead n fun h => { h with life := some (leAt body 0 4), base := some (h.base.getD (leAt body 0 4)) })
/-- LIFE. -/
def execLife (p : Idx8) (s : State) : Res := .next (ctlTake p 9 lifeIn s)

/-- HEAD_ONTIME_TICK (R71): at the end of a 10 ms tick, each slot that accepted a block in it counts one. -/
def ontimeTick (s : State) : State :=
  if s.time.cyc / 5000000 ≤ s.ingest.tick then s
  else
    let s := s.modIngest fun g => { g with tick := s.time.cyc / 5000000 }
    allHeads.foldl (fun s n =>
      if (s.head n).onTick then
        lifeJudge n (bump (headOff Reg.HEAD_ONTIME n.val) (s.modHead n fun h => { h with onTick := false, ticks := h.ticks + 1 }))
      else s) s
/-- HEAD_ONTIME_TICK. -/
def execHeadOntimeTick (s : State) : Res := .next (ontimeTick s)

/-- LIFE_RECORD_WRITE (R71): after 15 minutes of counted on-time, or at orderly shutdown. -/
def lifeWrite (n : HeadId) (shutdown : Bool) (s : State) : State :=
  let h := s.head n
  match h.key, devCount h with
  | some key, some dev =>
    if shutdown ∨ h.ticks ≥ h.saved + 90000 then
      let last := match s.flash.life.find? fun r => r.key == key with
        | some r => r.last
        | none => 0
      (lifePut key (some dev) last s).modHead n fun h => { h with saved := h.ticks }
    else s
  | _, _ => s
/-- LIFE_RECORD_WRITE. -/
def execLifeRecordWrite (n : HeadId) (shutdown : Bool) (s : State) : Res := .next (lifeWrite n shutdown s)

end Sys2Proof.Machine
end

