-- ==== Sys2Proof/Machine/Blocks.lean ====
section
/-! DEFINITION. Point blocks and parser programs (R62 to R67). -/

namespace Sys2Proof.Machine

/-- A drop counter of a slot. -/
def blkDrop (o : Nat) (n : HeadId) (s : State) : State := bump (headOff o n.val) s

/-- The slot a parser-path packet belongs to (R64). -/
def blockSlot (s : State) (f : RxFrame) : Option HeadId :=
  allHeads.find? fun n =>
    let a := s.actReg (headOff Reg.HEAD_SLOT_ADDR n.val)
    headOn s n.val && headPort s n.val == f.port && fld a 31 0 == ipSrc f.bytes && fld a 47 32 == udpSrc f.bytes

/-- A native point record as a number of 96 bits (Table 3.6). -/
def recordAt (m : List Nat) (j : Nat) : Nat := leAt m (24 + 12 * j) 12

/-- A block on its way through the checks: sequence number where it has one, sweep slot, native records, flags byte, the twelve
bytes of block time and reserved bytes (Table 3.5), and whether no check covered it. -/
structure ParsedBlock where
  seq   : Option Nat
  sweep : Nat
  recs  : List Nat
  flags : Nat
  time  : List Nat
  bare  : Bool
deriving DecidableEq, Repr

/-- Steps 1 to 4 of R64 on a native block whose UDP length field gives a payload of `len` bytes; the counter it drops into
otherwise. -/
def parseNative (n : HeadId) (len : Nat) (m : List Nat) : Nat ⊕ ParsedBlock :=
  let cnt := leAt m 6 2
  if leAt m 0 2 ≠ 0xA95E ∨ leAt m 2 1 ≠ 1 ∨ leAt m 3 1 ≠ 7 then .inl Reg.BLK_FORMAT_DROP
  else if leAt m 4 1 % 16 ≠ n.val then .inl Reg.BLK_FORMAT_DROP
  else if cnt < 1 ∨ cnt > 761 ∨ m.length ≠ 28 + 12 * cnt ∨ len ≠ m.length then .inl Reg.BLK_FORMAT_DROP
  else if leAt m (24 + 12 * cnt) 4 ≠ crc32c (m.take (24 + 12 * cnt)) then .inl Reg.BLK_CRC_DROP
  else .inr ⟨some (leAt m 8 4), leAt m 4 1 / 16, (List.range cnt).map (recordAt m), leAt m 5 1, sub m 12 12, false⟩

/-- Descriptor `i` of a parser program. -/
def progDesc (s : State) (m i : Nat) : Word := s.reg (Reg.PARSE_DESC + 0x100 * (m - 1) + 8 * i)

/-- Width and position of a target field in the native record (Table 3.6). -/
def targetField (t : Nat) : Nat × Nat :=
  match t with
  | 0 => (20, 0) | 1 => (16, 20) | 2 => (8, 36) | 3 => (8, 44) | 4 => (2, 52) | 5 => (14, 54) | 6 => (4, 68) | _ => (0, 96)

/-- The value that a descriptor gives its target (R67): 64-bit signed, then saturated into the field. -/
def fieldVal (d : Word) (rec : Nat) : Nat :=
  let w := fld d 17 13 + 1
  let raw := (rec >>> fld d 12 4) % 2 ^ w
  let src : Int := if bitOf d 3 then asInt w raw else raw
  let p := asInt 64 (wrapInt 64 (src * fld d 38 23))
  let v := asInt 64 (wrapInt 64 (p / 2 ^ fld d 22 18 + sfld d 63 39))
  (max 0 (min (2 ^ (targetField (fld d 2 0)).1 - 1) v)).toNat

/-- One foreign record as a native one: a later descriptor of the same target wins. -/
def foreignRec (ds : List Word) (rec : Nat) : Nat :=
  ds.foldl (fun acc d =>
    let t := targetField (fld d 2 0)
    acc - ((acc >>> t.2) % 2 ^ t.1) * 2 ^ t.2 + fieldVal d rec * 2 ^ t.2) 0

/-- The check of a program (R66): none, CRC-32C or IEEE CRC-32 over the bytes before it. -/
def foreignCheck (type : Nat) (m : List Nat) (off : Nat) : Bool :=
  match type with
  | 1 => leAt m off 4 == crc32c (m.take off)
  | 2 => leAt m off 4 == (crc32Ieee (m.take off)).toNat
  | _ => true

/-- The block time of a foreign block (R66), in the native form: as native, from 64-bit nanoseconds, or the receive stamp. -/
def foreignTime (form off : Nat) (f : RxFrame) (m : List Nat) : List Nat :=
  match form with
  | 1 => bytesLE 6 (leAt m off 8 / 1000000000) ++ bytesLE 4 (leAt m off 8 % 1000000000) ++ [0, 0]
  | 2 => bytesLE 6 f.sec ++ bytesLE 4 f.ns ++ [0, 0]
  | _ => sub m off 10 ++ [0, 0]

/-- A program on a payload (R66, R67). Header values outside Table 3.7's ranges act as they stand, an unlisted check as none, an
unlisted time form as native; a block of no records is accepted (DESIGN CHOICE, log entry 160). -/
def parseForeign (s : State) (k : Nat) (f : RxFrame) (m : List Nat) : Nat ⊕ ParsedBlock :=
  let recOff := progHdr s k 2 2
  let stride := progHdr s k 4 1
  let cOff := progHdr s k 6 2
  let check := progHdr s k 8 1
  let form := progHdr s k 9 1
  let kOff := progHdr s k 10 2
  let sOff := progHdr s k 14 2
  let inside (o n : Nat) : Bool := decide (o + n ≤ m.length)
  if !(decide (recOff < m.length) && (cOff == 0xFFFF || inside cOff 2) && ((check != 1 && check != 2) || inside kOff 4) &&
      (form == 2 || inside (progHdr s k 12 2) (if form == 1 then 8 else 10)) && (sOff == 0xFFFF || inside sOff 4) &&
      inside (progHdr s k 16 2) 1) then .inl Reg.BLK_FORMAT_DROP
  else if !foreignCheck check m kOff then .inl Reg.BLK_CRC_DROP
  else
    let ds := (List.range (progHdr s k 5 1)).map (progDesc s k)
    let past := ds.any fun d => decide (fld d 12 4 + fld d 17 13 + 1 > 8 * stride)
    let whole := if stride = 0 then 0 else (m.length - recOff) / stride
    let cnt := if past then 0 else if cOff = 0xFFFF then whole else min whole (leAt m cOff 2)
    .inr ⟨if sOff = 0xFFFF then none else some (leAt m sOff 4), leAt m (progHdr s k 16 2) 1 % 16,
      (List.range cnt).map fun j => foreignRec ds (leAt m (recOff + stride * j) stride), 0, foreignTime form (progHdr s k 12 2) f m,
      check != 1 && check != 2⟩

/-- Why the parser drops a record of an accepted block (R65): 0 kept, 1 without a count, 2 counted. -/
def recDrop (channels rec : Nat) : Nat :=
  if rec % 2 ^ 20 = 0 then 1 else if rec.testBit 68 then 1 else if (rec >>> 36) % 256 ≥ channels then 2 else 0

/-- The sealed lines of a block (R65): header and records, the last line padded with zeros. -/
def sealBlock (n seq : Nat) (bs : List Nat) : List Line :=
  (List.range (cdiv bs.length 64)).map fun j => sealLine (saltBlock n seq j) ⟨lineOfBytes ((bs.drop (64 * j)).take 64), false⟩

/-- The native bytes of a block: header (Table 3.5) and records. -/
def nativeBytes (n : HeadId) (b : ParsedBlock) : List Nat :=
  [0x5E, 0xA9, 1, 7, n.val + 16 * b.sweep, b.flags] ++ bytesLE 2 b.recs.length ++ bytesLE 4 (b.seq.getD 0) ++
    b.time ++ b.recs.flatMap (bytesLE 12)

/-- Does a block stamped in a TCLK cycle belong to the buffer now filling, not to the one the last fence handed over (R28,
R99)? -/
def fillsNow (s : State) (cyc : Nat) : Bool :=
  match s.time.lastFence with
  | some f => decide (f ≤ cyc)
  | none => true

/-- A block that passed every test: counted, its identity's last block noted, its records judged, sealed and passed on. -/
def blockAccept (n : HeadId) (f : RxFrame) (b : ParsedBlock) (s : State) : State :=
  let h := s.head n
  let s := match b.seq, h.blkRef with
    | some q, some r => bumpN (headOff Reg.BLK_SEQ_GAP n.val) ((q + 2 ^ 32 - r) % 2 ^ 32 - 1) s
    | _, _ => s
  let s := bump (headOff Reg.BLK_ACCEPT_CNT n.val) s
  let s := if b.bare then bump (headOff Reg.BLK_UNCHECKED n.val) s else s
  let s := s.modHead n fun h => { h with
    blkRef := if b.seq.isSome then b.seq else h.blkRef, onTick := true, filled := h.filled || fillsNow s f.cyc }
  let s := match h.key with
    | some key => { s with flash := { s.flash with life := s.flash.life.map fun r =>
        if r.key = key then { r with last := s.nowNs } else r } }
    | none => s
  let ch := s.actF (headOff Reg.HEAD_SLOT_CFG n.val) 20 12
  let drops := b.recs.map (recDrop ch)
  let s := bumpN (headOff Reg.REC_CHAN_DROP n.val) (drops.filter (· == 2)).length s
  let blk : GridBlock := ⟨n.val, b.seq.getD 0, b.sweep, b.recs.length,
    (List.range b.recs.length).filter (fun j => (drops[j]?).getD 0 != 0), sealBlock n.val (b.seq.getD 0) (nativeBytes n b), f.cyc⟩
  { s with grid := { s.grid with queue := s.grid.queue ++ [blk] } }

/-- Steps 5 and 6 of R64, then acceptance. -/
def blockTest (n : HeadId) (f : RxFrame) (b : ParsedBlock) (s : State) : State :=
  if !activeAt s n f.cyc then blkDrop Reg.BLK_UNAUTH_DROP n s
  else
    let stale := match b.seq, (s.head n).blkRef with
      | some q, some r => !laterSeq 32 q r
      | _, _ => false
    if stale then blkDrop Reg.BLK_STALE_DROP n s else blockAccept n f b s

/-- POINT_BLOCK: the parser takes the oldest packet that a port passed to it, once device time has reached its end-of-frame
stamp (DEDUCED, log entry 163). -/
def pointBlock (p : Idx8) (s : State) : State :=
  if !domRun s 36 then s
  else match takeFirst (fun f : RxFrame => f.port == p.val) s.ingest.parserq with
  | none => s
  | some (f, rest) =>
    if s.time.cyc < f.cyc then s
    else
    let s := s.modIngest fun g => { g with parserq := rest }
    match blockSlot s f with
    | none => bump (ethOff Reg.RX_UNCLASS_DROP p) s
    | some n =>
      let k := headProg s n.val
      let m := udpData f.bytes
      if udpDst f.bytes ≠ (if k = 0 then 47611 else progHdr s k 0 2) then blkDrop Reg.BLK_FORMAT_DROP n s
      else match (if k = 0 then parseNative n (udpLen f.bytes - 8) m else parseForeign s k f m) with
        | .inl o => blkDrop o n s
        | .inr b => blockTest n f b s

/-- POINT_BLOCK. -/
def execPointBlock (p : Idx8) (s : State) : Res := .next (pointBlock p s)

/-- PARSE_PROG_WRITE (R66): a 64-bit write to word `w` of program `m` (0 to 3 the header, 4 to 19 the descriptors); ignored
while a slot names the program, or when a header write names port 319, 320 or 47610. -/
def progWrite (m : Idx8) (w : Nat) (v : Word) (s : State) : State :=
  let named := (List.range 16).any fun n => headProg s n == m.val + 1
  if named then accessError s
  else if w = 0 ∧ [319, 320, 47610].contains (v.toNat % 65536) then accessError s
  else if w < 4 then
    s.setReg (Reg.PARSE_HDR + 0x100 * m.val + 8 * w) (if w = 2 then v &&& 0xFFFF else if w = 3 then 0 else v)
  else if w < 20 then s.setReg (Reg.PARSE_DESC + 0x100 * m.val + 8 * (w - 4)) v
  else accessError s

/-- PARSE_PROG_WRITE. -/
def execParseProgWrite (m : Idx8) (w : Nat) (v : Word) (s : State) : Res := .next (progWrite m w v s)

end Sys2Proof.Machine
end

