-- ==== Sys2Proof/Machine/Move.lean ====
section
/-! DEFINITION. The move unit: COPY, GET, GETX, PUT, FETCH, STORE, STORE in ring form, GATHER, CREDIT_REQ and CREDIT_RET
(R162, R163, R267 to R273), and the messages they exchange. -/

namespace Sys2Proof.Machine

/-! ## Sending requests -/

/-- The packet a request of a core becomes on the links (Table 19.12): reads and credit traffic keep their mesh VC. -/
def packetOf (s : State) (m : Msg) (x y unit : Nat) : Packet :=
  let su := match m.src with
    | .core c => c.val
    | _ => 36
  let (op, vc) := match m.kind with
    | .readReq => (0x01, 0) | .write => (0x02, 1) | .readRsp => (0x03, 2) | .writeAck => (0x04, 2)
    | .creditReq => (0x05, 3) | .creditAns => (0x06, 3) | _ => (0x07, 3)
  { op := op, vc := vc, date := false, dx := x, dy := y, sx := s.coordX, sy := s.coordY, dunit := unit, sunit := su,
    shelf := m.shelf, idx := m.idx, addr := m.dshelf * 2 ^ 32 + m.didx, req := m.seq, stamp := m.stamp, k := m.k,
    pool := m.pool, sem := m.idx, frame := m.frame, slot := m.slot, err := m.err, cd := m.cd,
    lines := if m.kind == .write || m.kind == .readRsp then [m.line] else [] }

/-- Send a message on its way: on the mesh, or on the links when its destination is on another device. None when the
destination lies outside the torus: the sender traps with ADDR_UNMAPPED (R369). Towards a port that is down, a request is
answered with an error and a write is lost (R368). -/
def transmit (m : Msg) (s : State) : Option State × State :=
  match m.dst with
  | .dev x y u =>
    match linkSend (packetOf s m x y u) s with
    | .sent s' => (some s', s')
    | .outside s' => (none, s')
    | .portDown s' =>
      let r := match m.src with
        | .core _ => if m.kind == .readReq || m.kind == .creditReq then
            s'.send { kind := .writeAck, src := m.dst, dst := m.src, seq := m.seq, err := trapUnmapped } else s'
        | _ => s'
      (some r, r)
  | _ => (some (s.send m), s)

/-- Send a message, on the mesh or on the links; one that the links refuse is lost. -/
def post (m : Msg) (s : State) : State := (transmit m s).2

/-- A line of a STORE in ring form takes its place when its turn comes (R271): its write, or none when the ring has no space left
and the line is discarded. A poisoned line that is written is reported to SYS (R343). Any other request goes as it is. -/
def placeLine (m : Msg) (s : State) : Option Msg × State :=
  if m.kind ≠ .ringWrite then (some m, s)
  else
    let p := ringTake m.slot m.idx s
    match p.1 with
    | none => (none, p.2)
    | some a =>
      let d := checked (saltAddr 0) m.line
      (some { m with kind := .memWrite, addr := a, idx := 0, line := sealLine (saltAddr a) d },
        if d.poison then p.2.send { kind := .poisonReport, src := m.src, dst := .sys, slot := m.slot, frame := m.frame }
        else p.2)

/-- Send requests in order while fewer than 64 of their direction are outstanding (R162). The flag says that a request was
refused. -/
def sendMsgs : List Msg → Nat → Active → State → Active × Bool × State
  | [], _, a, s => ({ a with todo := [] }, false, s)
  | m :: r, room, a, s =>
    if room = 0 then ({ a with todo := m :: r }, false, s)
    else
      let p := placeLine m s
      match p.1 with
      | none => sendMsgs r room a p.2
      | some m =>
        let t := transmit m p.2
        match t.1 with
        | some s' => sendMsgs r (room - 1) { a with wait := a.wait + 1 } s'
        | none => ({ a with todo := m :: r }, true, t.2)

/-- Send what a started instruction still has to send. -/
def sendTodo (room : Nat) (a : Active) (s : State) : Active × Bool × State := sendMsgs a.todo room a s

/-- The room left for an instruction's requests. -/
def roomFor (k : CoreSt) (m : Mn) : Nat := if isWriter m then 64 - wrOut k else if isReader m then 64 - rdOut k else 64

/-- Start an instruction with its requests: it completes at once when it has none. -/
def launch (c : CoreId) (o : Op) (regs : List (Nat × Word)) (msgs : List Msg) (s : State) : Start :=
  if msgs.isEmpty then .done (wrSs c regs s)
  else
    let r := sendTodo (roomFor (s.core c) o.mn) ⟨o, msgs, 0, regs⟩ s
    if r.2.1 then .trap trapUnmapped 0 r.2.2
    else if r.1.todo.isEmpty && r.1.wait == 0 then .done (wrSs c regs r.2.2)
    else .active r.1 r.2.2

/-! ## Peers (R163, R269) -/

/-- The stop a peer register names, or the trap code. -/
def resolvePeer (s : State) (c : CoreId) (v : Word) (remote : Bool) : Agent × Nat :=
  let x := fld v 15 8
  let y := fld v 23 16
  if remote && !(x == s.coordX && y == s.coordY) then (.dev x y (fld v 4 0), 0)
  else match peerCore s c (fld v 4 0) with
    | none => (.sys, trapDenied)
    | some t => if reachable s t then (.core t, 0) else (.sys, trapDenied)

/-- The core number in a transit salt for a peer (Table 18.4): the physical core, or, on another device, the logical number
the sender knows (log entry 12). -/
def peerNum : Agent → Nat
  | .core c => c.val
  | .dev _ _ u => u
  | _ => 63

/-- The coordinate in a transit salt: that of the device that holds the shelf (R341). -/
def peerXY (s : State) : Agent → Nat × Nat
  | .dev x y _ => (x, y)
  | _ => (s.coordX, s.coordY)

/-! ## COPY -/

/-- Copy lines in ascending order, each read after the one before was written (R268). -/
def copyLoop (c : CoreId) (sa a sc d : Nat) : Nat → State → Bool × State
  | 0, s => (false, s)
  | n + 1, s =>
    let r := shelfRead c sa a 2 s
    if r.2.1 then (true, r.2.2)
    else copyLoop c sa (a + 1) sc (d + 1) n (shelfWrite c sc d r.1 r.2.2)

/-- COPY (R268). -/
def startCopy (c : CoreId) (o : Op) (s : State) : Start :=
  let n := low32 o.n
  if !(upperZero o.a && upperZero o.c && upperZero o.n) || n > 131072 then .trap trapRange 0 s
  else
    let t := firstCode [runCheck s c (lSa o.w0) (low32 o.a) n, writeCheck s c o.seq (lSc o.w0) (low32 o.c) n]
    if t ≠ 0 then .trap t 0 s
    else
      let r := copyLoop c (lSa o.w0) (low32 o.a) (lSc o.w0) (low32 o.c) n s
      if r.1 then .trap trapBankEcc 0 r.2 else .done r.2

/-! ## GET and PUT -/

/-- GET (R269): one read request per line, the line to be written to the local shelf as it returns. -/
def startGet (c : CoreId) (o : Op) (s : State) : Start :=
  let n := low32 o.n
  let remote := lOptB o.w0 0
  if !(upperZero o.a && upperZero o.b && upperZero o.n) || n > 131072 || !peerOk o.d remote then .trap trapRange 0 s
  else
    let p := resolvePeer s c o.d remote
    let t := firstCode [writeCheck s c o.seq (lSa o.w0) (low32 o.a) n, p.2]
    if t ≠ 0 then .trap t 0 s
    else launch c o [] ((List.range n).map fun i =>
      { kind := .readReq, src := .core c, dst := p.1, seq := o.seq, slot := (s.core c).slot, shelf := lSb o.w0,
        idx := low32 o.b + i, dshelf := lSa o.w0, didx := low32 o.a + i }) s

/-- The ledger entry of a peer and pool, with credits of the current frame (R270). -/
def ledgerFind (k : CoreSt) (v : Word) (remote : Bool) (pool : Nat) : Option Ledger :=
  k.ledger.find? fun l => l.peer == fld v 4 0 && l.remote == remote && (!remote || (l.x == fld v 15 8 && l.y == fld v 23 16)) &&
    l.pool == pool && l.stamp == k.cur.toNat % 256

/-- Credits the ledger holds for a peer and pool. -/
def ledgerHas (k : CoreSt) (v : Word) (remote : Bool) (pool : Nat) : Nat :=
  match ledgerFind k v remote pool with
  | some l => l.count
  | none => 0

/-- Take credits from the ledger. -/
def ledgerTake (k : CoreSt) (v : Word) (remote : Bool) (pool n : Nat) : CoreSt :=
  match ledgerFind k v remote pool with
  | some l => { k with ledger := k.ledger.map fun e => if e = l then { e with count := e.count - n } else e }
  | none => k

/-- Add granted credits to the ledger (R270). -/
def ledgerAdd (k : CoreSt) (v : Word) (remote : Bool) (pool n stamp : Nat) : CoreSt :=
  let live := k.ledger.filter fun l => l.stamp == k.cur.toNat % 256
  let same (l : Ledger) : Bool := l.peer == fld v 4 0 && l.remote == remote &&
    (!remote || (l.x == fld v 15 8 && l.y == fld v 23 16)) && l.pool == pool && l.stamp == stamp
  if live.any same then { k with ledger := live.map fun l => if same l then { l with count := l.count + n } else l }
  else { k with ledger := live ++ [⟨fld v 4 0, remote, if remote then fld v 15 8 else 0, if remote then fld v 23 16 else 0,
           pool, n, stamp⟩] }

/-- PUT (R270). -/
def startPut (c : CoreId) (o : Op) (s : State) : Start :=
  let n := low32 o.n
  let remote := lOptB o.w0 0
  let pool := fld o.w1 3 0
  if !(upperZero o.a && upperZero o.b && upperZero o.n) || n > 131072 || !peerOk o.d remote then .trap trapRange 0 s
  else
    let p := resolvePeer s c o.d remote
    let t := firstCode [runCheck s c (lSa o.w0) (low32 o.a) n, p.2]
    if t ≠ 0 then .trap t 0 s
    else if ledgerHas (s.core c) o.d remote pool < n then .trap trapRange 0 s
    else
      let stamp := (s.core c).cur.toNat % 256
      let s := s.modCore c fun k => ledgerTake k o.d remote pool n
      let r := shelfReadN c (lSa o.w0) (low32 o.a) 2 n s
      if r.2.1 then .trap trapBankEcc 0 r.2.2
      else
        let s := r.2.2
        let slot := (s.core c).slot
        let xy := peerXY s p.1
        let cd := match (s.core c).committed with
          | some q => decide (q < o.seq)
          | none => false
        launch c o [] (r.1.mapIdx fun i d =>
          { kind := .write, src := .core c, dst := p.1, seq := o.seq, slot := slot, shelf := lSb o.w0, idx := low32 o.b + i,
            line := sealLine (saltTransit (peerNum p.1) (lSb o.w0) (low32 o.b + i) slot xy.1 xy.2) d, pool := pool,
            stamp := stamp, cd := cd }) s

/-! ## FETCH and STORE (R271, R346) -/

/-- The trap code of an extent of `n` lines at an address: 0 when every line may be reached. `grid` allows the grid-store
window. -/
def extentCheck (s : State) (slot a n : Nat) (grid : Bool) : Nat :=
  if a % 64 ≠ 0 then trapRange
  else
    let one (i : Nat) : Nat :=
      match regionOf s (a + 64 * i) with
      | .lpddr => if s.regF Reg.CELLAR_CFG 0 0 = 1 ∧ !inCellar s slot (a + 64 * i) 1 then trapDenied else 0
      | .unmapped => trapUnmapped
      | .grid => if grid then 0 else trapDenied
      | _ => trapDenied
    firstCode ((List.range n).map one)

/-- FETCH (R271). -/
def startFetch (c : CoreId) (o : Op) (s : State) : Start :=
  let n := low32 o.n
  if !(upperZero o.c && upperZero o.n) || fld o.b 63 40 ≠ 0 || n > 131072 then .trap trapRange 0 s
  else if n = 0 then .done s
  else
    let a := fld o.b 39 0
    let slot := (s.core c).slot
    let t := firstCode [extentCheck s slot a n true, writeCheck s c o.seq (lSc o.w0) (low32 o.c) n]
    if t ≠ 0 then .trap t 0 s
    else launch c o [] ((List.range n).map fun i =>
      let ad := a + 64 * i
      { kind := if ad < 0x1000000000 then .memRead else .gridRead, src := .core c,
        dst := if ad < 0x1000000000 then .mem else .grid, seq := o.seq, slot := slot, addr := ad, dshelf := lSc o.w0,
        didx := low32 o.c + i }) s

/-- STORE, plain form (R271). -/
def startStore (c : CoreId) (o : Op) (s : State) : Start :=
  let n := low32 o.n
  if !(upperZero o.a && upperZero o.n) || fld o.b 63 40 ≠ 0 || n > 131072 then .trap trapRange 0 s
  else if n = 0 then .done s
  else
    let a := fld o.b 39 0
    let slot := (s.core c).slot
    let t := firstCode [runCheck s c (lSa o.w0) (low32 o.a) n, extentCheck s slot a n false]
    if t ≠ 0 then .trap t 0 s
    else
      let r := shelfReadN c (lSa o.w0) (low32 o.a) 2 n s
      if r.2.1 then .trap trapBankEcc 0 r.2.2
      else launch c o [] (r.1.mapIdx fun i d =>
        { kind := .memWrite, src := .core c, dst := .mem, seq := o.seq, slot := slot, addr := a + 64 * i,
          line := sealLine (saltAddr (a + 64 * i)) d }) r.2.2

/-- STORE in ring form (R271): a commit-discipline target, so a store issued after the frame's COMMIT traps (R43).
A line takes its place in the ring when it is sent. -/
def startStoreRing (c : CoreId) (o : Op) (s : State) : Start :=
  let n := low32 o.n
  let ring := fld o.w1 5 0
  if !(upperZero o.a && upperZero o.n) || n > 131072 || o.b ≠ 0 then .trap trapRange 0 s
  else if n = 0 then .done s
  else if ring > 32 then .trap trapRange 0 s
  else
    let slot := (s.core c).slot
    let t := runCheck s c (lSa o.w0) (low32 o.a) n
    if t ≠ 0 then .trap t 0 s
    else if (match (s.core c).committed with | some q => decide (q < o.seq) | none => false) then .trap trapCommitOrder 0 s
    else
      let r := shelfReadN c (lSa o.w0) (low32 o.a) 2 n s
      if r.2.1 then .trap trapBankEcc 0 r.2.2
      else
        launch c o [] (r.1.map fun d =>
          { kind := .ringWrite, src := .core c, dst := .mem, seq := o.seq, slot := slot, idx := ring,
            line := sealLine (saltAddr 0) d, frame := (s.core c).cur, disc := true }) r.2.2

/-! ## GETX (R273) -/

/-- The state of a GETX run: records done, lines, rows staged, the 256 latest distinct remote rows with their local row, the
requests, counts of fetched rows, window hits and local records, and the trap a row's fetch met, 0 for none. -/
structure GetxSt where
  done   : Nat
  lines  : Nat
  staged : Nat
  recent : List (Nat × Nat)
  reqs   : List Msg
  fetched : Nat
  reuse  : Nat
  loc    : Nat
  code   : Nat
deriving DecidableEq, Repr

/-- A GETX run before its first record. -/
def GetxSt.start : GetxSt := ⟨0, 0, 0, [], [], 0, 0, 0, 0⟩

/-- One record of GETX: the rewritten record and the run's state. The peer and the staging lines of a row are checked when its
fetch is made (R266). -/
def getxRec (c : CoreId) (o : Op) (s : State) (rec : Nat) (g : GetxSt) : Nat × GetxSt :=
  let nc := fld o.w1 5 0
  let rl := fld o.w1 9 6
  if rec = 0xFFFFFFFF then (rec, g)
  else
    let r := rec % 2 ^ 20
    let t := r / 1024
    let row := (t / nc) * 1024 + r % 1024
    let hi := rec / 2 ^ 20 * 2 ^ 20
    if t % nc = (s.core c).logical then (hi + row % 2 ^ 20, { g with done := g.done + 1, loc := g.loc + 1 })
    else match g.recent.find? fun e => e.1 == r with
      | some e => (hi + e.2, { g with done := g.done + 1, reuse := g.reuse + 1 })
      | none =>
        let lr := low32 o.b + g.staged
        let p := resolvePeer s c (BitVec.ofNat 64 (t % nc)) false
        let code := firstCode [p.2, writeCheck s c o.seq (lSb o.w0) (lr * rl) rl]
        if code ≠ 0 then (rec, { g with code := code })
        else
          let q := (List.range rl).map fun i =>
            ({ kind := .readReq, src := .core c, dst := p.1, seq := o.seq, slot := (s.core c).slot, shelf := lSb o.w0,
               idx := row * rl + i, dshelf := lSb o.w0, didx := lr * rl + i } : Msg)
          let rec' := (g.recent ++ [(r, lr)])
          (hi + lr % 2 ^ 20,
            { g with done := g.done + 1, staged := g.staged + 1, reqs := g.reqs ++ q, fetched := g.fetched + 1,
                     recent := if rec'.length > 256 then rec'.drop 1 else rec' })

/-- The sixteen records of one line, stopping after `n` or at a trap. -/
def getxWords (f : Nat → GetxSt → Nat × GetxSt) (n : Nat) (d : BitVec 512) : List Nat → GetxSt → BitVec 512 × GetxSt
  | [], g => (d, g)
  | j :: js, g =>
    if g.done ≥ n || g.code ≠ 0 then (d, g)
    else
      let r := f (bitsAt d (32 * j) 32) g
      getxWords f n (putBits d (32 * j) 32 r.1) js r.2

/-- The record lines of GETX: stops between lines when fewer than 16 staging rows are left, or at a trap. -/
def getxLines (c : CoreId) (o : Op) : Nat → GetxSt → State → GetxSt × State
  | 0, g, s => (g, s)
  | fuel + 1, g, s =>
    let line := low32 o.a + g.lines
    if g.done ≥ low32 o.n || fld o.w1 29 10 - g.staged < 16 then (g, s)
    else
      let t := writeCheck s c o.seq (lSa o.w0) line 1
      if t ≠ 0 then ({ g with code := t }, s)
      else
        let r := shelfRead c (lSa o.w0) line 2 s
        if r.2.1 then ({ g with code := trapBankEcc }, r.2.2)
        else
          let w := getxWords (getxRec c o r.2.2) (low32 o.n) r.1.data (List.range 16) g
          if w.2.code ≠ 0 then (w.2, r.2.2)
          else getxLines c o fuel { w.2 with lines := w.2.lines + 1 } (shelfWrite c (lSa o.w0) line ⟨w.1, r.1.poison⟩ r.2.2)

/-- A GETX run counted. -/
def getxCount (c : CoreId) (g : GetxSt) (s : State) : State :=
  bumpN (coreOff Reg.GETX_LOCAL_CNT c) g.loc (bumpN (coreOff Reg.GETX_REUSE_CNT c) g.reuse
    (bumpN (coreOff Reg.GETX_ROW_CNT c) g.fetched s))

/-- The requests that a trapped instruction sent before its trap: their answers are discarded (R266). -/
def sendEarlier (c : CoreId) (o : Op) (msgs : List Msg) (s : State) : State :=
  (sendTodo (roomFor (s.core c) o.mn) ⟨o, msgs, 0, []⟩ s).2.2

/-- GETX (R273). The lines of its record shelf bound the run. -/
def startGetx (c : CoreId) (o : Op) (s : State) : Start :=
  let n := low32 o.n
  let nc := fld o.w1 5 0
  let rl := fld o.w1 9 6
  let cap := fld o.w1 29 10
  if !(upperZero o.a && upperZero o.b && upperZero o.n) || n > 1048575 then .trap trapRange 0 s
  else if nc = 0 || nc > 32 || rl = 0 || rl > 8 || cap < 16 || low32 o.b + cap > 2 ^ 20 then .trap trapRange 0 s
  else
    let r := getxLines c o (seLen (shelfEnt s c (lSa o.w0)) + 1) GetxSt.start s
    let g := r.1
    let s := getxCount c g r.2
    if g.code ≠ 0 then .trap g.code 0 (sendEarlier c o g.reqs s)
    else launch c o [(lRd o.w0, BitVec.ofNat 64 g.done), (lRd o.w0 + 1, BitVec.ofNat 64 (g.lines + g.staged * 2 ^ 32))]
      g.reqs (if g.done < n then bumpC c Reg.GETX_STOP_CNT s else s)

/-! ## GATHER, CREDIT_REQ, CREDIT_RET -/

/-- GATHER (R272): the request goes to the Map Store with the captured operands; the lists are read when the Map Store takes
the request (MAP_GATHER_START). Crates and indices are checked as runs here (R266); mode 3 is the engine's
check (R300). -/
def startGather (c : CoreId) (o : Op) (s : State) : Start :=
  let n := low32 o.n
  let mode := fld o.w1 6 5
  let crates := low32 o.d
  if !(upperZero o.a && upperZero o.c && upperZero o.n) || n > 1048575 then .trap trapRange 0 s
  else if (mode = 1 || mode = 2) && !(upperZero o.b && upperZero o.d) then .trap trapRange 0 s
  else
    let t := firstCode [runCheck s c (lSa o.w0) (low32 o.a) (cdiv n 16),
      if mode = 1 || mode = 2 then runCheck s c (lSb o.w0) (low32 o.b) (cdiv crates 16) else 0]
    if t ≠ 0 then .trap t 0 s
    else launch c o [] [{ kind := .gather, src := .core c, dst := .map, seq := o.seq, slot := (s.core c).slot }] s

/-- What a ledger entry stands for: peer, device and pool. -/
structure LedgerKey where
  peer   : Nat
  remote : Bool
  x      : Nat
  y      : Nat
  pool   : Nat
deriving DecidableEq, Repr

/-- The entry that a CREDIT_REQ's peer register and pool name. -/
def ledgerKey (v : Word) (remote : Bool) (pool : Nat) : LedgerKey :=
  ⟨fld v 4 0, remote, if remote then fld v 15 8 else 0, if remote then fld v 23 16 else 0, pool⟩

/-- The distinct entries of the ledger, those that requests under way are to create among them (R270). -/
def ledgerKeys (k : CoreSt) : List LedgerKey :=
  ((k.ledger.filter fun l => l.stamp == k.cur.toNat % 256).map (fun l => LedgerKey.mk l.peer l.remote l.x l.y l.pool) ++
    (k.active.filter fun a => a.op.mn == .creditReq).map fun a =>
      ledgerKey a.op.a ((iX a.op.w0).testBit 4) (iX a.op.w0 % 16)).eraseDups

/-- CREDIT_REQ (R165, R270). -/
def startCreditReq (c : CoreId) (o : Op) (s : State) : Start :=
  let remote := (iX o.w0).testBit 4
  let pool := iX o.w0 % 16
  let k := o.b.toNat
  let p := resolvePeer s c o.a remote
  let core := s.core c
  if !peerOk o.a remote || k = 0 || k > 16383 then .trap trapRange 0 s
  else if p.2 ≠ 0 then .trap p.2 0 s
  else if !(ledgerKeys core).contains (ledgerKey o.a remote pool) && (ledgerKeys core).length ≥ 16 then .trap trapRange 0 s
  else launch c o [] [{ kind := .creditReq, src := .core c, dst := p.1, seq := o.seq, slot := core.slot, pool := pool, k := k }] s

/-- A pool of a core. -/
def poolOf (k : CoreSt) (p : Nat) : Pool := if h : p < 16 then k.pools[p] else ⟨0, [], []⟩
/-- Replace a pool. -/
def setPool (k : CoreSt) (p : Nat) (v : Pool) : CoreSt := if h : p < 16 then { k with pools := k.pools.set p v } else k

/-- The active CREDIT_POOL register of pool `p` (1 to 15). -/
def poolCfg (s : State) (c : CoreId) (p : Nat) : Word := s.actReg (coreOff (Reg.CREDIT_POOL + 0x10 * (p - 1)) c)
/-- Capacity of a pool. -/
def poolCap (s : State) (c : CoreId) (p : Nat) : Nat := if p = 0 then 0 else fld (poolCfg s c p) 17 0

/-- Return `k` credits to a pool, capped at its capacity (R164). -/
def returnCredits (c : CoreId) (p k : Nat) (s : State) : State :=
  let q := poolOf (s.core c) p
  let cap := poolCap s c p
  let s := s.modCore c fun x => setPool x p { q with avail := min cap (q.avail + k) }
  if q.avail + k > cap then bumpC c Reg.CREDIT_OVER_RET s else s

/-- CREDIT_RET (R164, R270). -/
def startCreditRet (c : CoreId) (o : Op) (s : State) : Start :=
  let p := iX o.w0 % 16
  let k := fld o.b 17 0
  if p = 0 || fld (poolCfg s c p) 20 18 ≠ (s.core c).slot then .trap trapRange 0 s
  else if fld o.b 63 18 ≠ 0 then .trap trapRange 0 s
  else if k = 0 then .done s
  else .done (returnCredits c p k s)

end Sys2Proof.Machine
end

