-- ==== Sys2Proof/Machine/Grid.lean ====
section
/-! DEFINITION. The grid builder: transform, admission, coarser levels, the grid store and its window (R98 to R118). -/

namespace Sys2Proof.Machine

/-! ## Coordinates (R101, R102) -/

/-- π × 2⁸⁰, rounded down. -/
def piF : Nat := 3797952473636338580787993

/-- cos(x) × 2⁸⁰ for x = `x` / 2⁸⁰ in [0, π/2], by its power series. -/
def cosSeries (x : Nat) : Int :=
  let x2 := x * x / 2 ^ 80
  let r := (List.range 17).foldl (fun (a : Int × Int) k =>
    (a.1 + a.2, -(a.2 * ((x2 : Nat) : Int) / 2 ^ 80) / (((2 * k + 1) * (2 * k + 2) : Nat) : Int))) ((0 : Int), (2 ^ 80 : Int))
  r.1

/-- 131,072 × cos of a quadrant angle `a` in 0 to 16,384 (units of 360°/65,536), rounded to nearest. -/
def cosQuad (a : Nat) : Int :=
  if a = 0 then 131072 else if a = 16384 then 0
  else (cosSeries (a * piF / 32768) + 2 ^ 62) / 2 ^ 63

/-- cos_q17 of R101. -/
def cosQ17 (a : Nat) : Int :=
  let a := a % 65536
  if a ≤ 16384 then cosQuad a
  else if a ≤ 32768 then -(cosQuad (32768 - a))
  else if a ≤ 49152 then -(cosQuad (a - 32768))
  else cosQuad (65536 - a)

/-- sin_q17 of R101. -/
def sinQ17 (a : Nat) : Int := cosQ17 (a + 49152)

/-- A transformed point: head slot, sweep slot, vehicle-frame coordinates in 1/16 mm, stored intensity. -/
structure GridPoint where
  head  : Nat
  sweep : Nat
  p     : Int × Int × Int
  inten : Nat
deriving DecidableEq, Repr

/-- A signed 24-bit calibration value. -/
def cal24 (cal : List Word) (j : Nat) : Int := sfld ((cal[j]?).getD 0) 23 0

/-- The transform of R101: record, elevation entry, the slot's calibration values. -/
def transform (cal : List Word) (el : Word) (head sweep rw0 : Nat) : GridPoint :=
  let rbg := (cal[12]?).getD 0
  let r16 : Int := max 0 (((rw0 % 2 ^ 20 : Nat) : Int) * 16 + sfld rbg 15 0)
  let az := ((rw0 >>> 20) % 65536 + fld el 53 38) % 65536
  let rh := r16 * sfld el 18 0 / 2 ^ 17
  let h0 := rh * cosQ17 az / 2 ^ 17
  let h1 := rh * (-(sinQ17 az)) / 2 ^ 17
  let h2 := r16 * sfld el 37 19 / 2 ^ 17 + sfld el 63 54 * 16
  let row (k : Nat) : Int :=
    (cal24 cal (3 * k) * h0 + cal24 cal (3 * k + 1) * h1 + cal24 cal (3 * k + 2) * h2 + 2 ^ 21) / 2 ^ 22 + cal24 cal (9 + k)
  ⟨head, sweep, (row 0, row 1, row 2), min 255 (((rw0 >>> 44) % 256 * fld rbg 31 16 + 128) / 256)⟩

/-- Key coordinate and offset on one axis (R102): origin and edge in mm. -/
def axisKey (p origin : Int) (edge : Nat) : Int × Nat :=
  let e : Int := (edge : Int) * 16
  let d := p - origin * 16
  let k := d / e
  (k, ((d - k * e) * 256 / e).toNat)

/-- Key and offsets of a point under a buffer's settings; none when it is out of range (R102). -/
def pointKey (g : GridSet) (p : Int × Int × Int) : Option ((Nat × Nat × Nat) × (Nat × Nat × Nat)) :=
  let exy := fld g.voxel 11 0
  let x := axisKey p.1 (sfld g.origin 20 0) exy
  let y := axisKey p.2.1 (sfld g.origin 41 21) exy
  let z := axisKey p.2.2 (sfld g.origin 62 42) (fld g.voxel 23 12)
  let inP (v : Int) : Bool := decide (-8388592 ≤ v) && decide (v ≤ 8388607)
  let inK (v : Int) : Bool := decide (0 ≤ v) && decide (v ≤ 16383)
  if inP p.1 && inP p.2.1 && inP p.2.2 && inK x.1 && inK y.1 && inK z.1 then
    some ((x.1.toNat, y.1.toNat, z.1.toNat), (x.2, y.2, z.2))
  else none

/-! ## Entries and buckets (R103, R104) -/

/-- The 112 bits of an entry below its tag (Table 5.2). -/
def entryBits (key off : Nat × Nat × Nat) (inten sweep head count level : Nat) (multi sat sup : Bool) : Nat :=
  key.1 % 2 ^ 14 + (key.2.1 % 2 ^ 14) * 2 ^ 14 + (key.2.2 % 2 ^ 14) * 2 ^ 28 + (off.1 % 256) * 2 ^ 42 + (off.2.1 % 256) * 2 ^ 50 +
    (off.2.2 % 256) * 2 ^ 58 + (inten % 256) * 2 ^ 66 + (sweep % 16) * 2 ^ 74 + (head % 16) * 2 ^ 78 + (count % 256) * 2 ^ 82 +
    2 ^ 90 + (level % 4) * 2 ^ 91 + b2n multi * 2 ^ 93 + b2n sat * 2 ^ 94 + b2n sup * 2 ^ 95

/-- Seal an entry for its place (domain 0x3). -/
def sealEntry (buf : Nat) (coarse : Bool) (idx bits : Nat) : BitVec 128 :=
  BitVec.ofNat 128 (bits % 2 ^ 112 + (tagOf (saltGrid buf (b2n coarse) idx) (bytesLE 14 bits)).toNat * 2 ^ 112)

/-- An entry's tag. -/
def entryTag (e : BitVec 128) : Nat := fld e 127 112
/-- Does a stored entry's tag match? -/
def entryGood (buf : Nat) (coarse : Bool) (idx : Nat) (e : BitVec 128) : Bool :=
  entryTag e == (tagOf (saltGrid buf (b2n coarse) idx) (bytesLE 14 e.toNat)).toNat
/-- Does a stored entry fail its check: neither right nor poisoned? -/
def entryFails (buf : Nat) (coarse : Bool) (idx : Nat) (e : BitVec 128) : Bool :=
  entryTag e != 0 && !entryGood buf coarse idx e
/-- An entry's key. -/
def entryKey (e : BitVec 128) : Nat × Nat × Nat := (fld e 13 0, fld e 27 14, fld e 41 28)

/-- The two candidate buckets of a key (R104). -/
def buckets (seed : Word) (key : Nat × Nat × Nat) (level : Nat) : Nat × Nat :=
  let w := key.1 % 2 ^ 14 + (key.2.1 % 2 ^ 14) * 2 ^ 14 + (key.2.2 % 2 ^ 14) * 2 ^ 28 + level * 2 ^ 42
  let c := (crc32cRaw (seed.setWidth 32) (bytesLE 8 w)).toNat
  let b := if level = 0 then (c % 2 ^ 17, (c >>> 15) % 2 ^ 17) else (c % 2 ^ 16, c >>> 16)
  if b.2 = b.1 then (b.1, b.2 ^^^ 1) else b

/-- The entries of an array. -/
def GridBuf.ents (g : GridBuf) (coarse : Bool) : Store (BitVec 128) := if coarse then g.e1 else g.e0
/-- Replace the entries of an array. -/
def GridBuf.setEnts (g : GridBuf) (coarse : Bool) (e : Store (BitVec 128)) : GridBuf :=
  if coarse then { g with e1 := e } else { g with e0 := e }

/-- The entry indices of a bucket's ways. -/
def ways (b : Nat) : List Nat := (List.range 8).map fun w => 8 * b + w

/-- Where a key is found among good entries of both buckets. -/
def gridFind (g : GridBuf) (buf : Nat) (key : Nat × Nat × Nat) (level : Nat) : Option Nat :=
  let bs := buckets g.set.seed key level
  (ways bs.1 ++ ways bs.2).find? fun idx =>
    match sget idx (g.ents (level != 0)) with
    | some e => entryGood buf (level != 0) idx e && entryTag e != 0 && entryKey e == key && fld e 92 91 == level
    | none => false

/-- Free ways of a bucket, in order. -/
def freeWays (g : GridBuf) (coarse : Bool) (b : Nat) : List Nat := (ways b).filter fun i => (sget i (g.ents coarse)).isNone

/-- The way a new key takes: the bucket holding fewer entries, b0 on a tie, its lowest free way. -/
def newWay (g : GridBuf) (key : Nat × Nat × Nat) (level : Nat) : Option Nat :=
  let bs := buckets g.set.seed key level
  let f0 := freeWays g (level != 0) bs.1
  let f1 := freeWays g (level != 0) bs.2
  (if f0.length ≥ f1.length then f0 else f1).head?

/-! ## State access -/

/-- A grid buffer. -/
def State.gbuf (s : State) (b : Fin 2) : GridBuf := s.grid.bufs[b.val]
/-- Change the grid builder. -/
def State.modGrid (f : GridSt → GridSt) (s : State) : State := { s with grid := f s.grid }
/-- Replace a grid buffer. -/
def State.setGbuf (b : Fin 2) (g : GridBuf) (s : State) : State := s.modGrid fun x => { x with bufs := x.bufs.set b.val g }
/-- The buffer being computed on. -/
def State.computing (s : State) : Fin 2 := 1 - s.grid.filling

/-- A 32-bit header count, saturating. -/
def sat32 (n : Nat) : Nat := min (2 ^ 32 - 1) n

/-- A failed check in the grid store or at the transform stage (R116). -/
def gridE2e (s : State) : State := raise evGridE2e (bump Reg.GRID_E2E_FAIL s)

/-- Upsets strike stored entries. -/
def strikeGrid (us : List GridUpset) (s : State) : State :=
  us.foldl (fun s u =>
    let b : Fin 2 := if u.buf % 2 = 0 then 0 else 1
    let g := s.gbuf b
    match sget u.index (g.ents u.coarse) with
    | none => s
    | some e => s.setGbuf b (g.setEnts u.coarse (sput u.index (e ^^^ BitVec.ofNat 128 (2 ^ 113)) (g.ents u.coarse)))) s

/-- The builder reads the buckets of a key: a stored entry that fails its check is counted once, raised and poisoned
(R116). -/
def scrubKey (b : Fin 2) (key : Nat × Nat × Nat) (level : Nat) (s : State) : State :=
  let coarse := level != 0
  let bs := buckets (s.gbuf b).set.seed key level
  (ways bs.1 ++ ways bs.2).foldl (fun s idx =>
    let g := s.gbuf b
    match sget idx (g.ents coarse) with
    | none => s
    | some e =>
      if entryFails b.val coarse idx e then
        gridE2e (s.setGbuf b (g.setEnts coarse (sput idx (BitVec.ofNat 128 (e.toNat % 2 ^ 112)) (g.ents coarse))))
      else s) s

/-- A new entry with its active-list and slot-map words (R110). -/
def gridNew (g : GridBuf) (buf level idx bits : Nat) : GridBuf :=
  let coarse := level != 0
  let g := g.setEnts coarse (sput idx (sealEntry buf coarse idx bits) (g.ents coarse))
  if h : level < 4 then
    let a := g.n[level]
    let g := { g with lists := g.lists.set level (sput a idx g.lists[level]), n := g.n.set level (a + 1) }
    if coarse then { g with map1 := sput idx a g.map1 } else { g with map0 := sput idx a g.map0 }
  else g

/-- Level propagation (R109) from level `l` on, `fuel` levels. -/
def propagate (b : Fin 2) (key0 : Nat × Nat × Nat) : Nat → Nat → State → State
  | 0, _, s => s
  | fuel + 1, l, s =>
    let key := (key0.1 >>> l, key0.2.1 >>> l, key0.2.2 >>> l)
    let s := scrubKey b key l s
    let g := s.gbuf b
    match gridFind g b.val key l with
    | some idx =>
      match sget idx g.e1 with
      | none => s
      | some e =>
        let c := fld e 89 82
        let bits := entryBits key (0, 0, 0) 0 0 0 (min 255 (c + 1)) l (bitOf e 93) (bitOf e 94 || c == 255) false
        s.setGbuf b { g with e1 := sput idx (sealEntry b.val true idx bits) g.e1 }
    | none =>
      match newWay g key l with
      | some idx => propagate b key0 fuel (l + 1) (s.setGbuf b (gridNew g b.val l idx (entryBits key (0, 0, 0) 0 0 0 1 l false false false)))
      | none =>
        propagate b key0 fuel (l + 1) (bump Reg.GRID_DROP_LEVEL (s.setGbuf b { g with dropLevel := sat32 (g.dropLevel + 1) }))

/-! ## Calibration candidates (R139) -/

/-- CAL_SLOT_CFG mode of a slot; 3 acts as 1. -/
def calMode (s : State) (n : Nat) : Nat :=
  let m := s.regF (Reg.CAL_SLOT_CFG + 0x100 * n) 1 0
  if m = 3 then 1 else m
/-- CAL_SLOT_CFG.anchor. -/
def calAnchor (s : State) (n : Nat) : Bool := bitOf (s.reg (Reg.CAL_SLOT_CFG + 0x100 * n)) 2
/-- Does the engine run (R148)? -/
def calOn (s : State) : Bool := bitOf (s.reg Reg.CAL_CTRL) 0 && domRun s 38
/-- Samples per buffer: values above 4,096 act as 4,096. -/
def calMax (s : State) : Nat := min 4096 (s.actF Reg.CAL_CFG 12 0)

/-- A superseding cross-head update of the filling buffer is offered to the calibration engine. -/
def calOffer (e : BitVec 128) (pt : GridPoint) (s : State) : State :=
  let a := fld e 81 78
  if calOn s && a != pt.head && !bitOf e 93 && calMode s a != 0 && calMode s pt.head != 0 &&
      !(calAnchor s a && calAnchor s pt.head) then
    let s := bump Reg.CAL_CAND_CNT s
    if s.cal.queue.length ≥ 64 ∨ s.cal.taken ≥ calMax s then bump Reg.CAL_CAND_SKIP s
    else { s with cal := { s.cal with queue := s.cal.queue ++
      [⟨entryKey e, (fld e 49 42, fld e 57 50, fld e 65 58), a, fld e 73 66, pt.head, pt.p, pt.inten⟩] } }
  else s

/-! ## Admission (R105, R106) -/

/-- An update of an entry (R106). -/
def gridUpdate (b : Fin 2) (idx : Nat) (e : BitVec 128) (off : Nat × Nat × Nat) (pt : GridPoint) (s : State) : State :=
  let g := s.gbuf b
  let c := fld e 89 82
  let head := fld e 81 78
  let sweep := fld e 77 74
  let sup := head != pt.head || laterSeq 4 pt.sweep sweep
  let inten := max (fld e 73 66) pt.inten
  let multi := bitOf e 93 || head != pt.head
  let sat := bitOf e 94 || c == 255
  let bits := if sup then entryBits (entryKey e) off inten pt.sweep pt.head (min 255 (c + 1)) 0 multi sat true
    else entryBits (entryKey e) (fld e 49 42, fld e 57 50, fld e 65 58) inten sweep head (min 255 (c + 1)) 0 multi sat (bitOf e 95)
  let s := s.setGbuf b { g with
    e0 := sput idx (sealEntry b.val false idx bits) g.e0, supersede := if sup then sat32 (g.supersede + 1) else g.supersede }
  let s := if sup then bump Reg.GRID_SUPERSEDE s else s
  if sup && b == s.grid.filling then calOffer e pt s else s

/-- The high-water mark of a buffer's settings: values above 1,048,576 act as 1,048,576. -/
def hwmOf (g : GridSet) : Nat := min 1048576 (fld g.hwm 20 0)

/-- The filling buffer first reaches the mark, or is full: GRID_HWM and GRID_FULL, once per frame. -/
def gridMarks (b : Fin 2) (s : State) : State :=
  let g := s.gbuf b
  let n := g.n[0]
  let s := if n ≥ hwmOf g.set ∧ g.hwm = false then raise evGridHwm (s.setGbuf b { g with hwm := true }) else s
  let g := s.gbuf b
  if n ≥ 1048576 ∧ g.full = false then raise evGridFull (s.setGbuf b { g with full := true }) else s

/-- One point meets the first outcome of R105. -/
def gridPoint (b : Fin 2) (pt : GridPoint) (s : State) : State :=
  let s := bump Reg.GRID_POINT_CNT (s.setGbuf b { s.gbuf b with points := sat32 ((s.gbuf b).points + 1) })
  match pointKey (s.gbuf b).set pt.p with
  | none => bump Reg.GRID_DROP_RANGE (s.setGbuf b { s.gbuf b with dropRange := sat32 ((s.gbuf b).dropRange + 1) })
  | some (key, off) =>
    let s := scrubKey b key 0 s
    let g := s.gbuf b
    match (match gridFind g b.val key 0 with
      | none => none
      | some idx => (sget idx g.e0).map fun e => (idx, e)) with
    | some (idx, e) => gridUpdate b idx e off pt s
    | none =>
      let n := g.n[0]
      let near := (fld g.set.near 19 0 * 16 : Nat)
      let s' :=
        if n ≥ 1048576 then bump Reg.GRID_DROP_FULL (s.setGbuf b { g with dropFull := sat32 (g.dropFull + 1) })
        else if n ≥ hwmOf g.set ∧ pt.p.1 * pt.p.1 + pt.p.2.1 * pt.p.2.1 > ((near * near : Nat) : Int) then
          bump Reg.GRID_DROP_FAR (s.setGbuf b { g with dropFar := sat32 (g.dropFar + 1) })
        else match newWay g key 0 with
          | none => bump Reg.GRID_DROP_BUCKET (s.setGbuf b { g with dropBucket := sat32 (g.dropBucket + 1) })
          | some idx =>
            let g := gridNew g b.val 0 idx (entryBits key off pt.inten pt.sweep pt.head 1 0 false false false)
            propagate b key (fld g.set.cfg 2 1) 1 (bump Reg.GRID_NEW_CNT (s.setGbuf b g))
      gridMarks b s'

/-! ## Blocks (R98, R99, R115, R116, R118) -/

/-- Does record `j` lie wholly in good lines? -/
def recClean (bad : List Nat) (j : Nat) : Bool :=
  !bad.contains ((24 + 12 * j) / 64) && !bad.contains ((24 + 12 * j + 11) / 64)

/-- The buffer that a block fills: the filling one, or the one its fence handed over (R28, R99). -/
def blockBuf (s : State) (k : GridBlock) : Fin 2 := if fillsNow s k.cyc then s.grid.filling else s.computing

/-- The records of a block enter the transform stage in order. -/
def blockPoints (k : GridBlock) (bad : List Nat) (s : State) : State :=
  let b := blockBuf s k
  let bits := k.lines.flatMap fun l => lineBytes l.data
  (List.range k.count).foldl (fun s j =>
    if k.drop.contains j || !recClean bad j then s
    else
      let rw0 := leAt bits (24 + 12 * j) 12
      let el := s.reg (Reg.GRID_ELEV + 0x800 * k.slot + 8 * ((rw0 >>> 36) % 256))
      let cal := if h : k.slot < 16 then (s.gbuf b).set.cal[k.slot] else calReset
      gridPoint b (transform cal el k.slot k.sweep rw0) s) s

/-- GRID_BLOCK_TRANSFORM: the oldest block; `spoiled` are lines whose tag an upset has spoiled on the way, `lat` the GCLK
cycles from its end-of-frame instant to its visibility, `us` upsets of stored entries. -/
def blockTransform (lat : Nat) (spoiled : List Nat) (us : List GridUpset) (s : State) : State :=
  match s.grid.queue with
  | [] => s
  | k :: rest =>
    let s := strikeGrid us (s.modGrid fun g => { g with queue := rest })
    if !bitOf (s.actReg Reg.GRID_CFG) 0 || !domRun s 37 then bump Reg.GRID_OFF_DROP s
    else
      let b := blockBuf s k
      let ls := k.lines.zipIdx.map fun e => if spoiled.contains e.2 then { e.1 with tag := e.1.tag ^^^ 2 } else e.1
      let bad := ls.zipIdx.filter fun e => !tagGood (saltBlock k.slot k.seq e.2) e.1
      let fails := bad.filter fun e => e.1.tag != 0
      let s := fails.foldl (fun s _ => gridE2e s) s
      let s := if bad.isEmpty then s else s.setGbuf b { s.gbuf b with loss := true }
      let s := blockPoints { k with lines := ls } (bad.map (·.2)) s
      let s := s.setReg Reg.GRID_LAT_MAX (BitVec.ofNat 64 (max (s.reg Reg.GRID_LAT_MAX).toNat (min 65535 lat)))
      if lat > 900 then
        let s := bump Reg.GRID_LAT_OVER s
        if s.grid.latRaised then s else raise evGridLatOver (s.modGrid fun g => { g with latRaised := true })
      else s

/-- GRID_BLOCK_TRANSFORM. -/
def execGridBlockTransform (lat : Nat) (spoiled : List Nat) (us : List GridUpset) (s : State) : Res :=
  .next (blockTransform lat spoiled us s)

/-- Is an insertion owed to the computing buffer (R28)? -/
def handoverOwed (s : State) : Bool :=
  (s.grid.queue.any fun k => !fillsNow s k.cyc) || (s.ingest.parserq.any fun f => !fillsNow s f.cyc)

/-- FRAME_STAT.grid_handover_pending. -/
def handoverPending (s : State) : Bool := bitOf (s.reg Reg.FRAME_STAT) 3

/-- GRID_HANDOVER_COMPLETE (R39). -/
def handoverDone (s : State) : State := if handoverOwed s then s else s.setF Reg.FRAME_STAT 3 3 0
/-- GRID_HANDOVER_COMPLETE. -/
def execGridHandoverComplete (s : State) : Res := .next (handoverDone s)

/-- The settings that the active values give a buffer (R99). -/
def gridSetNow (s : State) : GridSet :=
  { cfg := s.actReg Reg.GRID_CFG, voxel := s.actReg Reg.GRID_VOXEL, origin := s.actReg Reg.GRID_ORIGIN,
    hwm := s.actReg Reg.GRID_HWM, near := s.actReg Reg.GRID_NEAR, seed := s.actReg Reg.GRID_HASH_SEED,
    cal := Vector.ofFn fun n : Fin 16 => (calOffs n.val).map fun o => s.actReg o }

/-- GRID_BUFFER_SWAP (R38, R112, R113): the filling buffer is handed over with the frame's number; the other starts empty
with the captured settings. -/
def gridSwap (frame : BitVec 32) (s : State) : State :=
  let f := s.grid.filling
  let s := s.setGbuf f { s.gbuf f with frame := frame }
  let s := s.setGbuf (1 - f) (GridBuf.fresh (gridSetNow s))
  let s := s.modGrid fun g => { g with filling := 1 - f, latRaised := false }
  s.setF Reg.FRAME_STAT 3 3 (b2n (handoverOwed s))

/-- A load_fb capture (R99): a filling buffer that has counted no point takes the captured settings. -/
def gridLoad (s : State) : State :=
  let f := s.grid.filling
  if (s.gbuf f).points = 0 then s.setGbuf f { s.gbuf f with set := gridSetNow s } else s

/-! ## The window (R111, R112, R114) -/

/-- The 64 bytes of a buffer's header (Table 5.4). -/
def gridHeader (g : GridBuf) : List Nat :=
  bytesLE 4 g.frame.toNat ++ bytesLE 4 g.n[0] ++ bytesLE 4 g.n[1] ++ bytesLE 4 g.n[2] ++ bytesLE 4 g.n[3] ++ bytesLE 4 g.points ++
    bytesLE 4 g.dropRange ++ bytesLE 4 g.dropFull ++ bytesLE 4 g.dropFar ++ bytesLE 4 g.dropBucket ++ bytesLE 4 g.dropLevel ++
    bytesLE 4 g.supersede ++ bytesLE 4 (fld g.set.seed 31 0) ++ bytesLE 8 (fld g.set.origin 62 0) ++
    bytesLE 3 (fld g.set.voxel 23 0) ++ [b2n g.hwm + 2 * b2n g.full + 4 * b2n g.loss + 8 * fld g.set.cfg 2 1]

/-- A line of four entries: data, whether it is poisoned, entries that fail their check. -/
def entryLine (g : GridBuf) (buf : Nat) (coarse : Bool) (first : Nat) : BitVec 512 × Bool × Nat :=
  let es := (List.range 4).map fun j =>
    match sget (first + j) (g.ents coarse) with
    | some e => (e.toNat, !entryGood buf coarse (first + j) e, b2n (entryFails buf coarse (first + j) e))
    | none => ((sealEntry buf coarse (first + j) 0).toNat, false, 0)
  (BitVec.ofNat 512 (ofBytesLE (es.flatMap fun e => bytesLE 16 e.1)), es.any (·.2.1), es.foldl (fun a e => a + e.2.2) 0)

/-- A line of sixteen index words. -/
def indexLine (w : Nat → Nat) (first : Nat) : BitVec 512 :=
  BitVec.ofNat 512 (ofBytesLE ((List.range 16).flatMap fun j => bytesLE 4 (w (first + j))))

/-- The line at an offset of the grid-store window, from a buffer. -/
def gridLine (g : GridBuf) (buf o : Nat) : BitVec 512 × Bool × Nat :=
  let list (l base : Nat) : BitVec 512 × Bool × Nat :=
    (indexLine (fun j => if h : l < 4 then (if j < g.n[l] then (sget j g.lists[l]).getD 0 else 0) else 0) ((o - base) / 4), false, 0)
  let map (m : Store Nat) (base : Nat) : BitVec 512 × Bool × Nat :=
    (indexLine (fun j => match sget j m with
      | some a => a + 2 ^ 31
      | none => 0) ((o - base) / 4), false, 0)
  if o < 0x1000000 then entryLine g buf false (o / 16)
  else if o < 0x1800000 then entryLine g buf true ((o - 0x1000000) / 16)
  else if o < 0x1C00000 then list 0 0x1800000
  else if o < 0x2000000 then map g.map0 0x1C00000
  else if o < 0x2200000 then list 1 0x2000000
  else if o < 0x2400000 then list 2 0x2200000
  else if o < 0x2600000 then list 3 0x2400000
  else if o < 0x2800000 then map g.map1 0x2600000
  else (BitVec.ofNat 512 (ofBytesLE (gridHeader g)), false, 0)

/-- A verified line of the computing buffer, with its failures counted (R111, R342). -/
def gridReadLine (o : Nat) (s : State) : DLine × State :=
  let r := gridLine (s.gbuf s.computing) s.computing.val (o / 64 * 64)
  (⟨r.1, r.2.1⟩, (List.range r.2.2).foldl (fun s _ => gridE2e s) s)

/-- GRID_WINDOW_READ: the oldest read of a requester at the grid store; it stalls while the handover is pending (R39) or PD[37] is
not in RUN. -/
def gridWindowRead (src : Agent) (us : List GridUpset) (s : State) : State :=
  if handoverPending s || !domRun s 37 then s
  else match s.receive .gridRead src .grid with
    | none => s
    | some (m, s1) =>
      let r := gridReadLine (m.addr - 0x1100000000) (strikeGrid us s1)
      post { kind := .readRsp, src := .grid, dst := m.src, seq := m.seq, slot := m.slot, dshelf := m.dshelf, didx := m.didx,
             addr := m.addr, line := sealLine (saltAddr m.addr) r.1 } r.2

/-- GRID_WINDOW_READ. -/
def execGridWindowRead (src : Agent) (us : List GridUpset) (s : State) : Res := .next (gridWindowRead src us s)

/-! ## Registers -/

/-- GRID_ELEV_WRITE (R100). -/
def elevWrite (n : HeadId) (ch : BitVec 8) (v : Word) (s : State) : State :=
  if headOn s n.val || handoverPending s then accessError s
  else s.setReg (Reg.GRID_ELEV + 0x800 * n.val + 8 * ch.toNat) v
/-- GRID_ELEV_WRITE. -/
def execGridElevWrite (n : HeadId) (ch : BitVec 8) (v : Word) (s : State) : Res := .next (elevWrite n ch v s)

/-- GRID_LAT_MAX_READ (R118): returns the value and clears it. -/
def latMaxRead (s : State) : State := { s.setReg Reg.GRID_LAT_MAX 0 with lastRead := s.reg Reg.GRID_LAT_MAX }
/-- GRID_LAT_MAX_READ. -/
def execGridLatMaxRead (s : State) : Res := .next (latMaxRead s)

/-- GRID_STAT as a read returns it. -/
def gridStatVal (s : State) : Word :=
  let g := s.gbuf s.grid.filling
  BitVec.ofNat 64 (g.n[0] + b2n g.hwm * 2 ^ 21 + b2n g.full * 2 ^ 22 + s.grid.filling.val * 2 ^ 23)

end Sys2Proof.Machine
end

