-- ==== Sys2Proof/Machine/CalibMath.lean ====
section
/-! DEFINITION. The arithmetic of online calibration (R137, R141 to R143): eigenvalues, planes, normal equations, residuals,
rotations. Lengths are metres and angles radians in units of 2⁻⁴⁰ unless said otherwise (log entry 19). -/

namespace Sys2Proof.Machine

/-! ## Vectors and matrices -/

/-- A vector's entry. -/
def vAt (v : List Int) (i : Nat) : Int := (v[i]?).getD 0
/-- The dot product. -/
def vDot (a b : List Int) : Int := (a.zipWith (· * ·) b).foldl (· + ·) 0
/-- A matrix times a vector. -/
def matVec (a : List (List Int)) (v : List Int) : List Int := a.map fun r => vDot r v
/-- Rows to columns, of a matrix of `n` columns. -/
def transposed (n : Nat) (a : List (List Int)) : List (List Int) := (List.range n).map fun i => a.map fun r => vAt r i
/-- A matrix product, the right factor of `n` columns. -/
def matMul (n : Nat) (a b : List (List Int)) : List (List Int) :=
  let cols := transposed n b
  a.map fun r => cols.map fun c => vDot r c
/-- A matrix plus `c` times the unit matrix. -/
def plusDiag (c : Int) (a : List (List Int)) : List (List Int) :=
  a.zipIdx.map fun r => r.1.zipIdx.map fun x => if x.2 = r.2 then x.1 + c else x.1
/-- The sum of the diagonal. -/
def trace (a : List (List Int)) : Int := (a.zipIdx.map fun r => vAt r.1 r.2).foldl (· + ·) 0
/-- The cross product. -/
def cross3 (a b : Int × Int × Int) : Int × Int × Int :=
  (a.2.1 * b.2.2 - a.2.2 * b.2.1, a.2.2 * b.1 - a.1 * b.2.2, a.1 * b.2.1 - a.2.1 * b.1)
/-- A triple as a vector. -/
def triple (a : Int × Int × Int) : List Int := [a.1, a.2.1, a.2.2]
/-- The dot product of triples. -/
def dot3 (a b : Int × Int × Int) : Int := a.1 * b.1 + a.2.1 * b.2.1 + a.2.2 * b.2.2
/-- A triple, entry by entry. -/
def map3 (f : Int → Int) (a : Int × Int × Int) : Int × Int × Int := (f a.1, f a.2.1, f a.2.2)
/-- The difference of triples. -/
def sub3 (a b : Int × Int × Int) : Int × Int × Int := (a.1 - b.1, a.2.1 - b.2.1, a.2.2 - b.2.2)

/-- Leverrier's recurrence on an `n` by `n` matrix, `k` steps done: the coefficients below the leading 1 found so far, the last
matrix M, and A·M. -/
def leverrier (n : Nat) (a : List (List Int)) : Nat → List Int × List (List Int) × List (List Int)
  | 0 => ([], [], plusDiag 0 (List.replicate n (List.replicate n 0)))
  | k + 1 =>
    let p := leverrier n a k
    let m := plusDiag ((p.1.head?).getD 1) p.2.2
    let am := matMul n a m
    ((-(trace am) / ((k : Int) + 1)) :: p.1, m, am)

/-- The characteristic polynomial of an `n` by `n` matrix, lowest coefficient first. -/
def charPoly (n : Nat) (a : List (List Int)) : List Int := (leverrier n a n).1 ++ [1]

/-- One synthetic division by x − t, on coefficients from the highest: quotient and remainder. -/
def divLinear (t : Int) : List Int → Int → List Int × Int
  | [], acc => ([], acc)
  | c :: r, acc =>
    let p := divLinear t r (acc * t + c)
    (acc :: p.1, p.2)

/-- The Taylor coefficients of a polynomial at t, from the highest coefficient, lowest order first. -/
def taylorAt (t : Int) : Nat → List Int → List Int
  | 0, _ => []
  | _, [] => []
  | fuel + 1, c :: r =>
    let p := divLinear t r c
    p.2 :: taylorAt t fuel p.1

/-- Sign changes in a list, zeros left out. -/
def signChanges (l : List Int) : Nat :=
  let s := l.filter (· != 0)
  (s.zip (s.drop 1)).countP fun p => decide (p.1 < 0) != decide (p.2 < 0)

/-- How many roots of a polynomial (lowest coefficient first) that has only real roots are at most t. -/
def rootsUpTo (poly : List Int) (t : Int) : Nat := (poly.length - 1) - signChanges (taylorAt t poly.length poly.reverse)

/-- Halving: the least natural number in (lo, hi] that passes a test that stays true, given that `hi` passes. -/
def leastPass (f : Nat → Bool) : Nat → Nat → Nat → Nat
  | 0, _, hi => hi
  | fuel + 1, lo, hi =>
    if hi ≤ lo + 1 then hi
    else
      let m := (lo + hi) / 2
      if f m then leastPass f fuel lo m else leastPass f fuel m hi

/-- The `k`-th smallest eigenvalue, rounded up, of a matrix without negative eigenvalues. -/
def eigenUp (n k : Nat) (a : List (List Int)) : Nat :=
  let p := charPoly n a
  let f (t : Nat) : Bool := decide (k ≤ rootsUpTo p t)
  let hi := (trace a).toNat
  if f 0 then 0 else leastPass f (hi.log2 + 2) 0 hi

/-! ## Planes (R141) -/

/-- The sum of points. -/
def sumPts (pts : List (Int × Int × Int)) : Int × Int × Int :=
  pts.foldl (fun a p => (a.1 + p.1, a.2.1 + p.2.1, a.2.2 + p.2.2)) (0, 0, 0)

/-- The covariance of N points times N². -/
def covariance (pts : List (Int × Int × Int)) : List (List Int) :=
  let s := triple (sumPts pts)
  (List.range 3).map fun i => (List.range 3).map fun j =>
    pts.length * (pts.map fun p => vAt (triple p) i * vAt (triple p) j).foldl (· + ·) 0 - vAt s i * vAt s j

/-- Is the smallest eigenvalue of the points' covariance at most 1/64 of the middle one? -/
def planeFits (pts : List (Int × Int × Int)) : Bool :=
  let a := covariance pts
  decide (1 ≤ rootsUpTo (charPoly 3 a) ((eigenUp 3 2 a : Nat) / 64 : Nat))

/-- The unit normal of the plane of points, in units of 2⁻⁴⁰: along the longest cross product of two rows of the covariance less
its smallest eigenvalue. -/
def planeNormal (pts : List (Int × Int × Int)) : Int × Int × Int :=
  let a := (covariance pts).map fun r => r.map (· * 2 ^ 32)
  let m := plusDiag (-(eigenUp 3 1 a : Nat)) a
  let row (i : Nat) : Int × Int × Int := (vAt ((m[i]?).getD []) 0, vAt ((m[i]?).getD []) 1, vAt ((m[i]?).getD []) 2)
  let c := [cross3 (row 0) (row 1), cross3 (row 0) (row 2), cross3 (row 1) (row 2)]
  let v := c.foldl (fun b x => if dot3 b b < dot3 x x then x else b) (0, 0, 0)
  if eigenUp 3 2 (covariance pts) = 0 then Config.lineNormal pts
  else map3 (fun x => x * 2 ^ 40 / (Nat.sqrt (dot3 v v).toNat : Nat)) v

/-- A length in 1/256 mm over `q`, in metres. -/
def metres (x : Int) (q : Nat) : Int := x * 2 ^ 40 / (256000 * q : Nat)

/-- n·(p − c) in metres: c is the centroid of points in 1/256 mm. -/
def planeResid (n : Int × Int × Int) (pts : List (Int × Int × Int)) (p : Int × Int × Int) : Int :=
  dot3 n (sub3 (map3 (· * pts.length) p) (sumPts pts)) / (256000 * pts.length : Nat)

/-- dot(n, u) for u along d. -/
def rayDot (n d : Int × Int × Int) : Int :=
  let l := Nat.sqrt ((dot3 d d).toNat * 2 ^ 32)
  if l = 0 then Config.nullRay n else dot3 n d * 2 ^ 16 / (l : Nat)

/-- The row of a slot at d (1/256 mm over `q`) from its position: j of R141 with the signs of the slot's side, and r. -/
def sampleRow (slot : Nat) (bias : Bool) (side : Int) (n d : Int × Int × Int) (q : Nat) (r : Int) : CalRow :=
  ⟨slot, triple (map3 (· / 2 ^ 40) (cross3 (map3 (metres · q) d) n)) ++ triple (map3 (side * ·) n) ++
    [if bias then side * rayDot n d else 0], side * r⟩

/-! ## Normal equations (R142) -/

/-- A = Σ j jᵀ over the first `n` unknowns. -/
def normalA (n : Nat) (rows : List CalRow) : List (List Int) :=
  let cols := (List.range n).map fun i => rows.map fun x => vAt x.j i
  cols.map fun a => cols.map fun b => vDot a b

/-- g = Σ j r over the first `n` unknowns. -/
def normalG (n : Nat) (rows : List CalRow) : List Int :=
  (List.range n).map fun i => vDot (rows.map fun x => vAt x.j i) (rows.map (·.r))

/-- Is the smallest eigenvalue of the pose block below 10⁻⁶ of the largest? -/
def poseIll (rows : List CalRow) : Bool :=
  let a := normalA 6 rows
  let top := eigenUp 6 6 a
  top != 0 && decide (1 ≤ rootsUpTo (charPoly 6 a) ((top - 1) / 1000000 : Nat))

/-- The solution of A x = g by the adjugate, in units of 2⁻⁴⁰. -/
def solveNormal (n : Nat) (rows : List CalRow) : List Int :=
  let a := normalA n rows
  let l := leverrier n a n
  let det := (l.1.head?).getD 0
  if det = 0 then Config.singularSolve a (normalG n rows)
  else (matVec l.2.1 (normalG n rows)).map fun v => -(v * 2 ^ 40) / det

/-- An angle of 2⁻⁴⁰ radians in 10⁻⁹ degrees. -/
def toNanoDeg (x : Int) : Int := x * (180000000000 * 2 ^ 40) / piF
/-- A length of 2⁻⁴⁰ metres in nm. -/
def toNano (x : Int) : Int := x * 1000000000 / 2 ^ 40

/-- The residual r − j·x of a row under a correction x: rotation in 10⁻⁹ degrees, translation and range bias in nm. -/
def rowResid (e : CalEst) (x : CalRow) : Int :=
  x.r - vDot (x.j.take 3) [e.rx, e.ry, e.rz] * piF / (180000000000 * 2 ^ 80) - vDot (x.j.drop 3) [e.tx, e.ty, e.tz, e.db] / 1000000000

/-- The sum of squared residuals under a correction. -/
def sumSquares (rows : List CalRow) (e : CalEst) : Nat := rows.foldl (fun a x => a + (rowResid e x).natAbs ^ 2) 0

/-- The RMS residual under the active values, in µm. -/
def rmsMicro (rows : List CalRow) : Nat :=
  Nat.sqrt (sumSquares rows ⟨0, 0, 0, 0, 0, 0, 0, 0⟩ / rows.length) * 1000000 / 2 ^ 40

/-! ## Rotations (R137) -/

/-- Rounding of x / q to nearest. -/
def roundDiv (x : Int) (q : Nat) : Int := (2 * x + q) / (2 * q)

/-- The rotation by a vector of 10⁻⁹ degrees, in units of 2⁻⁶⁰: I + (sin θ/θ) W + ((1 − cos θ)/θ²) W² with W the vector's cross
matrix. -/
def rotationOf (x y z : Int) : List (List Int) :=
  let f (v : Int) : Int := v * piF / (180000000000 * 2 ^ 20)
  let w := [[0, -(f z), f y], [f z, 0, -(f x)], [-(f y), f x, 0]]
  let mul (a b : Int) : Int := a * b / 2 ^ 60
  let t2 := mul (f x) (f x) + mul (f y) (f y) + mul (f z) (f z)
  let sinc := 2 ^ 60 - t2 / 6 + mul t2 t2 / 120
  let vers := 2 ^ 59 - t2 / 24 + mul t2 t2 / 720
  let w2 := (matMul 3 w w).map fun r => r.map (· / 2 ^ 60)
  plusDiag (2 ^ 60) (w.zipWith (fun r q => r.zipWith (fun a b => mul sinc a + mul vers b) q) w2)

/-- How far a matrix in units of 2⁻²² is from orthonormal: the sum of the entries of |R·Rᵀ − I|, in units of 2⁻⁶⁰. -/
def orthoGap (r : List (List Int)) : Nat :=
  ((plusDiag (-(2 ^ 44)) (r.map fun a => r.map fun b => vDot a b)).flatten.foldl (fun n x => n + x.natAbs) 0) * 2 ^ 16

/-- ΔR·R re-orthonormalised and rounded to entries of 2⁻²²; the re-orthonormalisation moves an entry by at most four times the
departure of R from orthonormality, and nothing when there is none. -/
def composeRot (rot : List Int) (x y z : Int) : List Int :=
  let r := (List.range 3).map fun i => (List.range 3).map fun j => vAt rot (3 * i + j)
  let m := (matMul 3 (rotationOf x y z) r).flatten.map (· / 2 ^ 22)
  let lim : Int := 4 * orthoGap r
  let adj := if lim = 0 then [] else Config.orthoStep m
  m.zipIdx.map fun v => roundDiv (v.1 + max (-lim) (min lim (vAt adj v.2))) (2 ^ 38)

end Sys2Proof.Machine
end

