-- ==== Sys2Proof/Machine/Calib.lean ====
section
/-! DEFINITION. Online calibration (chapter 7, R137 to R148). -/

namespace Sys2Proof.Machine

/-! ## Slots -/

/-- A slot's calibration. -/
def State.calSlot (s : State) (n : HeadId) : CalSlot := s.cal.slots[n.val]

/-- CAL_SLOT_CFG gain_en (3) or bias_en (4). -/
def calBit (s : State) (n i : Nat) : Bool := bitOf (s.reg (Reg.CAL_SLOT_CFG + 0x100 * n)) i
/-- CAL_SLOT_STAT.pending_src. -/
def calSrc (s : State) (n : Nat) : Bool := bitOf (s.reg (Reg.CAL_SLOT_STAT + 0x100 * n)) 3
/-- Note which of a slot's pending values the engine wrote; CAL_SLOT_STAT.pending_src shows whether there are any. -/
def setMine (n : HeadId) (idx : List Nat) (s : State) : State :=
  (s.setF (Reg.CAL_SLOT_STAT + 0x100 * n.val) 3 3 (b2n !idx.isEmpty)).modSlot n fun c => { c with mine := idx }
/-- Is there an anchor (R138)? -/
def calAnchored (s : State) : Bool :=
  (List.range 16).any fun n => headOn s n && calMode s n != 0 && calAnchor s n

/-! ## Samples (R140, R141) -/

/-- The 26 neighbours of a key. -/
def neighbours (key : Nat × Nat × Nat) : List (Nat × Nat × Nat) :=
  let d := [-1, 0, 1]
  (d.flatMap fun x => d.flatMap fun y => d.map fun z => (x, y, z)).filterMap fun (v : Int × Int × Int) =>
    let k := ((key.1 : Int) + v.1, (key.2.1 : Int) + v.2.1, (key.2.2 : Int) + v.2.2)
    if v = (0, 0, 0) ∨ k.1 < 0 ∨ k.2.1 < 0 ∨ k.2.2 < 0 ∨ k.1 > 16383 ∨ k.2.1 > 16383 ∨ k.2.2 > 16383 then none
    else some (k.1.toNat, k.2.1.toNat, k.2.2.toNat)

/-- The position of a representative in 1/256 mm: origin + (key + off/256) × edge. -/
def repPos (g : GridSet) (key off : Nat × Nat × Nat) : Int × Int × Int :=
  let ax (o : Int) (e k f : Nat) : Int := (o + k * e) * 256 + f * e
  let exy := fld g.voxel 11 0
  (ax (sfld g.origin 20 0) exy key.1 off.1, ax (sfld g.origin 41 21) exy key.2.1 off.2.1,
    ax (sfld g.origin 62 42) (fld g.voxel 23 12) key.2.2 off.2.2)

/-- Look a neighbour up: the position of its representative when that is slot `a`'s, and how many entries of its two buckets
fail their check. -/
def lookNeighbour (g : GridBuf) (buf a : Nat) (key : Nat × Nat × Nat) : Option (Int × Int × Int) × Nat :=
  let bs := buckets g.set.seed key 0
  let bad := (ways bs.1 ++ ways bs.2).countP fun i => match sget i g.e0 with
    | some e => entryFails buf false i e
    | none => false
  let hit := (gridFind g buf key 0).bind fun i => (sget i g.e0).bind fun e =>
    if fld e 81 78 = a then some (repPos g.set key (fld e 49 42, fld e 57 50, fld e 65 58)) else none
  (hit, bad)

/-- A slot's position in 1/256 mm. -/
def calPos (s : State) (n : Nat) : Int × Int × Int :=
  let t (k : Nat) : Int := sfld (s.actReg (Reg.CAL_TRANS + 0x100 * n + 4 * k)) 23 0 * 16
  (t 0, t 1, t 2)

/-- What an accepted sample adds to its slots (R141), under the settings of the moment. -/
def calAdd (s : State) (k : CalCand) (pts : List (Int × Int × Int)) (n p : Int × Int × Int) (r : Int) : CalSample :=
  let q := pts.length
  let rowB := sampleRow k.b (calBit s k.b 4) 1 n (sub3 p (calPos s k.b)) 1 r
  let rowA := sampleRow k.a (calBit s k.a 4) (-1) n (sub3 (sumPts pts) (map3 (· * q) (calPos s k.a))) q r
  ⟨k.a, k.b, (if calAnchor s k.b then [] else [rowB]) ++ (if calAnchor s k.a then [] else [rowA]),
    (if calBit s k.b 3 && calAnchor s k.a then [(k.b, k.ia, k.ib)] else []) ++
    (if calBit s k.a 3 && calAnchor s k.b then [(k.a, k.ib, k.ia)] else [])⟩

/-- CAL_SAMPLE: the oldest candidate's plane is built and judged. -/
def calSample (us : List GridUpset) (s : State) : State :=
  match s.cal.queue with
  | [] => s
  | k :: rest =>
    if !calOn s ∨ s.cal.taken ≥ calMax s then s
    else
      let s := strikeGrid us (s.modCal fun c => { c with queue := rest, taken := c.taken + 1 })
      let b := s.grid.filling
      let g := s.gbuf b
      let r := (neighbours k.key).map (lookNeighbour g b.val k.a)
      let s := (List.range (r.foldl (fun n x => n + x.2) 0)).foldl
        (fun s _ => raise evCalE2e (bump Reg.CAL_E2E_FAIL s)) s
      let pts := repPos g.set k.key k.off :: r.filterMap (·.1)
      let p := (k.p.1 * 16, k.p.2.1 * 16, k.p.2.2 * 16)
      if pts.length < 6 ∨ !planeFits pts then bump Reg.CAL_REJECT_PLANE s
      else
        let n := planeNormal pts
        let d := planeResid n pts p
        if d.natAbs * 1000 > s.actF Reg.CAL_CFG 31 24 * 2 ^ 40 then bump Reg.CAL_REJECT_RESID s
        else bump Reg.CAL_SAMPLE_CNT (s.modCal fun c => { c with samples := c.samples ++ [calAdd s k pts n p d] })

/-- CAL_SAMPLE. -/
def execCalSample (us : List GridUpset) (s : State) : Res := .next (calSample us s)

/-! ## Estimates (R142) -/

/-- The rows that the closed buffer's samples added to a slot's normal equations. -/
def calRows (s : State) (n : Nat) : List CalRow := s.cal.closed.flatMap fun x => x.rows.filter fun r => r.slot == n

/-- The sums of reference and own intensities of a slot against anchor slots. -/
def gainSums (s : State) (n : Nat) : Nat × Nat :=
  s.cal.closed.foldl (fun g x => x.gain.foldl (fun g y => if y.1 = n then (g.1 + y.2.1, g.2 + y.2.2) else g) g) (0, 0)

/-- The gain factor − 1 in units of 2⁻²⁴. When the slot's own intensities sum to zero, which the spec leaves open: a free value,
or no gain without gain_en (log entry 72). -/
def gainEst (s : State) (n : Nat) : Int :=
  let g := gainSums s n
  if g.2 = 0 then (if calBit s n 3 then (s.free 40 32).toInt else 0)
  else ((g.1 : Int) - g.2) * 2 ^ 24 / g.2

/-- A slot's frame estimate. -/
def calEstimate (s : State) (n : Nat) : CalEst :=
  let x := solveNormal (if calBit s n 4 then 7 else 6) (calRows s n)
  ⟨toNanoDeg (vAt x 0), toNanoDeg (vAt x 1), toNanoDeg (vAt x 2), toNano (vAt x 3), toNano (vAt x 4), toNano (vAt x 5),
    toNano (vAt x 6), gainEst s n⟩

/-! ## Gates (R143) -/

/-- An estimate's numbers. -/
def CalEst.nums (e : CalEst) : List Int := [e.rx, e.ry, e.rz, e.tx, e.ty, e.tz, e.db, e.gain]
/-- An estimate of numbers. -/
def CalEst.ofNums (l : List Int) : CalEst :=
  let x (i : Nat) : Int := (l[i]?).getD 0
  ⟨x 0, x 1, x 2, x 3, x 4, x 5, x 6, x 7⟩

/-- The mean of a full history. -/
def calMean (h : List CalEst) : CalEst :=
  CalEst.ofNums ((List.range 8).map fun i => (h.foldl (fun a e => a + (e.nums[i]?).getD 0) 0) / 8)

/-- The length of a vector, rounded down. -/
def norm3 (x y z : Int) : Nat := Nat.sqrt (x * x + y * y + z * z).toNat
/-- |Δt| in nm. -/
def CalEst.dist (e : CalEst) : Nat := norm3 e.tx e.ty e.tz
/-- The rotation angle in 10⁻⁹ degrees. -/
def CalEst.angle (e : CalEst) : Nat := norm3 e.rx e.ry e.rz

/-- Gate 1: every estimate is consistent with the mean. -/
def calConsistent (s : State) (h : List CalEst) (m : CalEst) : Bool :=
  h.all fun e =>
    let d := CalEst.ofNums (e.nums.zipWith (· - ·) m.nums)
    decide (d.dist ≤ s.regF Reg.CAL_GATE 15 8 * 250000) && decide (d.angle ≤ s.regF Reg.CAL_GATE 23 16 * 1000000) &&
      decide (d.gain.natAbs ≤ 4 * 2 ^ 16)

/-- Gate 2: scaling to 20 mm and 0.10°, then the clamps of Δb and the gain step; the flag says that it was scaled. -/
def calSize (m : CalEst) : CalEst × Bool :=
  let d := m.dist
  let a := m.angle
  let cl (lim x : Int) : Int := max (-lim) (min lim x)
  let sc (n q : Nat) (x : Int) : Int := x * n / q
  let f (g : Int → Int) : CalEst :=
    ⟨g m.rx, g m.ry, g m.rz, g m.tx, g m.ty, g m.tz, cl 20000000 m.db, cl 1048576 m.gain⟩
  if d ≤ 20000000 ∧ a ≤ 100000000 then (f id, false)
  else if d * 100000000 ≥ a * 20000000 then (f (sc 20000000 d), true)
  else (f (sc 100000000 a), true)

/-- Is a proposal too small to be written? -/
def calSmall (e : CalEst) : Bool :=
  decide (e.dist < 2000000) && decide (e.angle < 10000000) && decide (e.db.natAbs < 2000000) && decide (e.gain.natAbs ≤ 65536)

/-- Gate 3: the RMS residual under the proposal, compared as sums of squares over the same samples. -/
def calImproves (s : State) (n : Nat) (e : CalEst) : Bool :=
  let r := calRows s n
  decide (sumSquares r e * 256 ^ 2 ≤ (256 - s.regF Reg.CAL_GATE 7 0) ^ 2 * sumSquares r ⟨0, 0, 0, 0, 0, 0, 0, 0⟩)

/-- A value kept within a signed field of `w` bits. -/
def satS (w : Nat) (x : Int) : Int := max (-(2 ^ (w - 1))) (min (2 ^ (w - 1) - 1) x)

/-- CAL_LAST_STEP of a step. -/
def lastStep (e : CalEst) (valid : Bool) : Word :=
  BitVec.ofNat 64 ((roundDiv e.dist 62500).toNat % 2 ^ 16 + ((roundDiv e.angle 100000).toNat % 2 ^ 15) * 2 ^ 16 + b2n valid * 2 ^ 31 +
    wrapInt 16 (roundDiv e.db 62500) * 2 ^ 32 + wrapInt 16 (roundDiv e.gain 65536) * 2 ^ 48)

/-- The thirteen values that an accepted proposal gives (R137, R144). -/
def calValues (s : State) (n : Nat) (e : CalEst) : List Word :=
  let o := calOffs n
  let old (j : Nat) : Word := s.actReg ((o[j]?).getD 0)
  let rot := composeRot ((List.range 9).map fun j => sfld (old j) 23 0) e.rx e.ry e.rz
  let tr (j : Nat) (d : Int) : Word := BitVec.ofNat 64 (wrapInt 24 (satS 24 (sfld (old (9 + j)) 23 0 + roundDiv d 62500)))
  let rb := wrapInt 16 (satS 16 (sfld (old 12) 15 0 + roundDiv e.db 62500))
  let gain := max 0 (min 65535 (roundDiv (fld (old 12) 31 16 * (2 ^ 24 + e.gain)) (2 ^ 24)))
  ((List.range 9).map fun j => BitVec.ofNat 64 (wrapInt 24 (satS 24 (vAt rot j)))) ++
    [tr 0 e.tx, tr 1 e.ty, tr 2 e.tz, BitVec.ofNat 64 (rb + gain.toNat * 2 ^ 16)]

/-- The oldest estimate leaves a slot's history. -/
def histDrop (n : HeadId) (s : State) : State := s.modSlot n fun c => { c with hist := c.hist.drop 1 }
/-- A slot's history is cleared. -/
def histClear (n : HeadId) (s : State) : State := s.modSlot n fun c => { c with hist := [] }

/-- The engine's one write of a slot's thirteen pending values (R144); in the guard interval it counts once (R40). -/
def calPut (n : HeadId) (vs : List Word) (s : State) : State :=
  let s := ((calOffs n.val).zip vs).foldl (fun s e => s.setReg e.1 e.2) s
  setMine n (List.range 13) (if bitOf (s.reg Reg.FRAME_STAT) 1 then bump Reg.FB_LATE_WRITE_CNT s else s)

/-- R144 on a proposal that passed the gates: an anchor is not corrected (R137), mode 1 reports, mode 2 writes unless there is no
anchor (R138), the engine is frozen (R146) or software wrote first (R145). -/
def calAccept (n : HeadId) (e : CalEst) (s : State) : State :=
  let o := Reg.CAL_LAST_STEP + 0x100 * n.val
  if calAnchor s n.val then histDrop n s
  else if calMode s n.val = 1 then histDrop n (s.setReg o (lastStep e false))
  else if calMode s n.val ≠ 2 ∨ bitOf (s.reg Reg.CAL_CTRL) 1 ∨ !calAnchored s then histDrop n s
  else if (s.calSlot n).swPend then bump Reg.CAL_PREEMPT_CNT s
  else
    let s := (calPut n (calValues s n.val e) s).setReg o (lastStep e true)
    let s := s.modSlot n fun c => { c with hist := [], state := 2, skip := true }
    raise (evCalAccept n.val) (bump Reg.CAL_ACCEPT_CNT s)

/-- R143 on a full history. -/
def calPropose (n : HeadId) (s : State) : State :=
  let h := (s.calSlot n).hist
  let m := calMean h
  if !calConsistent s h m then histDrop n (bump Reg.CAL_GATE_FAIL s)
  else
    let z := calSize m
    let s := if z.2 then bump Reg.CAL_CLAMP_CNT s else s
    if calSmall z.1 then s.modSlot n fun c => { c with hist := [], state := 3 }
    else if !calImproves s n.val z.1 then histDrop n (bump Reg.CAL_GATE_FAIL s)
    else calAccept n z.1 s

/-- CAL_PROPOSAL: a slot's solution of the closed buffer completes. The RMS of no samples is a free value (log entry 72). -/
def calProposal (n : HeadId) (s : State) : State :=
  if !(s.calSlot n).solve || !calOn s then s
  else
    let s := s.modSlot n fun c => { c with solve := false }
    let rows := calRows s n.val
    let rms := if rows.isEmpty then (s.free 72 16).toNat else min 65535 (rmsMicro rows)
    let s := s.drawn.setF (Reg.CAL_SLOT_STAT + 0x100 * n.val) 47 32 rms
    if rows.length < 8 * s.actF Reg.CAL_CFG 23 16 then histClear n s
    else if poseIll rows then
      raise (evCalDegenerate n.val) (bump Reg.CAL_DEGENERATE_CNT (s.modSlot n fun c => { c with hist := [], state := 4 }))
    else
      let e := calEstimate s n.val
      let s := s.drawn.modSlot n fun c => { c with hist := (c.hist ++ [e]).drop (c.hist.length - 7), state := if c.state = 4 then 1 else c.state }
      if (s.calSlot n).hist.length < 8 then s else calPropose n s

/-- CAL_PROPOSAL. -/
def execCalProposal (n : HeadId) (s : State) : Res := .next (calProposal n s)

/-! ## Software, freezing, disabling (R145 to R148) -/

/-- Writable bits of a slot's calibration register. -/
def calMask (idx : Nat) : Word := if idx = 12 then 0xFFFFFFFF else 0xFFFFFF

/-- CAL_SOFTWARE_WRITE: register `idx` of Table 7.1 (0 to 8 rotation, 9 to 11 translation, 12 range bias and gain). -/
def calSoftWrite (n : HeadId) (idx : Fin 13) (v : Half) (s : State) : State :=
  calSoft n [idx.val] (fbPut (((calOffs n.val)[idx.val]?).getD 0) (v.zeroExtend 64 &&& calMask idx.val) s)

/-- CAL_SOFTWARE_WRITE. -/
def execCalSoftwareWrite (n : HeadId) (idx : Fin 13) (v : Half) (s : State) : Res := .next (calSoftWrite n idx v s)

/-- The pending values that the engine wrote on a slot return to the active ones (R146); what software wrote stays. -/
def calWithdraw (n : HeadId) (s : State) : State :=
  let mine := (s.calSlot n).mine
  if mine.isEmpty then s
  else
    let s := mine.foldl (fun s i => let o := ((calOffs n.val)[i]?).getD 0; s.setReg o (s.actReg o)) s
    (setMine n [] s).modSlot n fun c => { c with skip := false, state := if c.state = 2 then 1 else c.state }

/-- CAL_FREEZE: CAL_CTRL.freeze is set. -/
def calFreeze (s : State) : State := allHeads.foldl (fun s n => calWithdraw n s) (s.setF Reg.CAL_CTRL 1 1 1)
/-- CAL_FREEZE. -/
def execCalFreeze (s : State) : Res := .next (calFreeze s)

/-- CAL_UNFREEZE: CAL_CTRL.freeze is cleared. -/
def calUnfreeze (s : State) : State := allHeads.foldl (fun s n => histClear n s) (s.setF Reg.CAL_CTRL 1 1 0)
/-- CAL_UNFREEZE. -/
def execCalUnfreeze (s : State) : Res := .next (calUnfreeze s)

/-- The engine stops (R148). -/
def calStop (s : State) : State :=
  let s := s.modCal fun c => { c with queue := [], taken := 0, samples := [], closed := [] }
  allHeads.foldl (fun s n => s.modSlot n fun c => { c with hist := [], state := 0, solve := false, skip := false }) s

/-- CAL_DISABLE: CAL_CTRL.enable is cleared. -/
def execCalDisable (s : State) : Res := .next (calStop (s.setF Reg.CAL_CTRL 0 0 0))

/-! ## At a fence -/

/-- A capture takes the slots' pending values (R144, R145, R147): whoever wrote them, nothing is pending after it; a history
taken against older values is cleared. A replaced head's calibration starts anew (R78, R147). -/
def calCaptured (s : State) : State :=
  allHeads.foldl (fun s n =>
    let s := setMine n [] s
    let s := if (s.calSlot n).restart then
        (s.setReg (Reg.CAL_LAST_STEP + 0x100 * n.val) 0).modSlot n fun c => { c with state := min 1 c.state, hist := [] }
      else s
    s.modSlot n fun c => { c with hist := if c.swPend then [] else c.hist, swPend := false, restart := false,
                                  state := if c.state = 2 then 1 else c.state }) s

/-- CAL_SOLVE (R142): the buffer handed over is closed, and the solutions of the slots in mode 1 or 2 start, but for a slot whose
samples were taken while a write was pending or whose head was replaced; with no anchor the event of R138 is raised. Runs
before the capture. -/
def calClose (s : State) : State :=
  let s := if calOn s then bumpN Reg.CAL_UNFINISHED s.cal.queue.length s else s
  let s := s.modCal fun c => { c with queue := [], taken := 0, closed := c.samples, samples := [] }
  let s := allHeads.foldl (fun s n =>
    let cnt := s.cal.closed.countP fun x => x.a == n.val || x.b == n.val
    let on := calOn s && calMode s n.val != 0
    (if calOn s then s.setF (Reg.CAL_SLOT_STAT + 0x100 * n.val) 20 8 cnt else s).modSlot n fun c => { c with
      solve := on && !calAnchor s n.val && !c.skip && !c.swPend && !c.restart, skip := false,
      state := if !on then 0 else if c.state = 0 then 1 else c.state }) s
  if calOn s && !calAnchored s then raise evCalNoAnchor s else s

/-- CAL_SLOT_STAT as a read returns it. -/
def calStatVal (s : State) (n : HeadId) : Word :=
  let c := s.calSlot n
  setFld (setFld (s.reg (Reg.CAL_SLOT_STAT + 0x100 * n.val)) 2 0 (if calOn s then c.state else 0)) 7 4 c.hist.length

/-- CAL_STAT as a read returns it: no_anchor while the running engine has no anchor. -/
def calEngineStat (s : State) : Word :=
  setFld (setFld (s.reg Reg.CAL_STAT) 0 0 (b2n (calOn s && !calAnchored s))) 1 1 (b2n (s.cal.slots.toList.any (·.solve)))

end Sys2Proof.Machine
end

