-- ==== Sys2Proof/Machine/Scalar.lean ====
section
/-! DEFINITION. The scalar instructions that run in the SCALAR queue: arithmetic, comparison, LD and ST, status access
(Tables 13.4 to 13.7, R256, R257). -/

namespace Sys2Proof.Machine

/-- ALU functions (Table 13.5). -/
def aluFn (fn : Nat) (a b : Word) : Word :=
  match fn with
  | 0 => a + b
  | 1 => a - b
  | 2 => a * b
  | 3 => a &&& b
  | 4 => a ||| b
  | 5 => a ^^^ b
  | 6 => a <<< (b.toNat % 64)
  | 7 => a >>> (b.toNat % 64)
  | 8 => a.sshiftRight (b.toNat % 64)
  | 9 => if a.slt b then a else b
  | 10 => if a.slt b then b else a
  | 11 => if a.ult b then a else b
  | _ => if a.ult b then b else a

/-- Compare conditions (Table 13.6). -/
def cmpFn (cond : Nat) (a b : Word) : Bool :=
  match cond with
  | 0 => a == b
  | 1 => a != b
  | 2 => a.slt b
  | 3 => !(a.slt b)
  | 4 => a.ult b
  | _ => !(a.ult b)

/-- ALU d, a, b, fn. -/
def startAlu (c : CoreId) (o : Op) (s : State) : Start := .done (wrS c (iD o.w0) (aluFn (iX o.w0 % 16) o.a o.b) s)
/-- ALUI d, a, imm, fn. -/
def startAlui (c : CoreId) (o : Op) (s : State) : Start := .done (wrS c (iD o.w0) (aluFn (iF o.w0 % 16) o.a (iImm o.w0)) s)
/-- LI d, imm. -/
def startLi (c : CoreId) (o : Op) (s : State) : Start := .done (wrS c (iD o.w0) (iImm o.w0) s)
/-- LUI d, a, imm. -/
def startLui (c : CoreId) (o : Op) (s : State) : Start :=
  .done (wrS c (iD o.w0) (BitVec.ofNat 64 (o.a.toNat % 2 ^ 32 + iImmN o.w0 * 2 ^ 32)) s)
/-- CMP d, a, b, cond. -/
def startCmp (c : CoreId) (o : Op) (s : State) : Start := .done (wrP c (iD o.w0) (cmpFn (iX o.w0 % 8) o.a o.b) s)
/-- CMPI d, a, imm, cond. -/
def startCmpi (c : CoreId) (o : Op) (s : State) : Start :=
  .done (wrP c (iD o.w0) (cmpFn (iF o.w0 % 8) o.a (iImm o.w0)) s)
/-- PLOG d, a, b, tt: p[d] = tt[(p[a] << 1) | p[b]]. -/
def startPlog (c : CoreId) (o : Op) (s : State) : Start :=
  .done (wrP c (iD o.w0) ((iX o.w0).testBit (2 * b2n o.pa + b2n o.pb)) s)

/-- LD d, a, imm, shelf, size (R256). -/
def startLd (c : CoreId) (o : Op) (s : State) : Start :=
  let sh := iF o.w0 % 64
  let size := 2 ^ (iF o.w0 / 64)
  let off := (o.a + iImm o.w0).toNat
  if off % size ≠ 0 then .trap trapAlign 0 s
  else
    let t := runCheck s c sh (off / 64) 1
    if t ≠ 0 then .trap t 0 s
    else
      let r := shelfRead c sh (off / 64) 1 s
      if r.2.1 then .trap trapBankEcc 0 r.2.2
      else if r.1.poison then .trap trapPoison 0 r.2.2
      else .done (wrS c (iD o.w0) (BitVec.ofNat 64 (bitsAt r.1.data (8 * (off % 64)) (8 * size))) r.2.2)

/-- ST d, a, imm, shelf, size (R153, R256): the line is read, merged and written. -/
def startSt (c : CoreId) (o : Op) (s : State) : Start :=
  let sh := iF o.w0 % 64
  let size := 2 ^ (iF o.w0 / 64)
  let off := (o.a + iImm o.w0).toNat
  if off % size ≠ 0 then .trap trapAlign 0 s
  else
    let t := writeCheck s c o.seq sh (off / 64) 1
    if t ≠ 0 then .trap t 0 s
    else
      let r := shelfRead c sh (off / 64) 1 s
      if r.2.1 then .trap trapBankEcc 0 r.2.2
      else .done (shelfWrite c sh (off / 64) ⟨putBits r.1.data (8 * (off % 64)) (8 * size) o.d.toNat, r.1.poison⟩ r.2.2)

/-- RDS d, idx (R257). -/
def startRds (c : CoreId) (o : Op) (s : State) : Start :=
  match statusVal s c (iImmN o.w0) with
  | none => .trap trapIllegal 0 s
  | some v => .done (wrS c (iD o.w0) v (if iImmN o.w0 = 0 then s.drawn.modCore c fun k => { k with cclk := v } else s))

/-- WRS a, idx (R257, Table 13.7): ARRAY_STAT bit 8 and ARRAY_PART_STAT bit 63 are cleared by a set bit. -/
def startWrs (c : CoreId) (o : Op) (s : State) : Start :=
  let i := iImmN o.w0
  if i = 0x11 then
    .done (if bitOf o.a 8 then s.setF (coreOff Reg.ARRAY_STAT c) 8 8 0 else s)
  else if 0x12 ≤ i ∧ i ≤ 0x15 then
    .done (if bitOf o.a 63 then s.setF (coreOff (Reg.ARRAY_PART_STAT + 8 * (i - 0x12)) c) 63 63 0 else s)
  else .trap trapIllegal 0 s

end Sys2Proof.Machine
end

