-- ==== Sys2Proof/Machine/Tiles.lean ====
section
/-! DEFINITION. Element layouts of weight and input rows (Tables 9.2, 10.3, R195) and packed tiles (R206 to R210). -/

namespace Sys2Proof.Machine

/-- Six-bit formats (R195). -/
def fmt6 (f : Nat) : Bool := f == 6 || f == 7

/-- Lines per dense input row, 6-bit formats apart (Table 9.2). -/
def rowLines (f : Nat) : Nat := match fmtClass f with | 0 => 4 | 1 => 2 | _ => 1

/-- Expanded elements in one dense row of a class: 128 in the 4-bit class, else 64 (R169). -/
def rowElems (f : Nat) : Nat := if fmtClass f = 3 then 128 else 64

/-- The formats the array multiplies (Table 10.5). -/
def arrayFmt (f : Nat) : Bool := decide (f ≤ 14) && f != 10

/-- Lines of a dense weight tile of `k` reduction rows (Table 9.2, R195). -/
def tileLines (f k : Nat) : Nat :=
  if fmt6 f then 3 * cdiv k 4
  else match fmtClass f with | 0 => 4 * k | 1 => 2 * k | 3 => cdiv k 2 | _ => k

/-- Bits of element `n` of weight row `k` in a tile's bit string. -/
def weightBit (f k n : Nat) : Nat :=
  match fmtClass f with
  | 0 => 2048 * k + 32 * n
  | 1 => 1024 * k + 16 * n
  | 3 => 512 * (k / 2) + 8 * n + 4 * (k % 2)
  | _ => if fmt6 f then 384 * k + 6 * n else 512 * k + 8 * n

/-- Bits of element `k` of dense input row `i` (rows of the whole array, or packed rows of a partition, Table 9.6). -/
def inputBit (f mode : Nat) (packed : Bool) (i k : Nat) : Nat :=
  let b := fmtBits f
  if fmt6 f then 384 * i + 6 * k
  else if packed && mode == 1 then 256 * i + b * k
  else if packed && mode == 2 then 128 * i + b * k
  else 512 * rowLines f * i + b * k

/-- Are MM's rows packed several to a line in a partition mode (Table 9.6)? -/
def rowsPacked (f mode : Nat) : Bool := mode != 0 && (fmtClass f == 2 || fmtClass f == 3) && !fmt6 f

/-- The lines from which dense input row `i` is read: first line and count. -/
def inputLines (f mode : Nat) (packed : Bool) (i : Nat) : Nat × Nat :=
  if fmt6 f then (3 * (i / 4), 3)
  else if packed && mode == 1 then (i / 2, 1)
  else if packed && mode == 2 then (i / 4, 1)
  else (rowLines f * i, rowLines f)

/-! ## Packed tiles -/

/-- A parsed tile header (Table 11.1). -/
structure TileHdr where
  dense  : Bool
  pack   : Nat
  n      : Nat
  transp : Bool
  role   : Nat
  fmt    : Nat
  nLen   : Nat
  rows   : Nat
  bytes  : Nat
deriving DecidableEq, Repr

/-- Bytes of a chunk's codes and values of a structured tile (Table 11.2); none for a class without one. -/
def chunkBytes (f : Nat) : Option (Nat × Nat) :=
  if fmt6 f then some (24, 48)
  else match fmtClass f with | 1 => some (24, 128) | 2 => some (24, 64) | 3 => some (48, 64) | _ => none

/-- Bytes of the dense payload of a tile (R209). -/
def densePayload (f role rows : Nat) : Nat :=
  if fmt6 f then 48 * rows
  else if role = 0 then 64 * tileLines f rows else 64 * rowLines f * rows

/-- The least and the most payload bytes of `rows` rows in variable form (R208, R209): counts alone, and every element stored;
PACK never writes more than the dense payload. -/
def varBytes (f role rows : Nat) : Nat × Nat :=
  let n := if role = 0 && fmtClass f = 3 then cdiv rows 2 else rows
  let e := rowElems f
  (n * (e / 16), min (n * (e / 16 + cdiv (3 * e) 8 + cdiv (fmtBits f * e) 8)) (densePayload f role rows))

/-- Parse and check a header against the format an instruction names (R206); the limit is the dense limit of R170 for
weight tiles. None stands for TILE_FORMAT. -/
def parseHdr (f limit : Nat) (bs : List Nat) : Option TileHdr :=
  let b0 := leAt bs 0 1
  let n := match (b0 / 8) % 4 with | 0 => 1 | 1 => 2 | 2 => 4 | _ => 0
  let h : TileHdr :=
    { dense := b0 % 2 = 1, pack := (b0 / 2) % 4, n := n, transp := (b0 / 32) % 2 = 1, role := (b0 / 64) % 2,
      fmt := leAt bs 1 1, nLen := leAt bs 2 2, rows := leAt bs 4 4, bytes := leAt bs 8 4 }
  let e := if n = 0 then 0 else 8 / n
  let codeOk := if h.pack = 0 then n != 0 else (b0 / 8) % 4 == 0
  let nOk := if h.role = 0 then decide (1 ≤ h.nLen ∧ h.nLen ≤ 64) else h.nLen == 0
  let rowsOk :=
    if h.pack = 0 then decide (1 ≤ h.rows ∧ h.rows ≤ rowElems f * e)
    else if h.role = 0 then decide (1 ≤ h.rows ∧ h.rows ≤ limit)
    else decide (1 ≤ h.rows ∧ h.rows ≤ 1048575)
  let sizeOk :=
    if h.pack = 0 then (match chunkBytes f with | some c => h.bytes == 64 * (c.1 + c.2) | none => false)
    else if h.dense then h.bytes == densePayload f h.role h.rows
    else decide ((varBytes f h.role h.rows).1 ≤ h.bytes) && decide (h.bytes ≤ (varBytes f h.role h.rows).2)
  if h.pack ≤ 1 && codeOk && b0 < 128 && !(h.pack == 0 && h.role == 1) && !(h.pack == 0 && h.dense) && h.fmt == f &&
      f != 0x0A && f != 0x0F && nOk && rowsOk && sizeOk && leAt bs 12 4 == 0 then some h
  else none

/-- The value of a structured tile at virtual row `v`, column `n`: its position code and element bits (R207). -/
def structAt (f : Nat) (payload v n : Nat) : Nat × Nat :=
  match chunkBytes f with
  | none => (0, 0)
  | some (cb, vb) =>
    let four := fmtClass f == 3
    let j := if four then v / 2 else v
    let base := 8 * (cb + vb) * j
    let code := (payload >>> (base + (if four then 192 * (v % 2) else 0) + 3 * n)) % 8
    let vbit := base + 8 * cb + (if four then 8 * n + 4 * (v % 2) else fmtBits f * n)
    (code, (payload >>> vbit) % 2 ^ fmtBits f)

/-- Do the codes of the groups in virtual rows `lo` to `lo + cnt − 1` ascend strictly in every column (R210)? -/
def codesIn (f n nLen payload lo cnt : Nat) : Bool :=
  (List.range nLen).all fun c => (List.range cnt).all fun i =>
    i % n == 0 || decide ((structAt f payload (lo + i - 1) c).1 < (structAt f payload (lo + i) c).1)

/-- Do the codes of every group ascend strictly in every column (R210)? -/
def codesOk (f n nLen payload : Nat) : Bool := codesIn f n nLen payload 0 (rowElems f)

/-- The expanded weights of a structured tile: a row per expanded reduction row (R210, R214). -/
def expandStruct (f n nLen kLen payload : Nat) : List (List (Option Nat)) :=
  (List.range kLen).map fun k => (List.range nLen).map fun c =>
    ((List.range n).findSome? fun i =>
      let e := structAt f payload (k / 8 * n + i) c
      if e.1 = k % 8 then some e.2 else none)

/-- One row of a variable tile (R208) from a bit position: the elements of the row (unstored ones zero), whether every count
is zero, and the position after it; none when a count passes 8 or positions do not ascend. -/
def varRow (f payload pos : Nat) : Option (List Nat × Bool × Nat) :=
  let g := rowElems f / 8
  let cnt (i : Nat) : Nat := (payload >>> (pos + 4 * i)) % 16
  let counts := (List.range g).map cnt
  let total := counts.foldl (· + ·) 0
  let p0 := pos + 4 * g
  let v0 := p0 + 8 * cdiv (3 * total) 8
  let stop := v0 + 8 * cdiv (fmtBits f * total) 8
  let starts := counts.foldl (fun (a : List Nat × Nat) x => (a.1 ++ [a.2], a.2 + x)) ([], 0)
  let elem (i p : Nat) : Option Nat :=
    let st := (starts.1[i]?).getD 0
    (List.range (cnt i)).findSome? fun j =>
      if (payload >>> (p0 + 3 * (st + j))) % 8 = p then some ((payload >>> (v0 + fmtBits f * (st + j))) % 2 ^ fmtBits f) else none
  let asc := (List.range g).all fun i =>
    let st := (starts.1[i]?).getD 0
    (List.range (cnt i)).all fun j => j == 0 ||
      decide ((payload >>> (p0 + 3 * (st + j - 1))) % 8 < (payload >>> (p0 + 3 * (st + j))) % 8)
  if counts.any (fun x => x > 8) || !asc then none
  else some ((List.range (8 * g)).map (fun e => (elem (e / 8) (e % 8)).getD 0), total == 0, stop)

/-- All rows of a variable tile; the payload must end with the last row. -/
def varRows (f payload : Nat) : Nat → Nat → Option (List (List Nat × Bool) × Nat)
  | 0, pos => some ([], pos)
  | n + 1, pos =>
    match varRow f payload pos with
    | none => none
    | some (es, z, p) =>
      match varRows f payload n p with
      | none => none
      | some (r, q) => some ((es, z) :: r, q)

/-- The weights of a variable or dense packed tile as expanded rows (R212); none stands for TILE_FORMAT. A row of the 4-bit
class holds two reduction rows (DEDUCED, log entry 13). -/
def expandVar (f : Nat) (h : TileHdr) (payload : Nat) : Option (List (List (Option Nat))) :=
  if h.dense then
    some ((List.range h.rows).map fun k => (List.range h.nLen).map fun n =>
      some ((payload >>> weightBit f k n) % 2 ^ fmtBits f))
  else
    let four := fmtClass f == 3
    match varRows f payload (if four then cdiv h.rows 2 else h.rows) 0 with
    | none => none
    | some (rs, p) =>
      if p ≠ 8 * h.bytes then none
      else some ((List.range h.rows).map fun k => (List.range h.nLen).map fun n =>
        some (if four then ((((rs[k / 2]?).getD ([], true)).1)[2 * n + k % 2]?).getD 0
              else ((((rs[k]?).getD ([], true)).1)[n]?).getD 0))

/-- The payload of a tile from its lines, as a bit string that starts after the 16-byte header. -/
def payloadOf (ls : List DLine) : Nat :=
  (ls.foldr (fun l acc => l.data.toNat + 2 ^ 512 * acc) 0) >>> 128

/-- Lines of a packed tile with its header. -/
def packedLines (bytes : Nat) : Nat := cdiv (16 + bytes) 64

/-- Is any line poisoned? -/
def anyPoison (ls : List DLine) : Bool := ls.any (·.poison)

end Sys2Proof.Machine
end

