-- ==== Sys2Proof/Machine/Array.lean ====
section
/-! DEFINITION. The matrix array: WLOAD, MM, MMG, MMS, MMP, ACC_INIT, ACC_DRAIN (plain form) and PART (chapters 9 to 11,
R169 to R189, R199, R200, R206 to R215, R229, R274 to R276). -/

namespace Sys2Proof.Machine

/-! ## Partitions (Table 9.6) -/

/-- Partitions of a mode. -/
def partCount (mode : Nat) : Nat := if mode = 0 then 1 else if mode = 1 then 2 else 4
/-- PE rows of a partition. -/
def peRows (mode : Nat) : Nat := 64 / partCount mode
/-- Accumulator rows of a partition in each bank. -/
def accRowsOf (mode : Nat) : Nat := 1024 / partCount mode
/-- The dense reduction limit of a format in a mode. -/
def kLimit (f mode : Nat) : Nat := peRows mode * (if fmtClass f = 3 then 2 else 1)
/-- The partition that an accumulator row belongs to. -/
def partOfRow (mode r : Nat) : Nat := r / accRowsOf mode

/-- Record a cause in a partition's fault context: the first is held, and raises ARRAY_PART_FAULT (R183). Cause 0 ARRAY_CHECK,
1 input poison, 2 weight poison, 3 BANK_ECC. -/
def partFault (c : CoreId) (q cause row bank : Nat) (s : State) : State :=
  let o := coreOff (Reg.ARRAY_PART_STAT + 8 * q) c
  if bitOf (s.reg o) 63 then s
  else raise (evCore c 4) (s.setReg o (BitVec.ofNat 64 (2 ^ 63 + cause + (row % 1024) * 4 + bank * 2 ^ 12)))

/-- Change a core's array. -/
def modArray (c : CoreId) (f : ArraySt → ArraySt) (s : State) : State := s.modCore c fun k => { k with array := f k.array }

/-- An operation met an uncorrectable line: it has run to its end; later array operations do not start and the core traps
with BANK_ECC (R154, R183). -/
def bankEcc (c : CoreId) (q row bank : Nat) (s : State) : Start :=
  .trap trapBankEcc 0 (modArray c (fun a => { a with stopped := true }) (partFault c q 3 row bank s))

/-! ## Lanes -/

/-- Lane addition: modulo 2³² for integers, FP32 otherwise (R176). -/
def laneAdd (isInt : Bool) (a b : BitVec 32) : BitVec 32 := if isInt then a + b else f32add a b

/-- An FP32 value as a lane. -/
def laneOf (v : FVal) : BitVec 32 := toF32 (nanBits 0 0) v

/-- A finite product as an FP32 lane; beyond the FP32 range it rounds under R197, to the largest finite magnitude (Table 10.4). -/
def productLane (v : FVal) : BitVec 32 :=
  match v with
  | .fin _ _ _ => (convF32 v).1
  | _ => laneOf v

/-- A product of an input and a weight as the PE forms it (R200): exact, rounded where it leaves the FP32 range. -/
def peProduct (isInt neg : Bool) (x w : FVal) (xi wi : Int) : BitVec 32 :=
  if isInt then BitVec.ofInt 32 (if neg then -(xi * wi) else xi * wi)
  else productLane (let p := fmul x w; if neg then fneg p else p)

/-- A partial sum down a column in ascending reduction row; a position that a structured tile does not store has no PE and adds no
term (R200, R214). -/
def colSum (isInt : Bool) (kLen : Nat) (term : Nat → Option (BitVec 32)) : BitVec 32 :=
  (List.range kLen).foldl (fun a k => match term k with
    | some t => laneAdd isInt a t
    | none => a) 0

/-! ## Weight sets -/

/-- The bits of weight (k, n) of a set; none where the tile stores none. -/
def wBits (t : WSet) (k n : Nat) : Option Nat := (((t.w[k]?).getD [])[n]?).getD none

/-- The value of a weight, its MX scale applied (R194). -/
def wVal (t : WSet) (k n : Nat) : FVal :=
  match wBits t k n with
  | none => .fin false 0 0
  | some b =>
    if fmtMx t.fmt then fmul (ofElem t.fmt b) (e8m0 ((((t.scale[k / 32]?).getD [])[n]?).getD 0)) else ofElem t.fmt b

/-- The value of an integer weight. -/
def wInt (t : WSet) (k n : Nat) : Int :=
  match wBits t k n with
  | none => 0
  | some b => intElem t.fmt b

/-- The two parts of an FP32 operand (R185, R200): its 12 leading significand bits, and the 12 remaining. -/
def hiPart : FVal → FVal
  | .fin n m e => .fin n (m / 4096 * 4096) e
  | v => v
/-- The low part. -/
def loPart : FVal → FVal
  | .fin n m e => .fin n (m % 4096) e
  | _ => .fin false 0 0

/-- The checksum weights of row k of a set under a view of its values (R172). -/
def checkS (isInt : Bool) (t : WSet) (f : FVal → FVal) (k : Nat) : BitVec 32 :=
  (List.range t.nLen).foldl (fun a n => laneAdd isInt a (if isInt then BitVec.ofInt 32 (wInt t k n) else laneOf (f (wVal t k n)))) 0
/-- The magnitude weights of row k. -/
def checkM (t : WSet) (f : FVal → FVal) (k : Nat) : BitVec 32 :=
  (List.range t.nLen).foldl (fun a n => f32add a (laneOf (fabs (f (wVal t k n))))) 0

/-- The set an operand selects (Tables 14.5, 14.6): `other` for a WLOAD. -/
def pickSet (a : ArraySt) (sel : Nat) (other : Bool) : Option Nat :=
  if sel < 2 then some sel
  else if other then some (match a.curSet with | some x => 1 - x | none => 0)
  else a.curSet

/-- The bank an operand selects. -/
def pickBank (a : ArraySt) (sel : Nat) (other : Bool) : Option Nat :=
  if sel < 2 then some sel
  else if other then some (match a.curBank with | some x => 1 - x | none => 0)
  else a.curBank

/-- Lines of MX scales for `k` reduction rows of a tile: one per block of 32 (Table 10.3). -/
def wScaleLines (f k : Nat) : Nat := if fmtMx f then cdiv k 32 else 0

/-- Scale bytes of consecutive lines, 64 per line. -/
def scaleBytes (ls : List DLine) : List (List Nat) := ls.map fun l => lineBytes l.data

/-- Is any weight of a set an infinity or a NaN (R221)? -/
def setNonfinite (t : WSet) : Bool :=
  fmtFloat t.fmt && (List.range t.w.length).any fun k => (List.range t.nLen).any fun n => !ffinite (wVal t k n)

/-- The checksum and magnitude weights of a set, per view and row (R172, R185). -/
def setChecks (t : WSet) : List (List (BitVec 32 × BitVec 32)) :=
  let isInt := fmtInt t.fmt
  let view (f : FVal → FVal) := (List.range t.w.length).map fun k => (checkS isInt t f k, if isInt then 0 else checkM t f k)
  if fmtClass t.fmt = 0 then [view hiPart, view loPart] else [view id]

/-- The checksum and magnitude weights fixed at load for row `k` in a view. -/
def rowChecks (t : WSet) (view k : Nat) : BitVec 32 × BitVec 32 := (((t.chk[view]?).getD [])[k]?).getD (0, 0)

/-- Put a loaded set in place, its checksum weights formed (R172), and make it current. An FP32 tile occupies both sets (R185). -/
def installSet (c : CoreId) (q sel : Nat) (t : WSet) (s : State) : State :=
  let t := { t with nonfinite := setNonfinite t, chk := setChecks t }
  modArray c (fun a =>
    let other := setKey q (1 - sel)
    let st := if fmtClass t.fmt = 0 then sput (setKey q 0) t (sdel (setKey q 1) a.sets)
      else
        let st := match sget other a.sets with
          | some u => if fmtClass u.fmt = 0 then sdel other a.sets else a.sets
          | none => a.sets
        sput (setKey q sel) t st
    { a with sets := st, curSet := some sel }) s

/-- Mark a set unloaded and current. -/
def unloadSet (c : CoreId) (q sel : Nat) (s : State) : State :=
  modArray c (fun a => { a with sets := sdel (setKey q sel) a.sets, curSet := some sel }) s

/-! ## WLOAD (R171, R212, R213, R229) -/

/-- Finish a load: read the scale lines, install the set, and trap when a line was uncorrectable. -/
def finishLoad (c : CoreId) (o : Op) (q sel : Nat) (t : WSet) (k : Nat) (ue : Bool) (s : State) : Start :=
  let r := shelfReadN c (lSc o.w0) (low32 o.c) 7 (wScaleLines t.fmt k) s
  if ue || r.2.1 then bankEcc c q 0 0 (unloadSet c q sel r.2.2)
  else .done (installSet c q sel { t with scale := scaleBytes r.1, poison := t.poison || anyPoison r.1 } r.2.2)

/-- The PE rows beyond a dense tile's reduction rows: zero weights (Table 14.5). -/
def zeroRows (f mode k nLen : Nat) : List (List (Option Nat)) := List.replicate (kLimit f mode - k) (List.replicate nLen (some 0))

/-- Dense mode. -/
def wloadDense (c : CoreId) (o : Op) (f q sel : Nat) (s : State) : Start :=
  let nLen := fld o.w1 15 9
  let k := fld o.w1 23 16
  let t := firstCode [runCheck s c (lSa o.w0) (low32 o.a) (tileLines f k),
    runCheck s c (lSc o.w0) (low32 o.c) (wScaleLines f k)]
  if t ≠ 0 then .trap t 0 s
  else
    let r := shelfReadN c (lSa o.w0) (low32 o.a) 7 (tileLines f k) s
    let bits := r.1.foldr (fun l acc => l.data.toNat + 2 ^ 512 * acc) 0
    finishLoad c o q sel
      { mode := 0, fmt := f, nLen := nLen, expand := 1, chk := [], scale := [], poison := anyPoison r.1, nonfinite := false,
        w := ((List.range k).map fun i => (List.range nLen).map fun n => some ((bits >>> weightBit f i n) % 2 ^ fmtBits f)) ++
          zeroRows f (s.core c).array.mode k nLen }
      k r.2.1 r.2.2

/-- Read a packed tile at a line of a shelf: its header and payload, or the trap code (R206, R212). -/
def readTile (c : CoreId) (sh line f port : Nat) (s : State) : (Nat × Option TileHdr × Nat × Bool × Bool) × State :=
  let t := runCheck s c sh line 1
  if t ≠ 0 then ((t, none, 0, false, false), s)
  else
    let h := shelfRead c sh line port s
    match parseHdr f (if fmtClass f = 3 then 128 else 64) (lineBytes h.1.data) with
    | none => (((if h.2.1 then trapBankEcc else trapTileFormat), none, 0, h.1.poison, h.2.1), h.2.2)
    | some hd =>
      let n := packedLines hd.bytes
      let t := runCheck s c sh line n
      if t ≠ 0 then ((t, none, 0, false, false), h.2.2)
      else
        let r := shelfReadN c sh line port n s
        ((0, some hd, payloadOf r.1, anyPoison r.1, r.2.1), r.2.2)

/-- Does a packed tile of a format begin at a line of a shelf? No instruction word says so of an input, and R199 leaves the shelf's
format field unchecked: a header that is valid for the format marks it (DEDUCED, log entry 15). -/
def tileAt (c : CoreId) (sh line f : Nat) (s : State) : Bool :=
  runCheck s c sh line 1 == 0 &&
    (let h := shelfRead c sh line 3 s
     !h.1.poison && (parseHdr f (rowElems f) (lineBytes h.1.data)).isSome)

/-- Packed and expanded modes. -/
def wloadPacked (c : CoreId) (o : Op) (f mode q sel : Nat) (s : State) : Start :=
  let pm := (s.core c).array.mode
  let r := readTile c (lSa o.w0) (low32 o.a) f 7 s
  match r.1.2.1 with
  | none => .trap r.1.1 0 r.2
  | some h =>
    let e := 8 / h.n
    let lim := if mode = 1 then peRows pm * e * (if fmtClass f = 3 then 2 else 1) else kLimit f pm
    if h.role ≠ 0 || (mode = 1 && h.pack ≠ 0) then .trap trapTileFormat 0 s
    else if h.rows > lim then .trap trapArrayShape 0 s
    else
      let t := runCheck s c (lSc o.w0) (low32 o.c) (wScaleLines f h.rows)
      if t ≠ 0 then .trap t 0 s
      else if h.pack = 0 && !codesOk f h.n h.nLen r.1.2.2.1 then .trap trapTileFormat 0 (unloadSet c q sel r.2)
      else
        let w := if h.pack = 0 then some (expandStruct f h.n h.nLen h.rows r.1.2.2.1) else expandVar f h r.1.2.2.1
        match w with
        | none => .trap trapTileFormat 0 s
        | some w =>
          let w := if mode = 1 then w
            else w.map (fun row => row.map fun e => some (e.getD 0)) ++ zeroRows f pm h.rows h.nLen
          finishLoad c o q sel
            { mode := mode, fmt := f, nLen := h.nLen, expand := e, chk := [], scale := [], poison := r.1.2.2.2.1,
              nonfinite := false, w := w } h.rows r.1.2.2.2.2 r.2

/-- Bytes of a structured tile that hold the chunks of groups 8q to 8q + 7, from the tile's first byte on: first and count (R207,
R213). -/
def sliceBytes (f n q : Nat) : Nat × Nat :=
  match chunkBytes f with
  | none => (16, 0)
  | some (cb, vb) =>
    let j := (if fmtClass f = 3 then 2 else 1)
    (16 + (cb + vb) * (8 * n * q / j), (cb + vb) * (8 * n / j))

/-- A tile of a training set: its header, and the lines of its chunks of groups 8q to 8q + 7 as a payload in which the other
chunks are absent. -/
structure TileSlice where
  hdr    : TileHdr
  bits   : Nat
  poison : Bool
  ue     : Bool
deriving DecidableEq, Repr

/-- Read one forward tile for a slice: its header, and the lines that hold the slice (R213). -/
def readSlice (c : CoreId) (sh line f q : Nat) (s : State) : (Nat × Option TileSlice) × State :=
  let t := runCheck s c sh line 1
  if t ≠ 0 then ((t, none), s)
  else
    let h := shelfRead c sh line 7 s
    match parseHdr f (rowElems f) (lineBytes h.1.data) with
    | none => ((if h.2.1 then trapBankEcc else trapTileFormat, none), h.2.2)
    | some hd =>
      let t := runCheck s c sh line (packedLines hd.bytes)
      if t ≠ 0 then ((t, none), h.2.2)
      else
        let p := sliceBytes f hd.n q
        let l0 := p.1 / 64
        let r := shelfReadN c sh (line + l0) 7 (cdiv (p.1 + p.2) 64 - l0) h.2.2
        let bits := (r.1.foldr (fun l acc => l.data.toNat + 2 ^ 512 * acc) 0) <<< (512 * l0) >>> 128
        ((0, some ⟨hd, bits, h.1.poison || anyPoison r.1, h.2.1 || r.2.1⟩), r.2.2)

/-- Read the tiles of a training set at a fixed stride. -/
def readTiles (c : CoreId) (sh f stride q : Nat) : Nat → Nat → State → (Nat × List TileSlice) × State
  | 0, _, s => ((0, []), s)
  | n + 1, line, s =>
    let r := readSlice c sh line f q s
    match r.1.2 with
    | none => ((r.1.1, []), r.2)
    | some h =>
      let x := readTiles c sh f stride q n (line + stride) r.2
      ((x.1.1, h :: x.1.2), x.2)

/-- The transposed load of R213: reduction over the set's columns, outputs at its reduction positions 64q to 64q + 63. -/
def wloadTransposed (c : CoreId) (o : Op) (f q sel : Nat) (s : State) : Start :=
  let slice := fld o.w1 29 27
  let pm := (s.core c).array.mode
  let r := readSlice c (lSa o.w0) (low32 o.a) f slice s
  match r.1.2 with
  | none => .trap r.1.1 0 r.2
  | some first =>
    let h := first.hdr
    let e := 8 / h.n
    if h.pack ≠ 0 then .trap trapTileFormat 0 s
    else if !h.transp then .trap trapTileTransp 0 s
    else if slice ≥ e then .trap trapRange 0 s
    else if peRows pm < 64 then .trap trapArrayShape 0 s
    else
      let ts := readTiles c (lSa o.w0) f (low32 o.n) slice e (low32 o.a) s
      let k := 64 * e
      if ts.1.1 ≠ 0 then .trap ts.1.1 0 s
      else if ts.1.2.any fun x => !x.hdr.transp then .trap trapTileTransp 0 s
      else if ts.1.2.any fun x => x.hdr.n != h.n || x.hdr.nLen != 64 || x.hdr.rows != k || x.hdr.pack != 0 then
        .trap trapTileFormat 0 s
      else
        let t := runCheck s c (lSc o.w0) (low32 o.c) (wScaleLines f k)
        if t ≠ 0 then .trap t 0 s
        else if ts.1.2.any fun x => !codesIn f h.n 64 x.bits (8 * h.n * slice) (8 * h.n) then
          .trap trapTileFormat 0 (unloadSet c q sel ts.2)
        else
          let at' (k n : Nat) : Option Nat :=
            let pl := ((ts.1.2[k / 64]?).map (·.bits)).getD 0
            let pos := 64 * slice + n
            (List.range h.n).findSome? fun i =>
              let v := structAt f pl (pos / 8 * h.n + i) (k % 64)
              if v.1 = pos % 8 then some v.2 else none
          finishLoad c o q sel
            { mode := 1, fmt := f, nLen := 64, expand := e, chk := [], scale := [], poison := ts.1.2.any (·.poison),
              nonfinite := false, w := (List.range k).map fun i => (List.range 64).map fun n => at' i n } k
            (ts.1.2.any (·.ue)) ts.2

/-- The active GATE_CFG of gate `g` of slot `k` (chapter 12). -/
def gateCfg (s : State) (k g : Nat) : Word := s.actReg (Reg.GATE_CFG + 0x200 * k + 8 * g)
/-- Groups a mask register loads, in order. -/
def gmGroups (g : GateMask) : List Nat := bitsSet 64 (g.act ||| g.shadow)
/-- Chunks of a mask register (R226). -/
def gmChunks (g : GateMask) : Nat := cdiv (gmGroups g).length 8

/-- A mask register, when it is valid for a gated WLOAD or drain (R228). -/
def gmValid (s : State) (c : CoreId) (m : Nat) : Option GateMask :=
  match sget m (s.core c).gm with
  | none => none
  | some g => if bitOf (gateCfg s (s.core c).slot g.gate) 0 then some g else none

/-- Does an earlier PRED_GATE to the register wait in the SPARSE queue (R228)? -/
def gmBusy (k : CoreSt) (m seq : Nat) : Bool :=
  (k.queues[4].any fun o => o.mn == .predGate && decide (o.seq < seq) && fld o.w1 19 18 == m) ||
    k.active.any fun a => a.op.mn == .predGate && fld a.op.w1 19 18 == m

/-- Lines per group of the group-major layout (Table 12.1). -/
def groupLines (f : Nat) : Nat := if fmtClass f = 1 then 16 else 8

/-- The bit of W[k][8g + c] within group g's run (Table 12.1). -/
def groupBit (f k c : Nat) : Nat :=
  match fmtClass f with
  | 1 => 512 * (k / 4) + 8 * (16 * (k % 4) + 2 * c)
  | 3 => 512 * (k / 16) + 8 * (8 * ((k % 16) / 2) + c) + 4 * (k % 2)
  | _ => 512 * (k / 8) + 8 * (8 * (k % 8) + c)

/-- Read the runs of a chunk's groups in list order. -/
def readGroups (c : CoreId) (sh line f : Nat) : List Nat → State → (List (List DLine) × Bool) × State
  | [], s => (([], false), s)
  | g :: gs, s =>
    let r := shelfReadN c sh (line + g * groupLines f) 7 (groupLines f) s
    let q := readGroups c sh line f gs r.2.2
    ((r.1 :: q.1.1, r.2.1 || q.1.2), q.2)

/-- Gated mode (R229). -/
def wloadGated (c : CoreId) (o : Op) (f q sel : Nat) (s : State) : Start :=
  let m := fld o.w1 31 30
  let chunk := fld o.w1 37 32
  if gmBusy (s.core c) m o.seq then .hold
  else if fmtClass f = 0 || fmtMx f then .trap trapFmt 0 s
  else match gmValid s c m with
  | none => .trap trapGateMask 0 s
  | some g =>
    if chunk ≥ gmChunks g then .trap trapGateMask 0 s
    else if tileAt c (lSa o.w0) (low32 o.a) f s then .trap trapTileFormat 0 s
    else
      let gs := ((gmGroups g).drop (8 * chunk)).take 8
      let t := firstCode (gs.map fun x => runCheck s c (lSa o.w0) (low32 o.a + x * groupLines f) (groupLines f))
      if t ≠ 0 then .trap t 0 s
      else
        let r := readGroups c (lSa o.w0) (low32 o.a) f gs s
        let k := kLimit f (s.core c).array.mode
        finishLoad c o q sel
          { mode := 3, fmt := f, nLen := 8 * gs.length, expand := 1, scale := [],
            poison := r.1.1.any anyPoison, nonfinite := false, chk := [],
            w := (List.range k).map fun i => (List.range (8 * gs.length)).map fun n =>
              some ((((r.1.1[n / 8]?).getD []).foldr (fun l acc => l.data.toNat + 2 ^ 512 * acc) 0 >>> groupBit f i (n % 8))
                % 2 ^ fmtBits f) } 0 r.1.2 r.2

/-- WLOAD. -/
def startWload (c : CoreId) (o : Op) (s : State) : Start :=
  let a := (s.core c).array
  let f := fld o.w1 4 0
  let sel := fld o.w1 6 5
  let mode := fld o.w1 8 7
  let q := fld o.w1 25 24
  if a.stopped then .hold
  else if !(upperZero o.a && upperZero o.c && upperZero o.n) || sel = 3 then .trap trapRange 0 s
  else if !arrayFmt f || (mode = 1 && fmtClass f = 0) then .trap trapFmt 0 s
  else if q ≥ partCount a.mode || (mode ≠ 1 && a.mode = 2 && fmtMx f && fmtClass f = 2) then .trap trapArrayShape 0 s
  else
    let set := (pickSet a sel true).getD 0
    if mode = 0 then
      if fld o.w1 15 9 = 0 || fld o.w1 15 9 > 64 || fld o.w1 23 16 > kLimit f a.mode then .trap trapArrayShape 0 s
      else wloadDense c o f q set s
    else if mode = 3 then wloadGated c o f q set s
    else if bitOf o.w1 26 then wloadTransposed c o f q set s
    else wloadPacked c o f mode q set s

/-! ## Input rows -/

/-- A dense input row: its element bits, its block scales, and what its lines were like. -/
structure DRow where
  els    : List Nat
  sc     : List Nat
  poison : Bool
  ue     : Bool
deriving DecidableEq, Repr, Inhabited

/-- The scale line and first byte of dense row `d` (Table 10.3). -/
def inScale (f d : Nat) : Nat × Nat := if fmtClass f = 3 then (d / 16, 4 * (d % 16)) else (d / 32, 2 * (d % 32))

/-- Scale lines of `n` dense input rows. -/
def inScaleLines (f n : Nat) : Nat := if fmtMx f then (if fmtClass f = 3 then cdiv n 16 else cdiv n 32) else 0

/-- The port on which MMS reads a line (R216): port 3, or one of ports 5, 8 and 2 that SPARSE_CFG lends. Which of them is free in
the line's cycle is a matter of timing: a free value (log entry 147). -/
def linePort (c : CoreId) (mms : Bool) (s : State) : Nat :=
  let v := s.reg (coreOff Reg.SPARSE_CFG c)
  let ps := 3 :: ((if bitOf v 0 then [5] else []) ++ (if bitOf v 1 then [8] else []) ++ (if bitOf v 2 then [2] else []))
  if mms then (ps[(s.free 71 8).toNat % ps.length]?).getD 3 else 3

/-- Read dense input row `d` counted from a line of a shelf, with its scale from the C operand. -/
def readDense (c : CoreId) (o : Op) (sh line f mode d : Nat) (packed mms : Bool) (s : State) : DRow × State :=
  let p := inputLines f mode packed d
  let r := shelfReadN c sh (line + p.1) (linePort c mms s) p.2 s
  let bits := r.1.foldr (fun l acc => l.data.toNat + 2 ^ 512 * acc) 0 >>> (inputBit f mode packed d 0 - 512 * p.1)
  let els := (List.range (rowElems f)).map fun k => (bits >>> (fmtBits f * k)) % 2 ^ fmtBits f
  if fmtMx f then
    let sp := inScale f d
    let q := shelfRead c (lSc o.w0) (low32 o.c + sp.1) (linePort c mms r.2.2) r.2.2
    (⟨els, (List.range 4).map fun h => byteOf q.1.data (sp.2 + h), anyPoison r.1 || q.1.poison, r.2.1 || q.2.1⟩, q.2.2)
  else (⟨els, [], anyPoison r.1, r.2.1⟩, r.2.2)

/-- Read consecutive dense rows. -/
def readDenses (c : CoreId) (o : Op) (sh line f mode : Nat) (packed mms : Bool) : Nat → Nat → State → List DRow × State
  | 0, _, s => ([], s)
  | n + 1, d, s =>
    let r := readDense c o sh line f mode d packed mms s
    let q := readDenses c o sh line f mode packed mms n (d + 1) r.2
    (r.1 :: q.1, q.2)

/-- Element `k` of an input row of several dense rows. -/
def xBits (f : Nat) (rs : List DRow) (k : Nat) : Nat :=
  ((((rs[k / rowElems f]?).getD default).els)[k % rowElems f]?).getD 0
/-- Its value, the block scale applied. -/
def xVal (f : Nat) (rs : List DRow) (k : Nat) : FVal :=
  let v := ofElem f (xBits f rs k)
  if fmtMx f then fmul v (e8m0 (((((rs[k / rowElems f]?).getD default).sc)[k % rowElems f / 32]?).getD 0)) else v
/-- Its integer value. -/
def xInt (f : Nat) (rs : List DRow) (k : Nat) : Int := intElem f (xBits f rs k)

/-! ## Accumulator rows (R176, R177) -/

/-- The class an accumulator row remembers for its test (R180): 0 FP32, 1 16-bit, 2 8-bit or 4-bit, 4 integer. -/
def testClass (f : Nat) : Nat := if fmtInt f then 4 else if fmtClass f = 3 then 2 else fmtClass f

/-- The bank's vectors. -/
def bankOf (a : ArraySt) (b : Nat) : Option BankInit := if b = 0 then a.bank0 else a.bank1

/-- An accumulator row that nothing has initialised since reset or abort holds no defined value (R189): free values. -/
def accFree (v : BitVec 2118) : AccRow :=
  { lanes := (List.range 64).map fun j => v.extractLsb' (32 * j) 32, chk := v.extractLsb' 2048 32,
    mag := v.extractLsb' 2080 32, pending := v.getLsbD 2112, poison := v.getLsbD 2113, touched := v.getLsbD 2114,
    cls := fld v 2117 2115 }

/-- Sum of lanes in lane order. -/
def laneSum (isInt : Bool) (ls : List (BitVec 32)) : BitVec 32 := ls.foldl (laneAdd isInt) 0

/-- The magnitude lane of an initial vector: the sum of its absolute values (R177). -/
def magSum (isInt : Bool) (ls : List (BitVec 32)) : BitVec 32 :=
  laneSum isInt (ls.map fun x => if isInt then (if x.slt 0 then -x else x) else x &&& 0x7FFFFFFF#32)

/-- A row that ACC_INIT has set and nothing has updated: it holds the vectors of its bank (R177, R178). -/
def pendingRow (b : BankInit) (r : AccRow) : AccRow :=
  { r with lanes := b.init, chk := laneSum b.isInt b.init, mag := magSum b.isInt b.init, poison := r.poison || b.poison,
           cls := if b.isInt then 4 else 0 }

/-- The row that ACC_INIT writes: pending, its poison clear; its lanes are the bank's. -/
def accInitRow : AccRow :=
  { lanes := List.replicate 64 0, chk := 0, mag := 0, pending := true, poison := false, touched := false, cls := 0 }

/-- Store an accumulator row. -/
def accPut (c : CoreId) (b r : Nat) (a : AccRow) (s : State) : State :=
  modArray c (fun x => { x with acc := sput (1024 * b + r) a x.acc }) s

/-- The stored accumulator row `r` of bank `b`. -/
def accStored (c : CoreId) (b r : Nat) (s : State) : AccRow × State :=
  match sget (1024 * b + r) (s.core c).array.acc with
  | some x => (x, s)
  | none => (accFree (s.free 4 2118), s.drawn)

/-- Accumulator row `r` of bank `b` as an operation reads it. An uncorrectable error sets its poison flag and is recorded with
cause ARRAY_CHECK (R176); in a partition in trap mode the operation then ends in the trap of Table 9.3. -/
def accGet (c : CoreId) (b r : Nat) (s : State) : AccRow × State :=
  let g := accStored c b r s
  let a := (g.2.core c).array
  let hit := a.upsets.contains (1024 * b + r)
  let row := if hit then { g.1 with poison := true } else g.1
  let s := if hit then
      let q := partOfRow a.mode r
      let s := modArray c (fun x => { x with upsets := x.upsets.filter (· != 1024 * b + r),
                                             failed := x.failed || !(x.contain.testBit q) }) g.2
      accPut c b r row (partFault c q 0 r b s)
    else g.2
  (match row.pending, bankOf a b with
   | true, some v => pendingRow v row
   | _, _ => row, s)

/-- One update of a row (R176, R181, R188). -/
def accAdd (isInt : Bool) (nLen cls : Nat) (y : Nat → BitVec 32) (chk mag : BitVec 32) (poison : Bool) (a : AccRow) : AccRow :=
  { a with
    lanes := a.lanes.mapIdx (fun n v => if n < nLen then laneAdd isInt v (y n) else v),
    chk := laneAdd isInt a.chk chk, mag := if isInt then a.mag else f32add a.mag mag,
    pending := false, poison := a.poison || poison, touched := true, cls := cls }

/-! ## Products -/

/-- What a product does with each row: passes over input and weights, and the accumulator rows they go to. -/
structure Prod where
  f     : Nat
  b     : Nat
  q     : Nat
  kLen  : Nat
  nLen  : Nat
  dense : Nat
  kind  : Nat
  half  : Nat
  mms   : Bool
  w0    : WSet
  w1    : WSet
deriving DecidableEq, Repr

/-- One pass of a row: the input's dense rows, a view of the inputs and of the weights with the view's number among the set's
checksum weights, the sign, the row offset. -/
def passRow (c : CoreId) (p : Prod) (xs : List DRow) (fx fw : FVal → FVal) (view : Nat) (neg : Bool) (t : WSet) (r : Nat)
    (poison : Bool) (s : State) : State :=
  let isInt := fmtInt p.f
  let g := accGet c p.b r s
  if p.kLen = 0 then
    if g.1.pending then
      accPut c p.b r { g.1 with pending := false, touched := true, cls := testClass p.f, poison := g.1.poison || poison } g.2
    else g.2
  else
    let term (k n : Nat) : Option (BitVec 32) := (wBits t k n).map fun _ =>
      peProduct isInt neg (fx (xVal p.f xs k)) (fw (wVal t k n)) (xInt p.f xs k) (wInt t k n)
    let chkT (k : Nat) : Option (BitVec 32) :=
      let sk := (rowChecks t view k).1
      some (if isInt then (if neg then -(BitVec.ofInt 32 (xInt p.f xs k) * sk) else BitVec.ofInt 32 (xInt p.f xs k) * sk)
        else peProduct false neg (fx (xVal p.f xs k)) (f32 sk) 0 0)
    let magT (k : Nat) : Option (BitVec 32) := some (productLane (fmul (fabs (fx (xVal p.f xs k))) (f32 (rowChecks t view k).2)))
    accPut c p.b r (accAdd isInt p.nLen (testClass p.f) (fun n => colSum isInt p.kLen fun k => term k n)
      (colSum isInt p.kLen chkT) (if isInt then 0 else colSum false p.kLen magT) poison g.1) g.2

/-- All passes of one input row into accumulator row `r` (R169, R185, R186, R214). Kind 0 plain, 1 FP32 three-pass,
2 complex. The first cause that holds is recorded: an uncorrectable line before the poison it is delivered with (R183). -/
def rowPasses (c : CoreId) (p : Prod) (xs : List DRow) (r : Nat) (s : State) : State :=
  let inP := xs.any (·.poison)
  let poison := inP || p.w0.poison || (p.kind == 2 && p.w1.poison)
  let s := if xs.any (·.ue) then partFault c p.q 3 r p.b s
    else if inP then partFault c p.q 1 r p.b s else if poison then partFault c p.q 2 r p.b s else s
  let go := passRow c p
  let s := match p.kind with
    | 0 => go xs id id 0 false p.w0 r poison s
    | 1 =>
      let s := go xs hiPart hiPart 0 false p.w0 r poison s
      let s := go xs hiPart loPart 1 false p.w0 r poison s
      go xs loPart hiPart 0 false p.w0 r poison s
    | _ =>
      let re := xs.take 1
      let im := xs.drop 1
      let s := go re id id 0 false p.w0 r poison s
      let s := go im id id 0 true p.w1 r poison s
      let s := go re id id 0 false p.w1 (r + p.half) poison s
      go im id id 0 false p.w0 (r + p.half) poison s
  bumpC c Reg.ARRAY_ROW_CNT s

/-- How a product's row run ended: a data-decided trap code, whether a line was uncorrectable, the state. -/
abbrev RunEnd := Nat × Bool × State

/-- The rows of an ungathered product: row `i` into r0 + (i mod span) (R275). -/
def runRows (c : CoreId) (o : Op) (p : Prod) (packed : Bool) (r0 span : Nat) : Nat → Nat → Bool → State → RunEnd
  | 0, _, ue, s => (0, ue, s)
  | n + 1, i, ue, s =>
    let mode := (s.core c).array.mode
    let r := readDenses c o (lSa o.w0) (low32 o.a) p.f mode packed p.mms p.dense (p.dense * i) s
    let s := rowPasses c p r.1 (r0 + i % span) r.2
    runRows c o p packed r0 span n (i + 1) (ue || r.1.any (·.ue)) s

/-- The rows of MM over a packed operand tile: all-zero rows are skipped when SPARSE_CFG allows it (R221). -/
def runPacked (c : CoreId) (o : Op) (p : Prod) (poison : Bool) (r0 span : Nat) :
    List (List Nat × Bool) → Nat → Bool → State → RunEnd
  | [], _, ue, s => (0, ue, s)
  | (els, zero) :: rest, i, ue, s =>
    if zero && bitOf (s.reg (coreOff Reg.SPARSE_CFG c)) 3 && !p.w0.nonfinite then
      runPacked c o p poison r0 span rest (i + 1) ue (bumpC c Reg.ZERO_ROW_SKIP s)
    else
      let sp := inScale p.f i
      let q := if fmtMx p.f then shelfRead c (lSc o.w0) (low32 o.c + sp.1) 3 s else (⟨0, false⟩, false, s)
      let d : DRow := ⟨els, (List.range 4).map fun h => byteOf q.1.data (sp.2 + h), poison || q.1.poison, q.2.1⟩
      runPacked c o p poison r0 span rest (i + 1) (ue || q.2.1) (rowPasses c p [d] (r0 + i % span) q.2.2)

/-- The records of one line of a gathered product (R173, R275): fillers are skipped, a record whose out_pos is not below
n_out is counted and skipped, and every row is checked when it is read (R266). -/
def runRecs (c : CoreId) (o : Op) (p : Prod) (r0 nOut : Nat) (d : DLine) : List Nat → Nat → Bool → State → Nat × RunEnd
  | [], left, ue, s => (left, 0, ue, s)
  | j :: js, left, ue, s =>
    if left = 0 then (0, 0, ue, s)
    else
      let rec' := bitsAt d.data (32 * j) 32
      if rec' = 0xFFFFFFFF then runRecs c o p r0 nOut d js left ue s
      else if (rec' / 2 ^ 20) % 1024 ≥ nOut then
        runRecs c o p r0 nOut d js (left - 1) ue (bumpC c Reg.MMG_REC_SKIP s)
      else
        let i := (rec' % 2 ^ 20 + 2 ^ 32 - low32 o.b) % 2 ^ 32
        let mode := (s.core c).array.mode
        let ln (d : Nat) := inputLines p.f mode false d
        let t := firstCode ((List.range p.dense).flatMap fun e =>
          [runCheck s c (lSb o.w0) (ln (p.dense * i + e)).1 (ln (p.dense * i + e)).2,
           if fmtMx p.f then runCheck s c (lSc o.w0) (low32 o.c + (inScale p.f (p.dense * i + e)).1) 1 else 0])
        if t ≠ 0 then (left, t, ue, s)
        else
          let r := readDenses c o (lSb o.w0) 0 p.f mode false p.mms p.dense (p.dense * i) s
          let rows := if d.poison then r.1.map fun x => { x with poison := true } else r.1
          let s := rowPasses c p rows (r0 + (rec' / 2 ^ 20) % 1024) r.2
          runRecs c o p r0 nOut d js (left - 1) (ue || rows.any (·.ue)) s

/-- The record lines of a gathered product; the operation runs to its end past an uncorrectable one (R183). -/
def runSegment (c : CoreId) (o : Op) (p : Prod) (r0 nOut : Nat) : Nat → Nat → Nat → Bool → State → RunEnd
  | 0, _, _, ue, s => (0, ue, s)
  | fuel + 1, line, left, ue, s =>
    if left = 0 then (0, ue, s)
    else
      let t := runCheck s c (lSa o.w0) line 1
      if t ≠ 0 then (t, ue, s)
      else
        let l := shelfRead c (lSa o.w0) line 7 s
        let s := if l.2.1 then partFault c p.q 3 r0 p.b l.2.2 else l.2.2
        let r := runRecs c o p r0 nOut l.1 (List.range 16) left (ue || l.2.1) s
        if r.2.1 ≠ 0 then r.2 else runSegment c o p r0 nOut fuel (line + 1) r.1 r.2.2.1 r.2.2.2

/-- Formats a complex product takes (Table 9.3). -/
def complexFmt (f : Nat) : Bool := f == 12 || f == 3 || f == 4 || f == 11 || f == 1 || f == 2

/-- The largest number of record lines a shelf can hold, as fuel. -/
def segFuel (s : State) (c : CoreId) (o : Op) : Nat := seLen (shelfEnt s c (lSa o.w0)) + 1

/-- Has the running operation failed a check in a partition in trap mode (R183)? -/
def arrayFailed (s : State) (c : CoreId) : Bool := (s.core c).array.failed

/-- The trap of an operation that failed: ARRAY_CHECK, and no later array operation starts (R183). -/
def checkTrap (c : CoreId) (s : State) : Start :=
  .trap trapArrayCheck 0 (modArray c (fun a => { a with failed := false, stopped := true }) s)

/-- End a product. -/
def endProduct (c : CoreId) (p : Prod) (r0 : Nat) (n : Nat) (e : RunEnd) : Start :=
  let s := if p.kLen = 0 && n ≠ 0 then e.2.2.setF (coreOff Reg.ARRAY_STAT c) 8 8 1 else e.2.2
  if e.2.1 then bankEcc c p.q r0 p.b s
  else if e.1 ≠ 0 then .trap e.1 0 s
  else if arrayFailed s c then checkTrap c s
  else .done s

/-- The code of the first check of a product's operands and formats that fails, 0 for none (R169, R185, R187, R266). -/
def productArgs (o : Op) (kind : Nat) (g : Bool) : Nat :=
  let f := fld o.w1 4 0
  if !(upperZero o.a && upperZero o.c && upperZero o.n) || (g && !(upperZero o.b && upperZero o.d)) ||
      fld o.w1 6 5 = 3 || fld o.w1 8 7 = 3 then trapRange
  else if !arrayFmt f || (kind = 1 && f ≠ 0) || ((kind = 0 || kind = 3) && f = 0) || (kind = 3 && bitOf o.w1 39) then trapFmt
  else if kind = 2 && !complexFmt f then trapArrayShape
  else 0

/-- Accumulator rows a product may use from its first row on. -/
def productSpan (o : Op) (g : Bool) : Nat := if g then low32 o.d else fld o.w1 49 40 + 1

/-- Does a product leave its partition's rows or the array's shape (R170, R176)? -/
def productWide (a : ArraySt) (o : Op) (kind : Nat) (g : Bool) : Bool :=
  let f := fld o.w1 4 0
  let q := fld o.w1 38 37
  let rows := accRowsOf a.mode
  q ≥ partCount a.mode || fld o.w1 36 30 > 64 || low32 o.n > (if g then 1024 else 1048575) || fld o.w1 18 9 < q * rows ||
    fld o.w1 18 9 + productSpan o g > q * rows + (if kind = 2 then rows / 2 else rows) ||
    (kind ≠ 3 && fld o.w1 29 19 > kLimit f a.mode) || (kind ≠ 3 && a.mode = 2 && fmtMx f && fmtClass f = 2)

/-- The weight sets of a product: two for a complex one. -/
def productSets (a : ArraySt) (o : Op) (kind : Nat) : Option (WSet × WSet) :=
  let q := fld o.w1 38 37
  let set := pickSet a (fld o.w1 6 5) false
  match set.bind fun x => sget (setKey q (if kind = 1 || kind = 2 then 0 else x)) a.sets with
  | none => none
  | some w0 => if kind = 2 then (sget (setKey q 1) a.sets).map fun w1 => (w0, w1) else some (w0, w0)

/-- Does an MMP name a gated set (R229)? A complex one names both sets. -/
def namesGated (a : ArraySt) (o : Op) (kind : Nat) : Bool :=
  let q := fld o.w1 38 37
  let gated (x : Nat) : Bool := match sget (setKey q x) a.sets with
    | some w => w.mode == 3
    | none => false
  (kind == 1 || kind == 2) && ((pickSet a (fld o.w1 6 5) false).any gated || (kind == 2 && (gated 0 || gated 1)))

/-- The code of the first check of a product against its weight sets that fails, 0 for none (R170, R214). -/
def productFit (a : ArraySt) (o : Op) (kind : Nat) (w0 w1 : WSet) : Nat :=
  let f := fld o.w1 4 0
  let nLen := w0.nLen
  let lim := if kind = 3 then peRows a.mode * w0.expand * (if fmtClass f = 3 then 2 else 1) else kLimit f a.mode
  if (fld o.w1 36 30 ≠ 0 && fld o.w1 36 30 ≠ nLen) || w1.nLen ≠ nLen || fld o.w1 29 19 > lim then trapArrayShape
  else if kind = 2 && !(complexFmt w0.fmt && complexFmt w1.fmt) then trapArrayShape
  else if fmtClass w0.fmt ≠ fmtClass f || fmtFloat w0.fmt ≠ fmtFloat f || fmtClass w1.fmt ≠ fmtClass f ||
      fmtFloat w1.fmt ≠ fmtFloat f then trapFmt
  else if (kind = 3 && w0.mode ≠ 1) || (kind ≠ 3 && (w0.mode = 1 || w1.mode = 1)) ||
      ((kind = 1 || kind = 2) && (w0.mode = 3 || w1.mode = 3)) then trapArrayShape
  else 0

/-- A product as its rows are formed. -/
def productOf (a : ArraySt) (o : Op) (kind b : Nat) (w0 w1 : WSet) : Prod :=
  ⟨fld o.w1 4 0, b, fld o.w1 38 37, fld o.w1 29 19, w0.nLen, if kind = 3 then w0.expand else if kind = 2 then 2 else 1,
    if kind = 3 then 0 else kind, accRowsOf a.mode / 2, kind == 3, w0, w1⟩

/-- The rows of an input tile, none when its payload is malformed (R219). -/
def tileRows (f : Nat) (h : TileHdr) (bits : Nat) : Option (List (List Nat × Bool)) :=
  if h.dense then some ((List.range h.rows).map fun i => ((List.range (rowElems f)).map fun k =>
    (bits >>> inputBit f 0 false i k) % 2 ^ fmtBits f, false))
  else match varRows f bits h.rows 0 with
    | some (rs, e) => if e = 8 * h.bytes then some rs else none
    | none => none

/-- A dense product on a packed input tile (R199, R219). -/
def productTile (c : CoreId) (o : Op) (g : Bool) (p : Prod) (s : State) : Start :=
  let n := low32 o.n
  let r0 := fld o.w1 18 9
  let t := readTile c (lSa o.w0) (low32 o.a) p.f 3 s
  match t.1.2.1 with
  | none => .trap t.1.1 0 t.2
  | some h =>
    let t2 := runCheck s c (lSc o.w0) (low32 o.c) (inScaleLines p.f n)
    if h.role ≠ 1 then .trap trapTileFormat 0 s
    else if n > h.rows then .trap trapArrayShape 0 s
    else if t2 ≠ 0 then .trap t2 0 s
    else match tileRows p.f h t.1.2.2.1 with
      | none => .trap trapTileFormat 0 t.2
      | some rs => endProduct c p r0 n
          (runPacked c o p t.1.2.2.2.1 r0 (productSpan o g) (rs.take n) 0 t.1.2.2.2.2 t.2)

/-- A product whose checks have passed: on gathered rows, on an input tile, or on consecutive rows. -/
def productRun (c : CoreId) (o : Op) (kind : Nat) (g : Bool) (p : Prod) (s : State) : Start :=
  let n := low32 o.n
  let r0 := fld o.w1 18 9
  let mode := (s.core c).array.mode
  let tile := (kind == 0 || kind == 3) &&
    (if g then tileAt c (lSb o.w0) 0 p.f s else tileAt c (lSa o.w0) (low32 o.a) p.f s)
  if n = 0 then .done s
  else if tile && (g || kind == 3) then .trap trapTileFormat 0 s
  else if g then endProduct c p r0 n (runSegment c o p r0 (productSpan o g) (segFuel s c o) (low32 o.a) n false s)
  else if tile then productTile c o g p s
  else
    let packed := p.dense == 1 && rowsPacked p.f mode
    let last := inputLines p.f mode packed (p.dense * n - 1)
    let t := firstCode [runCheck s c (lSa o.w0) (low32 o.a) (last.1 + last.2),
      runCheck s c (lSc o.w0) (low32 o.c) (inScaleLines p.f (p.dense * n))]
    if t ≠ 0 then .trap t 0 s
    else endProduct c p r0 n (runRows c o p packed r0 (productSpan o g) n 0 false s)

/-- A product (R169, R170, R185, R186, R199, R214, R275). `kind` 0 dense, 1 FP32, 2 complex, 3 structured; `g` gathered. -/
def startProduct (c : CoreId) (o : Op) (kind : Nat) (g : Bool) (s : State) : Start :=
  let a := (s.core c).array
  let t := productArgs o kind g
  if a.stopped then .hold
  else if t ≠ 0 then .trap t 0 s
  else match pickBank a (fld o.w1 8 7) false with
  | none => .trap trapArrayShape 0 s
  | some b =>
    if productWide a o kind g || namesGated a o kind then .trap trapArrayShape 0 s
    else match productSets a o kind with
    | none => .trap trapNoWeight 0 s
    | some w =>
      let u := productFit a o kind w.1 w.2
      if u ≠ 0 then .trap u 0 s else productRun c o kind g (productOf a o kind b w.1 w.2) s

/-- MM. -/
def startMm (c : CoreId) (o : Op) (s : State) : Start := startProduct c o 0 false s
/-- MMG. -/
def startMmg (c : CoreId) (o : Op) (s : State) : Start := startProduct c o 0 true s
/-- MMS: its rows are counted in MMS_ROW_CNT as well. -/
def startMms (c : CoreId) (o : Op) (s : State) : Start :=
  let before := (s.reg (coreOff Reg.ARRAY_ROW_CNT c)).toNat % 2 ^ 48
  let add (t : State) : State := bumpN (coreOff Reg.MMS_ROW_CNT c) ((t.reg (coreOff Reg.ARRAY_ROW_CNT c)).toNat % 2 ^ 48 - before) t
  match startProduct c o 3 (lOptB o.w0 0) s with
  | .done t => .done (add t)
  | .trap k x t => .trap k x (add t)
  | r => r
/-- MMP. -/
def startMmp (c : CoreId) (o : Op) (s : State) : Start :=
  startProduct c o (if bitOf o.w1 39 then 2 else 1) (lOptB o.w0 0) s

/-! ## ACC_INIT, ACC_DRAIN, PART -/

/-- 64 lanes of four lines. -/
def fourLines (ls : List DLine) : List (BitVec 32) := ls.flatMap fun l => (List.range 16).map (half32 l.data)

/-- ACC_INIT (R177, R276). -/
def startAccInit (c : CoreId) (o : Op) (s : State) : Start :=
  let a := (s.core c).array
  let n := low32 o.n
  let r0 := fld o.w1 11 2
  let isInt := bitOf o.w1 12
  if a.stopped then .hold
  else if !(upperZero o.a && upperZero o.b && upperZero o.n) || fld o.w1 1 0 = 3 then .trap trapRange 0 s
  else if n > 1024 || r0 + n > 1024 then .trap trapArrayShape 0 s
  else
    let b := (pickBank a (fld o.w1 1 0) true).getD 0
    let t := firstCode [runCheck s c (lSa o.w0) (low32 o.a) (if lOptB o.w0 0 then 4 else 0),
      runCheck s c (lSb o.w0) (low32 o.b) (if lOptB o.w0 1 then 4 else 0)]
    if t ≠ 0 then .trap t 0 s
    else
      let i := shelfReadN c (lSa o.w0) (low32 o.a) 3 (if lOptB o.w0 0 then 4 else 0) s
      let v := shelfReadN c (lSb o.w0) (low32 o.b) 3 (if lOptB o.w0 1 then 4 else 0) i.2.2
      let bi : BankInit := ⟨isInt, if lOptB o.w0 0 then fourLines i.1 else List.replicate 64 0,
        if lOptB o.w0 1 then fourLines v.1 else List.replicate 64 0x3F800000#32, anyPoison i.1 || anyPoison v.1⟩
      let s := modArray c (fun a =>
        let a := if b = 0 then { a with bank0 := some bi } else { a with bank1 := some bi }
        { a with curBank := some b, acc := loopN n (fun j st => sput (1024 * b + r0 + j) accInitRow st) a.acc }) v.2.2
      if i.2.1 || v.2.1 then bankEcc c (partOfRow a.mode (r0 % 1024)) r0 b s else .done s

/-- The tolerance exponent of a class (ARRAY_CHK_TOL, R180): values below 4 act as 4, above 23 as 23. -/
def chkTol (s : State) (c : CoreId) (cls : Nat) : Nat :=
  let v := s.reg (coreOff Reg.ARRAY_CHK_TOL c)
  max 4 (min 23 (if cls = 0 then fld v 20 16 else if cls = 1 then fld v 12 8 else fld v 4 0))

/-- The checksum test of a row (R180): passed, and whether it was skipped as non-finite. -/
def chkTest (s : State) (c : CoreId) (r : AccRow) : Bool × Bool :=
  if r.cls = 4 then (laneSum true r.lanes == r.chk, false)
  else
    let sum := r.lanes.foldl (fun a l => froundF64 (fadd a (f32 l))) (.fin false 0 0)
    if !(ffinite sum && ffinite (f32 r.chk) && ffinite (f32 r.mag)) then (true, true)
    else
      let d := fabs (froundF64 (fadd sum (fneg (f32 r.chk))))
      let t := fmul (f32 r.mag) (.fin false 1 (-(chkTol s c r.cls : Int)))
      (!flt t d, false)

/-- A lane scaled by the bank's scale vector: an integer lane keeps its exact value under a scale of 1.0 (log entry 17). -/
def scaleLane (isInt : Bool) (l sc : BitVec 32) : FVal :=
  let v := if isInt then fofInt l.toInt else f32 l
  if sc = 0x3F800000#32 then v else f32 (laneOf (fmul (if isInt then f32 (laneOf v) else v) (f32 sc)))

/-- The ReLU of the drain. -/
def relu (on : Bool) (v : FVal) : FVal := if on && flt v (.fin false 0 0) then .fin false 0 0 else v

/-- A row's lanes scaled and with the ReLU applied. -/
def drainVals (bi : Option BankInit) (isInt on : Bool) (lanes : List (BitVec 32)) : List FVal :=
  lanes.mapIdx fun n l => relu on (scaleLane isInt l ((bi.bind fun b => b.scale[n]?).getD 0x3F800000#32))

/-- Count conversion outcomes on a core (R197). -/
def countConv (c : CoreId) (k : ConvCount) (s : State) : State :=
  bumpN (coreOff Reg.FMT_NAN_CNT c) k.nan (bumpN (coreOff Reg.FMT_UNDERFLOW_CNT c) k.under
    (bumpN (coreOff Reg.FMT_SAT_CNT c) k.sat s))

/-- Split a list into pieces of 32. -/
def chunks32 {α : Type} : Nat → List α → List (List α)
  | 0, _ => []
  | n + 1, l => l.take 32 :: chunks32 n (l.drop 32)

/-- Values converted to a format: the elements, the block scales and the counts (R196, R197). -/
def convVals (f : Nat) (vs : List FVal) : List Nat × List Nat × ConvCount :=
  if fmtMx f then
    let bs := (chunks32 (cdiv vs.length 32) vs).map fun b => mxBlock f (b ++ List.replicate (32 - b.length) (.fin false 0 0))
    ((bs.flatMap fun b => b.2.1).take vs.length, bs.map (·.1), bs.foldl (fun k b => k.plus b.2.2) .zero)
  else
    let rs := vs.map (toElem f)
    (rs.map (·.1), [], rs.foldl (fun k r => k.plus r.2) .zero)

/-- Elements packed into a bit string. -/
def packEls (b : Nat) (els : List Nat) : Nat := els.foldr (fun e acc => e % 2 ^ b + 2 ^ b * acc) 0

/-- Test an accumulator row for a drain (R178, R180, R181): the row, whether it is written poisoned, whether its failure
traps, the state with counters and fault context. -/
def drainTest (c : CoreId) (b r : Nat) (s : State) : AccRow × Bool × Bool × State :=
  let g := accGet c b r s
  let a := (s.core c).array
  let q := partOfRow a.mode r
  let s := if g.1.poison then bumpC c Reg.ARRAY_POISON_ROWS g.2 else g.2
  if g.1.pending then (g.1, g.1.poison, false, s)
  else
    let t := chkTest s c g.1
    let s := if t.2 then bumpC c Reg.ARRAY_CHK_SKIP s else s
    if t.1 then (g.1, g.1.poison, false, s)
    else (g.1, true, !(a.contain.testBit q), partFault c q 0 r b (bumpC c Reg.ARRAY_CHECK_CNT s))

/-- Lines of a destination of `n` drained rows (R178, R195, Table 9.2): rows follow one another, two 4-bit rows a line, four
6-bit rows in three lines. -/
def drainLines (f n : Nat) : Nat := if fmt6 f then 3 * cdiv n 4 else cdiv (64 * fmtBits f * n) 512

/-- Write a bit string as lines of a shelf. -/
def writeBits (c : CoreId) (sh line n bits : Nat) (poison : Nat → Bool) (s : State) : State :=
  shelfWriteN c sh line ((linesOfNat n bits).mapIdx fun i d => ⟨d, poison i⟩) s

/-- Write `n` bits of a line from bit `lo` on, under R153: a line written in part is read and merged first. The flag says
that the line read was uncorrectable. -/
def writePart (c : CoreId) (sh line port lo n x : Nat) (poison : Bool) (s : State) : Bool × State :=
  if lo = 0 ∧ n = 512 then (false, shelfWrite c sh line ⟨BitVec.ofNat 512 x, poison⟩ s)
  else
    let r := shelfRead c sh line port s
    if r.2.1 then (true, r.2.2) else (false, shelfWrite c sh line ⟨putBits r.1.data lo n x, poison || r.1.poison⟩ r.2.2)

/-- Write `n` bits of consecutive lines from bit `lo` of the first on: whole lines as they are, lines in part merged. -/
def writeRange (c : CoreId) (sh port : Nat) (poison : Nat → Bool) : Nat → Nat → Nat → Nat → Nat → Nat → State → Bool × State
  | 0, _, _, _, _, _, s => (false, s)
  | fuel + 1, line, i, lo, n, x, s =>
    if n = 0 then (false, s)
    else
      let m := min n (512 - lo)
      let r := writePart c sh (line + i) port lo m x (poison i) s
      if r.1 then r else writeRange c sh port poison fuel line (i + 1) 0 (n - m) (x / 2 ^ m) r.2

/-- The rows of a drain: converted bits, scale bytes, which rows are poisoned and touched, whether one traps. -/
structure DrainSt where
  bits  : List Nat
  sc    : List (List Nat)
  bad   : List Bool
  touch : List Bool
  trap  : Bool
deriving DecidableEq, Repr

/-- Drain rows one by one (R178). -/
def drainRows (c : CoreId) (b f : Nat) (on : Bool) : Nat → Nat → DrainSt → State → DrainSt × State
  | 0, _, d, s => (d, s)
  | n + 1, r, d, s =>
    let t := drainTest c b r s
    let bi := bankOf (s.core c).array b
    let v := convVals f (drainVals bi (t.1.cls == 4) on t.1.lanes)
    let bad := t.2.1 || (match bi with | some x => x.poison | none => false)
    drainRows c b f on n (r + 1)
      { bits := d.bits ++ [packEls (fmtBits f) v.1], sc := d.sc ++ [v.2.1], bad := d.bad ++ [bad],
        touch := d.touch ++ [t.1.touched], trap := d.trap || t.2.2.1 }
      (countConv c v.2.2 t.2.2.2)

/-- Rows that a line of a drain's destination holds bits of: first and last. -/
def rowsOfLine (f i : Nat) : Nat × Nat := (512 * i / (64 * fmtBits f), (512 * i + 511) / (64 * fmtBits f))

/-- Scale lines of a drain: byte 2 × (r mod 32) + h of line r div 32 (Table 10.3). -/
def drainScaleLines (f n : Nat) : Nat := if fmtMx f then cdiv n 32 else 0

/-- ACC_DRAIN, plain form (R178, R276). -/
def drainPlain (c : CoreId) (o : Op) (b f : Nat) (s : State) : Start :=
  let n := low32 o.n
  let r0 := fld o.w1 16 7
  let bm := bitOf o.w1 18
  let lines := drainLines f n
  let t := firstCode [writeCheck s c o.seq (lSc o.w0) (low32 o.c) lines,
    writeCheck s c o.seq (lSa o.w0) (low32 o.a) (drainScaleLines f n),
    writeCheck s c o.seq (lSb o.w0) (low32 o.b) (if bm then cdiv n 512 else 0)]
  if t ≠ 0 then .trap t 0 s
  else
    let r := drainRows c b f (bitOf o.w1 17) n r0 ⟨[], [], [], [], false⟩ s
    let bad (i : Nat) : Bool := (r.1.bad[i]?).getD false
    let w := writeRange c (lSc o.w0) 4
      (fun i => let x := rowsOfLine f i; (List.range (x.2 + 1 - x.1)).any fun j => bad (x.1 + j)) (lines + 1) (low32 o.c) 0 0
      (if fmt6 f then 512 * lines else 64 * fmtBits f * n) (packEls (64 * fmtBits f) r.1.bits) r.2
    let v := writeRange c (lSa o.w0) 4 (fun i => (List.range 32).any fun j => bad (32 * i + j)) (n + 1) (low32 o.a) 0 0
      (if fmtMx f then 16 * n else 0) (packEls 16 (r.1.sc.map (packEls 8))) w.2
    let s := v.2
    let s := if bm then writeBits c (lSb o.w0) (low32 o.b) (cdiv n 512) (packEls 1 (r.1.touch.map b2n)) (fun _ => false) s else s
    if w.1 || v.1 then bankEcc c (partOfRow (s.core c).array.mode r0) r0 b s
    else if r.1.trap || arrayFailed s c then checkTrap c s
    else .done s

/-- PART (R182, R276). -/
def startPart (c : CoreId) (o : Op) (s : State) : Start :=
  let mode := fld o.w0 33 32
  if (s.core c).array.stopped then .hold
  else if mode = 3 then .trap trapRange 0 s
  else .done (s.modCore c fun k => { k with gm := [], array := { k.array with
    mode := mode, contain := fld o.w0 37 34, sets := [], curSet := none, curBank := none } })

end Sys2Proof.Machine
end

