-- ==== Sys2Proof/Machine/Special.lean ====
section
/-! DEFINITION. The special functions of the vector unit (R201, Table 10.6): the exact result rounded to FP32, computed in fixed
point with guard bits enough for FP32, and a free result within the table's error bound of it. -/

namespace Sys2Proof.Machine

/-- Fraction bits of the fixed-point reference. -/
def spP : Nat := 300
/-- 1.0 in fixed point. -/
def spOne : Int := 2 ^ spP
/-- The fixed-point product. -/
def spMul (a b : Int) : Int := a * b / 2 ^ spP

/-- The arc-hyperbolic-tangent series of a fixed-point `z`, |z| ≤ 1/3. -/
def spAtanh (z : Int) : Int :=
  ((List.range 100).foldl (fun (a : Int × Int) i => (spMul a.1 (spMul z z), a.2 + a.1 / (2 * i + 1 : Nat))) (z, 0)).2

/-- ln 2 = 2 atanh(1/3). -/
def spLn2 : Int := 2 * spAtanh (spOne / 3)

/-- The exponential series of a fixed-point `r`, |r| ≤ 1. -/
def spExpSeries (r : Int) : Int :=
  ((List.range 80).foldl (fun (a : Int × Int) i => (spMul a.1 r / (i + 1 : Nat), a.2 + a.1)) (spOne, 0)).2

/-- e to a fixed-point power as a mantissa in fixed point and a power of two. -/
def spExp (x : Int) : Int × Int :=
  let n := (2 * x + spLn2) / (2 * spLn2)
  (spExpSeries (x - n * spLn2), n)

/-- The integer square root, one bit at a time from bit `k` down. -/
def spSqrt : Nat → Nat → Nat → Nat
  | 0, _, r => r
  | k + 1, x, r => spSqrt k x (if (r + 2 ^ k) ^ 2 ≤ x then r + 2 ^ k else r)

/-- A quotient of naturals with guard bits and a sticky bit. -/
def spQuot (neg : Bool) (a b : Nat) (e : Int) : FVal :=
  let q := a * 2 ^ 1000 / b
  .fin neg (2 * q + b2n (a * 2 ^ 1000 % b ≠ 0)) (e - 1001)

/-- A finite value in fixed point, held to ±2^`lim`. -/
def spFix (lim : Nat) (neg : Bool) (m : Nat) (e : Int) : Int :=
  let k := e + spP
  let top : Nat := 2 ^ (lim + spP)
  let a : Nat := if k < 0 then m / 2 ^ (-k).toNat else if k > spP + lim then (if m = 0 then 0 else top) else min top (m * 2 ^ k.toNat)
  if neg then -(a : Int) else a

/-- exp. -/
def spExpF (neg : Bool) (m : Nat) (e : Int) : FVal :=
  let r := spExp (spFix 9 neg m e)
  .fin false r.1.toNat (r.2 - spP)

/-- log of a positive value: a power of two and a mantissa between 2/3 and 4/3. -/
def spLogF (m : Nat) (e : Int) : FVal :=
  let l := Nat.log2 m
  let up := decide (4 * 2 ^ l < 3 * m)
  let y : Int := (m : Int) * 2 ^ (spP + 1) / 2 ^ (if up then l + 2 else l + 1)
  let n : Int := e + l + b2n up
  ofScaled false (n * spLn2 + 2 * spAtanh ((y - spOne) * 2 ^ spP / (y + spOne))) (-(spP : Int))

/-- rsqrt of a positive value. -/
def spRsqrtF (m : Nat) (e : Int) : FVal :=
  let odd := decide (e % 2 = 1)
  let d := if odd then 2 * m else m
  let x := 2 ^ 200 / d
  let r := spSqrt 101 x 0
  .fin false (2 * r + b2n (r * r * d ≠ 2 ^ 200)) (-((if odd then e - 1 else e) / 2) - 101)

/-- 1 / (1 + e^−y) of a fixed-point `y`, as a quotient. -/
def spSigmoid (y : Int) : Nat × Nat :=
  if 0 ≤ y then
    let r := spExp (-y)
    let k := (-r.2).toNat
    (2 ^ (spP + k), 2 ^ (spP + k) + r.1.toNat)
  else
    let r := spExp y
    let k := (-r.2).toNat
    (r.1.toNat, 2 ^ (spP + k) + r.1.toNat)

/-- sigmoid. -/
def spSigmoidF (neg : Bool) (m : Nat) (e : Int) : FVal :=
  let q := spSigmoid (spFix 9 neg m e)
  spQuot false q.1 q.2 0

/-- GELU: 0.5 x (1 + tanh u) is x / (1 + e^−2u), u = 0.7978845608 × (x + 0.044715 x³). -/
def spGeluF (neg : Bool) (m : Nat) (e : Int) : FVal :=
  let x := spFix 5 neg m e
  let u := (x + spMul (spMul x x) x * 44715 / 1000000) * 7978845608 / 10000000000
  let q := spSigmoid (max (-(2 ^ 9) * spOne) (min (2 ^ 9 * spOne) (2 * u)))
  match spQuot neg q.1 q.2 0 with
  | .fin n m' e' => .fin n (m * m') (e + e')
  | v => v

/-- The exact result of a special function of a finite value, before its rounding to FP32. -/
def spExact (fn : Nat) (neg : Bool) (m : Nat) (e : Int) : FVal :=
  match fn with
  | 0 => spExpF neg m e
  | 1 => spLogF m e
  | 2 => spRsqrtF m e
  | 3 => spSigmoidF neg m e
  | _ => spGeluF neg m e

/-- The ulp of a finite FP32 value, as an exponent. -/
def ulpExp : FVal → Int
  | .fin _ m e => if m = 0 then -149 else max (-149) ((Nat.log2 m : Int) + e - 23)
  | _ => -149

/-- Is |a − b| at most `k` units of 2^`e`? -/
def within (a b : FVal) (k : Nat) (e : Int) : Bool :=
  match fadd a (fneg b) with
  | .fin _ m e' => !flt (.fin false k e) (.fin false m e')
  | _ => false

/-- The error bound of Table 10.6 on a result, against the exact result rounded to FP32. -/
def spBound (fn : Nat) (ref c : FVal) : Bool :=
  let u := ulpExp ref
  match fn with
  | 0 | 1 => within c ref 2 u
  | 2 => within c ref 1 u
  | 3 => within c ref 2 u || within c ref 1 (-24)
  | _ => within c ref 4 u || within c ref 1 (-24)

/-- The result for a finite operand with no special value: any pattern within the bound (`Config.specialFn`, log entry 5); an
exact result beyond the range is the infinity that Table 10.6 names. -/
def spResult (fn : Nat) (x : BitVec 32) (neg : Bool) (m : Nat) (e : Int) : BitVec 32 :=
  let r := toF32 0x7FC00000#32 (spExact fn neg m e)
  let c := Config.specialFn fn x
  if ffinite (f32 r) && ffinite (f32 c) && spBound fn (f32 r) (f32 c) then c else r

/-- Code 0 exp, 1 log, 2 rsqrt, 3 sigmoid, 4 GELU on an FP32 pattern: the special values of Table 10.6, else a result within
its error bound. -/
def vsf (fn : Nat) (x : BitVec 32) : BitVec 32 :=
  let inf := 0x7F800000#32
  match f32 x with
  | .nan => nanBits x x
  | .inf neg =>
    match fn, neg with
    | 0, false => inf | 0, true => 0#32
    | 1, false => inf | 1, true => nanBits x x
    | 2, false => 0#32 | 2, true => nanBits x x
    | 3, false => 0x3F800000#32 | 3, true => 0#32
    | _, false => inf | _, true => 0x80000000#32
  | .fin neg m e =>
    if fn = 1 && m = 0 then 0xFF800000#32
    else if fn = 2 && m = 0 then (if neg then 0xFF800000#32 else inf)
    else if (fn = 1 || fn = 2) && neg then nanBits x x
    else spResult fn x neg m e

end Sys2Proof.Machine
end

