-- ==== Sys2Proof/Machine/Vector.lean ====
section
/-! DEFINITION. The vector unit: VLD, VST, VALU, VFMA, VSF, VCVT, VRED, VBCAST, VEXT, ARGMAX (Tables 14.7 to 14.9, R197,
R198, R201, R277 to R279). -/

namespace Sys2Proof.Machine

/-- Is a vector register marked by poison (R342)? -/
def vPoison (k : CoreSt) (d : Nat) : Bool := k.vp.getLsbD d

/-- Write a vector register with its poison mark. -/
def putV (c : CoreId) (d : Nat) (ls : List (BitVec 32)) (poison : Bool) (s : State) : State :=
  (wrV c d (ofLanes ls) s).modCore c fun k =>
    let m := BitVec.ofNat 32 (2 ^ (d % 32))
    { k with vp := if poison then k.vp ||| m else k.vp &&& ~~~ m }

/-- The lanes of a vector register. -/
def getV (s : State) (c : CoreId) (d : Nat) : List (BitVec 32) := lanesOf (rdV (s.core c) d)

/-! ## Lane operations -/

/-- FP32 minimum or maximum: −0 is below +0, and a NaN operand gives a NaN (Table 14.8). -/
def f32minmax (mx : Bool) (a b : BitVec 32) : BitVec 32 :=
  if f32nan a || f32nan b then nanBits a b
  else
    let ord (x : BitVec 32) : Nat := if x.getLsbD 31 then (~~~x).toNat else (x ||| 0x80000000#32).toNat
    if (ord a < ord b) != mx then a else b

/-- INT32 minimum or maximum. -/
def intMinmax (mx : Bool) (a b : BitVec 32) : BitVec 32 := if (a.slt b) != mx then a else b

/-- An FP32 lane to INT32 with its outcome (Table 10.4). -/
def f32toInt (a : BitVec 32) : BitVec 32 × ConvCount :=
  let r := toElem 10 (f32 a)
  (BitVec.ofNat 32 r.1, r.2)

/-- VALU functions (Table 14.8), CVT apart. -/
def valuFn (isInt : Bool) (fn : Nat) (a b : BitVec 32) : BitVec 32 :=
  match fn with
  | 0 => if isInt then a + b else f32add a b
  | 1 => if isInt then a - b else f32sub a b
  | 2 => if isInt then a * b else f32mul a b
  | 3 => if isInt then intMinmax false a b else f32minmax false a b
  | 4 => if isInt then intMinmax true a b else f32minmax true a b
  | 5 => a &&& b
  | 6 => a ||| b
  | 7 => a ^^^ b
  | 8 => a <<< (b.toNat % 32)
  | 9 => a >>> (b.toNat % 32)
  | 10 => a.sshiftRight (b.toNat % 32)
  | 11 => if isInt then (if a.slt 0 then -a else a) else if f32nan a then nanBits a a else a &&& 0x7FFFFFFF#32
  | _ => if isInt then -a else if f32nan a then nanBits a a else a ^^^ 0x80000000#32

/-- VALU d, a, b, fn. -/
def startValu (c : CoreId) (o : Op) (s : State) : Start :=
  let fn := iX o.w0 % 32
  let isInt := (iX o.w0).testBit 5
  let a := getV s c (iA o.w0)
  let unary := decide (fn = 11 ∨ fn = 12 ∨ fn = 13)
  let poison := vPoison (s.core c) (iA o.w0) || (!unary && vPoison (s.core c) (iB o.w0))
  if fn = 13 then
    if isInt then
      let rs := a.map f32toInt
      .done (putV c (iD o.w0) (rs.map (·.1)) poison (countConv c (rs.foldl (fun k r => k.plus r.2) .zero) s))
    else .done (putV c (iD o.w0) (a.map fun x => laneOf (fofInt x.toInt)) poison s)
  else .done (putV c (iD o.w0) (List.zipWith (valuFn isInt fn) a (getV s c (iB o.w0))) poison s)

/-- VFMA d, a, b. -/
def startVfma (c : CoreId) (o : Op) (s : State) : Start :=
  let isInt := (iX o.w0).testBit 5
  let k := s.core c
  let ab := List.zip (getV s c (iA o.w0)) (getV s c (iB o.w0))
  .done (putV c (iD o.w0) (List.zipWith (fun p d => if isInt then p.1 * p.2 + d else f32fma p.1 p.2 d) ab (getV s c (iD o.w0)))
    (vPoison k (iA o.w0) || vPoison k (iB o.w0) || vPoison k (iD o.w0)) s)

/-- VSF d, a, f (R201). -/
def startVsf (c : CoreId) (o : Op) (s : State) : Start :=
  .done (putV c (iD o.w0) ((getV s c (iA o.w0)).map (vsf (iX o.w0 % 8))) (vPoison (s.core c) (iA o.w0)) s)

/-- Adjacent pairs of a level reduced. -/
def reducePairs (f : BitVec 32 → BitVec 32 → BitVec 32) : List (BitVec 32) → List (BitVec 32)
  | a :: b :: r => f a b :: reducePairs f r
  | l => l

/-- The fixed tree of R277 over 64 lanes. -/
def reduceTree (f : BitVec 32 → BitVec 32 → BitVec 32) (ls : List (BitVec 32)) : BitVec 32 :=
  ((loopN 6 (fun _ l => reducePairs f l) ls)[0]?).getD 0

/-- A lane extended into a scalar register: zero-extended FP32, sign-extended INT32 (Table 14.7). -/
def laneExt (isInt : Bool) (x : BitVec 32) : Word := if isInt then x.signExtend 64 else x.zeroExtend 64

/-- VRED d, a, op. -/
def startVred (c : CoreId) (o : Op) (s : State) : Start :=
  let isInt := (iX o.w0).testBit 5
  let f := match iX o.w0 % 4 with
    | 0 => laneAdd isInt
    | 1 => if isInt then intMinmax true else f32minmax true
    | _ => if isInt then intMinmax false else f32minmax false
  .done (wrS c (iD o.w0) (laneExt isInt (reduceTree f (getV s c (iA o.w0)))) s)

/-- VBCAST d, a. -/
def startVbcast (c : CoreId) (o : Op) (s : State) : Start :=
  if !upperZero o.a then .trap trapRange 0 s else .done (putV c (iD o.w0) (List.replicate 64 (o.a.truncate 32)) false s)

/-- VEXT d, a, b. -/
def startVext (c : CoreId) (o : Op) (s : State) : Start :=
  if o.b.toNat > 63 then .trap trapRange 0 s
  else .done (wrS c (iD o.w0) (laneExt ((iX o.w0).testBit 5) (lane (rdV (s.core c) (iA o.w0)) o.b.toNat)) s)

/-! ## Element streams -/

/-- Lines that bits `lo` to `lo + n − 1` of a run lie in: first and count. -/
def bitLines (lo n : Nat) : Nat × Nat := if n = 0 then (lo / 512, 0) else (lo / 512, (lo + n - 1) / 512 + 1 - lo / 512)

/-- Read `n` elements of `b` bits from element `e` on: their bits, whether any line is poisoned, whether any was
uncorrectable. -/
def readEls (c : CoreId) (sh line port b e n : Nat) (s : State) : List Nat × Bool × Bool × State :=
  let p := bitLines (b * e) (b * n)
  let r := shelfReadN c sh (line + p.1) port p.2 s
  let bits := (r.1.foldr (fun l acc => l.data.toNat + 2 ^ 512 * acc) 0) >>> (b * e - 512 * p.1)
  ((List.range n).map fun j => (bits >>> (b * j)) % 2 ^ b, anyPoison r.1, r.2.1, r.2.2)

/-- The FP32 value of an FX20 coordinate (R198): the marker converts to a NaN. -/
def fxVal (word comp : Nat) : FVal :=
  let x := (word >>> (20 * comp)) % 2 ^ 20
  if x = 0x80000 then .nan else fofInt (asInt 20 x)

/-- A value as an FX20 coordinate (Table 10.4). -/
def toFx (v : FVal) : Nat × ConvCount :=
  match v with
  | .nan => (0x80000, ⟨0, 0, 1⟩)
  | v => let r := toIntSat (-524287) 524287 v; (wrapInt 20 r.1, r.2)

/-- The values of elements: an MX element is the exact product with its block's scale (R278). -/
def elVals (f : Nat) (els scs : List Nat) : List FVal :=
  els.mapIdx fun j b => if fmtMx f then fmul (ofElem f b) (e8m0 ((scs[j / 32]?).getD 0)) else ofElem f b

/-- Values as FP32 lanes under R197, with what Table 10.4 counts. -/
def lanesF32 (vs : List FVal) : List (BitVec 32) × ConvCount :=
  let rs := vs.map convF32
  (rs.map (·.1), rs.foldl (fun k r => k.plus r.2) .zero)

/-- VLD (R278). -/
def startVld (c : CoreId) (o : Op) (s : State) : Start :=
  let f := fld o.w1 4 0
  let comp := fld o.w1 6 5
  let e := low32 o.n
  let b := fmtBits f
  if !(upperZero o.a && upperZero o.b && upperZero o.n) || (f = 15 && comp = 3) || (fmtMx f && e % 32 ≠ 0) then .trap trapRange 0 s
  else if f > 15 then .trap trapFmt 0 s
  else
    let p := bitLines (b * e) (b * 64)
    let sp := bitLines (8 * (e / 32)) 16
    let t := firstCode [runCheck s c (lSa o.w0) (low32 o.a + p.1) p.2,
      if fmtMx f then runCheck s c (lSb o.w0) (low32 o.b + sp.1) sp.2 else 0]
    if t ≠ 0 then .trap t 0 s
    else
      let r := readEls c (lSa o.w0) (low32 o.a) 5 b e 64 s
      let q := if fmtMx f then readEls c (lSb o.w0) (low32 o.b) 5 8 (e / 32) 2 r.2.2.2 else ([], false, false, r.2.2.2)
      if r.2.2.1 || q.2.2.1 then .trap trapBankEcc 0 q.2.2.2
      else
        let lanes : List (BitVec 32) × ConvCount :=
          if f = 15 then lanesF32 (r.1.map fun w => fxVal w comp)
          else if fmtInt f then (r.1.map fun x => BitVec.ofInt 32 (intElem f x), .zero)
          else if f = 0 then (r.1.map (BitVec.ofNat 32), .zero)
          else lanesF32 (elVals f r.1 q.1)
        .done (putV c (lRd o.w0) lanes.1 (r.2.1 || q.2.1) (countConv c lanes.2 q.2.2.2))

/-- VST (R278): an MX destination forms two blocks; lines filled in part are merged (R153). -/
def startVst (c : CoreId) (o : Op) (s : State) : Start :=
  let f := fld o.w1 4 0
  let e := low32 o.n
  let b := fmtBits f
  if f ≥ 15 then .trap trapFmt 0 s
  else if !(upperZero o.a && upperZero o.b && upperZero o.n) || (fmtMx f && e % 64 ≠ 0) then .trap trapRange 0 s
  else
    let p := bitLines (b * e) (b * 64)
    let sp := bitLines (8 * (e / 32)) 16
    let t := firstCode [writeCheck s c o.seq (lSa o.w0) (low32 o.a + p.1) p.2,
      if fmtMx f then writeCheck s c o.seq (lSb o.w0) (low32 o.b + sp.1) sp.2 else 0]
    if t ≠ 0 then .trap t 0 s
    else
      let poison := vPoison (s.core c) (lRd o.w0)
      let v := convVals f ((getV s c (lRd o.w0)).map fun x => if fmtInt f then fofInt x.toInt else f32 x)
      let w := writeRange c (lSa o.w0) 6 (fun _ => poison) (p.2 + 1) (low32 o.a + p.1) 0 (b * e % 512) (b * 64)
        (packEls b v.1) (countConv c v.2.2 s)
      if w.1 then .trap trapBankEcc 0 w.2
      else if fmtMx f then
        let x := writeRange c (lSb o.w0) 6 (fun _ => poison) 2 (low32 o.b + sp.1) 0 (8 * (e / 32) % 512) 16 (packEls 8 v.2.1) w.2
        if x.1 then .trap trapBankEcc 0 x.2 else .done x.2
      else .done w.2

/-! ## VCVT (R198, R278) -/

/-- The source values of a conversion: three per FX20 word. -/
def cvtVals (f : Nat) (els scs : List Nat) : List FVal :=
  if f = 15 then els.flatMap fun w => [fxVal w 0, fxVal w 1, fxVal w 2] else elVals f els scs

/-- Three values as an FX20 word with flags. -/
def fxWord (flags : Nat) : List FVal → Nat × ConvCount
  | [x, y, z] =>
    let a := toFx x; let b := toFx y; let c := toFx z
    (a.1 + b.1 * 2 ^ 20 + c.1 * 2 ^ 40 + flags * 2 ^ 60, (a.2.plus b.2).plus c.2)
  | _ => (0, .zero)

/-- Triples of a list. -/
def triples {α : Type} : List α → List (List α)
  | a :: b :: c :: r => [a, b, c] :: triples r
  | _ => []

/-- VCVT: `n` counts FX20 words where either format is FX20, elements otherwise. -/
def startVcvt (c : CoreId) (o : Op) (s : State) : Start :=
  let f := fld o.w1 4 0
  let g := fld o.w1 9 5
  let n := low32 o.n
  let nf := if g = 15 && f ≠ 15 then 3 * n else n
  let ng := if f = 15 && g ≠ 15 then 3 * n else n
  if !(upperZero o.a && upperZero o.b && upperZero o.c && upperZero o.n && upperZero o.x) || n > 1048575 ||
      ((fmtMx f || fmtMx g) && n % 32 ≠ 0) then .trap trapRange 0 s
  else if f > 15 || g > 15 then .trap trapFmt 0 s
  else
    let lf := bitLines 0 (fmtBits f * nf)
    let lg := bitLines 0 (fmtBits g * ng)
    let t := firstCode [runCheck s c (lSa o.w0) (low32 o.a) lf.2,
      if fmtMx f then runCheck s c (lSb o.w0) (low32 o.b) (cdiv (nf / 32) 64) else 0,
      writeCheck s c o.seq (lSc o.w0) (low32 o.c) lg.2,
      if fmtMx g then writeCheck s c o.seq (fld o.w1 15 10) (low32 o.x) (cdiv (cdiv ng 32) 64) else 0]
    if t ≠ 0 then .trap t 0 s
    else
      let r := readEls c (lSa o.w0) (low32 o.a) 5 (fmtBits f) 0 nf s
      let q := if fmtMx f then readEls c (lSb o.w0) (low32 o.b) 5 8 0 (nf / 32) r.2.2.2 else ([], false, false, r.2.2.2)
      if r.2.2.1 || q.2.2.1 then .trap trapBankEcc 0 q.2.2.2
      else
        let poison := r.2.1 || q.2.1
        let vs := cvtVals f r.1 q.1
        let ws := if fmtMx g then lanesF32 vs else ([], .zero)
        let vs := if fmtMx g then ws.1.map f32 else vs
        let flags (j : Nat) : Nat := if f = 15 then ((r.1[j]?).getD 0) >>> 60 else fld o.w1 24 21
        let v : List Nat × List Nat × ConvCount :=
          if g = 15 then
            let ws := (triples vs).mapIdx fun j t => fxWord (flags j) t
            (ws.map (·.1), [], ws.foldl (fun k w => k.plus w.2) .zero)
          else convVals g vs
        let w := writeRange c (lSc o.w0) 6 (fun _ => poison) (lg.2 + 1) (low32 o.c) 0 0 (fmtBits g * ng) (packEls (fmtBits g) v.1)
          (countConv c (v.2.2.plus ws.2) q.2.2.2)
        let x := if fmtMx g then writeRange c (fld o.w1 15 10) 6 (fun _ => poison) (cdiv v.2.1.length 64 + 1) (low32 o.x) 0 0
            (8 * v.2.1.length) (packEls 8 v.2.1) w.2
          else (false, w.2)
        if w.1 || x.1 then .trap trapBankEcc 0 x.2 else .done x.2

/-! ## ARGMAX (R279) -/

/-- The lowest index of a largest key; none for no elements. -/
def argBest : List Nat → Nat → Option (Nat × Nat) → Option (Nat × Nat)
  | [], _, b => b
  | k :: ks, j, none => argBest ks (j + 1) (some (j, k))
  | k :: ks, j, some (i, m) => argBest ks (j + 1) (if m < k then some (j, k) else some (i, m))

/-- A result record: index and widened value; the canonical NaN for a NaN (R279, R286). -/
def bestRec (f : Nat) (els : List Nat) : Nat :=
  match argBest (els.map (keyElem f)) 0 none with
  | none => 0xFFFFFFFF + (mostNegative f).toNat * 2 ^ 32
  | some (j, _) =>
    let e := (els[j]?).getD 0
    j + (if elemNan f e then 0x7FC00000 else (widen f e).toNat) * 2 ^ 32

/-- The records of ARGMAX, with whether each row had a poisoned line. -/
def argRows (c : CoreId) (o : Op) (f l rl : Nat) : Nat → Nat → State → List (Nat × Bool) × Bool × State
  | 0, _, s => ([], false, s)
  | n + 1, i, s =>
    let r := readEls c (lSa o.w0) (low32 o.a + i * rl) 5 (fmtBits f) 0 l s
    let q := argRows c o f l rl n (i + 1) r.2.2.2
    ((bestRec f r.1, r.2.1) :: q.1, r.2.2.1 || q.2.1, q.2.2)

/-- The fill record of an unused place in a result line: index 0xFFFF_FFFF with the most negative value (R286). -/
def fillRec (f : Nat) : Nat := 0xFFFFFFFF + (mostNegative f).toNat * 2 ^ 32

/-- ARGMAX: the last line is completed with fill records. -/
def startArgmax (c : CoreId) (o : Op) (s : State) : Start :=
  let f := fld o.w1 4 0
  let l := fld o.w1 21 5
  let n := low32 o.n
  let rl := cdiv (l * fmtBits f) 512
  if !(upperZero o.a && upperZero o.c && upperZero o.n) || n > 1048575 || l > 65536 then .trap trapRange 0 s
  else if !selectFmt f then .trap trapFmt 0 s
  else
    let t := firstCode [runCheck s c (lSa o.w0) (low32 o.a) (n * rl), writeCheck s c o.seq (lSc o.w0) (low32 o.c) (cdiv n 8)]
    if t ≠ 0 then .trap t 0 s
    else
      let r := argRows c o f l rl n 0 s
      if r.2.1 then .trap trapBankEcc 0 r.2.2
      else
        let lines := cdiv n 8
        let recs := r.1.map (·.1) ++ List.replicate (8 * lines - n) (fillRec f)
        .done (writeBits c (lSc o.w0) (low32 o.c) lines (packEls 64 recs)
          (fun i => ((r.1.drop (8 * i)).take 8).any (·.2)) r.2.2)

end Sys2Proof.Machine
end

