-- ==== Sys2Proof/Machine/Sparse.lean ====
section
/-! DEFINITION. PACK and MATCH of the sparse unit (R208, R209, R222 to R225, R280). -/

namespace Sys2Proof.Machine

/-! ## PACK -/

/-- One row in variable form (R208): its bits and their number, from its elements; an element whose bits are zero is not
stored. -/
def varRowBits (f : Nat) (els : List Nat) : Nat × Nat :=
  let b := fmtBits f
  let groups := (chunksOf8 (els.length / 8) els)
  let counts := groups.map fun g => (g.filter (· != 0)).length
  let poss := groups.flatMap fun g => (g.zipIdx.filter fun e => e.1 != 0).map (·.2)
  let vals := els.filter (· != 0)
  let nc := 8 * cdiv (4 * counts.length) 8
  let np := 8 * cdiv (3 * poss.length) 8
  let nv := 8 * cdiv (b * vals.length) 8
  (packEls 4 counts + 2 ^ nc * (packEls 3 poss + 2 ^ np * packEls b vals), nc + np + nv)
where
  chunksOf8 : Nat → List Nat → List (List Nat)
    | 0, _ => []
    | n + 1, l => l.take 8 :: chunksOf8 n (l.drop 8)

/-- Rows in variable form one after another. -/
def varTileBits (f : Nat) : List (List Nat) → Nat × Nat
  | [] => (0, 0)
  | r :: rs =>
    let x := varRowBits f r
    let y := varTileBits f rs
    (x.1 + 2 ^ x.2 * y.1, x.2 + y.2)

/-- The header of a packed tile (Table 11.1), as a number of 128 bits. -/
def hdrBits (h : TileHdr) : Nat :=
  (b2n h.dense + h.pack * 2 + (if h.pack = 0 then (if h.n = 1 then 0 else if h.n = 2 then 1 else 2) else 0) * 8 +
    b2n h.transp * 32 + h.role * 64) + h.fmt * 2 ^ 8 + h.nLen * 2 ^ 16 + h.rows * 2 ^ 32 + h.bytes * 2 ^ 64

/-- Lines of a dense source of `n` rows for PACK. -/
def srcLines (f role n : Nat) : Nat := if role = 0 then tileLines f n else if fmt6 f then 3 * cdiv n 4 else rowLines f * n

/-- The bit of element `e` of source row `r`: a row of the 4-bit class of a weight tile holds two reduction rows. -/
def srcBit (f role r e : Nat) : Nat :=
  if role = 0 then
    if fmtClass f = 3 then 512 * r + 4 * e else weightBit f r e
  else inputBit f 0 false r e

/-- The line of a packed tile that holds a payload bit. -/
def payloadLine (bit : Nat) : Nat := (bit + 128) / 512

/-- Is a line of the dense payload poisoned: the header line counts every row, a payload line holds the bits of its source
lines (R222). -/
def denseBad (src : List DLine) (bytes i : Nat) : Bool :=
  anyPoison src && (i == 0 ||
    (src.zipIdx.any fun l => l.1.poison && decide (512 * l.2 < 8 * bytes) &&
      decide (payloadLine (512 * l.2) ≤ i ∧ i ≤ payloadLine (min (512 * l.2 + 511) (8 * bytes - 1)))))

/-- The first source row that a poisoned line holds elements of, with the payload bit at which the row's variable form begins. -/
def firstBadBit (f role cols : Nat) (src : List DLine) (els : List (List Nat)) : Option Nat :=
  ((List.range els.length).find? fun r =>
    let p := bitLines (srcBit f role r 0) (fmtBits f * cols)
    anyPoison ((src.drop p.1).take p.2)).map fun r => (varTileBits f (els.take r)).2

/-- Is a line of the variable payload poisoned: a row decides where every later row stands, so a poisoned source line reaches the
header line and every line from its row on (R222; DEDUCED, log entry 150). -/
def variableBad (f role cols : Nat) (src : List DLine) (els : List (List Nat)) (i : Nat) : Bool :=
  anyPoison src && (match firstBadBit f role cols src els with
    | some b => i == 0 || decide (payloadLine b ≤ i)
    | none => false)

/-- PACK, variable form (R209): the variable payload when it is no longer than the dense one. -/
def packVar (c : CoreId) (o : Op) (f role : Nat) (s : State) : Start :=
  let n := low32 o.n
  let nLen := fld o.w1 13 7
  let lim := if role = 0 then rowElems f else 1048575
  if n = 0 || n > lim || (role = 0 && (nLen = 0 || nLen > 64)) then .trap trapRange 0 s
  else
    let dense := densePayload f role n
    let lines := srcLines f role n
    let t := firstCode [runCheck s c (lSa o.w0) (low32 o.a) lines,
      writeCheck s c o.seq (lSc o.w0) (low32 o.c) (packedLines dense)]
    if t ≠ 0 then .trap t 0 s
    else
      let r := shelfReadN c (lSa o.w0) (low32 o.a) 7 lines s
      if r.2.1 then .trap trapBankEcc 0 r.2.2
      else
        let src := r.1.foldr (fun l acc => l.data.toNat + 2 ^ 512 * acc) 0
        let four := fmtClass f == 3
        let rows := if role = 0 && four then cdiv n 2 else n
        let cols := if role = 0 then (if four then 2 * nLen else nLen) else rowElems f
        let els := (List.range rows).map fun i => (List.range (rowElems f)).map fun e =>
          if e < cols then (src >>> srcBit f role i e) % 2 ^ fmtBits f else 0
        let v := varTileBits f els
        let useDense := decide (v.2 / 8 > dense)
        let bytes := if useDense then dense else v.2 / 8
        let payload := if useDense then src % 2 ^ (8 * dense) else v.1
        let h : TileHdr := ⟨useDense, 1, 0, false, role, f, nLen, n, bytes⟩
        let s := if useDense then bumpC c Reg.PACK_DENSE_CNT r.2.2 else r.2.2
        .done (wrS c (lRd o.w0) (BitVec.ofNat 64 (16 + bytes))
          (writeBits c (lSc o.w0) (low32 o.c) (packedLines bytes) (hdrBits h + 2 ^ 128 * payload)
            (if useDense then denseBad r.1 dense else variableBad f role cols r.1 els) s))

/-- Where the code of the kept value at stored position `v`, column `n` stands in a structured tile's payload, and where the
value does (R207). -/
def structBits (f cb vb v n : Nat) : Nat × Nat :=
  let four := fmtClass f == 3
  let base := 8 * (cb + vb) * (if four then v / 2 else v)
  (base + (if four then 192 * (v % 2) else 0) + 3 * n, base + 8 * cb + (if four then 8 * n + 4 * (v % 2) else fmtBits f * n))

/-- Does a line of a tile packed from a reference hold a bit of a payload field? -/
def lineHolds (i bit len : Nat) : Bool := decide (payloadLine bit ≤ i ∧ i ≤ payloadLine (bit + len - 1))

/-- Is a line of a tile packed from a reference poisoned (R222)? The reference's header line contributes to every line; a line
of its codes to the codes copied and to the values they select; a source line to the values kept from it. -/
def refBad (f cb vb nn : Nat) (codes : Nat) (ref src : List DLine) (i : Nat) : Bool :=
  let refAt (bit len : Nat) : Bool := ref.zipIdx.any fun l => l.1.poison && lineHolds l.2 bit len
  let srcAt (k n : Nat) : Bool :=
    let p := bitLines (weightBit f k n) (fmtBits f)
    anyPoison ((src.drop p.1).take p.2)
  (anyPoison ref || anyPoison src) && (anyPoison (ref.take 1) ||
    (List.range (if fmtClass f = 3 then 128 else 64)).any fun v => (List.range 64).any fun n =>
      let b := structBits f cb vb v n
      (lineHolds i b.1 3 && (match ref[i]? with | some l => l.poison | none => false)) ||
        (lineHolds i b.2 (fmtBits f) && (refAt b.1 3 || srcAt (v / nn * 8 + (structAt f codes v n).1) n)))

/-- PACK from a reference structured tile (R222): the reference's header and codes, the source's values at its positions. -/
def packRef (c : CoreId) (o : Op) (f : Nat) (s : State) : Start :=
  let n := low32 o.n
  let r := readTile c (lSb o.w0) (low32 o.b) f 7 s
  match r.1.2.1, chunkBytes f with
  | none, _ => .trap r.1.1 0 r.2
  | _, none => .trap trapTileFormat 0 s
  | some h, some (cb, vb) =>
    if h.pack ≠ 0 || h.rows ≠ n then .trap trapTileFormat 0 s
    else
      let lines := tileLines f n
      let t := firstCode [runCheck s c (lSa o.w0) (low32 o.a) lines,
        writeCheck s c o.seq (lSc o.w0) (low32 o.c) (packedLines h.bytes)]
      if t ≠ 0 then .trap t 0 s
      else
        let ref := shelfReadN c (lSb o.w0) (low32 o.b) 7 (packedLines h.bytes) s
        let q := shelfReadN c (lSa o.w0) (low32 o.a) 7 lines ref.2.2
        if q.2.1 || ref.2.1 then .trap trapBankEcc 0 q.2.2
        else
          let src := q.1.foldr (fun l acc => l.data.toNat + 2 ^ 512 * acc) 0
          let four := fmtClass f == 3
          let b := fmtBits f
          let val (v n : Nat) : Nat :=
            let k := v / h.n * 8 + (structAt f r.1.2.2.1 v n).1
            (src >>> weightBit f k n) % 2 ^ b
          let chunk (j : Nat) : Nat :=
            let codes := (r.1.2.2.1 >>> (8 * (cb + vb) * j)) % 2 ^ (8 * cb)
            let vals := if four then packEls 4 ((List.range 64).flatMap fun n => [val (2 * j) n, val (2 * j + 1) n])
              else packEls b ((List.range 64).map (val j))
            codes + 2 ^ (8 * cb) * vals
          let bits := hdrBits h + 2 ^ 128 * packEls (8 * (cb + vb)) ((List.range 64).map chunk)
          .done (wrS c (lRd o.w0) (BitVec.ofNat 64 (16 + h.bytes))
            (writeBits c (lSc o.w0) (low32 o.c) (packedLines h.bytes) bits
              (refBad f cb vb h.n r.1.2.2.1 ref.1 q.1) q.2.2))

/-- PACK (R280). -/
def startPack (c : CoreId) (o : Op) (s : State) : Start :=
  let f := fld o.w1 4 0
  let role := fld o.w1 5 5
  if !(upperZero o.a && upperZero o.b && upperZero o.c && upperZero o.n) then .trap trapRange 0 s
  else if !arrayFmt f || (bitOf o.w1 6 && fmtClass f = 0) then .trap trapFmt 0 s
  else if bitOf o.w1 6 then packRef c o f s
  else packVar c o f role s

/-! ## MATCH (R223 to R225) -/

/-- The key words of lines. -/
def keyWords (ls : List DLine) : List Nat := ls.flatMap fun l => (List.range 8).map fun i => bitsAt l.data (64 * i) 64

/-- A key word at a position (R223). -/
def camKey (pos w : Nat) : CamKey := ⟨pos, w % 2 ^ 44, w.testBit 63⟩

/-- MATCH, load form (R223, R225). -/
def startMatchLoad (c : CoreId) (o : Op) (s : State) : Start :=
  let split := lOptB o.w0 1
  let n := low32 o.n
  let g := fld o.w1 1 0
  if !(upperZero o.a && upperZero o.n) then .trap trapRange 0 s
  else if n > (if split then 256 else 1024) then .trap trapArrayShape 0 s
  else
    let t := runCheck s c (lSa o.w0) (low32 o.a) (cdiv n 8)
    if t ≠ 0 then .trap t 0 s
    else
      let r := shelfReadN c (lSa o.w0) (low32 o.a) 7 (cdiv n 8) s
      if r.2.1 then .trap trapBankEcc 0 r.2.2
      else
        let keys := ((keyWords r.1).take n).mapIdx camKey
        let cam := (r.2.2.core c).cam
        let put (g : Nat) (ks : List CamKey) (st : Store (List CamKey)) := if ks.isEmpty then sdel g st else sput g ks st
        let groups := if split then put g keys (if cam.mode = 1 then [] else cam.groups)
          else loopN 4 (fun g st => put g ((keys.drop (256 * g)).take 256) st) []
        let badOf (g : Nat) : Bool := ((r.1.drop (32 * g)).take 32).any (·.poison)
        let poison := if split then (if anyPoison r.1 then [g] else []) ++ (if cam.mode = 1 then [] else cam.poison.filter (· != g))
          else (List.range 4).filter badOf
        let cam' : CamSt := ⟨if groups.isEmpty then 0 else if split then 2 else 1, groups, poison⟩
        .done (r.2.2.modCore c fun k => { k with cam := cam' })

/-- Probing a list: the records so far with the line of the probe each came from, the probes compared, whether the list was
truncated, whether a line was uncorrectable, and the first poisoned line. -/
structure ProbeSt where
  recs : List (Nat × Nat)
  cmp  : Nat
  cut  : Bool
  ecc  : Bool
  bad  : Option Nat
deriving DecidableEq, Repr

/-- Probe the words of one line in order: the records are cut where the destination is full (R224, R225). -/
def probeList (keys : List CamKey) (cap j : Nat) : List Nat → Nat → ProbeSt → ProbeSt
  | [], _, p => p
  | w :: rest, i, p =>
    let hits := if w.testBit 63 then [] else
      (keys.filter fun k => !k.ignore && k.key == w % 2 ^ 44).map fun k => (i % 2 ^ 20 + (k.pos % 1024) * 2 ^ 20, j)
    let recs := p.recs ++ hits
    if recs.length > cap then { p with recs := recs.take cap, cmp := p.cmp + 1, cut := true }
    else probeList keys cap j rest (i + 1) { p with recs := recs, cmp := p.cmp + 1 }

/-- Probe one list line by line: a group that has stopped reads no further line (R225). -/
def probeLines (c : CoreId) (o : Op) (keys : List CamKey) (cap line n : Nat) : Nat → Nat → ProbeSt → State → ProbeSt × State
  | 0, _, p, s => (p, s)
  | k + 1, j, p, s =>
    if p.cut || p.ecc then (p, s)
    else
      let r := shelfRead c (lSa o.w0) (line + j) 7 s
      if r.2.1 then ({ p with ecc := true }, r.2.2)
      else
        let p := if r.1.poison && p.bad.isNone then { p with bad := some j } else p
        probeLines c o keys cap line n k (j + 1) (probeList keys cap j ((keyWords [r.1]).take (n - 8 * j)) (8 * j) p) r.2.2

/-- Probe one group (or all, in joint mode). -/
def probeGroup (c : CoreId) (o : Op) (keys : List CamKey) (line n d : Nat) (s : State) : ProbeSt × State :=
  if keys.isEmpty then (⟨[], 0, false, false, none⟩, s)
  else probeLines c o keys (16 * d) line n (cdiv n 8) 0 ⟨[], 0, false, false, none⟩ s

/-- Is a record line poisoned: its group's keys are, or its last record came with or after the poisoned probe line `bad`; the
last line, in part filler, is written at the end of the list (R225). -/
def recordBad (p : ProbeSt) (keysBad : Bool) (bad : Option Nat) (i : Nat) : Bool :=
  keysBad || (match bad with
    | none => false
    | some b => match p.recs[16 * i + 15]? with
      | some r => decide (b ≤ r.2)
      | none => true)

/-- Write a group's records and count (R224): the count word and the state. -/
def writeRecords (c : CoreId) (o : Op) (dst : Nat) (p : ProbeSt) (keysBad : Bool) (bad : Option Nat) (s : State) : Nat × State :=
  let m := p.recs.length
  let lines := cdiv m 16
  let s := writeBits c (lSc o.w0) dst lines (packEls 32 (p.recs.map (·.1) ++ List.replicate (16 * lines - m) 0xFFFFFFFF))
    (recordBad p keysBad bad) s
  let s := bumpN (coreOff Reg.MATCH_PROBE_CNT c) p.cmp s
  let s := bumpN (coreOff Reg.MATCH_HIT_CNT c) m s
  (m + b2n p.cut * 2 ^ 31, if p.cut then bumpC c Reg.MATCH_TRUNC_CNT s else s)

/-- Probe the groups of split mode. -/
def probeSplit (c : CoreId) (o : Op) (cam : CamSt) (n d stride : Nat) : List Nat → State → List (Nat × ProbeSt) × State
  | [], s => ([], s)
  | g :: gs, s =>
    let r := probeGroup c o ((sget g cam.groups).getD []) (low32 o.a + g * stride) n d s
    let q := probeSplit c o cam n d stride gs r.2
    ((g, r.1) :: q.1, q.2)

/-- The first poisoned probe line of the groups, which probe in step: line `j` of every list before line `j + 1` of any
(DESIGN CHOICE, log entry 151). -/
def firstPoisoned (ps : List (Nat × ProbeSt)) : Option Nat :=
  (ps.filterMap fun p => p.2.bad).foldl (fun m b => some (match m with | some x => min x b | none => b)) none

/-- Write the records of the groups of split mode in turn: their count words. -/
def writeSplit (c : CoreId) (o : Op) (cam : CamSt) (d : Nat) (bad : Option Nat) : List (Nat × ProbeSt) → State → List Nat × State
  | [], s => ([], s)
  | p :: ps, s =>
    let r := writeRecords c o (low32 o.c + p.1 * d) p.2 (cam.poison.contains p.1) bad s
    let q := writeSplit c o cam d bad ps r.2
    (r.1 :: q.1, q.2)

/-- MATCH, probe form (R224, R225, R280). -/
def startMatchProbe (c : CoreId) (o : Op) (s : State) : Start :=
  let split := lOptB o.w0 1
  let n := low32 o.n
  let d := fld o.w1 20 0
  let stride := fld o.w1 41 21
  let cam := (s.core c).cam
  let used := if split then (List.range 4).filter fun g => (sget g cam.groups).isSome else [0]
  if !(upperZero o.a && upperZero o.c && upperZero o.n) || n = 0 || n > 1048576 then .trap trapRange 0 s
  else
    let t := firstCode (used.flatMap fun g => [runCheck s c (lSa o.w0) (low32 o.a + (if split then g * stride else 0)) (cdiv n 8),
      writeCheck s c o.seq (lSc o.w0) (low32 o.c + (if split then g * d else 0)) d])
    if t ≠ 0 then .trap t 0 s
    else if split then
      let r := probeSplit c o cam n d stride (List.range 4) s
      if r.1.any (·.2.ecc) then .trap trapBankEcc 0 r.2
      else
        let x := writeSplit c o cam d (firstPoisoned r.1) r.1 r.2
        let w (i : Nat) : Nat := (x.1[i]?).getD 0
        .done (wrSs c [(lRd o.w0, BitVec.ofNat 64 (w 0 + w 1 * 2 ^ 32)), (lRd o.w0 + 1, BitVec.ofNat 64 (w 2 + w 3 * 2 ^ 32))] x.2)
    else
      let r := probeGroup c o (cam.groups.flatMap (·.2)) (low32 o.a) n d s
      if r.1.ecc then .trap trapBankEcc 0 r.2
      else
        let x := writeRecords c o (low32 o.c) r.1 (!cam.poison.isEmpty) r.1.bad r.2
        .done (wrS c (lRd o.w0) (BitVec.ofNat 64 x.1) x.2)

end Sys2Proof.Machine
end

