-- ==== Sys2Proof/Machine/Gate.lean ====
section
/-! DEFINITION. The predictor gate: PRED_GATE and the gated form of ACC_DRAIN (R226 to R231). -/

namespace Sys2Proof.Machine

/-- The groups whose key exceeds the threshold's in one score row. -/
def scoreMask (f thr : Nat) (els : List Nat) : Nat :=
  (els.zipIdx.filter fun e => decide (keyElem f thr < keyElem f e.1)).foldl (fun m e => m ||| 2 ^ e.2) 0

/-- All score rows, each starting on a line of its own. -/
def scoreRows (c : CoreId) (o : Op) (f thr ng rl : Nat) : Nat → Nat → State → Nat × Bool × State
  | 0, _, s => (0, false, s)
  | n + 1, i, s =>
    let r := readEls c (lSa o.w0) (low32 o.a + i * rl) 7 (fmtBits f) 0 ng s
    let q := scoreRows c o f thr ng rl n (i + 1) r.2.2.2
    (scoreMask f thr r.1 ||| q.1, r.2.2.1 || q.2.1, q.2.2)

/-- The shadow of the groups not predicted, and the rotation counter after (R226). -/
def rotate (pred : Nat) : List Nat → Nat → Nat × Nat
  | [], r => (0, r)
  | g :: gs, r =>
    if pred.testBit g then rotate pred gs r
    else
      let q := rotate pred gs ((r + 1) % 64)
      ((if r = 0 then 2 ^ g else 0) ||| q.1, q.2)

/-- Is the score format one PRED_GATE takes (R226)? -/
def scoreFmt (f : Nat) : Bool := f == 0 || f == 1 || f == 2 || f == 10 || f == 11 || f == 12

/-- PRED_GATE (R226 to R228). -/
def startPredGate (c : CoreId) (o : Op) (s : State) : Start :=
  let f := fld o.w1 4 0
  let ng := fld o.w1 11 5
  let gate := fld o.w1 17 12
  let m := fld o.w1 19 18
  let r := low32 o.n
  let slot := (s.core c).slot
  if !(upperZero o.a && upperZero o.n) || r > 1024 then .trap trapRange 0 s
  else if !scoreFmt f then .trap trapFmt 0 s
  else if o.x.toNat ≥ 2 ^ fmtBits f then .trap trapRange 0 s
  else if ng = 0 || ng > 64 || !bitOf (gateCfg s slot gate) 0 then .trap trapGateMask 0 s
  else
    let rl := cdiv (ng * fmtBits f) 512
    let t := runCheck s c (lSa o.w0) (low32 o.a) (r * rl)
    if t ≠ 0 then .trap t 0 s
    else
      let q := scoreRows c o f o.x.toNat ng rl r 0 s
      if q.2.1 then .trap trapBankEcc 0 q.2.2
      else
        let all := 2 ^ ng - 1
        let back := bitOf (s.reg (Reg.GATE_STAT + 0x200 * slot + 8 * gate)) 63
        let rot := (sget gate (s.core c).rot).getD 0
        let w := rotate q.1 (List.range ng) rot
        let gm : GateMask := if back then ⟨q.1, all, all - q.1, gate, ng⟩ else ⟨q.1, q.1, w.1, gate, ng⟩
        .done (wrS c (lRd o.w0) (BitVec.ofNat 64 (gmChunks gm)) (q.2.2.modCore c fun k => { k with
          gm := sput m gm k.gm,
          rot := if back then k.rot else if w.2 = 0 then sdel gate k.rot else sput gate w.2 k.rot }))

/-! ## The gated drain (R230, R231) -/

/-- Where the lanes of a group stand: its chunk and first lane, when it is loaded. -/
def groupPlace (g : GateMask) (grp : Nat) : Option (Nat × Nat) :=
  ((gmGroups g).findIdx? (· == grp)).map fun i => (i / 8, 8 * (i % 8))

/-- The chunk rows of one output row: their scaled values, whether any is poisoned, whether one traps. -/
def gatedChunks (c : CoreId) (b r0 count i : Nat) (on : Bool) : List Nat → State → List (List FVal) × Bool × Bool × State
  | [], s => ([], false, false, s)
  | t :: ts, s =>
    let x := drainTest c b (r0 + t * count + i) s
    let v := drainVals (bankOf (s.core c).array b) (x.1.cls == 4) on x.1.lanes
    let q := gatedChunks c b r0 count i on ts x.2.2.2
    (v :: q.1, x.2.1 || q.2.1, x.2.2.1 || q.2.2.1, q.2.2.2)

/-- The values of a group's eight lanes in its chunk. -/
def groupVals (vs : List (List FVal)) (p : Nat × Nat) : List FVal := (((vs[p.1]?).getD []).drop p.2).take 8

/-- The values that converted elements stand for, an MX element with its block's scale (R194, R231). -/
def convertedVals (f : Nat) (v : List Nat × List Nat × ConvCount) : List FVal :=
  v.1.mapIdx fun j b => if fmtMx f then fmul (ofElem f b) (e8m0 ((v.2.1[j / 32]?).getD 0)) else ofElem f b

/-- Does a shadow sample miss: a converted lane that is a NaN, or of a magnitude above eps (R231)? -/
def sampleMiss (eps : Nat) (vs : List FVal) : Bool :=
  let lim : FVal := if eps = 0 then .fin false 0 0 else .fin false 1 ((eps : Int) - 127)
  vs.any fun v => v == .nan || flt lim (fabs v)

/-- The fill of a group's lanes: zero, or the bank's initial vector through the same steps. -/
def fillVals (bi : Option BankInit) (fill on : Bool) (lane0 : Nat) : List FVal :=
  match fill, bi with
  | true, some x => ((drainVals bi x.isInt on x.init).drop lane0).take 8
  | _, _ => List.replicate 8 (.fin false 0 0)

/-- A group's lanes as they stand in its chunk; a group that is not loaded has none and stands as zero until the fill. -/
def loadedVals (g : GateMask) (vs : List (List FVal)) (grp : Nat) : List FVal :=
  match groupPlace g grp with
  | some p => groupVals vs p
  | none => List.replicate 8 (.fin false 0 0)

/-- A group's lanes in the output row (R230 step 3). -/
def outputVals (g : GateMask) (bi : Option BankInit) (fill on : Bool) (vs : List (List FVal)) (grp : Nat) : List FVal :=
  if g.act.testBit grp then loadedVals g vs grp
  else fillVals bi fill on (match groupPlace g grp with | some p => p.2 | none => 8 * (grp % 8))

/-- One output row of a gated drain. -/
structure GatedRow where
  /-- the elements, the block scales and what their conversion counts -/
  out    : List Nat × List Nat × ConvCount
  /-- what the conversion of the shadow lanes counts, before the fill replaces them -/
  shadow : ConvCount
  fills  : Nat
  samples : Nat
  misses : Nat
deriving DecidableEq, Repr

/-- The output row from the chunk rows (R230, R231): the row as assembled is converted and its shadow groups are tested; the row
with the fills is converted and written. In an MX format the shadow lanes are counted in the blocks of the assembled row
(DESIGN CHOICE, log entry 149). -/
def gatedRow (g : GateMask) (f eps : Nat) (bi : Option BankInit) (fill on : Bool) (vs : List (List FVal)) : GatedRow :=
  let groups := List.range g.nGroups
  let sampled := groups.filter fun x => g.shadow.testBit x
  let lanes := convertedVals f (convVals f (groups.flatMap fun x => loadedVals g vs x))
  { out := convVals f (groups.flatMap fun x => outputVals g bi fill on vs x),
    shadow := (convVals f (groups.flatMap fun x =>
      if g.shadow.testBit x && !g.act.testBit x then loadedVals g vs x else List.replicate 8 (.fin false 0 0))).2.2,
    fills := (groups.filter fun x => !g.act.testBit x).length,
    samples := sampled.length,
    misses := (sampled.filter fun x => sampleMiss eps ((lanes.drop (8 * x)).take 8)).length }

/-- Accumulate a gate's samples and misses of the frame. -/
def addGateCnt (c : CoreId) (gate samples misses : Nat) (s : State) : State :=
  s.modCore c fun k =>
    let x := (sget gate k.gateCnt).getD (0, 0)
    { k with gateCnt := sput gate (x.1 + samples, x.2 + misses) k.gateCnt }

/-- The rows of a gated drain; the flags are an uncorrectable line and a row that traps. -/
def gatedRows (c : CoreId) (o : Op) (g : GateMask) (b f r0 count rl eps : Nat) : Nat → Nat → State → Bool × Bool × State
  | 0, _, s => (false, false, s)
  | n + 1, i, s =>
    let on := bitOf o.w1 17
    let bi := bankOf (s.core c).array b
    let x := gatedChunks c b r0 count i on (List.range (gmChunks g)) s
    let row := gatedRow g f eps bi (bitOf o.w1 22) on x.1
    let v := row.out
    let bad := x.2.1 || (match bi with | some y => y.poison | none => false)
    let s := countConv c (v.2.2.plus row.shadow) x.2.2.2
    let s := bumpN (coreOff Reg.GATE_SKIP_CNT c) row.fills s
    let s := bumpN (coreOff Reg.GATE_SHADOW_CNT c) row.samples s
    let s := bumpN (coreOff Reg.GATE_MISS_CNT c) row.misses s
    let s := addGateCnt c g.gate row.samples row.misses s
    let w := writeRange c (lSc o.w0) 4 (fun _ => bad) (rl + 1) (low32 o.c + i * rl) 0 0 (fmtBits f * v.1.length)
      (packEls (fmtBits f) v.1) s
    let nb := v.2.1.length
    let y := if fmtMx f then
        let lo := 8 * nb * i
        writeRange c (lSa o.w0) 4 (fun _ => bad) (nb + 2) (low32 o.a + lo / 512) 0 (lo % 512) (8 * nb) (packEls 8 v.2.1) w.2
      else (false, w.2)
    let q := gatedRows c o g b f r0 count rl eps n (i + 1) y.2
    (w.1 || y.1 || q.1, x.2.2.1 || q.2.1, q.2.2)

/-- ACC_DRAIN, gated form. -/
def drainGated (c : CoreId) (o : Op) (b f : Nat) (s : State) : Start :=
  let m := fld o.w1 21 20
  let n := low32 o.n
  let r0 := fld o.w1 16 7
  let bm := bitOf o.w1 18
  if gmBusy (s.core c) m o.seq then .hold
  else match gmValid s c m with
  | none => .trap trapGateMask 0 s
  | some g =>
    let mode := (s.core c).array.mode
    if gmChunks g * n ≠ 0 && r0 + gmChunks g * n > (partOfRow mode r0 + 1) * accRowsOf mode then .trap trapArrayShape 0 s
    else
      let rl := cdiv (8 * g.nGroups * fmtBits f) 512
      let nb := if fmtMx f then cdiv (8 * g.nGroups) 32 else 0
      let t := firstCode [writeCheck s c o.seq (lSc o.w0) (low32 o.c) (rl * n),
        writeCheck s c o.seq (lSa o.w0) (low32 o.a) (cdiv (nb * n) 64),
        writeCheck s c o.seq (lSb o.w0) (low32 o.b) (if bm then cdiv n 512 else 0)]
      if t ≠ 0 then .trap t 0 s
      else
        let eps := fld (gateCfg s (s.core c).slot g.gate) 31 24
        let touched := (List.range n).map fun i => (List.range (gmChunks g)).any fun t =>
          ((sget (1024 * b + r0 + t * n + i) (s.core c).array.acc).map (·.touched)).getD false
        let r := gatedRows c o g b f r0 n rl eps n 0 s
        let s := if bm then writeBits c (lSb o.w0) (low32 o.b) (cdiv n 512) (packEls 1 (touched.map b2n)) (fun _ => false) r.2.2
          else r.2.2
        if r.1 then bankEcc c (partOfRow mode r0) r0 b s
        else if r.2.1 || arrayFailed s c then checkTrap c s
        else .done s

/-- ACC_DRAIN (R178, R230, R276). -/
def startAccDrain (c : CoreId) (o : Op) (s : State) : Start :=
  let a := (s.core c).array
  let f := fld o.w1 4 0
  let n := low32 o.n
  if a.stopped then .hold
  else if !(upperZero o.a && upperZero o.b && upperZero o.c && upperZero o.n) || fld o.w1 6 5 = 3 then .trap trapRange 0 s
  else if !arrayFmt f then .trap trapFmt 0 s
  else match pickBank a (fld o.w1 6 5) false with
  | none => .trap trapArrayShape 0 s
  | some b =>
    if n > 1024 || (!bitOf o.w1 19 && fld o.w1 16 7 + n > 1024) then .trap trapArrayShape 0 s
    else if bitOf o.w1 19 then drainGated c o b f s
    else drainPlain c o b f s

end Sys2Proof.Machine
end

