-- ==== Sys2Proof/Machine/Scatter.lean ====
section
/-! DEFINITION. The scatter accumulator: SCA_INIT, SCA_ADD, SCA_DRAIN (R235 to R240). -/

namespace Sys2Proof.Machine

/-- Lines of an input pair of V lanes (Table 12.2). -/
def scaLin (v : Nat) : Nat := 1 + cdiv (v - 14) 16
/-- Lines of a slot's state. -/
def scaL (v : Nat) : Nat := cdiv v 16
/-- Capacity of the index with a value shelf (R235). -/
def scaCap (s : State) (c : CoreId) (sca : ScaSt) : Nat := min 32768 (seLen (shelfEnt s c sca.shelf) / scaL sca.lanes)

/-- SCA_INIT (R235). -/
def startScaInit (c : CoreId) (o : Op) (s : State) : Start :=
  let v := fld o.w0 38 32
  let sh := fld o.w0 29 24
  if (s.core c).active.any (fun a => a.op.mn == .scaAdd) then .hold
  else if v = 0 || v > 64 then .trap trapRange 0 s
  else
    let t := runCheck s c sh 0 1
    if t ≠ 0 then .trap t 0 s
    else .done (s.modCore c fun k => { k with sca := ⟨true, false, sh, v, bitOf o.w0 39, [], 0, 0⟩ })

/-- The two candidate buckets of a key (R236). -/
def scaBuckets (key : Nat) : Nat × Nat :=
  let h := (crc32cRaw 0xFFFFFFFF#32 (bytesLE 8 key)).toNat
  let b0 := h % 4096
  let b1 := (h / 4096) % 4096
  (b0, if b1 = b0 then b1 ^^^ 1 else b1)

/-- The bucket a new key takes: the less full one with a free way, b0 on a tie; none when both are full. -/
def scaPlace (keys : List ScaKey) (b : Nat × Nat) : Option Nat :=
  let n0 := (keys.filter (·.bucket == b.1)).length
  let n1 := (keys.filter (·.bucket == b.2)).length
  if n0 ≥ 8 && n1 ≥ 8 then none else if n0 ≤ n1 then some b.1 else some b.2

/-- The lanes of a pair from its lines (Table 12.2). -/
def pairLanes (v : Nat) (ls : List DLine) : List (BitVec 32) :=
  match ls with
  | [] => []
  | l :: r => (((List.range 14).map fun i => half32 l.data (i + 2)) ++ fourLines r).take v

/-- A slot's lanes as lines. -/
def slotLines (v : Nat) (lanes : List (BitVec 32)) (poison : Bool) : List DLine :=
  (linesOfNat (scaL v) (packEls 32 (lanes.map (·.toNat)))).map fun d => ⟨d, poison⟩

/-- A run of SCA_ADD: the spill messages, the key of the pair before, the trap code. -/
structure ScaRun where
  spill : List Msg
  last  : Option Nat
  trap  : Nat
deriving DecidableEq, Repr

/-- Base and lines of a core's spill ring: a ring that does not lie wholly inside the slot's cellar acts as one of no lines
(R238, R345). -/
def scaRing (s : State) (c : CoreId) : Nat × Nat :=
  let base := fld (s.reg (coreOff Reg.SCA_SPILL_BASE c)) 39 0
  let total := fld (s.reg (coreOff Reg.SCA_SPILL_LINES c)) 20 0
  (base, if inCellar s (s.core c).slot base total then total else 0)

/-- A spill of a pair's lines (R236, R238). -/
def scaSpill (c : CoreId) (o : Op) (ls : List DLine) (r : ScaRun) (s : State) : ScaRun × State :=
  let k := s.core c
  let pos := k.sca.spillPos
  let ring := scaRing s c
  let base := ring.1
  if pos + ls.length > ring.2 then ({ r with trap := trapSpillFull }, s)
  else
    let t := extentCheck s k.slot (base + 64 * pos) ls.length false
    if t ≠ 0 then ({ r with trap := t }, s)
    else
      let msgs := ls.mapIdx fun i d =>
        let a := base + 64 * (pos + i)
        ({ kind := .memWrite, src := .core c, dst := .mem, seq := o.seq, slot := k.slot, addr := a,
           line := sealLine (saltAddr a) d } : Msg)
      ({ r with spill := r.spill ++ msgs }, bumpC c Reg.SCA_SPILL_CNT (s.modCore c fun k => { k with
        sca := { k.sca with spillPos := pos + ls.length, spilled := k.sca.spilled + 1 } }))

/-- One pair (R236, R237, R240). -/
def scaPair (c : CoreId) (o : Op) (ls : List DLine) (r : ScaRun) (s : State) : ScaRun × State :=
  let sca := (s.core c).sca
  let w := match ls with | l :: _ => bitsAt l.data 0 64 | [] => 0
  if anyPoison ls then
    ({ r with last := none }, bumpC c Reg.SCA_POISON_DROP (s.modCore c fun k => { k with sca := { k.sca with poisoned := true } }))
  else if w.testBit 63 then ({ r with last := none }, s)
  else
    let key := w % 2 ^ 63
    let s := bumpC c Reg.SCA_PAIR_CNT s
    let s := if r.last = some key then bumpC c Reg.SCA_HOT_CNT s else s
    let r := { r with last := some key }
    let lanes := pairLanes sca.lanes ls
    match sca.keys.findIdx? (·.key == key) with
    | some j =>
      let q := shelfReadN c sca.shelf (j * scaL sca.lanes) 7 (scaL sca.lanes) s
      if q.2.1 then ({ r with trap := trapBankEcc }, q.2.2)
      else
        let sum := (List.zipWith (laneAdd sca.isInt) (fourLines q.1) lanes).map (if sca.isInt then id else canonF32)
        let rest := (fourLines q.1).drop sca.lanes
        (r, shelfWriteN c sca.shelf (j * scaL sca.lanes) (slotLines sca.lanes (sum ++ rest) (anyPoison q.1)) q.2.2)
    | none =>
      match (if sca.keys.length < scaCap s c sca then scaPlace sca.keys (scaBuckets key) else none) with
      | some b =>
        let s := bumpC c Reg.SCA_NEW_CNT (s.modCore c fun k => { k with sca := { k.sca with keys := k.sca.keys ++ [⟨key, b⟩] } })
        (r, shelfWriteN c sca.shelf (sca.keys.length * scaL sca.lanes) (slotLines sca.lanes lanes false) s)
      | none => scaSpill c o ls r s

/-- The pairs of an SCA_ADD in order. -/
def scaPairs (c : CoreId) (o : Op) : Nat → Nat → ScaRun → State → ScaRun × State
  | 0, _, r, s => (r, s)
  | n + 1, line, r, s =>
    if r.trap ≠ 0 then (r, s)
    else
      let lin := scaLin (s.core c).sca.lanes
      let q := shelfReadN c (lSa o.w0) line 7 lin s
      if q.2.1 then ({ r with trap := trapBankEcc }, q.2.2)
      else
        let x := scaPair c o q.1 r q.2.2
        scaPairs c o n (line + lin) x.1 x.2

/-- SCA_ADD (R236). It completes when its spill lines are acknowledged. -/
def startScaAdd (c : CoreId) (o : Op) (s : State) : Start :=
  let sca := (s.core c).sca
  let n := low32 o.n
  if !(upperZero o.a && upperZero o.n) || n > 1048575 then .trap trapRange 0 s
  else if !sca.init then .trap trapScaInit 0 s
  else
    let t := firstCode [runCheck s c (lSa o.w0) (low32 o.a) (n * scaLin sca.lanes),
      writeCheck s c o.seq sca.shelf 0 (if n = 0 then 0 else 1)]
    if t ≠ 0 then .trap t 0 s
    else
      let r := scaPairs c o n (low32 o.a) ⟨[], none, 0⟩ s
      if r.1.trap ≠ 0 then .trap r.1.trap 0 (r.1.spill.foldl (fun s m => s.send m) r.2)
      else launch c o [] r.1.spill r.2

/-- SCA_DRAIN (R239, R240). -/
def startScaDrain (c : CoreId) (o : Op) (s : State) : Start :=
  let sca := (s.core c).sca
  let n := sca.keys.length
  if (s.core c).active.any (fun a => a.op.mn == .scaAdd) then .hold
  else if !upperZero o.c then .trap trapRange 0 s
  else if !sca.init then .trap trapScaInit 0 s
  else
    let t := writeCheck s c o.seq (lSc o.w0) (low32 o.c) (cdiv n 8)
    if t ≠ 0 then .trap t 0 s
    else
      let w := writeRange c (lSc o.w0) 7 (fun _ => sca.poisoned) (cdiv n 8 + 1) (low32 o.c) 0 0 (64 * n)
        (packEls 64 (sca.keys.map (·.key))) s
      if w.1 then .trap trapBankEcc 0 w.2
      else .done (wrSs c [(lRd o.w0, BitVec.ofNat 64 n), (lRd o.w0 + 1, BitVec.ofNat 64 sca.spilled),
        (lRd o.w0 + 2, BitVec.ofNat 64 sca.spillPos)] w.2)

end Sys2Proof.Machine
end

