-- ==== Sys2Proof/Machine/Select.lean ====
section
/-! DEFINITION. TOPK and MERGE: their start on the select port, the SMU's contexts and its results (R281, R284 to R296). -/

namespace Sys2Proof.Machine

/-! ## On the core -/

/-- Lines of a result block (R288). -/
def blockLines (k : Nat) : Nat := 1 + cdiv k 8

/-- TOPK at the head of the SELECT queue (R281, R289): checked, then its request waits for an SMU context. -/
def startTopk (c : CoreId) (o : Op) (s : State) : Start :=
  let f := fld o.w1 4 0
  let l := fld o.w1 29 5
  let k := fld o.w1 42 30
  let n := low32 o.n
  if !(upperZero o.a && upperZero o.c && upperZero o.n) || n > 1048575 || k = 0 || k > 4096 || l = 0 || l > 2 ^ 24 then
    .trap trapRange 0 s
  else if !selectFmt f then .trap trapFmt 0 s
  else
    let t := firstCode [runCheck s c (lSa o.w0) (low32 o.a) (n * cdiv (l * fmtBits f) 512),
      writeCheck s c o.seq (lSc o.w0) (low32 o.c) (n * blockLines k)]
    if t ≠ 0 then .trap t 0 s
    else if n = 0 then .done s
    else launch c o [] [{ kind := .smuWork, src := .core c, dst := .smu, seq := o.seq, slot := (s.core c).slot }] s

/-- MERGE at the head of the SELECT queue. -/
def startMerge (c : CoreId) (o : Op) (s : State) : Start :=
  let f := fld o.w1 4 0
  let ki := fld o.w1 17 5
  let ko := fld o.w1 42 30
  let n := low32 o.n
  if !(upperZero o.a && upperZero o.c && upperZero o.n) || n = 0 || n > 64 || ki = 0 || ki > 4096 || ko = 0 || ko > 4096 then
    .trap trapRange 0 s
  else if !selectFmt f then .trap trapFmt 0 s
  else
    let t := firstCode [runCheck s c (lSa o.w0) (low32 o.a) (n * blockLines ki),
      writeCheck s c o.seq (lSc o.w0) (low32 o.c) (blockLines ko)]
    if t ≠ 0 then .trap t 0 s
    else launch c o [] [{ kind := .smuWork, src := .core c, dst := .smu, seq := o.seq, slot := (s.core c).slot }] s

/-! ## Ordering -/

/-- Insert into a list sorted by a strict order; equal elements keep their order. -/
def insertBy {α : Type} (before : α → α → Bool) (x : α) : List α → List α
  | [] => [x]
  | y :: ys => if before x y then x :: y :: ys else y :: insertBy before x ys

/-- A stable sort. -/
def sortBy {α : Type} (before : α → α → Bool) (l : List α) : List α := l.foldl (fun acc x => insertBy before x acc) []

/-! ## Sums (R287) -/

/-- A sum field and whether it is special: an FP32 sum rounded once, or a 64-bit integer sum saturated. -/
def sumField (f : Nat) (vs : List FVal) (is : List Int) : Nat × Bool :=
  if fmtFloat f then
    match fsum vs with
    | .nan => (0x7FC00000, true)
    | .inf n => ((if n then 0xFF800000 else 0x7F800000), true)
    | v => let b := laneOf v; (b.toNat, !ffinite (f32 b))
  else
    let t := is.foldl (· + ·) 0
    let m : Int := 2 ^ 63 - 1
    if t > m then (wrapInt 64 m, true) else if t < -m then (wrapInt 64 (-m), true) else (wrapInt 64 t, false)

/-- The value of a record's value field as a float. -/
def recF (v : Nat) : FVal := fpDecode 0 v
/-- The value of a record's value field as an integer. -/
def recI (v : Nat) : Int := asInt 32 v
/-- The ordering key of a record's value field. -/
def recKey (f v : Nat) : Nat := if fmtFloat f then keyF32 (BitVec.ofNat 32 v) else v ^^^ 0x80000000

/-! ## Headers and blocks (Tables 15.1, 15.2) -/

/-- A result block's header. -/
structure SelHdr where
  nValid : Nat
  k      : Nat
  total  : Nat
  nNan   : Nat
  selSum : Nat
  outSum : Nat
  frame  : Nat
  fmt    : Nat
  flags  : Nat
  core   : Nat
  dev    : Nat
  nDup   : Nat
  row    : Nat
deriving DecidableEq, Repr

/-- The header as a line. -/
def selHdrLine (h : SelHdr) : BitVec 512 :=
  BitVec.ofNat 512 (h.nValid + h.k * 2 ^ 32 + h.total * 2 ^ 64 + h.nNan * 2 ^ 96 + h.selSum * 2 ^ 128 + h.outSum * 2 ^ 192 +
    h.frame * 2 ^ 256 + h.fmt * 2 ^ 288 + h.flags * 2 ^ 296 + h.core * 2 ^ 304 + h.dev * 2 ^ 320 + h.nDup * 2 ^ 352 +
    h.row * 2 ^ 384)

/-- A header read from a line. -/
def selHdrOf (d : BitVec 512) : SelHdr :=
  { nValid := bitsAt d 0 32, k := bitsAt d 32 32, total := bitsAt d 64 32, nNan := bitsAt d 96 32, selSum := bitsAt d 128 64,
    outSum := bitsAt d 192 64, frame := bitsAt d 256 32, fmt := bitsAt d 288 5, flags := bitsAt d 296 4, core := bitsAt d 304 5,
    dev := bitsAt d 320 16, nDup := bitsAt d 352 32, row := bitsAt d 384 32 }

/-- A block: header line, records, fill, zeros past k (R286, R288). -/
def selBlock (h : SelHdr) (recs : List (Nat × Nat)) (poison : Bool) : List DLine :=
  let rs := recs.map (fun r => r.1 + r.2 * 2 ^ 32) ++ List.replicate (h.k - recs.length) (fillRec h.fmt)
  (selHdrLine h :: linesOfNat (cdiv h.k 8) (packEls 64 rs)).map fun d => ⟨d, poison⟩

/-! ## TOPK (R284, R285, R290) -/

/-- Candidates of a row in order: key, position, element. -/
def topkCands (f : Nat) (els : List Nat) : List (Nat × Nat × Nat) :=
  sortBy (fun a b => decide (b.1 < a.1))
    ((els.mapIdx fun j e => (keyElem f e, j, e)).filter fun c => !elemNan f c.2.2)

/-- Passes after the first that the method of bins takes (R290). -/
def extraPasses (l k : Nat) (cands : List (Nat × Nat × Nat)) : Nat :=
  if l ≤ 8192 then 0
  else match cands[k - 1]? with
    | none => 1
    | some c =>
      let cnt (b : Nat) : Nat := (cands.filter fun x => x.1 / 2 ^ (32 - b) == c.1 / 2 ^ (32 - b)).length
      if cnt 8 ≤ 8192 then 1 else if cnt 16 ≤ 8192 then 2 else if cnt 24 ≤ 8192 then 3 else 4

/-- The result of one row: header, records, NaN entries, special sums. -/
def topkRow (s : State) (c : CoreId) (f k row : Nat) (els : List Nat) : SelHdr × List (Nat × Nat) × Nat :=
  let cands := topkCands f els
  let sel := cands.take k
  let out := cands.drop k
  let val (x : Nat × Nat × Nat) : Nat := (widen f x.2.2).toNat
  let sum (l : List (Nat × Nat × Nat)) := sumField f (l.map fun x => recF (val x)) (l.map fun x => recI (val x))
  let a := sum sel
  let b := sum out
  ({ nValid := sel.length, k := k, total := cands.length, nNan := els.length - cands.length, selSum := a.1, outSum := b.1,
     frame := (s.core c).cur.toNat, fmt := f, flags := b2n (a.2 || b.2), core := (s.core c).logical,
     dev := s.coordX + s.coordY * 256, nDup := 0, row := row },
   sel.map fun x => (x.2.1, val x), b2n a.2 + b2n b.2)

/-! ## MERGE (R293 to R295) -/

/-- An input block: its header, its records, whether any line is poisoned. -/
structure InBlock where
  hdr    : SelHdr
  recs   : List (Nat × Nat)
  poison : Bool
deriving DecidableEq, Repr

/-- The input blocks of a MERGE from their lines (R293). -/
def inBlocks (kin : Nat) : Nat → List DLine → List InBlock
  | 0, _ => []
  | n + 1, ls =>
    let b := ls.take (blockLines kin)
    let h := selHdrOf (match b with | l :: _ => l.data | [] => 0)
    let ws := (keyWords (b.drop 1)).take (min h.nValid kin)
    ⟨h, ws.map fun w => (w % 2 ^ 32, w / 2 ^ 32), anyPoison b⟩ :: inBlocks kin n (ls.drop (blockLines kin))

/-- The checks of R293 on a block. -/
def blockOk (f kin : Nat) (b : InBlock) : Bool :=
  b.hdr.fmt == f && b.hdr.k == kin && decide (b.hdr.nValid ≤ kin) &&
    (List.zipWith (fun x y => decide (recKey f y.2 ≤ recKey f x.2)) b.recs (b.recs.drop 1)).all id

/-- Source rank (R294). -/
def srcRank (h : SelHdr) : Nat := h.core * 65536 + (h.dev / 256) * 256 + h.dev % 256

/-- Survivors of an ordered list of records: the first of each index. -/
def survivors : List (Nat × Nat) → List Nat → List (Nat × Nat)
  | [], _ => []
  | r :: rs, seen => if seen.contains r.1 then survivors rs seen else r :: survivors rs (r.1 :: seen)

/-- The merged block: header, records, NaN records and duplicates found, special sums. -/
def mergeBlocks (s : State) (c : CoreId) (f ko : Nat) (bs : List InBlock) : SelHdr × List (Nat × Nat) × Nat × Nat × Nat :=
  let all := bs.flatMap fun b => (b.recs.filter fun r => r.1 != 0xFFFFFFFF).map fun r => (recKey f r.2, srcRank b.hdr, r)
  let nans := all.filter fun x => fmtFloat f && f32nan (BitVec.ofNat 32 x.2.2.2)
  let ok := all.filter fun x => !(fmtFloat f && f32nan (BitVec.ofNat 32 x.2.2.2))
  let ord := sortBy (fun a b => decide (b.1 < a.1) || (a.1 == b.1 && decide (a.2.1 < b.2.1))) ok
  let sv := survivors (ord.map (·.2.2)) []
  let dups := ord.length - sv.length
  let sel := sv.take ko
  let out := sv.drop ko
  let sat (n : Nat) := min n 0xFFFFFFFF
  let a := sumField f (sel.map fun r => recF r.2) (sel.map fun r => recI r.2)
  let b := sumField f ((bs.map fun b => recF (b.hdr.outSum % 2 ^ 32)) ++ out.map fun r => recF r.2)
    ((bs.map fun b => asInt 64 b.hdr.outSum) ++ out.map fun r => recI r.2)
  let total := (bs.map (·.hdr.total)).foldl (· + ·) 0 - dups
  let low := sortBy (fun a b => decide (srcRank a < srcRank b)) (bs.map (·.hdr))
  let src := low.head?
  let cur := (s.core c).cur.toNat
  let anyFlag (i : Nat) : Bool := bs.any fun b => b.hdr.flags.testBit i
  let flags := b2n (a.2 || b.2 || anyFlag 0) + 2 * b2n (anyFlag 1 || decide (total > 0xFFFFFFFF)) +
    4 * b2n (bs.any fun b => b.hdr.frame != cur) + 8
  ({ nValid := sel.length, k := ko, total := sat total, nNan := sat ((bs.map (·.hdr.nNan)).foldl (· + ·) 0 + nans.length),
     selSum := a.1, outSum := b.1, frame := cur, fmt := f, flags := flags, core := (src.map (·.core)).getD 0,
     dev := (src.map (·.dev)).getD 0, nDup := sat ((bs.map (·.hdr.nDup)).foldl (· + ·) 0 + dups), row := 0 },
   sel, nans.length, dups, b2n a.2 + b2n b.2)

/-! ## Contexts -/

/-- What resolving a context's next row or merge comes to: the state, whether the instruction has finished, a trap code. -/
structure SmuEnd where
  fin  : Bool
  trap : Nat
deriving DecidableEq, Repr

/-- Count a poisoned result block (R296). -/
def smuPoison (bad : Bool) (s : State) : State := if bad then raise evSmuE2e (bump Reg.SMU_POISON_CNT s) else s

/-- The lines that the select port sends the SMU for row `row` of a TOPK, or for a MERGE (R281, R293). The flag is an uncorrectable
line. -/
def smuLines (c : CoreId) (o : Op) (row : Nat) (s : State) : List DLine × Bool × State :=
  let n := if o.mn = .topk then cdiv (fld o.w1 29 5 * fmtBits (fld o.w1 4 0)) 512 else low32 o.n * blockLines (fld o.w1 17 5)
  shelfReadN c (lSa o.w0) (low32 o.a + row * n) 8 n s

/-- The lines of a core as the SMU has checked them: one whose end-to-end check failed counts as poisoned (R296). -/
def smuChecked (c : CoreId) (errs : List LineErr) (ls : List DLine) : List DLine :=
  ls.mapIdx fun j d => if errs.any fun e => e.core == c && e.spot == .sent j then { d with poison := true } else d

/-- The elements of a row's lines. -/
def rowEls (f l : Nat) (ls : List DLine) : List Nat :=
  let bits := ls.foldr (fun d acc => d.data.toNat + 2 ^ 512 * acc) 0
  (List.range l).map fun j => (bits >>> (fmtBits f * j)) % 2 ^ fmtBits f

/-- Resolve row `row` of a TOPK from its lines. -/
def resolveTopk (c : CoreId) (o : Op) (row : Nat) (ls : List DLine) (s : State) : SmuEnd × State :=
  let f := fld o.w1 4 0
  let l := fld o.w1 29 5
  let k := fld o.w1 42 30
  let els := rowEls f l ls
  let t := topkRow s c f k row els
  let s := bumpN Reg.SMU_EXTRA_PASS (extraPasses l k (topkCands f els)) (bump Reg.SMU_TOPK_ROWS s)
  let s := bumpN Reg.SMU_SUM_FLAG t.2.2 (bumpN Reg.SMU_NAN_CNT t.1.nNan s)
  let s := shelfWriteN c (lSc o.w0) (low32 o.c + row * blockLines k) (selBlock t.1 t.2.1 (anyPoison ls)) (smuPoison (anyPoison ls) s)
  (⟨decide (low32 o.n ≤ row + 1), 0⟩, s)

/-- Resolve a MERGE from its lines. A block that a poisoned line reaches is not checked (log entry 153). -/
def resolveMerge (c : CoreId) (o : Op) (ls : List DLine) (s : State) : SmuEnd × State :=
  let f := fld o.w1 4 0
  let kin := fld o.w1 17 5
  let bs := inBlocks kin (low32 o.n) ls
  if !bs.all fun b => b.poison || blockOk f kin b then (⟨true, trapRange⟩, bump Reg.SMU_INPUT_FAIL s)
  else
    let t := mergeBlocks s c f (fld o.w1 42 30) bs
    let s := bumpN Reg.SMU_SUM_FLAG t.2.2.2.2 (bumpN Reg.SMU_DUP_CNT t.2.2.2.1 (bumpN Reg.SMU_NAN_CNT t.2.2.1 (bump Reg.SMU_MERGE_CNT s)))
    (⟨true, 0⟩, shelfWriteN c (lSc o.w0) (low32 o.c) (selBlock t.1 t.2.1 (anyPoison ls)) (smuPoison (anyPoison ls) s))

end Sys2Proof.Machine
end

