-- ==== Sys2Proof/Machine/Issue.lean ====
section
/-! DEFINITION. The sequencer and the unit queues of a core: fetch, issue, order between queues, semaphores, FRAME_WAIT and
COMMIT (R149, R150, R241 to R261). -/

namespace Sys2Proof.Machine

/-! ## Signals (R251 to R253) -/

/-- Put a count into a semaphore's count or held count. -/
def setSem (k : CoreSt) (t : Nat) (v : Sem) : CoreSt := if h : t < 16 then { k with sems := k.sems.set t v } else k
/-- A semaphore. -/
def semOf (k : CoreSt) (t : Nat) : Sem := if h : t < 16 then k.sems[t] else ⟨0, 0⟩

/-- A trap of the sequencer or of a signal: recorded with queue 7 (R261). -/
def seqTrap (c : CoreId) (code pc : Nat) (w : Word) (s : State) : State := coreTrap c code 7 pc w 0 s

/-- A signal of n arrives at semaphore t with a stamp and the sender's trunk slot (R251): the state, and whether a count passed
65,535. -/
def addSignal (c : CoreId) (t n stamp slot : Nat) (s : State) : Bool × State :=
  let k := s.core c
  let d := (stamp + 256 - k.cur.toNat % 256) % 256
  let v := semOf k t
  if slot ≠ k.slot || k.issue = .unplaced then (false, bumpC c Reg.SEM_STALE_CNT s)
  else if d = 0 then (decide (v.count + n > 65535), s.setCore c (setSem k t { v with count := min 65535 (v.count + n) }))
  else if d = 1 then (decide (v.held + n > 65535), s.setCore c (setSem k t { v with held := min 65535 (v.held + n) }))
  else (false, bumpC c Reg.SEM_STALE_CNT s)

/-- A signal from another core or from an engine: an overflow belongs to no instruction of the core and is recorded with queue 7
(log entry 152). -/
def applySignal (c : CoreId) (t n stamp slot : Nat) (s : State) : State :=
  let r := addSignal c t n stamp slot s
  if r.1 then seqTrap c trapSemOverflow (s.core c).pc 0 r.2 else r.2

/-! ## The common and frame instructions in their queues -/

/-- WAIT at the head of its queue (R252). -/
def startWait (c : CoreId) (o : Op) (s : State) : Start :=
  let v := semOf (s.core c) (iT o.w0)
  if v.count < iN o.w0 then .hold
  else .done (s.modCore c fun k => setSem k (iT o.w0) { v with count := v.count - iN o.w0 })

/-- Does an earlier instruction of the queue still run? -/
def queueBusy (k : CoreSt) (q : Nat) : Bool := k.active.any fun a => a.op.q == q

/-- A core's signal to itself: an overflow is the instruction's trap. -/
def selfSignal (c : CoreId) (o : Op) (s : State) : Start :=
  let k := s.core c
  let r := addSignal c (iT o.w0) (iN o.w0) (k.cur.toNat % 256) k.slot s
  if r.1 then .trap trapSemOverflow 0 r.2 else .done r.2

/-- SIG (R252): after every earlier instruction of its queue has completed. -/
def startSig (c : CoreId) (o : Op) (s : State) : Start :=
  if queueBusy (s.core c) o.q then .hold else selfSignal c o s

/-- SIGR (R253): to a core of this device under R163, to one of another device through the links. -/
def startSigr (c : CoreId) (o : Op) (s : State) : Start :=
  let k := s.core c
  let stamp := k.cur.toNat % 256
  let l := fld o.a 4 0
  let x := fld o.b 7 0
  let y := fld o.b 15 8
  if queueBusy k o.q then .hold
  else if iYrd o.w0 && !(x == s.coordX && y == s.coordY) then
    match transmit { kind := .signal, src := .core c, dst := .dev x y l, seq := o.seq, slot := k.slot, idx := iT o.w0, k := iN o.w0,
                     stamp := stamp } s with
    | (some s', _) => .done s'
    | (none, s') => .trap trapUnmapped 0 s'
  else match peerCore s c l with
  | none => .trap trapDenied 0 s
  | some t =>
    if t = c then selfSignal c o s
    else if !reachable s t then .trap trapDenied 0 s
    else .done (s.send { kind := .signal, src := .core c, dst := .core t, slot := k.slot, idx := iT o.w0, k := iN o.w0, stamp := stamp })

/-- NOP does nothing. -/
def startNop (_ : CoreId) (_ : Op) (s : State) : Start := .done s

/-- TRAP (Table 13.4). -/
def startTrap (_ : CoreId) (o : Op) (s : State) : Start := .trap trapSw (fld o.w0 47 32) s

/-- Is every instruction issued before `seq` complete? -/
def allBefore (k : CoreSt) (seq : Nat) : Bool :=
  k.active.all (fun a => decide (seq ≤ a.op.seq)) && k.queues.toList.all fun q => q.all fun o => decide (seq ≤ o.seq)

/-- The report of a core's gate counts to the collector, one message per gate (R232); the counts are then zero. -/
def sendGateCounts (c : CoreId) (s : State) : State :=
  let k := s.core c
  let s := k.gateCnt.foldl (fun s e => s.send
    { kind := .gateReport, src := .core c, dst := .sys, slot := k.slot, idx := e.1, k := e.2.1, stamp := e.2.2 }) s
  s.modCore c fun k => { k with gateCnt := [] }

/-- COMMIT at the head of the SCALAR queue (R43, R255): a second COMMIT of the frame has no effect. -/
def startCommit (c : CoreId) (o : Op) (s : State) : Start :=
  let k := s.core c
  if o.a ≠ k.cur.zeroExtend 64 || !k.fwDone then .trap trapCommitStale 0 s
  else if k.committed ≠ some o.seq then .done s
  else if !allBefore k o.seq then .hold
  else .done (sendGateCounts c (s.send { kind := .commit, src := .core c, dst := .sys, slot := k.slot, frame := k.cur }))

/-- Start the instruction at the head of a queue. -/
def startOp (c : CoreId) (o : Op) (s : State) : Start :=
  match o.mn with
  | .alu => startAlu c o s | .alui => startAlui c o s | .li => startLi c o s | .lui => startLui c o s
  | .cmp => startCmp c o s | .cmpi => startCmpi c o s | .plog => startPlog c o s | .ld => startLd c o s
  | .st => startSt c o s | .rds => startRds c o s | .wrs => startWrs c o s
  | .commit => startCommit c o s | .trap => startTrap c o s
  | .wait => startWait c o s | .sig => startSig c o s | .sigr => startSigr c o s | .nop => startNop c o s
  | .copy => startCopy c o s | .get => startGet c o s | .getx => startGetx c o s | .put => startPut c o s
  | .fetch => startFetch c o s | .store => startStore c o s | .storeRing => startStoreRing c o s
  | .gather => startGather c o s | .creditReq => startCreditReq c o s | .creditRet => startCreditRet c o s
  | .wload => startWload c o s | .mm => startMm c o s | .mmg => startMmg c o s | .mms => startMms c o s
  | .mmp => startMmp c o s | .accInit => startAccInit c o s | .accDrain => startAccDrain c o s | .part => startPart c o s
  | .vld => startVld c o s | .vst => startVst c o s | .valu => startValu c o s | .vfma => startVfma c o s
  | .vsf => startVsf c o s | .vcvt => startVcvt c o s | .vred => startVred c o s | .vbcast => startVbcast c o s
  | .vext => startVext c o s | .argmax => startArgmax c o s
  | .predGate => startPredGate c o s | .pack => startPack c o s | .matchLoad => startMatchLoad c o s
  | .matchProbe => startMatchProbe c o s | .scaInit => startScaInit c o s | .scaAdd => startScaAdd c o s
  | .scaDrain => startScaDrain c o s | .topk => startTopk c o s | .merge => startMerge c o s
  | .br | .brr | .call | .ret | .loop | .loopi | .qwait | .frameWait => .done s

/-! ## The queues (R248, R249, R267, R281) -/

/-- A queue of a core. -/
def queueOf (k : CoreSt) (q : Nat) : List Op := if h : q < 6 then k.queues[q] else []
/-- Replace a queue. -/
def setQueue (k : CoreSt) (q : Nat) (l : List Op) : CoreSt := if h : q < 6 then { k with queues := k.queues.set q l } else k

/-- Does an instruction's work still wait for a context of the Map Store or the SMU, its port sending nothing (R291, R300)? -/
def workWaiting (s : State) (c : CoreId) (seq : Nat) : Bool :=
  s.net.any fun m => (m.kind == .gather || m.kind == .smuWork) && m.src == .core c && m.seq == seq

/-- Has a select instruction a row whose lines its port has not sent? -/
def rowsLeft (s : State) (c : CoreId) (o : Op) : Bool :=
  s.smu.any fun x => x.core == c && x.seq == o.seq && o.mn == .topk && decide (x.row + 1 < low32 o.n)

/-- May the head of queue q start beside what the unit still runs? MOVE and SELECT start their next instruction once the
one before has issued its last request (R267), SELECT with at most four in progress; the other units when it has completed. -/
def unitFree (s : State) (c : CoreId) (q : Nat) : Bool :=
  let mine := (s.core c).active.filter fun a => a.op.q == q
  if q = 1 then mine.all fun a => a.todo.isEmpty && !workWaiting s c a.op.seq
  else if q = 5 then
    mine.all (fun a => a.todo.isEmpty && !workWaiting s c a.op.seq && !rowsLeft s c a.op) && decide (mine.length < 4)
  else mine.isEmpty

/-- Has the core trapped? -/
def isTrapped (k : CoreSt) : Bool := k.issue == .trapped

/-- Try to start the head of queue q; none when nothing starts. A trapped core starts nothing more (log entry 18). -/
def startHead (c : CoreId) (q : Nat) (s : State) : Option State :=
  let k := s.core c
  if isTrapped k then none
  else match queueOf k q with
  | [] => none
  | o :: rest =>
    if !unitFree s c q then none
    else
      let pop (s : State) : State := s.modCore c fun k => setQueue k q rest
      match startOp c o s with
      | .hold => none
      | .done s' => some (pop s')
      | .active a s' => some ((pop s').modCore c fun k => { k with active := k.active ++ [a] })
      | .trap code arg s' => some (coreTrap c code q o.pc o.w0 arg (pop s'))

/-- Try every head once, in ascending queue number (R252); none when none starts. -/
def pumpPass (c : CoreId) : List Nat → State → Option State
  | [], _ => none
  | q :: qs, s =>
    match startHead c q s with
    | none => pumpPass c qs s
    | some s' => some ((pumpPass c qs s').getD s')

/-- Pass over the heads until none starts: the instruction behind a head that starts is tried in the next pass. -/
def pumpN (c : CoreId) : Nat → State → State
  | 0, s => s
  | n + 1, s =>
    match pumpPass c (List.range 6) s with
    | some s' => pumpN c n s'
    | none => s

/-- Run a core's queues as far as they go: at most 96 instructions wait. -/
def pump (c : CoreId) (s : State) : State := pumpN c 97 s

/-- Send the remaining requests of started instructions while there is room (R162). -/
def resumeTodo (c : CoreId) : List Active → State → State
  | [], s => s
  | a :: r, s =>
    if a.todo.isEmpty then resumeTodo c r s
    else
      let x := sendTodo (roomFor (s.core c) a.op.mn) a s
      let s := x.2.2.modCore c fun k => { k with active := k.active.map fun y => if y.op.seq = a.op.seq then x.1 else y }
      let s := if x.2.1 then coreTrap c trapUnmapped a.op.q a.op.pc a.op.w0 0 s else s
      resumeTodo c r s

/-- Complete started instructions that wait for nothing more: their registers are written (R248). SELECT instructions
complete in queue order (R281). -/
def complete (c : CoreId) (s : State) : State :=
  (s.core c).active.foldl (fun s a =>
    let ready := a.todo.isEmpty && a.wait == 0
    let blocked := a.op.q == 5 && (s.core c).active.any fun b => b.op.q == 5 && decide (b.op.seq < a.op.seq)
    if ready && !blocked then
      wrSs c a.regs (s.modCore c fun k => { k with active := k.active.filter fun b => b.op.seq != a.op.seq })
    else s) s

/-- After an answer: complete, send more, start more. -/
def settle (c : CoreId) (s : State) : State :=
  let s := complete c s
  let s := resumeTodo c (s.core c).active s
  pump c (complete c s)

/-- The started instruction with an identifier. -/
def findActive (k : CoreSt) (seq : Nat) : Option Active := k.active.find? fun a => a.op.seq == seq

/-- One answer less to wait for. -/
def answered (c : CoreId) (seq : Nat) (s : State) : State :=
  s.modCore c fun k => { k with active := k.active.map fun a => if a.op.seq = seq then { a with wait := a.wait - 1 } else a }

/-- A trap of a started instruction. -/
def activeTrap (c : CoreId) (seq code : Nat) (s : State) : State :=
  match findActive (s.core c) seq with
  | none => s
  | some a => coreTrap c code a.op.q a.op.pc a.op.w0 0
      (s.modCore c fun k => { k with active := k.active.filter fun b => b.op.seq != seq })

/-! ## Fetch and issue (R150, R242 to R247, R258, R259) -/

/-- What a fetch of the word at pc gives: a trap code, or the word and the one after it in its line. -/
structure Fetched where
  code : Nat
  w    : Word
  w1   : Word
deriving DecidableEq, Repr

/-- The fetch port reads one of the lines it keeps ahead: a storage error there is found and counted now; an uncorrectable line is
kept as such until the pc reaches it (R150, R154). A line that holds no error is read without effect. -/
def fetchAhead (c : CoreId) (sh line : Nat) (s : State) : State :=
  if runCheck s c sh line 1 ≠ 0 || !lineFaulty s c (physOf (shelfEnt s c sh) (workSecond s c sh) line) then s
  else
    let r := shelfRead c sh line 0 s
    if r.2.1 then r.2.2.modCore c fun k => { k with ahead := line :: k.ahead } else r.2.2

/-- Fetch at a core's pc from its code shelf, with the two lines ahead (R150). -/
def fetchWord (c : CoreId) (s : State) : Fetched × State :=
  let k := s.core c
  let sh := fld (s.actReg (coreOff Reg.CORE_ENTRY c)) 25 20
  let l := k.pc / 8
  let t := runCheck s c sh l 1
  if t ≠ 0 then (⟨t, 0, 0⟩, s)
  else
    let s := if k.ahead.isEmpty then s
      else s.modCore c fun k => { k with ahead := k.ahead.filter fun x => decide (l ≤ x) && decide (x ≤ l + 2) }
    let r := shelfRead c sh l 0 s
    let s' := fetchAhead c sh (l + 2) (fetchAhead c sh (l + 1) r.2.2)
    if r.2.1 || k.ahead.contains l then (⟨trapBankEcc, 0, 0⟩, s')
    else if r.1.poison then (⟨trapPoison, 0, 0⟩, s')
    else (⟨0, word64 r.1.data (k.pc % 8), word64 r.1.data (k.pc % 8 + 1)⟩, s')

/-- The mnemonic of the word at pc, or none where it traps with ILLEGAL_OP (R243, R244, R258). -/
def issueMn (k : CoreSt) (w w1 : Word) : Option Mn :=
  match decodeHead w with
  | none => none
  | some m =>
    if iLong w && (k.pc % 2 == 1 || k.loops.any fun l => l.stop == k.pc + 1) then none
    else if formOk m w w1 then some m else none

/-- The pc after the word at pc was issued or discarded: the back edges of the loops that end there (R258). -/
def backEdge : List LoopEnt → Nat → List LoopEnt × Nat
  | [], np => ([], np)
  | l :: r, np =>
    if l.stop ≠ np then (l :: r, np)
    else if l.left > 1 then ({ l with left := l.left - 1 } :: r, l.start)
    else backEdge r np

/-- Move past a word. The loop stack is listed innermost first. -/
def advance (np : Nat) (k : CoreSt) : CoreSt :=
  let r := backEdge k.loops np
  { k with loops := r.1, pc := r.2 % 2 ^ 20 }

/-- A taken BR or BRR pops the loops whose body does not contain the target (R259). -/
def branchTo (t : Nat) (k : CoreSt) : CoreSt :=
  let t := t % 2 ^ 20
  { k with pc := t, loops := k.loops.filter fun l => decide (l.start ≤ t) && decide (t < l.stop) }

/-- A target relative to the word after an instruction. -/
def relTarget (np : Nat) (w : Word) : Nat := (((np : Int) + sfld w 63 32) % 2 ^ 20).toNat

/-- Push a loop, or pass its body when its count is 0. -/
def pushLoop (c : CoreId) (pc np cnt len : Nat) (w : Word) (s : State) : State :=
  if cnt = 0 then s.modCore c fun k => { k with pc := (np + len) % 2 ^ 20 }
  else if (s.core c).loops.length ≥ 4 then seqTrap c trapLoopDepth pc w s
  else s.modCore c fun k => { k with loops := ⟨np, np + len, cnt⟩ :: k.loops, pc := np % 2 ^ 20 }

/-- Has every instruction issued before `limit` to the queues of `mask` completed (R250)? -/
def qwaitDone (k : CoreSt) (mask limit : Nat) : Bool :=
  (bitsSet 6 mask).all fun q => (queueOf k q).all (fun o => decide (limit ≤ o.seq)) &&
    k.active.all fun a => a.op.q != q || decide (limit ≤ a.op.seq)

/-- Resolve a control instruction or FRAME_WAIT at issue (R245, R250, R254, R258, R259). -/
def control (c : CoreId) (m : Mn) (w : Word) (s : State) : State :=
  let k := s.core c
  let pc := k.pc
  let np := pc + 1
  match m with
  | .br => s.modCore c (branchTo (relTarget np w))
  | .brr => s.modCore c (branchTo (fld (rdS k (iA w)) 19 0))
  | .call =>
    if k.rets.length ≥ 8 then seqTrap c trapCallDepth pc w s
    else s.modCore c fun k => { k with rets := (np % 2 ^ 20) :: k.rets, pc := relTarget np w }
  | .ret =>
    match k.rets with
    | [] => seqTrap c trapCallDepth pc w s
    | r :: rs => s.modCore c fun k => { k with rets := rs, pc := r }
  | .loop => pushLoop c pc np (low32 (rdS k (iA w))) (fld w 43 32) w s
  | .loopi => pushLoop c pc np (fld w 63 44) (fld w 43 32) w s
  | .qwait =>
    let s := s.modCore c (advance np)
    let mask := fld w 37 32
    if qwaitDone k mask k.nextSeq then s else s.modCore c fun k => { k with issue := .qwait mask k.nextSeq }
  | _ => (s.modCore c (advance np)).modCore c fun k => { k with issue := .frameWait (iD w) pc w }

/-- Is the instruction resolved by the sequencer (R245, R254)? FRAME_WAIT needs room in its queue, as it waits there; nothing is
issued behind it, so the model keeps it in the issue state alone. -/
def isControl (m : Mn) : Bool :=
  m == .br || m == .brr || m == .call || m == .ret || m == .loop || m == .loopi || m == .qwait || m == .frameWait

/-- Does an instruction touch a pending register (R246)? -/
def depStall (k : CoreSt) (m : Mn) (w w1 : Word) : Bool :=
  ((readsS m w w1 ++ writesS m w).any fun r => k.pendS.getLsbD r) ||
    ((readsP m w ++ writesP m w).any fun r => k.pendP.getLsbD r)

/-- Set the pending bits of the registers an instruction writes; s0 and p0 never have one. -/
def setPending (m : Mn) (w : Word) (k : CoreSt) : CoreSt :=
  { k with
    pendS := (writesS m w).foldl (fun b r => if r = 0 then b else b ||| BitVec.ofNat 32 (2 ^ r)) k.pendS,
    pendP := (writesP m w).foldl (fun b r => if r = 0 then b else b ||| BitVec.ofNat 8 (2 ^ r)) k.pendP }

/-- Issue a legal instruction whose predicate is 1 (R245 to R247). -/
def issueMnemonic (c : CoreId) (m : Mn) (w w1 : Word) (s : State) : State :=
  let k := s.core c
  if pairRange m w then seqTrap c trapRange k.pc w s
  else if depStall k m w w1 then bumpC c Reg.SEQ_STALL_DEP s
  else if (!isControl m || m == .frameWait) && (queueOf k (iQ w)).length ≥ 16 then bumpC c Reg.SEQ_STALL_QUEUE s
  else if isControl m then control c m w (bumpC c Reg.SEQ_ISSUE_CNT (s.modCore c (setPending m w)))
  else
    let o := capture k m k.pc w w1
    let s := s.modCore c fun k =>
      let k := setPending m w k
      let k := { k with nextSeq := k.nextSeq + 1, committed := if m = .commit && k.committed.isNone then some o.seq else k.committed }
      advance (o.pc + if iLong w then 2 else 1) (setQueue k (iQ w) (queueOf k (iQ w) ++ [o]))
    pump c (bumpC c Reg.SEQ_ISSUE_CNT s)

/-- The sequencer takes the next word of core `c`, when that word is an instruction of the commanded row (none stands for a
word that is illegal). Any other word, and a core that does not issue, leave the state as it is. -/
def issueStep (c : CoreId) (errs : List LineErr) (want : Option Mn) (s : State) : State :=
  let s1 := pump c (strike errs s)
  let k := s1.core c
  if k.issue ≠ .running || !domRun s1 c.val then s
  else
    let f := fetchWord c s1
    let s2 := f.2
    if f.1.code ≠ 0 then seqTrap c f.1.code k.pc 0 s2
    else
      let w := f.1.w
      let m := issueMn k w f.1.w1
      if m ≠ want then s
      else if !k.fwDone && k.pc == fld (s2.actReg (coreOff Reg.CORE_ENTRY c)) 19 0 && m != some .frameWait then
        seqTrap c trapEntry k.pc w s2
      else if iPr w ≠ 0 && k.pendP.getLsbD (iPr w) then bumpC c Reg.SEQ_STALL_DEP s2
      else if rdP k (iPr w) == iPn w then s2.modCore c (advance (k.pc + if iLong w then 2 else 1))
      else match m with
        | none => seqTrap c trapIllegal k.pc w s2
        | some m => issueMnemonic c m w f.1.w1 s2

/-- Does the next word of a running core stall: on a pending register, its predicate included, or on a full queue (R247)? -/
def stalled (c : CoreId) (s : State) : Bool :=
  let k := s.core c
  let f := (fetchWord c s).1
  f.code == 0 && ((iPr f.w != 0 && k.pendP.getLsbD (iPr f.w)) || (rdP k (iPr f.w) != iPn f.w &&
    (match issueMn k f.w f.w1 with
    | none => false
    | some m => depStall k m f.w f.w1 || ((!isControl m || m == .frameWait) && decide (16 ≤ (queueOf k (iQ f.w)).length)))))

/-- SEQ_STAT as a read returns it. -/
def seqStatVal (s : State) (c : CoreId) : Word :=
  let k := s.core c
  let st := match k.issue with
    | .unplaced => 0
    | .running => if stalled c s then 3 else 1
    | .frameWait _ _ _ => 2
    | .qwait _ _ => 3
    | .trapped => 4
  BitVec.ofNat 64 (k.pc % 2 ^ 20 + st * 2 ^ 20 + k.loops.length * 2 ^ 23 + k.rets.length * 2 ^ 26 + k.cur.toNat * 2 ^ 32)

/-! ## Releases (R250, R252, R254) -/

/-- QWAIT_RELEASE. -/
def qwaitRelease (c : CoreId) (errs : List LineErr) (s : State) : State :=
  let s1 := pump c (strike errs s)
  match (s1.core c).issue with
  | .qwait mask limit => if qwaitDone (s1.core c) mask limit then s1.modCore c fun k => { k with issue := .running } else s1
  | _ => s1

/-- Do the conditions of R254 hold, with fences enabled (R32)? -/
def frameWaitReady (s : State) (c : CoreId) : Bool :=
  let k := s.core c
  s.regF Reg.FRAME_CTRL 0 0 == 1 && k.queues.toList.all List.isEmpty && k.active.isEmpty && !k.loftCopy && k.captured && later k.capFrame k.cur

/-- FRAME_WAIT completes (R254, R270): cur_frame, the held counts, the ledger, s[d]. -/
def frameWaitReturn (c : CoreId) (errs : List LineErr) (s : State) : State :=
  let s1 := pump c (strike errs s)
  match (s1.core c).issue with
  | .frameWait d pc w =>
    if !frameWaitReady s1 c then s1
    else
      let ovf := (List.range 16).any fun t => decide ((semOf (s1.core c) t).count + (semOf (s1.core c) t).held > 65535)
      let s2 := s1.modCore c fun k => { k with
        cur := k.capFrame, sems := k.sems.map fun v => ⟨min 65535 (v.count + v.held), 0⟩, ledger := [], fwDone := true,
        committed := none, issue := .running }
      let s3 := wrS c d ((s2.core c).cur.zeroExtend 64) s2
      if ovf then coreTrap c trapSemOverflow (iQ w) pc w 0 s3 else s3
  | _ => s1

/-- The frame entry state of a core (R241), at placement or after an abort. The array, the gate masks, the Match CAM and the
scatter index lose their contents (R189, R225, R228, R240). -/
def frameEntry (c : CoreId) (placement : Bool) (s : State) : State :=
  let entry := fld (s.actReg (coreOff Reg.CORE_ENTRY c)) 19 0
  s.modCore c fun k => { k with
    issue := .running, pc := entry, s := Vector.replicate 32 0, p := 0, v := Vector.replicate 32 0, vp := 0, pendS := 0,
    pendP := 0, loops := [], rets := [], sems := k.sems.map fun v => ⟨0, if placement then 0 else v.held⟩,
    cur := if placement then 0 else k.cur, capFrame := k.capFrame, captured := if placement then false else k.captured,
    fwDone := false, committed := none, queues := Vector.replicate 6 [], active := [], ledger := [],
    ahead := [], array := ArraySt.reset, cam := ⟨0, [], []⟩, gm := [], rot := if placement then [] else k.rot,
    sca := { k.sca with init := false } }

end Sys2Proof.Machine
end

