-- ==== Sys2Proof/Machine/Remote.lean ====
section
/-! DEFINITION. What arrives at a core over the mesh: remote reads and writes, their answers, credits, signals (R157, R162 to
R167, R248, R251, R269 to R271), and a core's gate counts at the collector (R232). -/

namespace Sys2Proof.Machine

/-- The answer to a request: identifiers echoed. -/
def replyTo (m : Msg) (kind : MsgKind) : Msg :=
  { kind := kind, src := m.dst, dst := m.src, seq := m.seq, slot := m.slot, dshelf := m.dshelf, didx := m.didx, addr := m.addr }

/-- The core number and coordinate of the requester in a transit salt (Table 18.4). -/
def requesterSalt (s : State) (a : Agent) (shelf line slot : Nat) : Nat :=
  let xy := peerXY s a
  saltTransit (peerNum a) shelf line slot xy.1 xy.2

/-- REMOTE_READ_SERVE (R27, R157, R162): the read is checked under Table 8.5 and its line, or the failure, returns on VC2. A read
from another device at an address of the scratchpad window names no shelf. A core that reads a rulebook header with fault set is
answered with RB_FAULT (R132). -/
def serveRead (src : Agent) (c : CoreId) (errs : List LineErr) (s : State) : State :=
  match s.receive .readReq src (.core c) with
  | none => s
  | some (m, s1) =>
    let s1 := strike errs s1
    let t := if !reachable s1 c then trapDenied else if m.addr ≠ 0 then 0 else shelfCheck s1 c m.shelf m.slot m.idx 1 false
    let t := if t = 0 && m.addr = 0 && readsFault s1 c m.shelf m.idx 1 then trapRbFault else t
    if t ≠ 0 then post { replyTo m .readRsp with err := t } s1
    else
      let r := if m.addr ≠ 0 then windowRead c (m.addr % 0x1000000 / 64) 9 s1 else shelfRead c m.shelf m.idx 9 s1
      if r.2.1 then post { replyTo m .readRsp with err := trapBankEcc } r.2.2
      else
        post { replyTo m .readRsp with line := sealLine (requesterSalt s1 src m.dshelf m.didx m.slot) r.1 }
          (bumpC c Reg.REMOTE_RD_CNT r.2.2)

/-- REMOTE_READ_SERVE. -/
def execRemoteReadServe (src : Agent) (c : CoreId) (errs : List LineErr) (s : State) : Res := .next (serveRead src c errs s)

/-- Spend one credit of a grant of a requester with a stamp; none when the pool has no such grant (R167). -/
def spendGrant (p : Pool) (src : Agent) (stamp : Nat) : Option Pool :=
  match takeFirst (fun g => g.src == src && g.stamp == stamp && decide (0 < g.left)) p.grants with
  | none => none
  | some (g, rest) => some { p with grants := if g.left = 1 then rest else { g with left := g.left - 1 } :: rest }

/-- The core number that a write names in its salt: the physical core, or the logical one from another device (log entry
12). -/
def targetNum (s : State) (src : Agent) (c : CoreId) : Nat :=
  match src with
  | .dev _ _ _ => (s.core c).logical
  | _ => c.val

/-- REMOTE_WRITE_APPLY (R157, R167, R43): applied, discarded as stale, or failed; acknowledged in each case. -/
def applyWrite (src : Agent) (c : CoreId) (s : State) : State :=
  match s.receive .write src (.core c) with
  | none => s
  | some (m, s1) =>
    let ack := replyTo m .writeAck
    if !reachable s1 c then post { ack with err := trapDenied } s1
    else
      let e := shelfEnt s1 c m.shelf
      match spendGrant (poolOf (s1.core c) m.pool) src m.stamp with
      | none => post ack (bumpC c Reg.CREDIT_STALE s1)
      | some p =>
        let s2 := s1.modCore c fun k => setPool k m.pool p
        let t := shelfCheck s2 c m.shelf m.slot m.idx 1 true
        if t ≠ 0 then post { ack with err := t } s2
        else if sePool e ≠ m.pool then post ack (bumpC c Reg.CREDIT_STALE s2)
        else if m.cd && seLoft e == 2 then post { ack with err := trapCommitOrder } s2
        else
          let salt := saltTransit (targetNum s2 src c) m.shelf m.idx m.slot s2.coordX s2.coordY
          let s3 := shelfWrite c m.shelf m.idx (checked salt m.line) s2
          let s4 := if src == .grid && m.k == 1 then
              s3.modCore c fun k => { k with faultHdr := (m.shelf % 64, m.idx) :: k.faultHdr }
            else s3
          post ack (bumpC c Reg.REMOTE_WR_CNT s4)

/-- REMOTE_WRITE_APPLY. -/
def execRemoteWriteApply (src : Agent) (c : CoreId) (s : State) : Res := .next (applyWrite src c s)

/-- REMOTE_READ_RESPONSE (R269, R271): the line is verified for where it comes from and written; a failure traps the
requester. An answer that no started instruction waits for is discarded. -/
def takeReadRsp (src : Agent) (c : CoreId) (errs : List LineErr) (s : State) : State :=
  match s.receive .readRsp src (.core c) with
  | none => s
  | some (m, s1) =>
    let s1 := strike errs s1
    match findActive (s1.core c) m.seq with
    | none => s1
    | some _ =>
      if m.err ≠ 0 then activeTrap c m.seq m.err s1
      else
        let salt := if src == .mem || src == .grid then saltAddr m.addr
          else saltTransit c.val m.dshelf m.didx m.slot s1.coordX s1.coordY
        settle c (answered c m.seq (shelfWrite c m.dshelf m.didx (checked salt m.line) s1))

/-- REMOTE_READ_RESPONSE. -/
def execRemoteReadResponse (src : Agent) (c : CoreId) (errs : List LineErr) (s : State) : Res := .next (takeReadRsp src c errs s)

/-- WRITE_ACK_RECEIVE (R248, R270): one acknowledgement less to wait for, or the trap it carries. -/
def takeWriteAck (src : Agent) (c : CoreId) (errs : List LineErr) (s : State) : State :=
  match s.receive .writeAck src (.core c) with
  | none => s
  | some (m, s1) =>
    let s1 := strike errs s1
    match findActive (s1.core c) m.seq with
    | none => s1
    | some _ => if m.err ≠ 0 then activeTrap c m.seq m.err s1 else settle c (answered c m.seq s1)

/-- WRITE_ACK_RECEIVE. -/
def execWriteAckReceive (src : Agent) (c : CoreId) (errs : List LineErr) (s : State) : Res := .next (takeWriteAck src c errs s)

/-! ## Credits (R164 to R167, R270) -/

/-- The answer to a credit request: `k` credits with a stamp, a refusal (err), or a stale refusal (neither). -/
def creditAnswer (c : CoreId) (dst : Agent) (seq slot pool k stamp err : Nat) : Msg :=
  { kind := .creditAns, src := .core c, dst := dst, seq := seq, slot := slot, pool := pool, k := k, stamp := stamp, err := err }

/-- CREDIT_REQUEST_RECEIVE (R165, R166): queued, or refused and counted. -/
def takeCreditReq (src : Agent) (c : CoreId) (s : State) : State :=
  match s.receive .creditReq src (.core c) with
  | none => s
  | some (m, s1) =>
    let p := poolOf (s1.core c) m.pool
    let cap := poolCap s1 c m.pool
    let refuse (s : State) : State := post (creditAnswer c src m.seq m.slot m.pool 0 0 trapCreditTimeout) (bumpC c Reg.CREDIT_REFUSED s)
    if cap = 0 || fld (poolCfg s1 c m.pool) 20 18 ≠ m.slot then refuse s1
    else if m.k > cap then refuse (bumpC c Reg.CREDIT_OVERSIZE s1)
    else if p.queue.length ≥ 64 then refuse s1
    else s1.modCore c fun k => setPool k m.pool { p with queue := p.queue ++ [⟨src, m.seq, m.slot, m.k⟩] }

/-- CREDIT_REQUEST_RECEIVE. -/
def execCreditRequestReceive (src : Agent) (c : CoreId) (s : State) : Res := .next (takeCreditReq src c s)

/-- The low 8 bits of the current frame number. -/
def frameStamp (s : State) : Nat := (s.reg Reg.FRAME_NUM).toNat % 256

/-- CREDIT_GRANT (R165): the request at the head of the pool is granted in full once the available count reaches it. -/
def grantHead (c : CoreId) (pool : Nat) (s : State) : State :=
  let p := poolOf (s.core c) pool
  match p.queue with
  | [] => s
  | r :: rest =>
    if p.avail < r.k then s
    else
      let st := frameStamp s
      post (creditAnswer c r.src r.seq r.slot pool r.k st 0)
        (s.modCore c fun k => setPool k pool { avail := p.avail - r.k, queue := rest, grants := p.grants ++ [⟨r.src, st, r.k⟩] })

/-- CREDIT_GRANT. -/
def execCreditGrant (c : CoreId) (pool : Nat) (s : State) : Res := .next (grantHead c pool s)

/-- CREDIT_TIMEOUT (R166): a request that has waited its timeout is refused and counted. -/
def refuseWaiting (c : CoreId) (pool idx : Nat) (s : State) : State :=
  let p := poolOf (s.core c) pool
  match p.queue[idx]? with
  | none => s
  | some r =>
    post (creditAnswer c r.src r.seq r.slot pool 0 0 trapCreditTimeout)
      (bumpC c Reg.CREDIT_REFUSED (s.modCore c fun k => setPool k pool { p with queue := p.queue.eraseIdx idx }))

/-- CREDIT_TIMEOUT. -/
def execCreditTimeout (c : CoreId) (pool idx : Nat) (s : State) : Res := .next (refuseWaiting c pool idx s)

/-- Restore a pool (R167): full capacity, the requests answered with stale refusals, every credit held on it void. -/
def restorePool (c : CoreId) (pool : Nat) (s : State) : State :=
  let p := poolOf (s.core c) pool
  let s := p.queue.foldl (fun s r => post (creditAnswer c r.src r.seq r.slot pool 0 0 0) s) s
  s.modCore c fun k => setPool k pool ⟨poolCap s c pool, [], []⟩

/-- A grant or refusal reaches a core (R165 to R167, R270). -/
def takeCreditAns (t : CoreId) (src : Agent) (errs : List LineErr) (s : State) : State :=
  match s.receive .creditAns src (.core t) with
  | none => s
  | some (m, s1) =>
    let s1 := strike errs s1
    match findActive (s1.core t) m.seq with
    | none => s1
    | some a =>
      if m.err ≠ 0 then activeTrap t m.seq trapCreditTimeout s1
      else
        let s2 := if m.k = 0 then s1
          else s1.modCore t fun k => ledgerAdd k a.op.a ((iX a.op.w0).testBit 4) (iX a.op.w0 % 16) m.k m.stamp
        settle t (answered t m.seq s2)

/-! ## Signals and gate reports -/

/-- SIGNAL_RECEIVE (R251, R253): a signal that came back refused from another device traps its sender while the frame that sent it
runs (log entry 152). -/
def takeSignal (src : Agent) (c : CoreId) (s : State) : State :=
  match s.receive .signal src (.core c) with
  | none => s
  | some (m, s1) =>
    if m.err ≠ 0 then
      let k := s1.core c
      if m.slot = k.slot && m.stamp % 256 == k.cur.toNat % 256 && k.issue != .unplaced then seqTrap c m.err k.pc 0 s1 else s1
    else settle c (applySignal c (m.idx % 16) m.k (m.stamp % 256) m.slot s1)

/-- SIGNAL_RECEIVE. -/
def execSignalReceive (src : Agent) (c : CoreId) (s : State) : Res := .next (takeSignal src c s)

/-- Add a gate's samples and misses, saturating (GATE_STAT, R232). -/
def addGateStat (k g samples misses : Nat) (s : State) : State :=
  let o := Reg.GATE_STAT + 0x200 * k + 8 * g
  let v := s.reg o
  (s.setReg o (setFld (setFld v 31 0 (min (2 ^ 32 - 1) (fld v 31 0 + samples))) 61 32 (min (2 ^ 30 - 1) (fld v 61 32 + misses))))

/-- GATE_REPORT (R232): every message of a core's report. -/
def takeGateReport (c : CoreId) : Nat → State → State
  | 0, s => s
  | n + 1, s =>
    match s.receive .gateReport (.core c) .sys with
    | none => s
    | some (m, s1) => takeGateReport c n (addGateStat (m.slot % 8) (m.idx % 64) m.k m.stamp s1)

/-- GATE_REPORT: a report holds at most 64 gates. -/
def execGateReport (c : CoreId) (s : State) : Res := .next (takeGateReport c 64 s)

end Sys2Proof.Machine
end

