-- ==== Sys2Proof/Machine/Links.lean ====
section
/-! DEFINITION. The Larxus ports: reception, replay, going down, training, forwarding and delivery of packets (R364 to
R369). -/

namespace Sys2Proof.Machine

/-- Change a port. -/
def State.modLink (p : Idx4) (f : LinkPort → LinkPort) (s : State) : State := s.setLink p (f (s.link p))
/-- Set LXL_STAT.state. -/
def linkEnter (p : Idx4) (st : Nat) (s : State) : State := s.setF (linkOff Reg.LXL_STAT p) 2 0 st
/-- LXL_CTRL.enable. -/
def linkOn (s : State) (p : Idx4) : Bool := bitOf (s.reg (linkOff Reg.LXL_CTRL p)) 0

/-- The coordinate that LINK_TOPO places beyond a port, and the port there that faces this one (R368, R369). -/
def neighbour (s : State) (p : Idx4) : Nat × Nat × Nat :=
  let x := s.coordX
  let y := s.coordY
  match p.val with
  | 0 => ((x + 1) % torusX s, y, 1)
  | 1 => ((x + torusX s - 1) % torusX s, y, 0)
  | 2 => (x, (y + 1) % torusY s, 3)
  | _ => (x, (y + torusY s - 1) % torusY s, 2)

/-! ## Delivery (R27, R365) -/

/-- What a packet's operation is on the mesh; none for the operations SYS itself takes. -/
def packetKind (op : Nat) : Option MsgKind :=
  match op with
  | 0x01 => some .readReq | 0x02 => some .write | 0x03 => some .readRsp | 0x04 => some .writeAck | 0x05 => some .creditReq
  | 0x06 => some .creditAns | 0x07 => some .signal | 0x08 => some .fence | 0x09 => some .ready | 0x0A => some .decision
  | 0x0B => some .abortMsg | 0x0C => some .writeAck
  | _ => none

/-- The core a packet is for: an answer names the physical core, a request the logical core of its trunk slot. -/
def packetCore (s : State) (k : Packet) : Option CoreId :=
  if k.op = 0x03 ∨ k.op = 0x04 ∨ k.op = 0x06 ∨ k.op = 0x0C then coreOf k.dunit
  else if h : k.slot < 8 then s.trunks[k.slot].place[k.dunit]? else none

/-- The answer that refuses a request from another device: an error response (R368), its code carried back. -/
def errorPacket (s : State) (k : Packet) (code : Nat) : Packet :=
  { op := 0x0C, vc := 2, date := false, dx := k.sx, dy := k.sy, sx := s.coordX, sy := s.coordY, dunit := k.sunit, sunit := 36,
    req := k.req, err := code, slot := k.slot, stamp := k.stamp, sig := k.op == 0x07 }

/-- Does a packet ask for an answer that its sender waits for? -/
def isRequest (k : Packet) : Bool := k.op == 0x01 || k.op == 0x05

/-- Send a packet on, towards its destination, `turn` as in R369. None of the packet's data is kept when its port is down. -/
def forward (turn : Idx4 → Bool) (k : Packet) (s : State) : State :=
  match routePort s k.dx k.dy with
  | none => s
  | some p => if linkState s p = 2 then linkQueue p (turn p) k s else s

/-- Refuse a packet with an error response. -/
def refusePacket (code : Nat) (k : Packet) (s : State) : State := forward (fun _ => true) (errorPacket s k code) s

/-- A packet with an internal address (R27): Table 1.6 and R22 as this device applies them. A write to a scratchpad window names no
shelf and holds no credit, and is refused (log entry 154). -/
def deliverAt (k : Packet) (a : Nat) (s : State) : State :=
  let m (kind : MsgKind) (dst : Agent) (i : Nat) (l : Line) : Msg :=
    { kind := kind, src := .dev k.sx k.sy k.sunit, dst := dst, seq := k.req, slot := k.slot, addr := a + 64 * i,
      dshelf := k.addr / 2 ^ 32, didx := k.addr % 2 ^ 32, line := l }
  if k.op = 0x01 then
    match regionOf s a with
    | .unmapped => refusePacket trapUnmapped k s
    | .regs => refusePacket trapDenied k s
    | .lpddr => s.send (m .memRead .mem 0 ⟨0, 0⟩)
    | .grid => s.send (m .gridRead .grid 0 ⟨0, 0⟩)
    | .spad => match coreOf ((a - 0x1000000000) / 0x1000000) with
      | some c => s.send (m .readReq (.core c) 0 ⟨0, 0⟩)
      | none => refusePacket trapUnmapped k s
  else if k.op = 0x02 then
    match regionOf s a with
    | .unmapped => refusePacket trapUnmapped k s
    | .lpddr => (k.lines.zipIdx).foldl (fun s e => s.send (m .memWrite .mem e.2 e.1)) s
    | _ => refusePacket trapDenied k s
  else s

/-- A packet for this device enters the mesh, or SYS takes it. A request that names no core of its trunk is refused with
ADDR_DENIED. -/
def deliver (p : Idx4) (k : Packet) (s : State) : State :=
  match packetKind k.op, k.intern with
  | none, _ => s
  | some _, some a => deliverAt k (a / 64 * 64) s
  | some kind, none =>
    let kind := if k.sig then MsgKind.signal else kind
    let m (dst : Agent) : Msg :=
      { kind := kind, src := .dev k.sx k.sy k.sunit, dst := dst, seq := k.req, slot := k.slot, shelf := k.shelf,
        idx := if kind == .signal then k.sem else k.idx, dshelf := k.addr / 2 ^ 32, didx := k.addr % 2 ^ 32,
        line := (k.lines.head?).getD ⟨0, 0⟩, pool := k.pool, k := if kind == .decision then k.dec else k.k, stamp := k.stamp,
        frame := k.frame, err := if k.op = 0x0C ∧ k.err = 0 then trapUnmapped else k.err, cd := k.cd }
    if kind == .fence || kind == .ready || kind == .decision || kind == .abortMsg then s.send { m .sys with addr := p.val }
    else match packetCore s k with
      | some c => s.send (m (.core c))
      | none => if isRequest k || k.op == 0x07 then refusePacket trapDenied k s else s

/-- Does leaving on port `q` turn a packet that came in on port `p` into a new dimension (R369)? -/
def turns (p q : Idx4) : Bool := decide (p.val / 2 ≠ q.val / 2)

/-- What becomes of a request that a port discards (R368): an error response to its sender. -/
def discardPacket (k : Packet) (s : State) : State :=
  if !isRequest k then s
  else if k.sx = s.coordX ∧ k.sy = s.coordY then
    match coreOf k.sunit with
    | some c => s.send { kind := .writeAck, src := .dev k.dx k.dy k.dunit, dst := .core c, seq := k.req, err := trapUnmapped }
    | none => s
  else forward (fun _ => true) (errorPacket s k trapUnmapped) s

/-- A packet that ends in a received flit: delivered, forwarded without entering the mesh, or, when its port is down,
discarded (R368, R369). Its slots are free again. -/
def takePacket (p : Idx4) (k : Packet) (s : State) : State :=
  let s := s.modLink p fun l => { l with back := l.back ++ [(packetVc k, packetSlots k)] }
  if k.op = 0x08 then deliver p k s
  else match routePort s k.dx k.dy with
    | none => deliver p k s
    | some q => if linkState s q = 2 then linkQueue q (turns p q) k s else discardPacket k s

/-! ## Going down and training (R367, R368) -/

/-- The packets a port has not got across: queued, and held for replay. -/
def linkHeld (l : LinkPort) : List Packet := (l.unacked.map (·.2) ++ l.queue).eraseDups

/-- A port stops carrying: what it holds is discarded, and it enters a state. -/
def linkStop (p : Idx4) (st : Nat) (s : State) : State :=
  let held := linkHeld (s.link p)
  let s := linkEnter p st (s.setLink p LinkPort.fresh)
  held.foldl (fun s k => discardPacket k s) s

/-- A port goes down, raises LXL_DOWN[p] and retrains (R367). -/
def linkFail (p : Idx4) (s : State) : State :=
  if linkState s p ≠ 2 then s
  else raise (evLxlDown p.val) (bump (linkOff Reg.LXL_DOWN_CNT p) (linkStop p 1 s))

/-- LXL_DOWN: 1 µs without a good flit. -/
def execLxlDown (p : Idx4) (s : State) : Res := .next (linkFail p s)

/-- Begin training, when the port is enabled and its domain is in RUN. -/
def linkTrain (p : Idx4) (s : State) : State :=
  if linkOn s p && domRun s (44 + p.val) then linkStop p 1 s else linkStop p 0 s

/-- LXL_RETRAIN. -/
def execLxlRetrain (p : Idx4) (s : State) : Res := .next (linkTrain p s)

/-- A write of LXL_CTRL: enabling trains the port, disabling takes it down, retrain trains it again. -/
def linkCtrlWrite (p : Idx4) (v : Word) (s : State) : State :=
  let was := linkOn s p
  let s := s.setReg (linkOff Reg.LXL_CTRL p) (v &&& 1)
  if linkOn s p != was || bitOf v 1 then linkTrain p s else s

/-- LXL_TRAINING_COMPLETE (R368): the neighbour reports a coordinate and a port; the port comes up only where LINK_TOPO places
them opposite. -/
def linkTrained (p : Idx4) (ok : Bool) (x y port : Nat) (s : State) : State :=
  if linkState s p ≠ 1 ∨ !domRun s (44 + p.val) then s
  else if !ok then linkStop p 0 s
  else
    let s := s.setReg (linkOff Reg.LXL_STAT p) (BitVec.ofNat 64
      ((if neighbour s p = (x, y, port) then 2 else 3) + (x % 256) * 2 ^ 3 + (y % 256) * 2 ^ 11))
    s.setLink p LinkPort.fresh

/-- LXL_TRAINING_COMPLETE. -/
def execLxlTrainingComplete (p : Idx4) (ok : Bool) (x y port : Nat) (s : State) : Res := .next (linkTrained p ok x y port s)

/-! ## Reception and replay (R366, R367) -/

/-- Flits acknowledged up to `ack` leave the replay buffer. -/
def dropAcked (ack : Nat) (l : LinkPort) : LinkPort := { l with unacked := l.unacked.filter fun e => laterSeq 16 e.1 ack }

/-- Credits come back in an envelope. -/
def creditsBack (cr : List (Nat × Nat)) (l : LinkPort) : LinkPort :=
  { l with credits := cr.foldl (fun cs e => cs.set (e.1 % 8) ((cs[e.1 % 8]?).getD 0 + e.2)) l.credits }

/-- Send a flit that carries no packet: idle (type 0) or NAK (type 2). -/
def sendBare (p : Idx4) (type : Nat) (s : State) : State :=
  let l := s.link p
  let s := s.emit (.flit p.val type l.txSeq (linkAck l) (l.back.take 2) none)
  bump (linkOff Reg.LXL_TX_FLITS p) (s.setLink p { l with owed := 0, back := l.back.drop 2 })

/-- The transmitter replays from ack + 1 in order; the sixteenth replay in a row without progress takes the port down. -/
def linkReplay (p : Idx4) (ack : Nat) (s : State) : State :=
  if linkState s p ≠ 2 then s
  else
    let l := s.link p
    let l' := dropAcked ack l
    let l' := { l' with replays := if l'.unacked.length < l.unacked.length then 1 else l.replays + 1 }
    let s := bump (linkOff Reg.LXL_REPLAY p) (s.setLink p l')
    if l'.replays ≥ 16 then linkFail p s
    else
      let s := l'.unacked.foldl (fun s e => s.emit (.flit p.val 1 e.1 (linkAck l') [] (some e.2))) s
      linkDrain 128 p (bumpN (linkOff Reg.LXL_TX_FLITS p) l'.unacked.length s)

/-- LXL_REPLAY: a received NAK. -/
def execLxlReplay (p : Idx4) (ack : Nat) (s : State) : Res := .next (linkReplay p ack s)

/-- A flit that fails its CRC or arrives out of sequence is discarded and answered with one NAK. -/
def linkBad (p : Idx4) (s : State) : State :=
  sendBare p 2 (bump (linkOff Reg.LXL_CRC_ERR p) (s.modLink p fun l => { l with nakSent := true }))

/-- LXL_FLIT_RECEIVE. -/
def flitReceive (p : Idx4) (f : Flit) (s : State) : State :=
  if linkState s p ≠ 2 ∨ !domRun s (44 + p.val) then s
  else if !f.crcOk then linkBad p s
  else
    let l := s.link p
    if f.type = 2 then linkReplay p f.ack (s.modLink p (creditsBack f.credits))
    else
      let s := s.modLink p fun l => creditsBack f.credits (dropAcked f.ack { l with
        replays := if (dropAcked f.ack l).unacked.length < l.unacked.length then 0 else l.replays })
      if f.type ≠ 1 then linkDrain 128 p s
      else if f.seq % 2 ^ 16 ≠ l.rxNext then (if l.nakSent then s else linkBad p s)
      else
        let s := s.modLink p fun l => { l with rxNext := (l.rxNext + 1) % 2 ^ 16, nakSent := false, owed := l.owed + 1 }
        let s := bump (linkOff Reg.LXL_RX_FLITS p) s
        let s := f.packets.foldl (fun s k => takePacket p k s) s
        let s := linkDrain 128 p s
        if (s.link p).owed ≥ 16 then sendBare p 0 s else s

/-- LXL_FLIT_RECEIVE. -/
def execLxlFlitReceive (p : Idx4) (f : Flit) (s : State) : Res := .next (flitReceive p f s)

/-! ## Topology (R369, R370) -/

/-- LINK_TOPO_WRITE: accepted only while every port is down. -/
def topoWrite (v : Half) (s : State) : State :=
  if (List.finRange 4).all fun p => linkState s p == 0 then s.setReg Reg.LINK_TOPO (v.zeroExtend 64) else accessError s

/-- LINK_TOPO_WRITE. -/
def execLinkTopoWrite (v : Half) (s : State) : Res := .next (topoWrite v s)

/-- Send a control packet of SYS to a device: fence, ready, decision, abort. -/
def sysPacket (s : State) (op x y slot dec : Nat) (frame : BitVec 32) : Packet :=
  { op := op, vc := 3, date := false, dx := x, dy := y, sx := s.coordX, sy := s.coordY, dunit := 36, sunit := 36,
    slot := slot, dec := dec, frame := frame }

/-- Send it, where its port is up. -/
def sendSys (op x y slot dec : Nat) (frame : BitVec 32) (s : State) : State :=
  forward (fun _ => true) (sysPacket s op x y slot dec frame) s

/-- At a fence instant: a fence packet with the frame number on every port of LINK_FENCE_FWD (R370). -/
def sendFences (frame : BitVec 32) (s : State) : State :=
  (List.finRange 4).foldl (fun s p =>
    if bitOf (s.reg Reg.LINK_FENCE_FWD) p.val && linkState s p == 2 then
      let n := neighbour s p
      linkQueue p true (sysPacket s 0x08 n.1 n.2.1 0 0 frame) s
    else s) s

end Sys2Proof.Machine
end

