-- ==== Sys2Proof/Machine/Memory.lean ====
section
/-! DEFINITION. The memory controller: interleave, training, fills, reads, writes, scrub (chapter 18, R330 to R339). -/

namespace Sys2Proof.Machine

/-- Change external memory. -/
def State.modMem (f : MemSt → MemSt) (s : State) : State := { s with mem := f s.mem }

/-- The power domain of the half that holds an address. -/
def memDomain (s : State) (a : Nat) : Nat := if (memPlace s a).1 < 4 then 41 else 42

/-- Do accesses to `n` lines from an address wait: training runs, the crystal's PLLs coast, their half is not in RUN, or a
fill has yet to pass them (R333, R334, R339, R389)? -/
def memHeld (s : State) (a n : Nat) : Bool :=
  s.mem.training.isSome || s.pwr.coast.contains 0 || (List.range n).any fun i =>
    let x := a + 64 * i
    !domRun s (memDomain s x) ||
      (decide (s.mem.fillNext ≤ x) && decide (x < s.mem.fillNext + 64 * s.mem.fillLeft))

/-- The record of MEM_ERR_LOG for a line. -/
def memRecord (s : State) (a kind : Nat) : Word :=
  let p := memPlace s a
  BitVec.ofNat 64 (2 ^ 63 + a % 2 ^ 40 + kind * 2 ^ 40 + p.1 * 2 ^ 42 + p.2 * 2 ^ 45)

/-- Record in MEM_ERR_LOG unless a record is held. -/
def memLog (a kind : Nat) (s : State) : State :=
  if bitOf (s.reg Reg.MEM_ERR_LOG) 63 then s else s.setReg Reg.MEM_ERR_LOG (memRecord s a kind)

/-- The stored line at an address is poisoned. -/
def poisonStored (a : Nat) (s : State) : State :=
  match sget (a / 64) s.mem.lines with
  | some l => s.modMem fun m => { m with lines := sput (a / 64) ⟨l.data, 0⟩ m.lines }
  | none => s

/-- An uncorrectable block (Table 18.3): counted, logged, raised, written back poisoned. -/
def memUe (a kind : Nat) (s : State) : State :=
  let s := memLog a kind (bump Reg.MEM_UE_CNT s)
  poisonStored a (raise evMemUe (logFault evMemUe 0 (memPlace s a).1 (memRecord s a kind).toNat s))

/-- What reads of lines find (R337): each finding is counted and takes effect on the stored line. -/
def memStrike (es : List MemErr) (s : State) : State :=
  es.foldl (fun s e =>
    let a := e.addr / 64 * 64
    let s := if e.linkCe then bump Reg.MEM_LINK_CE s else s
    let s := bumpN Reg.MEM_LINK_RETRY (if e.fail then 2 else min 2 e.retries) s
    if e.fail then memUe a 1 s
    else if e.ue then memUe a 0 s
    else if e.ce then bump Reg.MEM_CE_CNT s else s) s

/-! ## Training (R333) -/

/-- MEM_TRAIN: MEM_CTRL.train is written. -/
def memTrain (s : State) : State :=
  if s.mem.training.isSome then accessError s
  else (s.modMem fun m => { m with training := some (s.reg Reg.MEM_CFG) }).setF Reg.MEM_STAT 0 0 0

/-- MEM_TRAIN. -/
def execMemTrain (s : State) : Res := .next (memTrain s)

/-- Populated channels of a configuration, as a mask. -/
def memChans (cfg : Word) : Nat := if bitOf cfg 0 then 0x33 else 0xFF
/-- Installed capacity of a configuration in GiB (R331). -/
def memGib (cfg : Word) : Nat := (if bitOf cfg 0 then 4 else 8) * 2 ^ fld cfg 5 4

/-- MEM_TRAIN_COMPLETE: `bad` are the channels that failed. -/
def memTrained (bad : BitVec 8) (s : State) : State :=
  match s.mem.training with
  | none => s
  | some cfg =>
    let f := bad.toNat &&& memChans cfg
    let s := s.modMem fun m => { m with training := none }
    if f ≠ 0 then
      raise evMemTrainFail (((s.setF Reg.MEM_STAT 8 1 f).setF Reg.MEM_STAT 15 9 0).modMem fun m => { m with capGib := 0 })
    else
      let same := match s.mem.trainedCfg with
        | some c => fld c 5 0 == fld cfg 5 0
        | none => false
      let s := s.modMem fun m => { m with
        capGib := memGib cfg, trainedCfg := some cfg, lines := if same then m.lines else [] }
      ((s.setF Reg.MEM_STAT 8 1 0).setF Reg.MEM_STAT 15 9 (memGib cfg)).setF Reg.MEM_STAT 0 0 1

/-- MEM_TRAIN_COMPLETE. -/
def execMemTrainComplete (bad : BitVec 8) (s : State) : Res := .next (memTrained bad s)

/-! ## Fills (R339) -/

/-- MEM_FILL: MEM_CTRL.fill is written. -/
def memFill (s : State) : State :=
  let b := s.regF Reg.MEM_FILL_BASE 39 0
  let n := s.regF Reg.MEM_FILL_LINES 29 0
  if bitOf (s.reg Reg.MEM_STAT) 16 then accessError s
  else if b % 64 ≠ 0 ∨ b + 64 * n > memBytes s ∨ !bitOf (s.reg Reg.MEM_STAT) 0 then accessError s
  else if n = 0 then s
  else (s.modMem fun m => { m with fillNext := b, fillLeft := n }).setF Reg.MEM_STAT 16 16 1

/-- MEM_FILL. -/
def execMemFill (s : State) : Res := .next (memFill s)

/-- MEM_FILL_COMPLETE: every line of the range holds sealed zeros; a fill waits for a retrain like any access. -/
def memFilled (s : State) : State :=
  if !bitOf (s.reg Reg.MEM_STAT) 16 || s.mem.training.isSome then s
  else
    let s := memPutN s.mem.fillNext (List.replicate s.mem.fillLeft ⟨0, false⟩) s
    (s.modMem fun m => { m with fillLeft := 0 }).setF Reg.MEM_STAT 16 16 0

/-- MEM_FILL_COMPLETE. -/
def execMemFillComplete (s : State) : Res := .next (memFilled s)

/-! ## Reads, writes, scrub (R335 to R338) -/

/-- The answer of the controller to a request. -/
def memReply (m : Msg) (kind : MsgKind) : Msg :=
  { kind := kind, src := .mem, dst := m.src, seq := m.seq, slot := m.slot, dshelf := m.dshelf, didx := m.didx, addr := m.addr }

/-- MEM_READ: the oldest read of an agent; its line is delivered with its tag unchanged. An address no longer mapped answers
as unmapped. -/
def memServe (src : Agent) (es : List MemErr) (s : State) : State :=
  match s.receive .memRead src .mem with
  | none => s
  | some (m, s1) =>
    if s.mem.training.isSome then s
    else if m.addr ≥ memBytes s then post { memReply m .readRsp with err := trapUnmapped } s1
    else if memHeld s m.addr 1 then s
    else
      let r := memLine m.addr (memStrike es s1)
      post { memReply m .readRsp with line := r.1 } r.2

/-- MEM_READ. -/
def execMemRead (src : Agent) (es : List MemErr) (s : State) : Res := .next (memServe src es s)

/-- MEM_WRITE: the oldest write of an agent is stored and acknowledged; `retries` repeats of the transfer, `bad` when the
third failed and the line is written poisoned and logged. -/
def memTake (src : Agent) (retries : Nat) (bad : Bool) (s : State) : State :=
  match s.receive .memWrite src .mem with
  | none => s
  | some (m, s1) =>
    if s.mem.training.isSome then s
    else if m.addr ≥ memBytes s then post { memReply m .writeAck with err := trapUnmapped } s1
    else if memHeld s m.addr 1 then s
    else
      let s2 := bumpN Reg.MEM_LINK_RETRY (if bad then 2 else min 2 retries) s1
      let s3 := memStore m.addr m.line s2
      let s3 := if bad then poisonStored m.addr (memLog m.addr 2 s3) else s3
      let s4 := if m.disc && (bad || tagFails (saltAddr m.addr) m.line) then
          s3.send { kind := .poisonReport, src := m.src, dst := .sys, slot := m.slot,
                    frame := m.frame }
        else s3
      post (memReply m .writeAck) s4

/-- MEM_WRITE. -/
def execMemWrite (src : Agent) (retries : Nat) (bad : Bool) (s : State) : Res := .next (memTake src retries bad s)

/-- MEM_SCRUB: the patrol scrub reads its next line (R338). -/
def memScrub (linkCe : Bool) (retries : Nat) (linkBad ce ue : Bool) (s : State) : State :=
  let a := 64 * s.mem.scrubPos
  if !bitOf (s.reg Reg.MEM_SCRUB_CFG) 0 ∨ memBytes s = 0 ∨ memHeld s a 1 then s
  else
    let s := memStrike [⟨a, linkCe, retries, linkBad, ce, ue⟩] s
    bump Reg.MEM_SCRUB_LINES (s.modMem fun m => { m with scrubPos := (m.scrubPos + 1) % (memBytes s / 64) })

/-- MEM_SCRUB. -/
def execMemScrub (linkCe : Bool) (retries : Nat) (linkBad ce ue : Bool) (s : State) : Res :=
  .next (memScrub linkCe retries linkBad ce ue s)

/-- MEM_STAT as a read returns it: a half in self refresh shows (R334). -/
def memStatVal (s : State) : Word :=
  let sr (d : Nat) : Bool :=
    let st := domState s d
    st == 1 || st == 2 || (st == 3 && bitOf (s.reg Reg.MEM_CFG) 6)
  setFld (setFld (s.reg Reg.MEM_STAT) 17 17 (b2n (sr 41))) 18 18 (b2n (sr 42))

/-- PD[41] or PD[42] has entered DEEP: without self refresh the half's contents are lost (R334). -/
def memDeep (d : Nat) (s : State) : State :=
  if bitOf (s.reg Reg.MEM_CFG) 6 then s
  else s.modMem fun m => { m with lines := m.lines.filter fun e => memDomain s (64 * e.1) != d }

end Sys2Proof.Machine
end

