-- ==== Sys2Proof/Machine/MapStore.lean ====
section
/-! DEFINITION. The Map Store (chapter 16, R297 to R314). -/

namespace Sys2Proof.Machine

/-- Change the engine. -/
def State.modMap (f : MapSt → MapSt) (s : State) : State := { s with map := f s.map }

/-! ## Directory entries (R297 to R299) -/

/-- Row width in bytes. -/
def mdWidth (w0 : Word) : Nat := 32 * (fld w0 44 40 + 1)
/-- Lines of a slot. -/
def mdLines (w0 : Word) : Nat := cdiv (mdWidth w0) 64
/-- Is the table updatable? -/
def mdUpd (w0 : Word) : Bool := bitOf w0 51
/-- Rows. -/
def mdRows (w1 : Word) : Nat := fld w1 28 0
/-- First selector bit. -/
def mdSel (w1 : Word) : Nat := fld w1 53 32
/-- The address of slot `k` of row `r` (R298). -/
def mdAddr (w0 : Word) (r k : Nat) : Nat := fld w0 39 0 + 64 * mdLines w0 * (r * (if mdUpd w0 then 2 else 1) + k)

/-- Does a written entry meet R299? -/
def mdOk (s : State) (w0 w1 : Word) : Bool :=
  fld w0 39 0 % 64 == 0 && decide (1 ≤ mdRows w1) && decide (mdRows w1 ≤ 2 ^ 28) && decide (mdAddr w0 (mdRows w1) 0 ≤ memBytes s) &&
    [0x00, 0x01, 0x02, 0x03, 0x0C, 0x10].contains (fld w0 49 45) && (!mdUpd w0 || decide (mdSel w1 + mdRows w1 ≤ 4194304))

/-- The active entry of a table. -/
def mapDir (s : State) (t : Nat) : Word × Word := (s.actReg (Reg.MAP_DIR0 + 0x10 * t), s.actReg (Reg.MAP_DIR1 + 0x10 * t))

/-- A write of a directory word (R299): a valid entry that fails is stored with valid 0 and raises. -/
def mapDirWrite (t : Nat) (second : Bool) (v : Word) (s : State) : State :=
  let s := fbPut ((if second then Reg.MAP_DIR1 else Reg.MAP_DIR0) + 0x10 * t) v s
  let o := Reg.MAP_DIR0 + 0x10 * t
  if bitOf (s.reg o) 50 && !mdOk s (s.reg o) (s.reg (Reg.MAP_DIR1 + 0x10 * t)) then
    accessError (s.setReg o (setFld (s.reg o) 50 50 0))
  else s

/-! ## Classification (R301, R302) -/

/-- The row that an index names; none for a null or dropped index. -/
def mapClass (rows i : Nat) : Option Nat := if i = 0xFFFFFFFF ∨ i ≥ rows then none else some i

/-- For each position the position whose fetch serves it. -/
def mapServe (rows : Nat) : List Nat → Nat → Store (Nat × Nat) → List (Option Nat)
  | [], _, _ => []
  | i :: is, p, seen =>
    match mapClass rows i with
    | none => none :: mapServe rows is (p + 1) seen
    | some r =>
      match sget r seen with
      | some (last, f) =>
        if p - last ≤ 255 then some f :: mapServe rows is (p + 1) (sput r (p, f) seen)
        else some p :: mapServe rows is (p + 1) (sput r (p, p) seen)
      | none => some p :: mapServe rows is (p + 1) (sput r (p, p) seen)

/-! ## Outputs (R304, R305, R307) -/

/-- Bits of an element of a table format. -/
def mapElemBits (f : Nat) : Nat := if f = 0 then 32 else if f = 1 ∨ f = 2 then 16 else 8

/-- Lines of an output. -/
def mapOutLines (w0 : Word) (mode : Nat) : Nat :=
  if mode = 0 then mdLines w0 else cdiv (4 * (8 * mdWidth w0 / mapElemBits (fld w0 49 45))) 64

/-- An exact quotient rounded once to FP32. -/
def f32quot (v : FVal) (a : BitVec 32) (n : Nat) : BitVec 32 :=
  match v with
  | .fin z m e =>
    let q := m * 2 ^ 64 / n
    toF32 0 (.fin z (if m * 2 ^ 64 % n = 0 then 2 * q else 2 * q + 1) (e - 65))
  | w => toF32 (nanBits a 0) w

/-- The row bytes of returned lines, w of them. -/
def rowBytes (w0 : Word) (ls : List DLine) : List Nat := (ls.flatMap fun d => lineBytes d.data).take (mdWidth w0)

/-- The pooled lanes of a crate's rows. -/
def mapPool (w0 : Word) (mode : Nat) (rows : List (List Nat)) : List (BitVec 32) :=
  let f := fld w0 49 45
  let b := mapElemBits f / 8
  let n := rows.length
  (List.range (mdWidth w0 / b)).map fun e =>
    let xs := rows.map fun r => leAt r (b * e) b
    if f = 12 then
      let sum : Int := xs.foldl (fun a x => a + asInt 8 x) 0
      if mode = 1 then BitVec.ofInt 32 sum else if n = 0 then 0 else f32quot (fofInt sum) 0 n
    else
      let sum := xs.foldl (fun a x => f32add a (widen f x)) (0 : BitVec 32)
      canonF32 (if mode = 1 then sum else if n = 0 then 0 else f32quot (f32 sum) sum n)

/-- An output's lines: bytes padded with zeros. -/
def outLines (n : Nat) (bs : List Nat) (poison : Bool) : List DLine :=
  (List.range n).map fun i => ⟨lineOfBytes ((bs.drop (64 * i)).take 64), poison⟩

/-- The lines of output `j`, and whether it is a crate with no valid occurrence. -/
def mapOutput (k : MapCtx) (serve : List (Option Nat)) (j : Nat) : List DLine × Bool :=
  let row (p : Nat) : Option (List DLine) := ((serve[p]?).getD none).bind fun f => sget f k.rows
  let ibad (p : Nat) : Bool := k.ibad.contains (p / 16)
  let n := mapOutLines k.w0 k.mode
  if k.mode = 0 then
    match row j with
    | some ls => (outLines n (rowBytes k.w0 ls) (ls.any (·.poison) || ibad j), false)
    | none => (outLines n [] (ibad j), false)
  else
    let lo := if j = 0 then 0 else (k.ends[j - 1]?).getD 0
    let ps := (List.range ((k.ends[j]?).getD 0 - lo)).map (lo + ·)
    let rs := ps.filterMap row
    let cbad := k.cbad.contains (j / 16) || (j != 0 && k.cbad.contains ((j - 1) / 16))
    (outLines n ((mapPool k.w0 k.mode (rs.map (rowBytes k.w0))).flatMap fun x => bytesLE 4 x.toNat)
      (rs.any (fun ls => ls.any (·.poison)) || ps.any ibad || cbad), rs.isEmpty)

/-- Write a gather's outputs. -/
def mapWrite (k : MapCtx) (o : Op) (serve : List (Option Nat)) : Nat → Nat → State → State
  | 0, _, s => s
  | n + 1, j, s =>
    let x := mapOutput k serve j
    let s := if x.2 then bump Reg.MAP_EMPTY_CRATE s else s
    mapWrite k o serve n (j + 1) (shelfWriteN k.core (lSc o.w0) (low32 o.c + j * mapOutLines k.w0 k.mode) x.1 s)

/-- A gather whose fetches have all returned: its outputs are written and it completes, or traps on its crate ends (R272). -/
def mapFinish (k : MapCtx) (s : State) : State :=
  let s := s.modMap fun m => { m with ctx := m.ctx.filter fun x => !(x.core == k.core && x.seq == k.seq) }
  match findActive (s.core k.core) k.seq with
  | none => s
  | some a =>
    let n := if k.mode = 0 then k.idx.length else k.ends.length
    let s := mapWrite k a.op (mapServe (mdRows k.w1) k.idx 0 []) n 0 s
    if k.bad then activeTrap k.core k.seq trapRange s
    else settle k.core (answered k.core k.seq (bump Reg.MAP_GATHER_CNT s))

/-! ## Fetching (R303, R306) -/

/-- The selector bit that a fetch reads. -/
def mapSel (s : State) (w0 w1 : Word) (r : Nat) : Nat :=
  if mdUpd w0 then b2n ((sget (mdSel w1 + r) s.map.sel).getD false) else 0

/-- Fetches in flight. -/
def mapFlight (s : State) : Nat := s.map.ctx.foldl (fun n k => n + k.fly.length) 0

/-- Issue waiting fetches within the limits of Table 16.3, context by context. -/
def mapIssue : Nat → State → State
  | 0, s => s
  | n + 1, s =>
    let i := s.map.ctx.length - (n + 1)
    match s.map.ctx[i]? with
    | none => mapIssue n s
    | some k =>
      let room := min (1024 - k.fly.length) (4096 - mapFlight s)
      let now := (k.rest.take room).mapIdx fun j p => (p, mapSel s k.w0 k.w1 ((k.idx[p]?).getD 0), s.map.issued + j)
      mapIssue n (s.modMap fun m => { m with
        ctx := m.ctx.set i { k with fly := k.fly ++ now, rest := k.rest.drop room }, issued := m.issued + now.length })

/-- Issue, for every context. -/
def mapKick (s : State) : State := mapIssue s.map.ctx.length s

/-- The recorded flips that retire: every fetch issued before them has returned (R310). -/
def flipsRetire (s : State) : State :=
  s.modMap fun m => { m with flips := m.flips.dropWhile fun n => m.ctx.all fun k => k.fly.all fun f => decide (n ≤ f.2.2) }

/-- MAP_FETCH_RETURN: the fetch of list position `p` of context `i` returns one whole version of its row. -/
def mapReturn (i p : Nat) (es : List MemErr) (s : State) : State :=
  match s.map.ctx[i]? with
  | none => s
  | some k =>
    match takeFirst (fun f : Nat × Nat × Nat => f.1 == p) k.fly with
    | none => s
    | some (f, rest) =>
      let a := mdAddr k.w0 ((k.idx[p]?).getD 0) f.2.1
      if memHeld s a (mdLines k.w0) then s
      else
        let r := memReadN a (mdLines k.w0) (memStrike es s)
        let k := { k with fly := rest, rows := if k.dead then k.rows else sput p r.1 k.rows }
        let s := r.2
        let s := if r.1.any (·.poison) then raise evMapE2e (bump Reg.MAP_POISON_ROWS s) else s
        let s := mapKick (flipsRetire (s.modMap fun m => { m with ctx := m.ctx.set i k }))
        match s.map.ctx[i]? with
        | none => s
        | some k =>
          if !(k.fly.isEmpty && k.rest.isEmpty) then s
          else if k.dead then s.modMap fun m => { m with ctx := m.ctx.eraseIdx i }
          else mapFinish k s

/-- MAP_FETCH_RETURN. -/
def execMapFetchReturn (i p : Nat) (es : List MemErr) (s : State) : Res := .next (mapReturn i p es s)

/-! ## Starting (R300, R272) -/

/-- 32-bit words of shelf lines: the words, lines that are poisoned, whether an uncorrectable error was found. -/
def mapWords (c : CoreId) (sh j n : Nat) (s : State) : List Nat × List Nat × Bool × State :=
  let r := shelfReadN c sh j 2 (cdiv n 16) s
  ((r.1.flatMap fun d => (List.range 16).map fun w => (half32 d.data w).toNat).take n,
    (r.1.zipIdx.filter fun e => e.1.poison).map (·.2), r.2.1, r.2.2)

/-- The crate ends up to the first violation (R272). -/
def goodEnds (n : Nat) : Nat → List Nat → List Nat
  | _, [] => []
  | lo, [e] => if lo ≤ e ∧ e = n then [e] else []
  | lo, e :: r => if lo ≤ e ∧ e ≤ n then e :: goodEnds n e r else []

/-- A gather obtains a context. -/
def mapTake (c : CoreId) (o : Op) (slot : Nat) (s : State) : State :=
  let t := fld o.w1 4 0
  let mode := fld o.w1 6 5
  let d := mapDir s t
  let n := low32 o.n
  let crates := if mode = 0 then 0 else low32 o.d
  let lo := mapOutLines d.1 mode
  let code := firstCode [if !bitOf d.1 50 then trapRange else 0,
    if !(fld d.1 59 52).testBit slot then trapDenied else 0, if mode = 3 then trapRange else 0,
    if mode ≠ 0 ∧ fld d.1 49 45 = 0x10 then trapFmt else 0,
    writeCheck s c o.seq (lSc o.w0) (low32 o.c) ((if mode = 0 then n else crates) * lo)]
  if code ≠ 0 then activeTrap c o.seq code s
  else if n = 0 ∧ crates = 0 then settle c (answered c o.seq (bump Reg.MAP_GATHER_CNT s))
  else
    let x := mapWords c (lSa o.w0) (low32 o.a) n s
    let y := mapWords c (lSb o.w0) (low32 o.b) crates x.2.2.2
    if x.2.2.1 || y.2.2.1 then activeTrap c o.seq trapBankEcc y.2.2.2
    else
      let ends := goodEnds n 0 y.1
      let bad := mode != 0 && (ends.length != crates || (crates == 0 && n != 0))
      let idx := if bad then x.1.take ((ends.getLast?).getD 0) else x.1
      let serve := mapServe (mdRows d.2) idx 0 []
      let own := (serve.zipIdx.filter fun e => e.1 == some e.2).map (·.2)
      let nulls := idx.countP (· == 0xFFFFFFFF)
      let none := serve.countP (·.isNone)
      let s := bumpN Reg.MAP_INDEX_CNT idx.length y.2.2.2
      let s := bumpN Reg.MAP_NULL_CNT nulls s
      let s := bumpN Reg.MAP_IDX_DROP (none - nulls) s
      let s := if none > nulls ∧ !s.map.idxRaised then
          raise evMapIdx (s.modMap fun m => { m with idxRaised := true })
        else s
      let s := bumpN Reg.MAP_FETCH_CNT own.length s
      let s := bumpN Reg.MAP_COALESCE_CNT (serve.length - none - own.length) s
      let k : MapCtx := { core := c, seq := o.seq, slot := slot, table := t, w0 := d.1, w1 := d.2, mode := mode, idx := idx,
                          ends := ends, ibad := x.2.1, cbad := y.2.1, fly := [], rest := own, rows := [], bad := bad,
                          prev := false, dead := false }
      if own.isEmpty then mapFinish k s else mapKick (s.modMap fun m => { m with ctx := m.ctx ++ [k] })

/-- The instruction that a waiting gather request stands for. -/
def gatherOp (s : State) (m : Msg) : Option (CoreId × Op) :=
  match m.src with
  | .core c => (findActive (s.core c) m.seq).map fun a => (c, a.op)
  | _ => none

/-- MAP_GATHER_START: the oldest request whose table is not being cleared obtains a free context (R300, R313, R314), and its
core's MOVE unit may go on (R267). -/
def mapStart (errs : List LineErr) (s : State) : State :=
  if !domRun s 39 || s.map.loading || decide (8 ≤ s.map.ctx.length) then s
  else
    let ready (m : Msg) : Bool := m.kind == .gather && (match gatherOp s m with
      | some (_, o) => !s.map.clearing.contains (fld o.w1 4 0)
      | none => true)
    match takeFirst ready s.net with
    | none => s
    | some (m, rest) =>
      let s1 := strike errs { s with net := rest }
      match gatherOp s m with
      | none => s1
      | some (c, o) => pump c (mapTake c o m.slot s1)

/-- MAP_GATHER_START. -/
def execMapGatherStart (errs : List LineErr) (s : State) : Res := .next (mapStart errs s)

/-! ## Updates (R308 to R312) -/

/-- Write a selector bit, and its mirror bit when a mirror is declared (R312). -/
def selPut (i : Nat) (v : Bool) (s : State) : State :=
  let s := s.modMap fun m => { m with sel := if v then sput i true m.sel else sdel i m.sel }
  let b := s.regF Reg.MAP_SEL_MIRROR 39 0
  if b = 0 then s
  else
    let r := memRead (b + 64 * (i / 512)) s
    memPut (b + 64 * (i / 512)) ⟨putBits r.1.data (i % 512) 1 (b2n v), r.1.poison⟩ r.2

/-- The update ring: base and size; none when it is disabled or its size is not valid (R308). -/
def updRing (s : State) : Option (Nat × Nat) :=
  let c := s.reg Reg.MAP_UPD_CFG
  let n := fld c 16 0
  let b := s.regF Reg.MAP_UPD_BASE 39 0
  if bitOf c 31 && (List.range 11).any (fun i => n == 64 * 2 ^ i) && b % 64 == 0 then some (b, n) else none

/-- Advance the ring's head. -/
def updAdvance (n h : Nat) (s : State) : State :=
  (s.setReg Reg.MAP_UPD_HEAD (BitVec.ofNat 64 ((h + 1) % n))).modMap fun m => { m with updWait := false, upd := none }

/-- Does a fetch in flight still read the slot at an address (R310)? -/
def slotBusy (s : State) (a : Nat) : Bool :=
  s.map.ctx.any fun k => k.fly.any fun f => mdAddr k.w0 ((k.idx[f.1]?).getD 0) f.2.1 == a

/-- Is a descriptor skipped under the entry of its table (R311)? -/
def updBad (s : State) (bs : List Nat) (d : Word × Word) : Bool :=
  let row := leAt bs 0 4
  let src := leAt bs 8 8
  decide (row ≥ 2 ^ 29) || decide (leAt bs 4 1 ≥ 32) || leAt bs 5 3 != 0 || decide (src ≥ 2 ^ 40) || !bitOf d.1 50 || !mdUpd d.1 ||
    decide (row ≥ mdRows d.2) || src % 64 != 0 || decide (src + 64 * mdLines d.1 > memBytes s)

/-- The engine starts the descriptor at the head: it takes the table's active entry, or skips the descriptor (R309, R311). A
table whose range is being cleared holds it (R313). -/
def updStart (base n h : Nat) (s : State) : State :=
  if memHeld s (base + 16 * h - (base + 16 * h) % 64) 1 then s
  else
    let r := memGet (base + 16 * h) 16 s
    let t := leAt r.1 4 1
    let d := mapDir s (t % 32)
    let s := r.2.2
    if s.map.clearing.contains t then s
    else if r.2.1 || updBad s r.1 d then raise evMapUpdErr (bump Reg.MAP_UPD_BAD (updAdvance n h s))
    else s.modMap fun m => { m with upd := some ⟨leAt r.1 0 4, t, d.1, d.2, leAt r.1 8 8, false⟩ }

/-- Steps 1 to 3 of a descriptor (R309, R310): the source is read and the inactive slot written, once no fetch may still read that
slot and both are acknowledged. -/
def updWrite (n h wait : Nat) (j : UpdJob) (s : State) : State :=
  let ls := mdLines j.w0
  let dst := mdAddr j.w0 j.row (1 - mapSel s j.w0 j.w1 j.row)
  if slotBusy s dst then bumpN Reg.MAP_UPD_WAIT wait (s.modMap fun m => { m with updWait := true })
  else if memHeld s j.src ls || memHeld s dst ls then s
  else
    let x := memReadN j.src ls s
    if x.1.any (·.poison) then raise evMapUpdErr (bump Reg.MAP_UPD_POISON (updAdvance n h x.2))
    else (memPutN dst x.1 x.2).modMap fun m => { m with upd := some { j with written := true }, updWait := false }

/-- Step 4 (R309, R310): the flip, once the record of flips has room. -/
def updFlip (n h : Nat) (j : UpdJob) (s : State) : State :=
  if s.map.flips.length ≥ 1024 then s
  else
    let s := s.modMap fun m => { m with flips := m.flips ++ [m.issued] }
    flipsRetire (bump Reg.MAP_UPD_CNT (updAdvance n h (selPut (mdSel j.w1 + j.row) (mapSel s j.w0 j.w1 j.row == 0) s)))

/-- MAP_UPDATE: the descriptor at the head goes as far as it can; `wait` is the FCLK cycles it has waited under R310 since the last
command. -/
def mapUpdate (wait : Nat) (es : List MemErr) (s : State) : State :=
  match updRing s with
  | none => s
  | some (base, n) =>
    let h := s.regF Reg.MAP_UPD_HEAD 15 0
    if h = s.regF Reg.MAP_UPD_TAIL 15 0 % n ∨ !domRun s 39 ∨ s.map.loading then s
    else
      let s := memStrike es s
      let s := if s.map.upd.isNone then updStart base n h s else s
      let s := match s.map.upd with
        | some j => if j.written then s else updWrite n h wait j s
        | none => s
      match s.map.upd with
      | some j => if j.written then updFlip n h j s else s
      | none => s

/-- MAP_UPDATE. -/
def execMapUpdate (wait : Nat) (es : List MemErr) (s : State) : Res := .next (mapUpdate wait es s)

/-- MAP_UPD_TAIL_WRITE. -/
def execMapUpdTailWrite (v : Half) (s : State) : Res :=
  .next (s.setReg Reg.MAP_UPD_TAIL (BitVec.ofNat 64 (v.toNat % 65536)))

/-! ## The selector memory (R312, R313) -/

/-- The selector bits that mirror lines hold. -/
def selOfLines (ls : List DLine) : Store Bool :=
  ls.zipIdx.flatMap fun e => (bitsSet 512 e.1.data.toNat).map fun i => (512 * e.2 + i, true)

/-- MAP_SEL_RELOAD: PD[39] has entered RUN from DEEP or DEEP_RET. -/
def selReload (es : List MemErr) (s : State) : State :=
  if !s.map.loading || !domRun s 39 then s
  else
    let b := s.regF Reg.MAP_SEL_MIRROR 39 0
    if b = 0 then raise evMapSelLost (s.modMap fun m => { m with sel := [], loading := false })
    else
      let r := memReadN b 8192 (memStrike es s)
      r.2.modMap fun m => { m with sel := selOfLines r.1, loading := false }

/-- MAP_SEL_RELOAD. -/
def execMapSelReload (es : List MemErr) (s : State) : Res := .next (selReload es s)

/-- SEL_CLEARING_END. -/
def execSelClearingEnd (t : BitVec 5) (s : State) : Res :=
  .next (s.modMap fun m => { m with clearing := m.clearing.filter (· != t.toNat) })

/-- Clear the mirror bits of a range, line by line. -/
def mirrorClear (b lo hi : Nat) : Nat → State → State
  | 0, s => s
  | n + 1, s =>
    let i := hi / 512 - n
    let from' := max lo (512 * i) - 512 * i
    let len := min hi (512 * i + 512) - max lo (512 * i)
    let r := memRead (b + 64 * i) s
    mirrorClear b lo hi n (if len = 0 then s else memPut (b + 64 * i) ⟨putBits r.1.data from' len 0, len != 512 && r.1.poison⟩ r.2)

/-- MAP_SEL_CLEAR: the selector bits of a range, and its mirror bits whatever they hold, become 0. -/
def selClear (lo n : Nat) (s : State) : State :=
  let hi := min 4194304 (lo + n)
  let b := s.regF Reg.MAP_SEL_MIRROR 39 0
  let s := s.modMap fun m => { m with sel := m.sel.filter fun e => !(decide (lo ≤ e.1) && decide (e.1 < hi)) }
  if b = 0 then s else mirrorClear b lo hi (hi / 512 + 1 - lo / 512) s

/-- At a capture: `old` are the entries active before it. A gather started under an entry that changed is noted; a newly
active updatable entry with another range clears it (R313). -/
def mapCaptured (old : List (Word × Word)) (s : State) : State :=
  (List.range 32).foldl (fun s t =>
    let o := (old[t]?).getD (0, 0)
    let d := mapDir s t
    if d = o then s
    else
      let s := s.modMap fun m => { m with ctx := m.ctx.map fun k => if k.table = t then { k with prev := true } else k }
      if mdUpd d.1 && (mdSel d.2 != mdSel o.2 || mdRows d.2 != mdRows o.2) then
        selClear (mdSel d.2) (mdRows d.2) (s.modMap fun m => { m with clearing := m.clearing.filter (· != t) ++ [t] })
      else s) s

/-- The gathers of an aborted trunk stop (R314). -/
def mapAbort (k : Nat) (s : State) : State :=
  let kill (x : MapCtx) : MapCtx := if x.slot = k then { x with dead := true, rest := [] } else x
  State.modMap (s := { s with net := s.net.filter fun m => !(m.kind == .gather && m.slot == k) }) fun m =>
    { m with ctx := (m.ctx.map kill).filter (fun x => !(x.dead && x.fly.isEmpty)) }

/-- MAP_STAT as a read returns it. -/
def mapStatVal (s : State) : Word :=
  let w := s.net.countP fun m => m.kind == .gather
  BitVec.ofNat 64 (s.map.ctx.length + (min 255 w) * 2 ^ 4 + mapFlight s * 2 ^ 12 + b2n s.map.loading * 2 ^ 25 +
    b2n (!s.map.clearing.isEmpty) * 2 ^ 26 + b2n (!domRun s 39 && decide (0 < w)) * 2 ^ 27 + b2n s.map.updWait * 2 ^ 28)

/-- MAP_PREV_BUSY as a read returns it. -/
def mapPrevVal (s : State) : Word :=
  BitVec.ofNat 64 ((List.range 32).foldl (fun a t => a + if s.map.ctx.any fun k => k.prev && k.table == t then 2 ^ t else 0) 0)

end Sys2Proof.Machine
end

