-- ==== Sys2Proof/Machine/Mbox.lean ====
section
/-! DEFINITION. The mailboxes of the firmware: taking a command, answering it (R361, Tables 19.8 and 19.9). -/

namespace Sys2Proof.Machine

/-- The mailbox base of a function. -/
def mboxOff (f w : Nat) : Nat := Reg.MBOX + 0x100 * f + 4 * w

/-- The 64 bytes of a mailbox. -/
def mboxBytes (s : State) (f : Nat) : List Nat :=
  (List.range 16).flatMap fun w => bytesLE 4 (s.reg (mboxOff f w)).toNat

/-- Replace the 64 bytes of a mailbox. -/
def mboxPut (f : Nat) (bs : List Nat) (s : State) : State :=
  (List.range 16).foldl (fun s w => s.setReg (mboxOff f w) (BitVec.ofNat 64 (leAt bs (4 * w) 4))) s

/-- Replace bytes of a list. -/
def setBytes (bs : List Nat) (o : Nat) (x : List Nat) : List Nat := bs.take o ++ x ++ bs.drop (o + x.length)

/-- The firmware answers: status in byte 4, results from byte 8 onward; busy clears, done sets, MBOX_DONE[f]. -/
def mboxAnswer (f status : Nat) (res : List Nat) (s : State) : State :=
  let bs := setBytes (setBytes (mboxBytes s f) 4 [status]) 8 (res.take 56)
  let s := (mboxPut f bs s).setReg (Reg.MBOX_STAT + 0x100 * f) 2
  raise (evMboxDone f) { s with mbox := s.mbox.erase f }

/-- What a command comes to: its status, its results, and the state. -/
structure MboxRes where
  status : Nat
  res    : List Nat
  s      : State
deriving DecidableEq, Repr

/-- Run the oldest waiting command when it has a code; any other leaves the state as it is. The command takes the function
that issued it and its 64 bytes. -/
def mboxRun (code : Nat) (cmd : Nat → List Nat → State → MboxRes) (s : State) : State :=
  match s.mbox with
  | [] => s
  | f :: _ =>
    let bs := mboxBytes s f
    if leAt bs 0 2 ≠ code then s
    else
      let r := cmd f bs s
      mboxAnswer f r.status r.res r.s

/-- The codes of Table 19.8. -/
def mboxCodes : List Nat := [0x0001, 0x0010, 0x0011, 0x0012, 0x0013, 0x0014, 0x0020, 0x0021, 0x0030, 0x0040, 0x0050]

/-- MBOX_UNKNOWN: a code outside Table 19.8. -/
def mboxUnknown (s : State) : State :=
  match s.mbox with
  | [] => s
  | f :: _ => if mboxCodes.contains (leAt (mboxBytes s f) 0 2) then s else mboxAnswer f 0xFF [] s

/-- MBOX_UNKNOWN. -/
def execMboxUnknown (s : State) : Res := .next (mboxUnknown s)

/-- A write of a mailbox word: ignored with the register-access error event while busy. -/
def mboxWordWrite (f w : Nat) (v : Half) (s : State) : State :=
  if bitOf (s.reg (Reg.MBOX_STAT + 0x100 * f)) 0 then accessError s else s.setReg (mboxOff f w) (v.zeroExtend 64)

/-- A write of MBOX_CTRL: go sets busy and joins the commands in the order of their go writes. -/
def mboxGo (f : Nat) (v : Half) (s : State) : State :=
  let o := Reg.MBOX_STAT + 0x100 * f
  if !v.getLsbD 0 || bitOf (s.reg o) 0 then s
  else { s.setReg o ((s.reg o) ||| 1) with mbox := s.mbox ++ [f] }

/-- The slot a command names in byte 8. -/
def mboxSlot (bs : List Nat) : Nat := leAt bs 8 1

/-- The owner of a slot (R327): values 9 to 15 act as 0. -/
def slotOwner (s : State) (k : Nat) : Nat :=
  let o := s.regF (Reg.TRUNK_CFG + 0x20 * k) 3 0
  if o > 8 then 0 else o

/-- May a function command a slot (R327, Table 19.8)? 0 when it may, else the status: BAD_ARG for a slot above 7. -/
def slotPerm (s : State) (f k : Nat) : Nat :=
  if k > 7 then 0xF1 else if f = 0 ∨ slotOwner s k = f then 0 else 0xF0

end Sys2Proof.Machine
end

