-- ==== Sys2Proof/Machine/Rulebook.lean ====
section
/-! DEFINITION. The rulebook engine (chapter 6, R119 to R136). -/

namespace Sys2Proof.Machine

/-- Change the engine. -/
def State.modRb (f : RbSt → RbSt) (s : State) : State := { s with rb := f s.rb }

/-! ## Jobs and offset lists (R122, R123) -/

/-- A job descriptor (Table 6.2). -/
structure RbJob where
  kind  : Nat
  inL   : Nat
  outL  : Nat
  bcast : Bool
  set   : Nat
  shelf : Nat
  sem   : Nat
  mask  : Nat
  lines : Nat
  slots : Nat
  ovfBase : Nat
  ovfLines : Nat
deriving DecidableEq, Repr

/-- A descriptor of four words. -/
def rbJobOf (w : List Word) : RbJob :=
  let x (i : Nat) : Word := (w[i]?).getD 0
  { kind := fld (x 0) 1 0, inL := fld (x 0) 3 2, outL := fld (x 0) 5 4, bcast := bitOf (x 0) 6, set := fld (x 0) 15 8,
    shelf := fld (x 0) 21 16, sem := fld (x 0) 27 24, mask := fld (x 0) 63 32, lines := fld (x 1) 15 0, slots := fld (x 1) 31 16,
    ovfBase := fld (x 2) 39 0, ovfLines := fld (x 3) 31 0 }

/-- Job `j` of the table. -/
def rbJob (s : State) (j : Nat) : RbJob := rbJobOf ((List.range 4).map fun w => s.reg (Reg.RB_JOB + 0x20 * j + 8 * w))

/-- A signed 4-bit component. -/
def nib (x : Nat) : Int := asInt 4 (x % 16)

/-- The custom offset list `m`: its 16-bit entries. -/
def customList (s : State) (m : Nat) : List Nat :=
  (List.range (min 128 (s.regF (Reg.RB_OFFSET_N + 4 * m) 7 0))).map fun i =>
    s.regF (Reg.RB_OFFSET + 0x100 * m + 4 * (i / 2)) (16 * (i % 2) + 15) (16 * (i % 2))

/-- The offsets of a list, in order (Table 6.1). -/
def rbOffsets (s : State) (set : Nat) : List (Int × Int × Int) :=
  let cube (lo : Int) (n : Nat) : List (Int × Int × Int) :=
    (List.range n).flatMap fun z => (List.range n).flatMap fun y => (List.range n).map fun x => (lo + x, lo + y, lo + z)
  match set with
  | 0 => cube (-1) 3
  | 1 => cube (-2) 5
  | 2 => cube 0 2
  | k => if 8 ≤ k ∧ k ≤ 15 then (customList s (k - 8)).map fun o => (nib o, nib (o / 16), nib (o / 256)) else []

/-- Do the levels relate as the kind requires (Table 6.3)? -/
def rbLevelsOk (j : RbJob) : Bool :=
  match j.kind with
  | 0 => j.inL == j.outL
  | 1 => decide (j.inL < j.outL)
  | 2 => decide (j.outL < j.inL)
  | _ => false

/-- The consumers of a job under a placement, as (logical, physical), ascending. -/
def rbConsumers (j : RbJob) (place : List CoreId) : List (Nat × CoreId) :=
  (place.zipIdx.filter fun e => j.mask.testBit e.2).map fun e => (e.2, e.1)

/-! ## Probes (R119, R121, R126) -/

/-- The input key of Table 6.3; none is a miss without reading. -/
def rbKey (j : RbJob) (k : Nat × Nat × Nat) (o : Int × Int × Int) : Option (Nat × Nat × Nat) :=
  let ax (k : Nat) (o : Int) : Option Nat :=
    let v : Option Int := match j.kind with
      | 0 => some (k + o)
      | 1 => some ((k : Int) * 2 ^ (j.outL - j.inL) + o)
      | _ =>
        let d : Int := k - o
        if d < 0 ∨ d % 2 ^ (j.inL - j.outL) ≠ 0 then none else some (d / 2 ^ (j.inL - j.outL))
    v.bind fun x => if 0 ≤ x ∧ x ≤ 16383 then some x.toNat else none
  match ax k.1 o.1, ax k.2.1 o.2.1, ax k.2.2 o.2.2 with
  | some x, some y, some z => some (x, y, z)
  | _, _, _ => none

/-- A probe: the active index, and whether an entry of the buckets fails its check or is poisoned. -/
def rbProbe (g : GridBuf) (buf level : Nat) (key : Nat × Nat × Nat) : Option Nat × Bool × Bool :=
  let coarse := level != 0
  let bs := buckets g.set.seed key level
  let es := (ways bs.1 ++ ways bs.2).filterMap fun i => (sget i (g.ents coarse)).map fun e => (i, e)
  ((gridFind g buf key level).bind fun i => sget i (if coarse then g.map1 else g.map0),
    es.any fun e => entryFails buf coarse e.1 e.2, es.any fun e => entryTag e.2 == 0)

/-- The outputs of a tile: their keys, in active-index order. -/
def rbOutputs (g : GridBuf) (level t n : Nat) : List (Nat × Nat × Nat) :=
  (List.range n).filterMap fun i =>
    if h : level < 4 then
      (sget (1024 * t + i) g.lists[level]).bind fun e => (sget e (g.ents (level != 0))).map entryKey
    else none

/-- Does an output's own entry fail its check, and is one poisoned? The engine verifies every entry it reads (R121). -/
def rbOutBad (g : GridBuf) (buf level t n : Nat) : Bool × Bool :=
  let coarse := level != 0
  let es := (List.range n).filterMap fun i =>
    if h : level < 4 then (sget (1024 * t + i) g.lists[level]).bind fun e => (sget e (g.ents coarse)).map fun x => (e, x) else none
  (es.any fun e => entryFails buf coarse e.1 e.2, es.any fun e => entryTag e.2 == 0)

/-- One segment: the records of an offset, whether an entry failed, whether one was poisoned. -/
def rbSegment (g : GridBuf) (buf : Nat) (j : RbJob) (miss : Bool) (outs : List (Nat × Nat × Nat)) (o : Int × Int × Int) :
    List Nat × Bool × Bool :=
  outs.zipIdx.foldl (fun a e =>
    if miss then a
    else match rbKey j e.1 o with
      | none => a
      | some key =>
        let p := rbProbe g buf j.inL key
        (match p.1 with
          | some i => a.1 ++ [i + e.2 * 2 ^ 20]
          | none => a.1,
         a.2.1 || p.2.1, a.2.2 || p.2.2)) ([], false, false)

/-! ## Tiles (R127 to R132) -/

/-- A tile's header (Table 6.4): flags byte, tile, outputs, offsets, records, body lines, body address. -/
def rbHeader (g : GridBuf) (ji : Nat) (j : RbJob) (flags t nOut nOff nRec body addr : Nat) : List Nat :=
  let occ (l : Nat) : Nat := if h : l < 4 then g.n[l] else 0
  bytesLE 4 g.frame.toNat ++ bytesLE 2 ji ++ [j.kind + 4 * j.inL + 16 * j.outL, flags] ++ bytesLE 4 t ++
    bytesLE 4 (1024 * t % 2 ^ 20) ++ bytesLE 2 nOut ++ [nOff, 0] ++ bytesLE 4 nRec ++ bytesLE 4 body ++ bytesLE 4 0 ++
    bytesLE 8 addr ++ bytesLE 4 (occ j.inL) ++ bytesLE 4 (occ j.outL) ++ List.replicate 16 0

/-- Bytes as whole lines. -/
def byteLines (bs : List Nat) : List (BitVec 512) :=
  (List.range (cdiv bs.length 64)).map fun i => lineOfBytes ((bs.drop (64 * i)).take 64)

/-- The directory and the segments of a tile. -/
def rbBody (segs : List (List Nat)) : List (BitVec 512) × List (BitVec 512) :=
  let d := cdiv segs.length 32
  let cnts := (segs.flatMap fun r => bytesLE 2 r.length)
  (byteLines (cnts ++ List.replicate (64 * d - cnts.length) 0),
   segs.flatMap fun r => byteLines ((r ++ List.replicate (16 * cdiv r.length 16 - r.length) 0xFFFFFFFF).flatMap (bytesLE 4)))

/-- Replace a run. -/
def rbPut (r : RbRun) (s : State) : State :=
  s.modRb fun b => { b with runs := b.runs.map fun x => if x.slot = r.slot then r else x }

/-- Drop a slot's run. -/
def rbDrop (k : Nat) (s : State) : State := s.modRb fun b => { b with runs := b.runs.filter fun x => x.slot != k }

/-- The next line of a consumer's ring slot, and the ring after (R128). -/
def rbSlotLine (r : RbRun) (j : RbJob) (l : Nat) : Nat × Store Nat :=
  let q := (sget (64 * l + j.shelf) r.used).getD 0
  (q * j.lines, sput (64 * l + j.shelf) ((q + 1) % max 1 j.slots) r.used)

/-- The stamp of a held grant. -/
def rbStamp (r : RbRun) (c : CoreId) : Nat := match r.held.find? fun e => e.1 == c with
  | some e => e.2
  | none => 0

/-- A write of a line to a consumer's slot; `mark` 1 names a header with fault set. -/
def rbWrite (s : State) (r : RbRun) (j : RbJob) (c : CoreId) (seq idx mark : Nat) (d : DLine) : Msg :=
  { kind := .write, src := .grid, dst := .core c, seq := seq, slot := r.slot, shelf := j.shelf, idx := idx,
    pool := sePool (shelfEnt s c j.shelf), stamp := rbStamp r c, k := mark,
    line := sealLine (saltTransit c.val j.shelf idx r.slot s.coordX s.coordY) d }

/-- Put messages on the mesh in order. -/
def sendAll (ms : List Msg) (s : State) : State := { s with net := s.net ++ ms }

/-- Write the lines of one output to one consumer: segments, directory, then the header, which waits for a body in memory. -/
def rbDeliver (r : RbRun) (j : RbJob) (seq mem mark : Nat) (header : DLine) (dir segs : List DLine) (l : Nat) (c : CoreId)
    (s : State) : RbRun × State :=
  let q := rbSlotLine r j l
  let d := dir.length
  let body := (segs.zipIdx.map fun e => rbWrite s r j c seq (q.1 + 1 + d + e.2) 0 e.1) ++
    (dir.zipIdx.map fun e => rbWrite s r j c seq (q.1 + 1 + e.2) 0 e.1)
  let h := rbWrite s r j c seq q.1 mark header
  let s := sendAll (body ++ if mem = 0 then [h] else []) s
  ({ r with used := q.2 }, s.modRb fun b => { b with
    tiles := b.tiles ++ [⟨r.slot, c, j.sem, seq, body.length + 1, mem, if mem = 0 then [] else [h]⟩] })

/-- Deliver to several consumers. -/
def rbDeliverAll (j : RbJob) (seq mem mark : Nat) (header : DLine) (dir segs : List DLine) :
    List (Nat × CoreId) → RbRun → State → RbRun × State
  | [], r, s => (r, s)
  | e :: es, r, s =>
    let x := rbDeliver r j seq mem mark header dir segs e.1 e.2 s
    rbDeliverAll j seq mem mark header dir segs es x.1 x.2

/-- A fresh request identifier. -/
def rbNext (s : State) : State := s.modRb fun b => { b with seq := b.seq + 1 }

/-- Is the level missing from the computing buffer (Table 6.7)? -/
def rbMissing (g : GridBuf) (j : RbJob) : Bool :=
  let top := fld g.set.cfg 2 1
  decide (j.inL > top) || decide (j.outL > top)

/-- Occupancy of the outputs as a job sees it. -/
def rbOcc (g : GridBuf) (j : RbJob) : Nat :=
  if j.outL > fld g.set.cfg 2 1 then 0 else if h : j.outL < 4 then g.n[j.outL] else 0

/-- The run after a job (R125); it ends after its last. -/
def rbJobDone (r : RbRun) (s : State) : State :=
  if r.job + 1 ≥ r.stop then rbDrop r.slot s
  else rbPut { r with job := r.job + 1, tile := 0, begun := false, ovf := 0, term := false, asked := [], held := [] } s

/-- The first output of a job: a missing level is counted once, raised once a frame. -/
def rbBegin (r : RbRun) (j : RbJob) (s : State) : State :=
  if r.begun then s
  else if rbMissing (s.gbuf s.computing) j then
    let s := bump Reg.RB_LEVEL_MISSING s
    if s.rb.level then s else raise evRbLevel (s.modRb fun b => { b with level := true })
  else s

/-- The terminal headers (R128), or fault headers (R132), go to every consumer, each in its next slot: the run and the state
after. -/
def rbTerminal (r : RbRun) (j : RbJob) (flags mark : Nat) (s : State) : RbRun × State :=
  let g := s.gbuf s.computing
  let lm := 8 * b2n (rbMissing g j)
  let s := rbNext s
  rbDeliverAll j s.rb.seq 0 mark ⟨lineOfBytes (rbHeader g r.job j (flags + lm) r.tile 0 0 0 0 0), false⟩ [] []
    (rbConsumers j r.place) r s

/-- Does a run hold its credits at every core it will write to (R129)? -/
def rbHolds (r : RbRun) (to_ : List (Nat × CoreId)) : Bool := to_.all fun e => r.held.any (·.1 == e.2)

/-- The list stops (R132): fault headers leave once the credits of every consumer's slot are held. -/
def rbFaultStop (r : RbRun) (j : RbJob) (s : State) : State :=
  let r := { r with fault := true }
  if rbHolds r (rbConsumers j r.place) then rbDrop r.slot (rbTerminal r j 5 1 s).2 else rbPut r s

/-- One tile, its credits held (R126 to R132). -/
def rbTileWrite (r : RbRun) (j : RbJob) (to_ : List (Nat × CoreId)) (s : State) : State :=
  let b := s.computing
  let g := s.gbuf b
  let occ := rbOcc g j
  let nOut := min 1024 (occ - 1024 * r.tile)
  let outs := rbOutputs g j.outL r.tile nOut
  let offs := rbOffsets s j.set
  let miss := j.inL > fld g.set.cfg 2 1
  let segs := offs.map (rbSegment g b.val j miss outs)
  let own := rbOutBad g b.val j.outL r.tile nOut
  let failed := own.1 || segs.any (·.2.1)
  let poison := failed || own.2 || segs.any (·.2.2)
  let recs := segs.map (·.1)
  let nRec := recs.foldl (fun n x => n + x.length) 0
  let body := rbBody recs
  let nBody := body.1.length + body.2.length
  let s := bumpN Reg.RB_PROBE_CNT (nOut * offs.length) s
  let s := if failed then raise evRbE2e (bump Reg.RB_E2E_FAIL s) else s
  let flags := 8 * b2n (rbMissing g j) + 16 * b2n (decide (1024 * (r.tile + 1) ≥ occ))
  let dl (x : BitVec 512) : DLine := ⟨x, poison⟩
  let after (r : RbRun) (s : State) : State :=
    let more := decide (1024 * (r.tile + 1) < occ)
    rbPut { r with tile := r.tile + 1, begun := true, term := !more, asked := [], held := [] }
      (bump Reg.RB_TILE_CNT (bumpN Reg.RB_MATCH_CNT (nRec * to_.length) s))
  if 1 + nBody ≤ j.lines then
    let s := rbNext s
    let h := dl (lineOfBytes (rbHeader g r.job j flags r.tile nOut offs.length nRec nBody 0))
    let x := rbDeliverAll j s.rb.seq 0 0 h (body.1.map dl) (body.2.map dl) to_ r s
    after x.1 x.2
  else if j.ovfLines = 0 ∨ r.ovf + nBody > j.ovfLines then
    rbFaultStop r j (raise evRbFault (bump Reg.RB_FAULT_CNT s))
  else
    let s := rbNext (bump Reg.RB_OVERFLOW_CNT s)
    let a := j.ovfBase + 64 * r.ovf
    let ms := (body.1 ++ body.2).zipIdx.map fun e =>
      ({ kind := .memWrite, src := .grid, dst := .mem, seq := s.rb.seq, slot := r.slot, addr := a + 64 * e.2,
         line := sealLine (saltAddr (a + 64 * e.2)) (dl e.1) } : Msg)
    let h := dl (lineOfBytes (rbHeader g r.job j (flags + 2) r.tile nOut offs.length nRec nBody a))
    let x := rbDeliverAll j s.rb.seq ms.length 0 h [] [] to_ { r with ovf := r.ovf + nBody } (sendAll ms s)
    after x.1 x.2

/-- Ask for the credits that the next output of a job needs (R129). -/
def rbAsk (r : RbRun) (j : RbJob) (need : List CoreId) (s : State) : State :=
  let x := need.foldl (fun (a : RbRun × State) c =>
    let s := rbNext a.2
    ({ a.1 with asked := a.1.asked ++ [(c, s.rb.seq)] },
      post { kind := .creditReq, src := .grid, dst := .core c, seq := s.rb.seq, slot := r.slot,
             pool := sePool (shelfEnt s c j.shelf), k := j.lines } s)) (r, s)
  rbPut { x.1 with begun := true } x.2

/-- Can a job run: its kind, levels and offsets are ones that the loader accepts (R123)? -/
def rbRunnable (s : State) (j : RbJob) : Bool :=
  rbLevelsOk j && !(rbOffsets s j.set).isEmpty && decide (2 ≤ j.lines) && decide (2 ≤ j.slots)

/-- The run whose turn it is (R125): the first after the one served last, in trunk-slot order. One that waits for its frame's abort
has none. -/
def rbTurn (s : State) : Option RbRun :=
  ((List.range 8).map fun i => (s.rb.last + 1 + i) % 8).findSome? fun k => s.rb.runs.find? fun r => r.slot == k && !r.halt

/-- RB_TILE: the run whose turn it is asks for its credits, waits for them, or writes its next tile or its terminal headers.
`wait` is the GCLK cycles waited for credits since the last command; `us` are upsets of the grid store. -/
def rbStep (wait : Nat) (us : List GridUpset) (s : State) : State :=
  if handoverPending s || !domRun s 37 then s
  else match rbTurn s with
    | none => s
    | some r =>
      let s := strikeGrid us s
      let j := rbJob s r.job
      let cons := rbConsumers j r.place
      if !rbRunnable s j ∨ cons.isEmpty then rbJobDone r s
      else
        let occ := rbOcc (s.gbuf s.computing) j
        let term := r.term || r.fault || occ == 0
        let to_ := if term || j.bcast then cons else (cons.drop (r.tile % cons.length)).take 1
        let open_ := (to_.map (·.2)).filter fun c => !(r.held.any (·.1 == c)) && !(r.asked.any (·.1 == c))
        if !open_.isEmpty then rbAsk r j open_ (rbBegin r j s)
        else
          let s := bumpN Reg.RB_CREDIT_WAIT wait s
          if !rbHolds r to_ then s
          else
            let s := s.modRb fun b => { b with last := r.slot }
            if r.fault then rbFaultStop r j s
            else if term then
              let x := rbTerminal r j 1 0 s
              rbJobDone x.1 x.2
            else rbTileWrite r j to_ s

/-- RB_TILE. -/
def execRbTile (wait : Nat) (us : List GridUpset) (s : State) : Res := .next (rbStep wait us s)

/-- The answer to a credit request of the engine: held, asked for again after a stale refusal, or the abort of R129,
for which the list waits. -/
def rbCredit (src : CoreId) (s : State) : State :=
  match s.receive .creditAns (.core src) .grid with
  | none => s
  | some (m, s1) =>
    match s1.rb.runs.find? fun r => r.asked.contains (src, m.seq) with
    | none => s1
    | some r =>
      let r := { r with asked := r.asked.erase (src, m.seq) }
      if m.err ≠ 0 then
        (rbPut { r with halt := true } s1).send { kind := .trapReport, src := .grid, dst := .sys, slot := r.slot, k := 5, frame := s1.runFrame r.slot }
      else if m.k = 0 then rbPut r s1
      else rbPut { r with held := r.held ++ [(src, m.stamp)] } s1

/-- Acknowledgements from an agent to the engine are taken: each counts one line less of its tile; one that carries a failed
shelf check reports CORE_TRAP of no core (R157). -/
def rbAcks (src : Agent) (s : State) : State :=
  let mine (m : Msg) : Bool := m.kind == .writeAck && m.src == src && m.dst == .grid
  let cnt (q : Nat) : Nat := s.net.countP fun m => mine m && m.seq == q
  let rest := s.net.filter fun m => !mine m
  let upd (t : RbTile) : RbTile :=
    if src = Agent.mem then { t with mem := t.mem - cnt t.seq }
    else if src = Agent.core t.core then { t with left := t.left - cnt t.seq }
    else t
  let fail := (s.rb.tiles.filter fun t => src == Agent.core t.core &&
      s.net.any fun m => mine m && m.seq == t.seq && m.err != 0).map fun t =>
    ({ kind := .trapReport, src := .grid, dst := .sys, slot := t.slot, k := 7, frame := s.runFrame t.slot } : Msg)
  { s with net := rest ++ fail, rb := { s.rb with tiles := s.rb.tiles.map upd } }

/-- RB_TILE_SIGNAL: acknowledgements of a consumer's tiles and of memory arrive; a header that waited for its body leaves;
each tile acknowledged in full signals the consumer's semaphore (R129). -/
def rbSignal (c : CoreId) (s : State) : State :=
  let s := rbAcks (.core c) (rbAcks .mem s)
  let s := sendAll (s.rb.tiles.flatMap fun t => if t.mem = 0 then t.hold else []) s
  let tiles := s.rb.tiles.map fun t => if t.mem = 0 then { t with hold := [] } else t
  let done (t : RbTile) : Bool := t.core == c && t.left == 0 && t.mem == 0
  let sig := (tiles.filter done).map fun t =>
    ({ kind := .signal, src := .grid, dst := .core c, slot := t.slot, idx := t.sem, k := 1, stamp := frameStamp s } : Msg)
  sendAll sig (s.modRb fun b => { b with tiles := tiles.filter fun t => !done t })

/-- RB_TILE_SIGNAL. -/
def execRbTileSignal (c : CoreId) (s : State) : Res := .next (rbSignal c s)

/-! ## Fences, aborts, registers (R125, R134, R136) -/

/-- A list register: first, one after the last, enabled. -/
def rbListOf (v : Word) : Nat × Nat × Bool := (fld v 7 0, min 256 (fld v 7 0 + fld v 16 8), bitOf v 17)

/-- Discard a run and its tiles in flight; its unfinished jobs are counted. -/
def rbStop (k : Nat) (s : State) : State :=
  let n := match s.rb.runs.find? fun r => r.slot == k with
    | some r => r.stop - r.job
    | none => 0
  let s := bumpN Reg.RB_UNFINISHED n (rbDrop k s)
  s.modRb fun b => { b with tiles := b.tiles.filter fun t => t.slot != k }

/-- RB_UNFINISHED and RB_LIST_START at a fence; `place` is the placement of each trunk slot that runs the new frame. -/
def rbFence (place : Nat → Option (List CoreId)) (s : State) : State :=
  let s := (List.range 8).foldl (fun s k => rbStop k s) s
  let runs := (List.range 8).filterMap fun k =>
    let l := rbListOf (s.actReg (Reg.RB_LIST + 8 * k))
    match place k with
    | some p => if l.2.2 ∧ l.1 < l.2.1 then some (⟨k, l.1, l.2.1, 0, false, p, [], 0, false, [], [], false, false⟩ : RbRun) else none
    | none => none
  s.modRb fun b => { b with runs := runs, level := false }

/-- Jobs named by an enabled list, active or pending. -/
def rbNamed (s : State) (j : Nat) : Bool :=
  (List.range 8).any fun k => [s.actReg (Reg.RB_LIST + 8 * k), s.reg (Reg.RB_LIST + 8 * k)].any fun v =>
    let l := rbListOf v
    l.2.2 && decide (l.1 ≤ j) && decide (j < l.2.1)

/-- RB_JOB_WRITE (R125): a write at an offset of RB_JOB, RB_OFFSET or RB_OFFSET_N. -/
def rbJobWrite (o : Nat) (v : Word) (s : State) : State :=
  let custom (m : Nat) : Bool := (List.range 256).any fun j => rbNamed s j && (rbJob s j).set == 8 + m
  if Reg.RB_JOB ≤ o ∧ o < Reg.RB_JOB + 0x2000 ∧ o % 8 = 0 then
    if rbNamed s ((o - Reg.RB_JOB) / 0x20) then accessError s else s.setReg o (v &&& jobMask (o % 0x20 / 8))
  else if Reg.RB_OFFSET ≤ o ∧ o < Reg.RB_OFFSET + 0x800 ∧ o % 4 = 0 then
    if custom ((o - Reg.RB_OFFSET) / 0x100) then accessError s else s.setReg o (v &&& 0xFFFFFFFF)
  else if Reg.RB_OFFSET_N ≤ o ∧ o < Reg.RB_OFFSET_N + 0x20 ∧ o % 4 = 0 then
    if custom ((o - Reg.RB_OFFSET_N) / 4) then accessError s else s.setReg o (v &&& 0xFF)
  else s

/-- RB_JOB_WRITE. -/
def execRbJobWrite (o : Nat) (v : Word) (s : State) : Res := .next (rbJobWrite o v s)

/-- RB_STAT as a read returns it. -/
def rbStatVal (s : State) : Word :=
  match rbTurn s with
  | none => 0
  | some r => BitVec.ofNat 64 (1 + r.job * 2 + r.slot * 2 ^ 9 + r.tile * 2 ^ 12 + b2n (!r.asked.isEmpty) * 2 ^ 30)

end Sys2Proof.Machine
end

