-- ==== Sys2Proof/Machine/Smu.lean ====
section
/-! DEFINITION. The contexts of the Select and Merge Unit (R290 to R292, R296). -/

namespace Sys2Proof.Machine

/-- The select port sends a row's lines to a context, or traps on an uncorrectable one (R296); the unit may then start its next
instruction (R267). `put` places the context. -/
def smuSend (k : SmuCtx) (o : Op) (put : SmuCtx → List SmuCtx → List SmuCtx) (drop : State → State)
    (s : State) : State :=
  let r := smuLines k.core o k.row s
  if r.2.1 then activeTrap k.core k.seq trapBankEcc (drop r.2.2)
  else pump k.core { r.2.2 with smu := put { k with lines := r.1 } r.2.2.smu }

/-- SMU_CONTEXT_ASSIGN: the oldest waiting TOPK or MERGE obtains a free context and its port sends its first lines (R291, R292). -/
def smuAssign (s : State) : State :=
  if !domRun s 40 || decide (64 ≤ s.smu.length) then s
  else match takeFirst (fun m : Msg => m.kind == .smuWork) s.net with
    | none => s
    | some (m, rest) =>
      let s := { s with net := rest }
      match m.src with
      | .core c =>
        match findActive (s.core c) m.seq with
        | none => s
        | some a => smuSend ⟨c, m.seq, 0, []⟩ a.op (fun k l => l ++ [k]) id s
      | _ => s

/-- SMU_CONTEXT_ASSIGN. -/
def execSmuContextAssign (s : State) : Res := .next (smuAssign s)

/-- SMU_RESOLVE: context `i` resolves the row it serves, or its merge, from the lines it has received and checked, writes the result
block, and receives the next row (R290, R293 to R296). -/
def smuResolve (i : Nat) (errs : List LineErr) (s : State) : State :=
  match s.smu[i]? with
  | none => s
  | some k =>
    if !domRun s 40 then s
    else
      let free (s : State) : State := { s with smu := s.smu.eraseIdx i }
      match findActive (s.core k.core) k.seq with
      | none => free s
      | some a =>
        let s := strike errs s
        let ls := smuChecked k.core errs k.lines
        let r := if a.op.mn = .topk then resolveTopk k.core a.op k.row ls s else resolveMerge k.core a.op ls s
        if r.1.trap ≠ 0 then activeTrap k.core k.seq r.1.trap (free r.2)
        else if r.1.fin then settle k.core (answered k.core k.seq (free r.2))
        else smuSend { k with row := k.row + 1 } a.op (fun k l => l.set i k) free r.2

/-- SMU_RESOLVE. -/
def execSmuResolve (ctx : Nat) (errs : List LineErr) (s : State) : Res := .next (smuResolve ctx errs s)

/-- The contexts of an aborted trunk are freed, and its waiting requests dropped (R292). -/
def smuAbort (cores : List CoreId) (s : State) : State :=
  { s with
    smu := s.smu.filter fun k => !cores.contains k.core,
    net := s.net.filter fun m => !(m.kind == .smuWork && (match m.src with | .core c => cores.contains c | _ => false)) }

/-- SMU_STAT as a read returns it: contexts busy, messages waiting, and those that wait for PD[40]. -/
def smuStatVal (s : State) : Word :=
  let w := min 255 (s.net.countP fun m => m.kind == .smuWork)
  BitVec.ofNat 64 (s.smu.length + w * 2 ^ 7 + b2n (!domRun s 40 && decide (0 < w)) * 2 ^ 16)

end Sys2Proof.Machine
end

