-- ==== Sys2Proof/Machine/Frames.lean ====
section
/-! DEFINITION. Commit and abort of a trunk's frame, its deadline, and the same across devices (R41 to R50, R355 to R357,
R371), and the safe state (R403). -/

namespace Sys2Proof.Machine

/-! ## Trunk slots -/

/-- TRUNK_STAT.state (Table 17.5): 0 EMPTY, 1 LOADING, 2 LOADED, 3 LAUNCHING, 4 RUNNING, 5 STOPPING. -/
def trunkState (s : State) (k : Nat) : Nat := s.regF (Reg.TRUNK_STAT + 0x20 * k) 2 0
/-- The cores that run a slot's trunk: those placed for it. -/
def slotCores (s : State) (k : Nat) : List CoreId :=
  allCores.filter fun c => (s.core c).slot == k && (s.core c).issue != .unplaced

/-! ## Loft (R45, R159) -/

/-- The committed loft shelves of a core that belong to a slot, as a mask. -/
def loftMask (s : State) (c : CoreId) : Nat :=
  (List.range 64).foldl (fun a i => a + if seValid (shelfEnt s c i) && seLoft (shelfEnt s c i) == 2 then 2 ^ i else 0) 0

/-- The copy engine has work when a line is dirty. -/
def loftBegin (c : CoreId) (s : State) : State := s.modCore c fun k => { k with loftCopy := k.loftCopy || !k.dirty.isEmpty }

/-- The role exchange at the commit point. -/
def roleExchange (c : CoreId) (s : State) : State :=
  loftBegin c (s.modCore c fun k => { k with swap := k.swap ^^^ BitVec.ofNat 64 (loftMask s c) })

/-- LOFT_COPY_COMPLETE: every dirty line has been copied from the committed copy into the working copy; the dirty bits and
loft_copy are clear. -/
def loftCopied (c : CoreId) (s : State) : State :=
  if !(s.core c).loftCopy then s
  else
    let s := (s.core c).dirty.foldl (fun s e =>
      let ent := shelfEnt s c e.1
      let w := workSecond s c e.1
      let r := spadRead c (physOf ent (!w) e.2) 10 s
      spadWrite c (physOf ent w e.2) r.1 r.2.2) s
    s.modCore c fun k => { k with dirty := [], loftCopy := false }

/-- LOFT_COPY_COMPLETE. -/
def execLoftCopyComplete (c : CoreId) (s : State) : Res := .next (loftCopied c s)

/-! ## Result headers and the publisher at the commit point (R356, R357, R79, R81) -/

/-- A header ring's address and entries, 0 entries when it is disabled. -/
def hdrRing (s : State) (k r : Nat) : Nat × Nat :=
  let c := s.actReg (hringOff Reg.HRING_HDR_CFG k r)
  let n := fld c 12 0
  ((s.actReg (hringOff Reg.HRING_HDR k r)).toNat,
    if bitOf c 31 && [16, 32, 64, 128, 256, 512, 1024, 2048, 4096].contains n then n else 0)

/-- Table 19.6. -/
def headerBytes (s : State) (k r : Nat) (f : SlotFrame) (first lines flags : Nat) : List Nat :=
  bytesLE 4 f.frame.toNat ++ [k, r, flags, 0] ++ bytesLE 4 first ++ bytesLE 4 lines ++ bytesLE 6 f.sec ++ bytesLE 4 f.ns ++
    List.replicate 6 0 ++ bytesLE 8 f.flags.toNat ++ bytesLE 6 s.time.sec ++ bytesLE 4 s.time.ns ++ List.replicate 14 0

/-- One header entry: not written when its ring is full (R357); discarded while the PCI Express link is down (R355). -/
def writeHeader (k r : Nat) (f : SlotFrame) (first lines : Nat) (s : State) : State :=
  let h := hdrRing s k r
  let q := 16 * k + r
  let cnt := (sget q s.mem.hdrCount).getD 0
  let ovr := s.mem.hostOver.contains (64 * k + r)
  let lost := s.mem.hdrLost.contains q
  if h.2 = 0 then s
  else if (cnt + 2 ^ 32 - (s.reg (hringOff Reg.HRING_HDR_CONS k r)).toNat) % 2 ^ 32 = h.2 then
    bump Reg.HRING_HDR_DROP { s with mem := { s.mem with hdrLost := if lost then s.mem.hdrLost else q :: s.mem.hdrLost } }
  else if !s.pcie.linkUp then s
  else
    let s := s.emit (.hostWrite (h.1 + 64 * (cnt % h.2)) (headerBytes s k r f first lines (b2n ovr + b2n lost * 2)))
    { s with mem := { s.mem with hdrCount := sput q ((cnt + 1) % 2 ^ 32) s.mem.hdrCount, hdrLost := s.mem.hdrLost.erase q } }

/-- PUB_DEST[d].enable. -/
def pubDestOn (s : State) (d : Nat) : Bool := bitOf (s.reg (Reg.PUB_DEST_LO + 0x20 * d)) 51

/-- Space of the publisher queue becomes free up to the first line still needed. -/
def pubFree (s : State) : State :=
  let fs := s.pub.frames.dropWhile fun f => f.todo.isEmpty
  { s with pub := { s.pub with frames := fs, cons := match fs with
    | [] => s.pub.prod
    | f :: _ => f.first } }

/-- The publisher takes a committed frame of its slot. -/
def pubCommit (k : Nat) (f : SlotFrame) (s : State) : State :=
  if pubOwner s ≠ some k then s
  else
    let p := ringPending s k 32
    let n := (p + 2 ^ 32 - s.pub.prod) % 2 ^ 32
    let todo := ((List.range 4).filter (pubDestOn s)).map fun d => (d, 0, 0)
    let pf : PubFrame := { frame := f.frame, slot := k, first := s.pub.prod, lines := n, sec := f.sec, ns := f.ns,
                           flags := f.flags, trunc := s.pub.trunc, todo := todo }
    pubFree { s with pub := { prod := p, cons := s.pub.cons, frames := s.pub.frames ++ [pf], trunc := false } }

/-- The rings of a slot take the frame's entries: committed indices, then headers in ring order. -/
def ringsCommit (k : Nat) (f : SlotFrame) (s : State) : State :=
  let s := (List.range 16).foldl (fun s r =>
    let first := (ringInfo s k r).2.2.1
    let p := ringPending s k r
    let s := s.setReg (hringOff Reg.HRING_PROD k r) (BitVec.ofNat 64 p)
    writeHeader k r f first ((p + 2 ^ 32 - first) % 2 ^ 32) s) s
  let s := (List.range 16).foldl (fun s r =>
    s.setReg (cringOff Reg.CELLAR_RING_PROD k r) (BitVec.ofNat 64 (ringPending s k (16 + r)))) s
  pubCommit k f s

/-- The pending indices and overrun marks of a slot's frame are gone. -/
def ringsClear (k : Nat) (s : State) : State :=
  { s with mem := { s.mem with rings := s.mem.rings.filter fun e => e.1 / 64 != k,
                               hostOver := s.mem.hostOver.filter fun q => q / 64 != k } }

/-! ## The commit point (R42) -/

/-- Take a frame of a slot out of progress. -/
def frameEnd (k : Nat) (n : BitVec 32) (s : State) : State := s.setFrames k ((s.slotFrames k).filter fun f => f.frame != n)

/-- The commit point of a frame. -/
def commitPoint (k : Nat) (f : SlotFrame) (s : State) : State :=
  let s := ringsClear k (ringsCommit k f (frameEnd k f.frame s))
  let s := (slotCores s k).foldl (fun s c => roleExchange c s) s
  raise evFrameCommit (bump Reg.FRAME_COMMIT_CNT s)

/-! ## Abort (R47, R48) -/

/-- Is a message a write in flight to a commit-discipline target of a slot? -/
def disciplineWrite (k : Nat) (m : Msg) : Bool := m.kind == .memWrite && m.disc && m.slot == k

/-- A core of an aborted trunk flushes and returns to its frame entry point; its loft working copy is restored. -/
def abortCore (c : CoreId) (s : State) : State := loftBegin c (frameEntry c false (sendGateCounts c s))

/-- Every pool of a trunk is restored (R167). -/
def restorePools (k : Nat) (s : State) : State :=
  allCores.foldl (fun s c => (List.range 15).foldl (fun s p =>
    if poolCap s c (p + 1) ≠ 0 && fld (poolCfg s c (p + 1)) 20 18 == k then restorePool c (p + 1) s else s) s) s

/-- FRAME_ABORT_INFO of an abort. -/
def abortInfo (n : BitVec 32) (cause core k : Nat) : Word :=
  BitVec.ofNat 64 (n.toNat + cause * 2 ^ 32 + core * 2 ^ 40 + k * 2 ^ 48 + 2 ^ 63)

/-- Abort frame `n` of slot `k` with a cause of Table 2.4 and the core that raised it (0xFF for none). A frame that is not
in progress is not aborted. -/
def abortFrame (k : Nat) (n : BitVec 32) (cause core : Nat) (s : State) : State :=
  if !((s.slotFrames k).any fun f => f.frame == n) then s
  else
    let cores := slotCores s k
    let s := frameEnd k n s
    let s := { s with net := s.net.filter fun m => !disciplineWrite k m }
    let s := cores.foldl (fun s c => abortCore c s) s
    let s := restorePools k s
    let s := mapAbort k (smuAbort cores (rbStop k s))
    let s := ringsClear k s
    let s := if pubOwner s = some k then { s with pub := { s.pub with trunc := false } } else s
    let s := bump Reg.FRAME_ABORT_CNT s
    let s := if cause = 1 then bump Reg.FRAME_LATE_CNT s else s
    let info := abortInfo n cause core k
    let s := if bitOf (s.reg Reg.FRAME_ABORT_INFO) 63 then s else s.setReg Reg.FRAME_ABORT_INFO info
    let s := logFault evFrameAbort cause core info.toNat s
    let s := raise evFrameAbort s
    if cause = 1 then raise evFrameLate s else s

/-! ## Trunks across devices (R44, R371) -/

/-- This device's coordinate. -/
def State.here (s : State) : Nat × Nat := (s.coordX, s.coordY)
/-- The devices of a slot's trunk; none for a trunk of one device. -/
def slotDevices (s : State) (k : Nat) : List (Nat × Nat) := if h : k < 8 then s.trunks[k].devices else []
/-- The other devices. -/
def otherDevices (s : State) (k : Nat) : List (Nat × Nat) := (slotDevices s k).filter fun d => d != s.here
/-- Is this device the coordinator: the first listed? -/
def coordinates (s : State) (k : Nat) : Bool := (slotDevices s k).head? == some s.here

/-- Send to devices. -/
def tellDevices (ds : List (Nat × Nat)) (op k dec : Nat) (n : BitVec 32) (s : State) : State :=
  ds.foldl (fun s d => sendSys op d.1 d.2 k dec n s) s

/-- An abort condition of a slot's frame is recorded (R47): across devices, the coordinator decides abort for all; another
device aborts and sends abort packets before it has sent ready, and afterwards tells the coordinator only. -/
def recordAbort (k : Nat) (n : BitVec 32) (cause core : Nat) (s : State) : State :=
  match (s.slotFrames k).find? fun f => f.frame == n with
  | none => s
  | some f =>
    if (slotDevices s k).isEmpty then abortFrame k n cause core s
    else if coordinates s k then abortFrame k n cause core (tellDevices (otherDevices s k) 0x0A k 0 n s)
    else if f.ready then tellDevices ((slotDevices s k).take 1) 0x0B k 0 n s
    else abortFrame k n cause core (tellDevices (otherDevices s k) 0x0B k 0 n s)

/-- The coordinator decides commit once every device is ready. -/
def decide_ (k : Nat) (f : SlotFrame) (s : State) : State :=
  if (slotDevices s k).all fun d => f.peers.contains d then
    commitPoint k f (tellDevices (otherDevices s k) 0x0A k 1 f.frame s)
  else s

/-- Replace a frame in progress. -/
def putFrame (k : Nat) (f : SlotFrame) (s : State) : State :=
  s.setFrames k ((s.slotFrames k).map fun g => if g.frame = f.frame then f else g)

/-- The conditions of R42 hold on this device: the commit point, or, across devices, ready. -/
def localReady (k : Nat) (f : SlotFrame) (s : State) : State :=
  if (slotDevices s k).isEmpty then commitPoint k f s
  else
    let f' := { f with ready := true, peers := s.here :: f.peers }
    let s := putFrame k f' s
    if coordinates s k then decide_ k f' s else tellDevices ((slotDevices s k).take 1) 0x09 k 0 f.frame s

/-- COMMIT_POINT: a commit message reaches SYS; the last of its frame, with no abort recorded, is the commit point (R42). -/
def commitArrive (c : CoreId) (s : State) : State :=
  match s.receive .commit (.core c) .sys with
  | none => s
  | some (m, s) =>
    match (s.slotFrames m.slot).find? fun f => f.frame == m.frame with
    | none => s
    | some f =>
      let f' := { f with got := if f.got.contains c then f.got else f.got ++ [c] }
      let s := putFrame m.slot f' s
      if !f.ready && f'.place.all (fun d => f'.got.contains d) then localReady m.slot f' s else s

/-- COMMIT_POINT. -/
def execCommitPoint (c : CoreId) (s : State) : Res := .next (commitArrive c s)

/-- The oldest message of a kind at SYS, from any agent. -/
def sysTake (k : MsgKind) (s : State) : Option (Msg × State) :=
  (takeFirst (fun m => m.kind == k && m.dst == Agent.sys) s.net).map fun r => (r.1, { s with net := r.2 })

/-- The device a message comes from. -/
def msgDevice (s : State) (m : Msg) : Nat × Nat :=
  match m.src with
  | .dev x y _ => (x, y)
  | _ => s.here

/-- COMMIT_READY: the coordinator receives a device's ready. -/
def readyArrive (s : State) : State :=
  match sysTake .ready s with
  | none => s
  | some (m, s) =>
    match (s.slotFrames m.slot).find? fun f => f.frame == m.frame with
    | none => s
    | some f =>
      let f' := { f with peers := msgDevice s m :: f.peers }
      let s := putFrame m.slot f' s
      if coordinates s m.slot then decide_ m.slot f' s else s

/-- COMMIT_READY. -/
def execCommitReady (s : State) : Res := .next (readyArrive s)

/-- COMMIT_DECISION: commit is the device's commit point, abort records REMOTE_ABORT. -/
def decisionArrive (s : State) : State :=
  match sysTake .decision s with
  | none => s
  | some (m, s) =>
    match (s.slotFrames m.slot).find? fun f => f.frame == m.frame with
    | none => s
    | some f => if m.k = 1 then commitPoint m.slot f s else abortFrame m.slot m.frame 0x0A 0xFF s

/-- COMMIT_DECISION. -/
def execCommitDecision (s : State) : Res := .next (decisionArrive s)

/-- ABORT_FLIT_RECEIVE: the coordinator decides abort; a device that has not sent ready aborts; one that has awaits the
decision. -/
def abortArrive (s : State) : State :=
  match sysTake .abortMsg s with
  | none => s
  | some (m, s) =>
    match (s.slotFrames m.slot).find? fun f => f.frame == m.frame with
    | none => s
    | some f =>
      if coordinates s m.slot then recordAbort m.slot m.frame 0x0A 0xFF s
      else if f.ready then s
      else abortFrame m.slot m.frame 0x0A 0xFF s

/-- ABORT_FLIT_RECEIVE. -/
def execAbortFlitReceive (s : State) : Res := .next (abortArrive s)

/-! ## Conditions (R46, R47, R343, R360) -/

/-- DEADLINE_EXPIRE: the deadline of a frame of slot `k` has passed. -/
def deadline (k : Nat) (s : State) : State :=
  match (s.slotFrames k).find? fun f => decide (f.dead ≤ s.time.cyc) with
  | none => s
  | some f => recordAbort k f.frame 0x01 0xFF s

/-- DEADLINE_EXPIRE. -/
def execDeadlineExpire (k : Idx8) (s : State) : Res := .next (deadline k.val s)

/-- The core number a report names. -/
def agentCore (a : Agent) : Nat :=
  match a with
  | .core c => c.val
  | _ => 0xFF

/-- A core that trapped is to be tested (R402): an ARRAY_CHECK or BANK_ECC trap makes it the next outgoing core, and
check_max ARRAY_CHECK traps within 64 frames order it fenced. -/
def trapAccount (c : CoreId) (cause : Nat) (s : State) : State :=
  let now := (s.reg Reg.FRAME_NUM).truncate 32
  let ask (s : State) : State := { s with test := { s.test with
    reqs := if s.test.reqs.contains c then s.test.reqs else s.test.reqs ++ [c] } }
  if cause = 4 then ask s
  else if cause ≠ 3 then s
  else
    let seen := now :: ((sget c.val s.test.checks).getD []).filter fun n : BitVec 32 => decide ((now - n).toNat < 64)
    let s := { s with test := { s.test with checks := sput c.val seen s.test.checks } }
    let m := s.regF Reg.FENCE_CFG 3 0
    if m ≠ 0 ∧ m ≤ seen.length then
      { s with test := { s.test with orders := if s.test.orders.contains c then s.test.orders else s.test.orders ++ [c] } }
    else ask s

/-- TRAP_REPORT_ARRIVE: the trap aborts the frame it names; with that frame no longer in progress, only the trapping core
returns to its frame entry state (R261). -/
def trapArrive (src : Agent) (s : State) : State :=
  match s.receive .trapReport src .sys with
  | none => s
  | some (m, s) =>
    let s := match src with
      | .core c => trapAccount c m.k s
      | _ => s
    if (s.slotFrames m.slot).any fun f => f.frame == m.frame then recordAbort m.slot m.frame m.k (agentCore src) s
    else match src with
      | .core c => if (s.core c).issue = .trapped then frameEntry c false s else s
      | _ => s

/-- TRAP_REPORT_ARRIVE. -/
def execTrapReportArrive (src : Agent) (s : State) : Res := .next (trapArrive src s)

/-- POISON_REPORT: a poisoned line was written to a commit-discipline target. -/
def poisonArrive (src : Agent) (s : State) : State :=
  match s.receive .poisonReport src .sys with
  | none => s
  | some (m, s) => recordAbort m.slot m.frame 0x02 (agentCore src) s

/-- POISON_REPORT. -/
def execPoisonReport (src : Agent) (s : State) : Res := .next (poisonArrive src s)

/-- The function a requester acts as: the firmware acts as the PF (R327, R362). -/
def reqFn (r : Requester) : Option Nat :=
  match r with
  | .pf | .sc => some 0
  | .vf f => some (f.val + 1)
  | .core _ => none

/-- HOST_ABORT (R360). -/
def hostAbort (r : Requester) (k : Nat) (s : State) : State :=
  let may := reqFn r == some 0 || reqFn r == some (slotOwner s k)
  match may, trunkState s k, (s.slotFrames k).getLast? with
  | true, 4, some f => recordAbort k f.frame 0x09 0xFF s
  | _, _, _ => bump Reg.HQ_ABORT_IGN s

/-- HOST_ABORT. -/
def execHostAbort (req : Requester) (k : Idx8) (s : State) : Res := .next (hostAbort req k.val s)

/-! ## The safe state (R403) -/

/-- Is the device in its safe state? -/
def isSafe (s : State) : Bool := bitOf (s.reg Reg.SAFE_STAT) 31

/-- SAFE_STAT from the causes present. -/
def safeShow (s : State) : State :=
  let m := s.test.causes.foldl (fun a c => a + 2 ^ c) 0
  s.setReg Reg.SAFE_STAT (BitVec.ofNat 64 (m + if isSafe s then 2 ^ 31 else 0))

/-- The safe state aborts a frame in progress whatever it has sent; the other devices are told (R44, R403). -/
def safeAbort (k : Nat) (n : BitVec 32) (s : State) : State :=
  let s := if (slotDevices s k).isEmpty then s
    else if coordinates s k then tellDevices (otherDevices s k) 0x0A k 0 n s
    else tellDevices (otherDevices s k) 0x0B k 0 n s
  abortFrame k n 0x07 0xFF s

/-- A cause of Table 21.2 arises: recorded and logged; the device enters its safe state when it is not in it. -/
def safeCause (c : Nat) (s : State) : State :=
  if s.test.causes.contains c then s
  else
    let was := isSafe s
    let s := { s with test := { s.test with causes := s.test.causes ++ [c], hold := s.test.hold || c != 3 } }
    let s := if was then safeShow s else safeShow (s.setF Reg.SAFE_STAT 31 31 1)
    let s := logFault evSafeState c 0xFF (s.reg Reg.SAFE_STAT).toNat s
    if was then s
    else
      let s := raise evSafeState (s.emit (.pin "FAULT_N" false))
      let s := allSlots.foldl (fun s k => (s.slotFrames k.val).foldl (fun s f => safeAbort k.val f.frame s) s) s
      if toutOffNow s then allPins.foldl (fun s i => toutDrive i s) s else s

/-- The device leaves its safe state. -/
def safeLeave (s : State) : State :=
  if !isSafe s then s
  else
    let off := toutOffNow s
    let s := (s.setReg Reg.SAFE_STAT 0).emit (.pin "FAULT_N" true)
    let s := { s with test := { s.test with hold := false } }
    if off then allPins.foldl (fun s i => toutDrive i s) s else s

/-- A cause is no longer present; where no cause remains and none of the causes needed a write, the device leaves. -/
def safeGone (c : Nat) (s : State) : State :=
  let s := safeShow { s with test := { s.test with causes := s.test.causes.filter (· != c) } }
  if s.test.causes.isEmpty && !s.test.hold then safeLeave s else s

/-- SAFE_ENTER: SAFE_CTRL.enter, by the PF. -/
def execSafeEnter (req : Requester) (s : State) : Res :=
  .next (if reqFn req = some 0 then safeCause 5 s else accessError s)

/-- SAFE_RELEASE: SAFE_CTRL.release, by the PF; the HOST cause is released by it, and the device leaves when no cause
remains. -/
def safeRelease (req : Requester) (s : State) : State :=
  if reqFn req ≠ some 0 then accessError s
  else
    let s := safeShow { s with test := { s.test with causes := s.test.causes.filter (· != 5) } }
    if s.test.causes.isEmpty then safeLeave s else s

/-- SAFE_RELEASE. -/
def execSafeRelease (req : Requester) (s : State) : Res := .next (safeRelease req s)

/-- THERMAL_FAULT: a junction sensor at `t` °C, at or above fault_c for 1 ms. -/
def thermalFault (t : Int) (s : State) : State :=
  let s := s.setReg Reg.TEMP_STAT (BitVec.ofNat 64 (wrapInt 8 t))
  if t ≥ s.regF Reg.TEMP_CFG 15 8 then safeCause 2 s else s

/-- THERMAL_FAULT. -/
def execThermalFault (t : Int) (s : State) : Res := .next (thermalFault t s)

/-- THERM_WARN: a reading at or above warn_c raises THERM_WARN once per crossing. -/
def thermWarn (t : Int) (s : State) : State :=
  let s := s.setReg Reg.TEMP_STAT (BitVec.ofNat 64 (wrapInt 8 t))
  if t < s.regF Reg.TEMP_CFG 7 0 ∨ s.test.hot then s
  else raise evThermWarn { s with test := { s.test with hot := true } }

/-- THERM_WARN. -/
def execThermWarn (t : Int) (s : State) : Res := .next (thermWarn t s)

/-- THERMAL_CLEAR: the hottest sensor falls below fault_c − 10 °C; THERM_WARN is armed again once it is below warn_c. -/
def thermalClear (t : Int) (s : State) : State :=
  let s := s.setReg Reg.TEMP_STAT (BitVec.ofNat 64 (wrapInt 8 t))
  let s := if t < s.regF Reg.TEMP_CFG 7 0 then { s with test := { s.test with hot := false } } else s
  if t < (s.regF Reg.TEMP_CFG 15 8 : Int) - 10 then safeGone 2 s else s

/-- THERMAL_CLEAR. -/
def execThermalClear (t : Int) (s : State) : Res := .next (thermalClear t s)

/-- THERMTRIP: THERMTRIP_N low, whatever the state, until PWR_GOOD falls. -/
def execThermtrip (s : State) : Res := .next (s.emit (.pin "THERMTRIP_N" false))

end Sys2Proof.Machine
end

