-- ==== Sys2Proof/Machine/Power.lean ====
section
/-! DEFINITION. Power domains, the Power Budget Arbiter and the array throttle (R372 to R381). -/

namespace Sys2Proof.Machine

/-- A domain: PD[0] to PD[47]. -/
abbrev DomId := Fin 48

/-- Change power state. -/
def State.modPwr (f : PwrSt → PwrSt) (s : State) : State := { s with pwr := f s.pwr }

/-! ## Rails and estimates (R372, R376) -/

/-- The admission rail of a domain (Table 20.1). -/
def railOf (d : Nat) : Nat := if d < 36 then 0 else if d < 41 then 1 else if d < 43 then 2 else 3

/-- The active cost register of a domain. -/
def domCost (s : State) (d : Nat) : Word := s.actReg (Reg.PWR_DOM_COST_CORE + 8 * d)
/-- run_qa. -/
def runQa (s : State) (d : Nat) : Nat := fld (domCost s d) 7 0
/-- wake_qa. -/
def wakeQa (s : State) (d : Nat) : Nat := fld (domCost s d) 31 24
/-- ungate_qa. -/
def ungateQa (s : State) (d : Nat) : Nat := fld (domCost s d) 39 32

/-- The cost of a state. -/
def stateQa (s : State) (d st : Nat) : Nat :=
  match st with
  | 0 => runQa s d
  | 1 => fld (domCost s d) 15 8
  | 2 => fld (domCost s d) 23 16
  | _ => 0

/-- A domain's charge (R376). -/
def domCharge (s : State) (d : Nat) : Nat :=
  match sget d s.pwr.trans with
  | some t =>
    if t.goal ≠ 0 then stateQa s d t.start
    else if t.start = 1 then (if t.ramp then ungateQa s d else stateQa s d 1)
    else if t.ramp then wakeQa s d else runQa s d
  | none => stateQa s d (domState s d)

/-- The charge of the running test slice. -/
def testCharge (s : State) (r : Nat) : Nat :=
  if r = 0 ∧ (s.test.phase = 1 ∨ s.test.phase = 2) then s.actF Reg.PWR_TEST 7 0 else 0

/-- The active budget register of a rail. -/
def railAct (s : State) (r : Nat) : Word := s.actReg (Reg.PWR_BUDGET0 + 0x10 * r)
/-- A rail's active budget in qA. -/
def railBudget (s : State) (r : Nat) : Nat := fld (railAct s r) 9 0

/-- The static estimate S of a rail (PWR_STATIC). -/
def staticQa (s : State) (r : Nat) : Nat :=
  fld (railAct s r) 19 10 + testCharge s r +
    ((List.range 48).filter fun d => railOf d == r).foldl (fun a d => a + domCharge s d) 0

/-- Capability of a rail (Table 20.1). -/
def railCap (r : Nat) : Nat := match r with | 0 => 680 | 1 => 160 | 2 => 80 | _ => 60

/-- A write of PWR_BUDGET: a budget above the capability is stored as the capability, with the register-access error. -/
def budgetWrite (r : Nat) (v : Word) (s : State) : State :=
  let c := railCap r
  let high := decide (fld v 9 0 > c)
  let w := (if high then setFld v 9 0 c else v) &&& 0xFFFFF
  let s := fbPut (Reg.PWR_BUDGET0 + 0x10 * r) w s
  if high then accessError s else s

/-! ## Domain states (R373, R374) -/

/-- Set a domain's status fields: state, transition, quiesce_wait. -/
def domShow (d st : Nat) (tr qw : Bool) (s : State) : State :=
  s.setReg (Reg.PWR_DOM_STAT + 8 * d) (BitVec.ofNat 64 (st + b2n tr * 4 + b2n qw * 8))

/-- PWR_DOM_CTRL.target. -/
def domTarget (s : State) (d : Nat) : Nat := s.regF (Reg.PWR_DOM_CTRL + 8 * d) 1 0
/-- Is a transition in progress? -/
def domMoving (s : State) (d : Nat) : Bool := (sget d s.pwr.trans).isSome
/-- Does a wake wait for admission? -/
def domQueued (s : State) (d : Nat) : Bool := s.pwr.queue.any fun e => e.1 == d

/-- Take a domain out of the wake queue. -/
def domUnqueue (d : Nat) (s : State) : State :=
  s.modPwr fun p => { p with queue := p.queue.filter (fun e => e.1 != d), slow := p.slow.filter (· != d) }

/-- Is a core quiescent (R374)? -/
def coreQuiet (s : State) (c : CoreId) : Bool :=
  let k := s.core c
  let idle := (List.range 6).all (fun q => qLen k q == 0) && k.active.isEmpty
  match k.issue with
  | .unplaced => true
  | .frameWait _ _ _ => idle
  | _ => false

/-- Does a message of a kind wait at a stop? -/
def netWaits (s : State) (p : Msg → Bool) : Bool := s.net.any p

/-- Is a domain quiescent: an agent when its request queues are empty (R374)? -/
def domQuiet (s : State) (d : DomId) : Bool :=
  match coreOf d.val with
  | some c => coreQuiet s c
  | none =>
    match d.val with
    | 36 => s.ingest.parserq.isEmpty
    | 37 => s.grid.queue.isEmpty && s.rb.runs.isEmpty && s.rb.tiles.isEmpty && !netWaits s fun m => m.kind == .gridRead
    | 38 => s.cal.queue.isEmpty
    | 39 => s.map.ctx.isEmpty && !netWaits s fun m => m.kind == .gather
    | 40 => s.smu.isEmpty && !netWaits s fun m => m.kind == .smuWork
    | 41 => !netWaits s fun m => (m.kind == .memRead || m.kind == .memWrite) && memDomain s m.addr == 41
    | 42 => !netWaits s fun m => (m.kind == .memRead || m.kind == .memWrite) && memDomain s m.addr == 42
    | 43 => s.hq.descs.isEmpty
    | 44 => (s.link 0).queue.isEmpty && (s.link 0).unacked.isEmpty
    | 45 => (s.link 1).queue.isEmpty && (s.link 1).unacked.isEmpty
    | 46 => (s.link 2).queue.isEmpty && (s.link 2).unacked.isEmpty
    | _ => (s.link 3).queue.isEmpty && (s.link 3).unacked.isEmpty

/-- The Larxus port of a domain. -/
def domPort (d : Nat) : Option Idx4 := if h : 44 ≤ d ∧ d < 48 then some ⟨d - 44, by omega⟩ else none

/-- What leaving RUN does to an agent: calibration stops (R148), the Larxus ports and PCI Express go down, and, but for SLEEP, so do
the Ethernet ports (log entry 164). -/
def agentLeaves (d goal : Nat) (s : State) : State :=
  match d with
  | 36 => if goal = 1 then s else (List.finRange 8).foldl (fun s p => portLink p false s) s
  | 38 => calStop s
  | 43 => { s with pcie := { s.pcie with linkUp := false } }
  | _ => match domPort d with
    | some p => linkStop p 0 s
    | none => s

/-- Begin a transition. -/
def domBegin (d goal : Nat) (ramp : Bool) (s : State) : State :=
  let st := domState s d
  let s := s.modPwr fun p => { p with trans := sput d ⟨goal, st, ramp⟩ p.trans }
  let s := domShow d st true false s
  if st = 0 then agentLeaves d goal s else s

/-- Does a change between two states that are not RUN go directly (R374)? -/
def domDirect (st t : Nat) : Bool := (st == 1 && (t == 2 || t == 3)) || (st == 2 && t == 3)

/-- Act on a target for a domain at rest: queue a wake, wait for quiescence, or go directly; a refused change raises the
register-access error event, and the target stays the present state. -/
def domPursue (d : Nat) (s : State) : State :=
  let st := domState s d
  let t := domTarget s d
  if t = st then domShow d st false false s
  else if t = 0 then
    if domQueued s d then s else s.modPwr fun p => { p with queue := p.queue ++ [(d, s.time.cyc)] }
  else if st = 0 then domShow d 0 false true s
  else if domDirect st t then domBegin d t false s
  else accessError (s.setF (Reg.PWR_DOM_CTRL + 8 * d) 1 0 st)

/-- A write of PWR_DOM_CTRL[d] (R374). -/
def domWrite (d : Nat) (v : Half) (s : State) : State :=
  let s := s.setReg (Reg.PWR_DOM_CTRL + 8 * d) ((v &&& 0xF).zeroExtend 64)
  if domMoving s d then s
  else if domQueued s d ∧ fld v 1 0 ≠ 0 then domUnqueue d s
  else domPursue d s

/-- PWR_DOM_TARGET_WRITE. -/
def execPwrDomTargetWrite (d : Fin 48) (v : Half) (s : State) : Res := .next (domWrite d.val v s)

/-- Firmware requests a state, keeping the priority. -/
def domRequest (d t : Nat) (s : State) : State :=
  domWrite d (BitVec.ofNat 32 (t + 4 * s.regF (Reg.PWR_DOM_CTRL + 8 * d) 3 2)) s

/-- DOMAIN_LEAVE_RUN: a domain in RUN that waits for quiescence has become quiescent. -/
def domLeave (d : DomId) (s : State) : State :=
  let t := domTarget s d.val
  if domState s d.val ≠ 0 ∨ domMoving s d.val ∨ t = 0 ∨ !domQuiet s d then s else domBegin d.val t false s

/-- DOMAIN_LEAVE_RUN. -/
def execDomainLeaveRun (d : Fin 48) (s : State) : Res := .next (domLeave d s)

/-! ## What a core loses (R160, R161) -/

/-- The banks that hold a line of a shelf entry. -/
def entBanks (e : Word) : List Nat := (List.range (min (2 ^ seIlv e) (seLen e))).map fun i => seBase e / 8192 + i

/-- The banks that DEEP_RET retains on a core (R160, R390). -/
def keptBanks (s : State) (c : CoreId) : List Nat :=
  if !bitOf (s.reg (Reg.CLK_GATE_DEEP + 0x10 * c.val)) 0 then []
  else ((List.range 64).flatMap fun i =>
    let e := shelfEnt s c i
    if seValid e && seLoft e != 0 then entBanks e else []).eraseDups

/-- A core's banks lose their contents, but for those kept: committed lofts touched raise LOFT_LOST. -/
def coreLoses (c : CoreId) (kept : List Nat) (s : State) : State :=
  let gone (e : Word) : Bool := (entBanks e).any fun b => !kept.contains b
  let act := (List.range 64).filter fun i =>
    let e := shelfEnt s c i
    seValid e && seLoft e == 2 && gone e
  let park := (parkedOn s c).filter fun e => seLoft e.2.2 == 2 && gone e.2.2
  let s := act.foldl (fun s i => loseLoft c i s) s
  let s := park.foldl (fun s e => loseParked c e.1 e.2.1 s) s
  s.modCore c fun k => { k with
    spad := k.spad.filter fun e => kept.contains (e.1 / 8192), upsets := k.upsets.filter fun e => kept.contains (e.1 / 8192) }

/-- Reset logic (R373): the core's program and unit state and its registers, but for CORE_STAT's service bits, the repairs,
the retained banks and the working-copy marker of their lofts. -/
def coreFresh (c : CoreId) (s : State) : State :=
  let k := s.core c
  let stat := (s.reg (coreOff Reg.CORE_STAT c)).toNat % 8
  let rep := (List.range 16).map fun b => (coreOff (Reg.SPAD_REPAIR + 4 * b) c, s.reg (coreOff (Reg.SPAD_REPAIR + 4 * b) c))
  let mine (o : Nat) : Bool := o / 0x100000 == 16 + c.val
  let s := { s with regs := s.regs.filter fun e => !mine e.1, act := s.act.filter fun e => !mine e.1 }
  let s := s.setReg (coreOff Reg.CORE_STAT c) (BitVec.ofNat 64 stat)
  let s := rep.foldl (fun s e => s.setReg e.1 e.2) s
  s.setCore c { CoreSt.reset with
    spad := k.spad, upsets := k.upsets, ceRows := k.ceRows, repairQ := k.repairQ, swap := k.swap, slot := 0 }

/-- What a domain's new state does, beyond its charge. -/
def domEffect (d goal start : Nat) (s : State) : State :=
  match coreOf d with
  | some c =>
    if goal = 2 then coreLoses c (keptBanks s c) s
    else if goal = 3 then coreLoses c [] s
    else if goal = 0 ∧ start ≥ 2 then coreFresh c s
    else s
  | none =>
    if goal = 0 then
      match d with
      | 39 => if start ≥ 2 then s.modMap fun m => { m with loading := true } else s
      | _ => match domPort d with
        | some p => linkTrain p s
        | none => s
    else if goal = 3 ∨ goal = 2 then
      match d with
      | 37 => { s with grid := { GridSt.reset with
          bufs := s.grid.bufs.map fun b => GridBuf.fresh b.set, filling := s.grid.filling } }
      | 39 => s.modMap fun m => { m with sel := [] }
      | 41 => if goal = 3 then memDeep 41 s else s
      | 42 => if goal = 3 then memDeep 42 s else s
      | _ => s
    else s

/-- DOMAIN_TRANSITION_END: the state cost changes, and a target written meanwhile is taken. -/
def domEnd (d : Nat) (s : State) : State :=
  match sget d s.pwr.trans with
  | none => s
  | some t =>
    let s := s.modPwr fun p => { p with trans := sdel d p.trans }
    domPursue d (domEffect d t.goal t.start (domShow d t.goal false false s))

/-- DOMAIN_TRANSITION_END. -/
def execDomainTransitionEnd (d : Fin 48) (s : State) : Res := .next (domEnd d.val s)

/-- WAKE_RAMP_END: the charge of a wake falls. -/
def rampEnd (d : Nat) (s : State) : State :=
  match sget d s.pwr.trans with
  | none => s
  | some t => s.modPwr fun p => { p with trans := sput d { t with ramp := false } p.trans }

/-- WAKE_RAMP_END. -/
def execWakeRampEnd (d : Fin 48) (s : State) : Res := .next (rampEnd d.val s)

/-! ## Admission (R377, R378) -/

/-- The order of a rail's queue: priority, then age, then number. -/
def wakeBefore (s : State) (a b : Nat × Nat) : Bool :=
  let pa := s.regF (Reg.PWR_DOM_CTRL + 8 * a.1) 3 2
  let pb := s.regF (Reg.PWR_DOM_CTRL + 8 * b.1) 3 2
  decide (pb < pa) || (pa == pb && (decide (a.2 < b.2) || (a.2 == b.2 && decide (a.1 < b.1))))

/-- The head of a rail's queue. -/
def railHead (s : State) (r : Nat) : Option (Nat × Nat) :=
  (s.pwr.queue.filter fun e => railOf e.1 == r).foldl (fun b e => match b with
    | none => some e
    | some x => if wakeBefore s e x then some e else b) none

/-- PWR_ADMIT: the head is admitted 2 µs after the rail's previous admission and when the budget leaves what it needs. -/
def admitRail (r : Idx4) (s : State) : State :=
  match railHead s r.val with
  | none => s
  | some (d, _) =>
    let need := if domState s d = 1 then ungateQa s d else wakeQa s d
    let early := match s.pwr.lastAdmit[r.val] with
      | some t => decide (s.time.cyc < t + 1000)
      | none => false
    if early || decide (railBudget s r.val < staticQa s r.val + need) then s
    else
      let s := domBegin d 0 true (domUnqueue d s)
      bump Reg.PWR_WAKE_CNT (s.modPwr fun p => { p with lastAdmit := p.lastAdmit.set r.val (some s.time.cyc) })

/-- PWR_ADMIT. -/
def execPwrAdmit (r : Idx4) (s : State) : Res := .next (admitRail r s)

/-- The microseconds a wake of a domain has waited; none when it does not wait. -/
def wakeWaited (s : State) (d : Nat) : Option Nat :=
  (s.pwr.queue.find? fun e => e.1 == d).map fun e => (s.time.cyc - e.2) / 500

/-- PWR_WAKE_STAT[d]. -/
def wakeStatVal (s : State) (d : Nat) : Word :=
  match wakeWaited s d with
  | none => 0
  | some w => BitVec.ofNat 64 (1 + min 0xFFFF w * 2 ^ 16)

/-- PWR_WAKE_SLOW: once per request. -/
def wakeSlow (d : Nat) (s : State) : State :=
  let t := s.regF Reg.PWR_WAKE_CFG 15 0
  match wakeWaited s d with
  | none => s
  | some w =>
    if t = 0 ∨ w < t ∨ s.pwr.slow.contains d then s
    else raise evWakeSlow (bump Reg.PWR_WAKE_SLOW_CNT (s.modPwr fun p => { p with slow := d :: p.slow }))

/-- PWR_WAKE_SLOW. -/
def execPwrWakeSlow (d : Fin 48) (s : State) : Res := .next (wakeSlow d.val s)

/-! ## The array throttle (R379, R380) -/

/-- CCLK in MHz at an operating point (Table 20.5): the cycles of a 1 µs window. -/
def opMhz (op : Nat) : Nat := 400 + 200 * op

/-- CCLK in MHz now: the applied operating point, or 150 while the crystal's PLLs coast. -/
def cclkMhz (s : State) : Nat := if s.pwr.coast.contains 0 then 150 else opMhz (s.regF Reg.PWR_SEQ_STAT 2 0)

/-- min_share of PWR_ARRAY_ACT: 0 acts as 1. -/
def minShare (s : State) : Nat := max 1 (s.actF Reg.PWR_ARRAY 13 8)

/-- The allowance computed from the headroom, before the floor: the quotient is rounded towards −∞; for an array_qa of 0 it is
a free value. -/
def allowRaw (s : State) (n : Nat) : Int :=
  let h : Int := (railBudget s 0 : Int) - staticQa s 0
  let c : Int := cclkMhz s
  let q : Int := s.actF Reg.PWR_ARRAY 7 0
  if n = 0 then 0 else if q = 0 then (s.free 46 64).toInt else (4 * h * c) / (q * n)

/-- The floor of R379. -/
def allowFloor (s : State) : Int := (4 * (cclkMhz s : Int) * minShare s) / 64

/-- PBA_WINDOW: the requesters are the in-service cores named; `held` says that a core withheld entry in the window that
ended. -/
def pbaWindow (want : List CoreId) (held : Bool) (s : State) : State :=
  let req := (want.filter (inService s)).eraseDups
  let n := req.length
  let raw := allowRaw s n
  let a := min (4 * (cclkMhz s : Int)) (max (allowFloor s) raw)
  let s' := if n ≠ 0 ∧ s.actF Reg.PWR_ARRAY 7 0 = 0 then s.drawn else s
  let s' := s'.modPwr fun p => { p with allow := req.foldl (fun m c => sput c.val a.toNat m) [] }
  let s' := if held then bump Reg.PWR_THROTTLE_WIN s' else s'
  if n = 0 ∨ allowFloor s ≤ raw then s'
  else
    let s' := bump Reg.PWR_OVER_BUDGET s'
    if s'.pwr.overRaised then s' else raise evOverBudget (s'.modPwr fun p => { p with overRaised := true })

/-- PBA_WINDOW. -/
def execPbaWindow (want : List CoreId) (held : Bool) (s : State) : Res := .next (pbaWindow want held s)

/-- TELEMETRY_UPDATE: the firmware writes a rail's readings. -/
def execTelemetryUpdate (r : Fin 9) (v : Half) (s : State) : Res :=
  .next (s.setReg (Reg.PWR_TELEM + 8 * r.val) (v.zeroExtend 64))

end Sys2Proof.Machine
end

