-- ==== Sys2Proof/Machine/Clocks.lean ====
section
/-! DEFINITION. Operating points, clocks and references, STANDBY, and the power policy of the firmware (R375, R382 to R393). -/

namespace Sys2Proof.Machine

/-! ## Operating points (R382 to R384) -/

/-- PWR_SEQ_STAT: applied, busy, up, avs_fault. -/
def seqShow (applied : Nat) (fault : Bool) (s : State) : State :=
  let up := match s.pwr.seq with
    | some q => q.up
    | none => false
  s.setReg Reg.PWR_SEQ_STAT (BitVec.ofNat 64
    (applied + b2n s.pwr.seq.isSome * 2 ^ 3 + b2n up * 2 ^ 4 + b2n fault * 2 ^ 5))

/-- The applied operating point. -/
def opApplied (s : State) : Nat := s.regF Reg.PWR_SEQ_STAT 2 0
/-- The active operating point. -/
def opActive (s : State) : Nat := s.actF Reg.PWR_OP 2 0
/-- An operating point within PWR_OP_LIMIT_ACT: a value outside is taken as the nearer limit. -/
def opClamp (s : State) (n : Nat) : Nat := max (s.actF Reg.PWR_OP_LIMIT 2 0) (min (s.actF Reg.PWR_OP_LIMIT 6 4) n)
/-- Is an operating point inside PWR_OP_LIMIT_ACT? -/
def opAllowed (s : State) (n : Nat) : Bool :=
  decide (s.actF Reg.PWR_OP_LIMIT 2 0 ≤ n) && decide (n ≤ s.actF Reg.PWR_OP_LIMIT 6 4)

/-- A PLL's locked bit in CLK_STAT. -/
def pllLock (i : Nat) (v : Bool) (s : State) : State := s.setF Reg.CLK_STAT (5 + i) (5 + i) (b2n v)
/-- Lock or stop several PLLs. -/
def pllsLock (is : List Nat) (v : Bool) (s : State) : State := is.foldl (fun s i => pllLock i v s) s
/-- The PLL of the CCLK pair that drives CCLK, and the idle one. -/
def pllDriving (s : State) : Nat := if s.pwr.pllB then 1 else 0
/-- The idle PLL of the pair. -/
def pllIdle (s : State) : Nat := if s.pwr.pllB then 0 else 1

/-- OP_SEQUENCE_START: the sequencer moves directly to the active operating point when it is idle and applies another. -/
def opStart (s : State) : State :=
  let a := opApplied s
  let t := opActive s
  if s.pwr.seq.isSome ∨ a = t then s
  else
    let s := pllLock (pllIdle s) false s
    seqShow a false (s.modPwr fun p => { p with seq := some ⟨t, decide (a < t), false, false, false⟩ })

/-- A sequence ends: counted, raised; an operating point captured meanwhile is taken now. -/
def opEnd (s : State) : State :=
  let s := seqShow (opApplied s) false (s.modPwr fun p => { p with seq := none })
  opStart (raise evOpDone (bump Reg.PWR_OP_CHANGES s))

/-- Is a new voltage with the regulator and not acknowledged? -/
def avsWaits (q : OpSeq) : Bool := !q.acked && (q.up || q.switched)

/-- Replace the running sequence. -/
def setSeq (q : OpSeq) (s : State) : State := s.modPwr fun p => { p with seq := some q }

/-- AVS_ACK. -/
def avsAck (s : State) : State :=
  match s.pwr.seq with
  | none => s
  | some q => if avsWaits q then setSeq { q with acked := true } s else s

/-- AVS_ACK. -/
def execAvsAck (s : State) : Res := .next (avsAck s)

/-- PLL_LOCK: the idle PLL of the pair has locked to the new CCLK. -/
def pllLocked (s : State) : State :=
  match s.pwr.seq with
  | none => s
  | some q => if q.locked then s else pllLock (pllIdle s) true (setSeq { q with locked := true } s)

/-- PLL_LOCK. -/
def execPllLock (s : State) : Res := .next (pllLocked s)

/-- CCLK_SWITCH: upward once the settle time after the acknowledgement has passed and the PLL has locked, and the sequence
ends; downward once the PLL has locked, and the voltage is sent. -/
def cclkSwitch (s : State) : State :=
  match s.pwr.seq with
  | none => s
  | some q =>
    if !q.locked || q.switched || (q.up && !q.acked) then s
    else
      let s := s.modPwr fun p => { p with pllB := !p.pllB, seq := some { q with switched := true } }
      let s := seqShow q.target false s
      if q.up then opEnd s else s

/-- CCLK_SWITCH. -/
def execCclkSwitch (s : State) : Res := .next (cclkSwitch s)

/-- VOLTAGE_SETTLE_END: a downward sequence ends after the acknowledgement and the settle time. -/
def settleEnd (s : State) : State :=
  match s.pwr.seq with
  | none => s
  | some q => if !q.up && q.switched && q.acked then opEnd s else s

/-- VOLTAGE_SETTLE_END. -/
def execVoltageSettleEnd (s : State) : Res := .next (settleEnd s)

/-- AVS_TIMEOUT: the sequence stops; upward CCLK keeps the old frequency, downward the new one. -/
def avsTimeout (s : State) : State :=
  match s.pwr.seq with
  | none => s
  | some q =>
    if !avsWaits q then s
    else
      let s := seqShow (opApplied s) true (s.modPwr fun p => { p with seq := none })
      raise evAvsErr (bump Reg.PWR_AVS_ERR_CNT s)

/-- AVS_TIMEOUT. -/
def execAvsTimeout (s : State) : Res := .next (avsTimeout s)

/-! ## STANDBY (R375) -/

/-- The PLLs that STANDBY stops, as they run: of the CCLK pair the one in use. -/
def standbyPlls (s : State) : List Nat := [pllDriving s, 2, 3, 6, 7]

/-- A write of PWR_MODE: STANDBY stops PLL[0] to PLL[3], PLL[6] and PLL[7]; in every other mode they run. -/
def modeWrite (v : Word) (s : State) : State :=
  let s := s.setReg Reg.PWR_MODE (v &&& 3)
  if fld v 1 0 = 2 then
    if s.pwr.standby then s else pllsLock [0, 1, 2, 3, 6, 7] false (s.modPwr fun p => { p with standby := true })
  else if s.pwr.standby then pllsLock (standbyPlls s) true (s.modPwr fun p => { p with standby := false })
  else s

/-- STANDBY_ENTER: PWR_MODE is written with STANDBY. -/
def execStandbyEnter (s : State) : Res := .next (modeWrite 2 s)

/-- STANDBY_WAKE: a rising edge of TIME_IN[0] or TIME_IN[1], or device time at PWR_WAKE_TIME, where PWR_WAKE_SRC arms it. -/
def standbyWake (src : Fin 3) (s : State) : State :=
  let due := src.val ≠ 2 || decide (s.regF Reg.PWR_WAKE_TIME 47 0 ≤ s.time.sec)
  if !s.pwr.standby || !bitOf (s.reg Reg.PWR_WAKE_SRC) src.val || !due then s
  else raise evStandbyWake (pllsLock (standbyPlls s) true (s.modPwr fun p => { p with standby := false }))

/-- STANDBY_WAKE. -/
def execStandbyWake (src : Fin 3) (s : State) : Res := .next (standbyWake src s)

/-! ## The crystal and the references (R388, R389) -/

/-- XTAL_JUDGE_WINDOW: the crystal cycles counted in one window of 4,096 RC cycles. -/
def xtalWindow (count : Nat) (s : State) : State :=
  if bitOf (s.reg Reg.CLK_STAT) 0 || s.pwr.coast.contains 0 then s
  else
    let ok := decide (s.regF Reg.CLK_XTAL_WIN 15 0 ≤ count) && decide (count ≤ s.regF Reg.CLK_XTAL_WIN 31 16)
    let s := s.modPwr fun p => { p with windows := p.windows + 1, good := if ok then p.good + 1 else 0 }
    let s := if ok then s else bump Reg.CLK_XTAL_BAD_WIN s
    if s.pwr.good ≥ 8 then
      let s := (s.setF Reg.CLK_STAT 0 0 1).setF Reg.CLK_STAT 1 1 0
      let s := pllsLock (if s.pwr.standby then [4, 5] else [4, 5] ++ standbyPlls s) true s
      safeGone 3 s
    else if s.pwr.windows = 256 then safeCause 3 (raise evXtalFail (s.setF Reg.CLK_STAT 1 1 1))
    else s

/-- XTAL_JUDGE_WINDOW. -/
def execXtalJudgeWindow (count : Nat) (s : State) : Res := .next (xtalWindow count s)

/-- CLK_STAT.coasting. -/
def coastShow (s : State) : State :=
  s.setF Reg.CLK_STAT 13 13 (b2n (s.pwr.coast.contains 0 || s.pwr.coast.contains 1))

/-- The servo leaves LOCKED when device time runs slow. -/
def servoLeave (s : State) : State :=
  if s.regF Reg.TIME_SERVO_STAT 1 0 = 2 then
    raise evTimeServo ((s.setF Reg.TIME_SERVO_STAT 1 0 1).modTime fun t => { t with servo := { t.servo with streak := 0 } })
  else s

/-- What the loss of a reference does (Table 20.8). -/
def refEffect (r : Nat) (s : State) : State :=
  match r with
  | 0 => servoLeave (pllsLock [0, 1, 2, 3, 4, 5, 6] false (s.setF Reg.CLK_STAT 0 0 0))
  | 1 => pllLock 7 false { s with pcie := { s.pcie with linkUp := false } }
  | _ =>
    let s := (List.finRange 8).foldl (fun s p => portLink p false s) s
    (List.finRange 4).foldl (fun s p => linkFail p s) s

/-- REF_LOST: reference 0 crystal, 1 HCSL, 2 156.25 MHz. -/
def refLost (r : Nat) (s : State) : State :=
  if s.pwr.coast.contains r && !s.pwr.back.contains r then s
  else
    let s := s.modPwr fun p => { p with coast := r :: p.coast.erase r, back := p.back.erase r }
    let s := coastShow (s.setF Reg.CLK_STAT (2 + r) (2 + r) 1)
    raise evRefLost (bump Reg.CLK_REF_LOST_CNT (refEffect r s))

/-- REF_LOST. -/
def execRefLost (r : Fin 3) (s : State) : Res := .next (refLost r.val s)

/-- REF_RETURN: the returning reference has passed judgement. The ports need no relock. -/
def refReturn (r : Nat) (s : State) : State :=
  if !s.pwr.coast.contains r || s.pwr.back.contains r then s
  else
    let s := if r = 2 then s.modPwr fun p => { p with coast := p.coast.erase r }
      else s.modPwr fun p => { p with back := r :: p.back }
    raise evRefBack (if r = 0 then s.setF Reg.CLK_STAT 0 0 1 else s)

/-- REF_RETURN. -/
def execRefReturn (r : Fin 3) (s : State) : Res := .next (refReturn r.val s)

/-- CLK_RELOCK: the PLLs whose reference has returned relock. -/
def clkRelock (s : State) : State :=
  let b := s.pwr.back
  let s := if b.contains 0 then pllsLock (if s.pwr.standby then [4, 5] else [pllDriving s, 2, 3, 4, 5, 6]) true s else s
  let s := if b.contains 1 && !s.pwr.standby then pllLock 7 true s else s
  raise evRelockDone (coastShow (s.modPwr fun p => { p with coast := p.coast.filter fun r => !b.contains r, back := [] }))

/-- CLK_RELOCK. -/
def execClkRelock (s : State) : Res := .next (clkRelock s)

/-! ## Clock settings (R386, R391) -/

/-- CLK_PLL_CFG_WRITE: FCLK, or GCLK when `gclk`; ignored unless every switched domain is in DEEP, else clamped. -/
def pllCfgWrite (gclk : Bool) (v : Half) (s : State) : State :=
  let o := if gclk then Reg.CLK_PLL_CFG3 else Reg.CLK_PLL_CFG2
  let n := fld v 5 0
  let c := max 16 (min (if gclk then 40 else 48) n)
  if !(List.range 48).all fun d => domState s d == 3 && !domMoving s d then accessError s
  else
    let s := s.setReg o (BitVec.ofNat 64 c)
    if c = n then s else accessError s

/-- CLK_PLL_CFG_WRITE. -/
def execClkPllCfgWrite (gclk : Bool) (v : Half) (s : State) : Res := .next (pllCfgWrite gclk v s)

/-- CLK_OBS_CFG_WRITE: a change holds the pin low while it switches. -/
def obsWrite (v : Half) (s : State) : State :=
  let w : Word := (v &&& 0x3FFFF).zeroExtend 64
  if w = s.reg Reg.CLK_OBS_CFG then s else (s.setReg Reg.CLK_OBS_CFG w).emit (.pin "CLK_OBS" false)

/-- CLK_OBS_CFG_WRITE. -/
def execClkObsCfgWrite (v : Half) (s : State) : Res := .next (obsWrite v s)

/-! ## POWER_POLICY (R393) -/

/-- POWER_POLICY: mode, OP, parking, VDD_CORE budget; the PF only. -/
def powerPolicy (f : Nat) (bs : List Nat) (s : State) : MboxRes :=
  let mode := leAt bs 8 1
  let op := leAt bs 9 1
  let park := leAt bs 10 1
  let qa := leAt bs 12 4
  if f ≠ 0 then ⟨0xF0, [], s⟩
  else if (3 ≤ mode ∧ mode ≠ 0xFF) ∨ (op ≠ 0xFF ∧ !opAllowed s op) then ⟨0xF1, [], s⟩
  else
    let s := if mode = 0xFF then s else modeWrite (BitVec.ofNat 64 mode) s
    let s := if op = 0xFF then s else fbPut Reg.PWR_OP (BitVec.ofNat 64 op) s
    let s := s.modPwr fun p => { p with park := park == 1 }
    let b := BitVec.ofNat 64 ((s.reg Reg.PWR_BUDGET0).toNat / 1024 * 1024 + min qa 1023)
    let s := if qa = 0 then s else budgetWrite 0 b s
    ⟨0, bytesLE 4 (s.reg Reg.PWR_MODE).toNat ++ bytesLE 4 (opActive s) ++ bytesLE 4 (railAct s 0).toNat, s⟩

/-- POWER_POLICY. -/
def execPowerPolicy (s : State) : Res := .next (mboxRun 0x0030 powerPolicy s)

end Sys2Proof.Machine
end

