-- ==== Sys2Proof/Machine/Loader.lean ====
section
/-! DEFINITION. Trunk images and the checks of the loader (R315 to R318, Tables 17.1 to 17.4). -/

namespace Sys2Proof.Machine

/-! ## The image -/

/-- Section entry at a byte of the image (Table 17.2). -/
def secAt (bs : List Nat) (o : Nat) : TrunkSec :=
  { kind := leAt bs o 1, variants := leAt bs (o + 1) 1, lcore := leAt bs (o + 2) 1, shelf := leAt bs (o + 3) 1,
    offset := leAt bs (o + 8) 8, bytes := leAt bs (o + 16) 4, count := leAt bs (o + 20) 4 }

/-- A trunk's image as the loader reads it. -/
structure TrunkImg where
  bs    : List Nat
  nVar  : Nat
  nLog  : List Nat
  secs  : List TrunkSec
  sig   : Nat
  id    : Nat
  ver   : Nat
deriving DecidableEq, Repr

/-- Read a trunk's header and section table. -/
def trunkImg (bs : List Nat) : TrunkImg :=
  { bs := bs, nVar := leAt bs 6 1, nLog := (List.range (min 4 (leAt bs 6 1))).map fun v => leAt bs (32 + v) 1,
    secs := (List.range (min 4096 (leAt bs 20 4))).map fun i => secAt bs (128 + 32 * i), sig := leAt bs 28 4,
    id := leAt bs 8 8, ver := leAt bs 16 4 }

/-- Does a section apply to a variant? -/
def secFor (v : Nat) (x : TrunkSec) : Bool := x.variants.testBit v

/-- Sections of a kind that apply to a variant, in order. -/
def secsOf (t : TrunkImg) (kind v : Nat) : List TrunkSec := t.secs.filter fun x => x.kind == kind && secFor v x

/-- Bytes of an entry of a section kind (Table 17.3). -/
def secUnit (kind : Nat) : Nat :=
  match kind with
  | 2 => 64 | 3 => 32 | 4 => 258 | 5 => 8 | 6 => 4 | 7 => 8 | 8 => 2 | 9 => 64 | _ => 0

/-- Is a section entry within Tables 17.2 and 17.3, its reserved bytes given separately? -/
def secOk (t : TrunkImg) (x : TrunkSec) : Bool :=
  let n := leAt t.bs 20 4
  decide (1 ≤ x.kind) && decide (x.kind ≤ 9) && decide (1 ≤ x.variants) && decide (x.variants ≤ 15) &&
  (if x.kind ≤ 2 then decide (x.lcore ≤ 31) else x.lcore == 0xFF) &&
  (if x.kind = 2 then decide (x.shelf ≤ 63) else x.shelf == 0) &&
  x.offset % 64 == 0 && decide (128 + 32 * n ≤ x.offset) && decide (x.offset + x.bytes ≤ t.sig) &&
  (if x.kind = 1 then x.bytes == 640 else x.bytes == secUnit x.kind * x.count) &&
  (x.kind != 9 || (decide (x.count ≤ 16) && x.variants % 2 ^ t.nVar == 2 ^ t.nVar - 1))

/-- Do sections overlap? -/
def secsApart : List TrunkSec → Bool
  | [] => true
  | x :: r => (r.all fun y => decide (x.offset + x.bytes ≤ y.offset) || decide (y.offset + y.bytes ≤ x.offset)) && secsApart r

/-- NOMINAL_CAL entries as (head slot, entry offset). -/
def nominalEntries (t : TrunkImg) : List (Nat × Nat) :=
  (t.secs.filter fun x => x.kind == 9).flatMap fun x => (List.range x.count).map fun i =>
    (leAt t.bs (x.offset + 64 * i) 1, x.offset + 64 * i)

/-- Is a NOMINAL_CAL entry well formed? -/
def nominalOk (t : TrunkImg) (e : Nat × Nat) : Bool :=
  decide (e.1 < 16) && leAt t.bs (e.2 + 1) 3 == 0 && leAt t.bs (e.2 + 56) 8 == 0

/-- Strictly descending. -/
def descending : List Nat → Bool
  | a :: b :: r => decide (b < a) && descending (b :: r)
  | _ => true

/-- TRUNK_FORMAT: the header, the section table and the sections' places. `n` is the length the command names. -/
def formatOk (t : TrunkImg) (n : Nat) : Bool :=
  let cnt := leAt t.bs 20 4
  leAt t.bs 0 4 == 0x4B4E5254 && leAt t.bs 4 2 == 1 && decide (1 ≤ t.nVar) && decide (t.nVar ≤ 4) && leAt t.bs 7 1 == 0 &&
  decide (1 ≤ cnt) && decide (cnt ≤ 4096) && leAt t.bs 24 4 == n && t.sig % 64 == 0 && decide (128 + 32 * cnt ≤ t.sig) &&
  decide (t.sig + 3373 ≤ n) && (t.nLog.all fun x => decide (1 ≤ x) && decide (x ≤ 32)) && descending t.nLog &&
  leAt t.bs (32 + t.nVar) (4 - t.nVar) == 0 && allZero (sub t.bs 36 92) &&
  ((List.range cnt).all fun i => leAt t.bs (128 + 32 * i + 4) 4 == 0 && leAt t.bs (128 + 32 * i + 24) 8 == 0) &&
  t.secs.all (secOk t) && secsApart t.secs &&
  ((List.range t.nVar).all fun v => (List.range ((t.nLog[v]?).getD 0)).all fun l =>
    (secsOf t 1 v).any fun x => x.lcore == l) &&
  (nominalEntries t).all (nominalOk t) && decide ((nominalEntries t).map (·.1)).Nodup

/-- Little-endian words of a part of the image. -/
def imgWords (t : TrunkImg) (o n : Nat) : List Word := (List.range n).map fun i => BitVec.ofNat 64 (leAt t.bs (o + 8 * i) 8)

/-- The CORE_DECL words of a logical core in a variant: 64 shelves, 15 pools, CORE_ENTRY (32 bits). -/
def declOf (t : TrunkImg) (v l : Nat) : List Word :=
  match (secsOf t 1 v).find? fun x => x.lcore == l with
  | some x => imgWords t x.offset 79 ++ [BitVec.ofNat 64 (leAt t.bs (x.offset + 632) 4)]
  | none => []

/-- Shelf words of a declaration, by number, valid ones only. -/
def declShelves (ws : List Word) : List (Nat × Word) :=
  ((ws.take 64).mapIdx fun i w => (i, w)).filter fun e => seValid e.2

/-- Loft shelves among them. -/
def loftsOf (ws : List Word) : List (Nat × Word) := (declShelves ws).filter fun e => seLoft e.2 != 0

/-- The image section of a shelf. -/
def imageOf (secs : List TrunkSec) (v l sh : Nat) : Option TrunkSec :=
  secs.find? fun x => x.kind == 2 && secFor v x && x.lcore == l && x.shelf == sh

/-! ## The checks (Table 17.4) -/

/-- ENTRY_INVALID: the word at entry_pc of the code shelf's image is FRAME_WAIT (R242). -/
def entryOk (t : TrunkImg) (v l : Nat) : Bool :=
  let w := ((declOf t v l)[79]?).getD 0
  match imageOf t.secs v l (fld w 25 20) with
  | none => false
  | some x =>
    let i := BitVec.ofNat 64 (leAt t.bs (x.offset + 8 * fld w 19 0) 8)
    decide (8 * fld w 19 0 + 8 ≤ x.bytes) && decodeHead i == some .frameWait && formControl .frameWait i

/-- Rows of bank `b` that one copy of a shelf uses: the lines of R155 that fall into the bank. -/
def entRows (e : Word) (b : Nat) : Nat :=
  let nb := 2 ^ seIlv e
  let b0 := seBase e / 8192
  if b0 ≤ b ∧ b < b0 + nb ∧ b - b0 < seLen e then cdiv (seLen e - (b - b0)) nb else 0

/-- The row runs of a shelf in a bank, second copy included: first row and one past the last. -/
def entRuns (e : Word) (b : Nat) : List (Nat × Nat) :=
  let r0 := seBase e % 8192
  let n := entRows e b
  (r0, r0 + n) :: if seLoft e = 2 then [(r0 + seRows e, r0 + seRows e + n)] else []

/-- Do two shelves share a physical line (R155)? -/
def spansClash (a b : Word) : Bool :=
  (List.range 16).any fun k => (entRuns a k).any fun x => (entRuns b k).any fun y => decide (max x.1 y.1 < min x.2 y.2)

/-- No two of a list of shelves share a line. -/
def noneClash : List (Nat × Word) → Bool
  | [] => true
  | e :: r => (r.all fun f => !spansClash e.2 f.2) && noneClash r

/-- Is a pool declared? -/
def poolDeclared (ws : List Word) (p : Nat) : Bool := p == 0 || fld ((ws[63 + p]?).getD 0) 17 0 != 0

/-- FIT_SCRATCHPAD on a logical core. -/
def fitOk (t : TrunkImg) (v l : Nat) : Bool :=
  let ws := declOf t v l
  let sh := declShelves ws
  let lines (i : Nat) : Nat := ((sh.find? fun e => e.1 == i).map fun e => seLen e.2).getD 0
  (sh.all fun e => shelfLayoutOk e.2 && poolDeclared ws (sePool e.2)) && noneClash sh &&
    ((secsOf t 2 v).all fun x => x.lcore != l || decide (x.count ≤ lines x.shelf))

/-- FIT_LOFT on a logical core: no loft shelf touches more than 8 banks (R160), below the declared minimum, the same in every variant. -/
def loftOk (t : TrunkImg) (v l : Nat) : Bool :=
  let low := (t.nLog.getLast?).getD 0
  let lofts := loftsOf (declOf t v l)
  (lofts.all fun e => decide ((entBanks e.2).length ≤ 8)) && (lofts.isEmpty || decide (l < low)) &&
    (decide (low ≤ l) || lofts == loftsOf (declOf t 0 l))

/-- The row condition of R211 on a structured tile: every row of each aligned 8 × 8 block keeps exactly N positions. -/
def rowsKeepN (h : TileHdr) (w : List (List (Option Nat))) : Bool :=
  w.all fun r => (List.range (h.nLen / 8)).all fun b => ((r.drop (8 * b)).take 8).countP (·.isSome) == h.n

/-- MASK_NOT_TRANSPOSABLE on the tile at a byte of the image, in a section that ends at `stop`. -/
def tileOk (t : TrunkImg) (o stop : Nat) : Bool :=
  let hd := sub t.bs o 16
  if !(leAt hd 0 1).testBit 5 then true
  else
    let f := leAt hd 1 1 % 32
    match parseHdr f 1048575 hd with
    | none => false
    | some h =>
      h.pack == 0 && decide (o + 16 + h.bytes ≤ stop) &&
        rowsKeepN h (expandStruct h.fmt h.n h.nLen h.rows (leAt t.bs (o + 16) h.bytes))

/-- MASK_NOT_TRANSPOSABLE on every listed tile. -/
def tilesOk (t : TrunkImg) : Bool :=
  (t.secs.filter fun x => x.kind == 7).all fun x => (List.range x.count).all fun i =>
    let e := leAt t.bs (x.offset + 8 * i) 8
    (List.range t.nVar).all fun v =>
      if !(e / 2 ^ 28).testBit v then true
      else match imageOf t.secs v (e % 32) (e / 32 % 64) with
        | none => true
        | some im =>
          let o := im.offset + 64 * (e / 2 ^ 11 % 2 ^ 17)
          decide (im.offset + im.bytes < o + 64) || tileOk t o (im.offset + im.bytes)

/-- The trunk's custom lists as the byte offsets of their 258 bytes. -/
def listOffs (t : TrunkImg) : List Nat :=
  (t.secs.filter fun x => x.kind == 4).flatMap fun x => (List.range x.count).map fun i => x.offset + 258 * i
/-- The entries of a custom list. -/
def listEntries (t : TrunkImg) (o : Nat) : List Nat := (List.range (leAt t.bs o 1)).map fun i => leAt t.bs (o + 2 + 2 * i) 2
/-- Is a custom list of 1 to 128 distinct offsets whose bits [15:12] are zero? -/
def listOk (t : TrunkImg) (o : Nat) : Bool :=
  let es := listEntries t o
  decide (1 ≤ es.length) && decide (es.length ≤ 128) && (es.all fun x => decide (x < 4096)) && decide es.Nodup

/-- The jobs of a variant as words. -/
def jobsOf (t : TrunkImg) (v : Nat) : List (List Word) :=
  (secsOf t 3 v).flatMap fun x => (List.range x.count).map fun i => imgWords t (x.offset + 32 * i) 4

/-- RB_JOB_INVALID on one job of a variant (R123). -/
def jobOk (s : State) (k : Nat) (t : TrunkImg) (v : Nat) (ws : List Word) : Bool :=
  let j := rbJobOf ws
  let n := (t.nLog[v]?).getD 0
  decide (j.kind ≤ 2) && rbLevelsOk j &&
  (decide (j.set ≤ 2) || (decide (8 ≤ j.set) && decide (j.set ≤ 15) &&
    match (listOffs t)[j.set - 8]? with
    | some o => listOk t o
    | none => false)) &&
  j.mask != 0 && decide (j.mask < 2 ^ n) && decide (2 ≤ j.lines) && decide (j.lines ≤ 8197) && decide (2 ≤ j.slots) &&
  ((List.range n).all fun l => !j.mask.testBit l ||
    (declShelves (declOf t v l)).any fun e => e.1 == j.shelf && decide (j.lines * j.slots ≤ seLen e.2)) &&
  (j.ovfLines == 0 || (j.ovfBase % 64 == 0 && inCellar s k j.ovfBase j.ovfLines))

/-- MAP_TABLE_INVALID on one MAP_USE entry. -/
def mapUseOk (s : State) (k e : Nat) : Bool :=
  let d := mapDir s (e % 32)
  bitOf d.1 50 && bitOf d.1 (52 + k) && fld d.1 49 45 == e / 32 % 32 && decide (e / 1024 % 32 ≤ fld d.1 44 40)

/-- MAP_USE entries. -/
def mapUses (t : TrunkImg) : List Nat :=
  (t.secs.filter fun x => x.kind == 6).flatMap fun x => (List.range x.count).map fun i => leAt t.bs (x.offset + 4 * i) 4

/-- Gate words. -/
def gateWords (t : TrunkImg) : List Word :=
  (t.secs.filter fun x => x.kind == 5).flatMap fun x => imgWords t x.offset x.count

/-! ## Table space -/

/-- RB_JOB entries held by trunks. -/
def jobsHeld (s : State) (j : Nat) : Bool :=
  allSlots.any fun k => (s.trunk k).jobs.any fun r => decide (r.1 ≤ j) && decide (j < r.1 + r.2)

/-- The first free run of `n` entries under a set already taken. -/
def freeRun (s : State) (taken : List (Nat × Nat)) (n : Nat) : Option Nat :=
  (List.range (257 - n)).find? fun b => (List.range n).all fun i =>
    !jobsHeld s (b + i) && !(taken.any fun r => decide (r.1 ≤ b + i) && decide (b + i < r.1 + r.2))

/-- A run for each variant's jobs; none when one does not fit. -/
def jobRuns (s : State) : List Nat → List (Nat × Nat) → Option (List (Nat × Nat))
  | [], done => some done
  | n :: r, done =>
    if n = 0 then jobRuns s r (done ++ [(0, 0)])
    else match (if n ≤ 256 then freeRun s done n else none) with
      | some b => jobRuns s r (done ++ [(b, n)])
      | none => none

/-- Free custom lists of the engine. -/
def freeLists (s : State) : List Nat := (List.range 8).filter fun m => !(allSlots.any fun k => (s.trunk k).lists.contains m)

/-- TABLE_FULL: the runs and lists the trunk gets; none when they do not fit or there are more than 64 gates. -/
def tableSpace (s : State) (t : TrunkImg) : Option (List (Nat × Nat) × List Nat) :=
  let nl := (listOffs t).length
  if decide (64 < (gateWords t).length) || decide ((freeLists s).length < nl) then none
  else match jobRuns s ((List.range t.nVar).map fun v => (jobsOf t v).length) [] with
    | none => none
    | some r => some (r, (freeLists s).take nl)

/-! ## Use and quotas (R327 to R329) -/

/-- Lines of a shelf: a committed loft shelf counts twice. -/
def entLines (e : Word) : Nat := (if seLoft e = 2 then 2 else 1) * seLen e
/-- Lines of every valid shelf of a variant. -/
def variantLines (t : TrunkSt) (v : Nat) : Nat :=
  (List.range ((t.nLog[v]?).getD 0)).foldl (fun a l =>
    (declShelves (declWords t v l)).foldl (fun a e => a + entLines e.2) a) 0
/-- Parked loft lines of a slot. -/
def parkedLines (t : TrunkSt) : Nat :=
  t.parked.foldl (fun a e => (declLofts t e.1).foldl (fun a w => a + entLines w.2) a) 0

/-- Is a slot placed: LAUNCHING, RUNNING or STOPPING? -/
def slotPlaced (s : State) (k : Nat) : Bool := decide (3 ≤ trunkState s k) && decide (trunkState s k ≤ 5)
/-- The variant of a slot. -/
def slotVariant (s : State) (k : Nat) : Nat := s.regF (Reg.TRUNK_STAT + 0x20 * k) 4 3

/-- The use of a function (R328): slots, cores, lines. -/
def useOf (s : State) (f : Nat) : Nat × Nat × Nat :=
  (allSlots.filter fun k => slotOwner s k.val == f && trunkState s k.val != 0).foldl (fun a k =>
    let t := s.trunk k
    if slotPlaced s k.val then (a.1 + 1, a.2.1 + t.place.length, a.2.2 + variantLines t (slotVariant s k.val))
    else (a.1 + 1, a.2.1, a.2.2 + parkedLines t)) (0, 0, 0)

/-- QUOTA_ACT of a function: slots, cores, lines. -/
def quotaOf (s : State) (f : Nat) : Nat × Nat × Nat :=
  let v := s.actReg (Reg.QUOTA_PF + 0x10 * f)
  (min 8 (fld v 3 0), min 32 (fld v 9 4), min 4194304 (fld v 32 10))

/-- QUOTA_USE[f]. -/
def quotaUseVal (s : State) (f : Nat) : Word :=
  let u := useOf s f
  BitVec.ofNat 64 (u.1 % 16 + u.2.1 % 64 * 2 ^ 4 + u.2.2 % 2 ^ 23 * 2 ^ 10)

/-- TRUNK_STAT[k] as a read returns it: loft_lost shows a pending LOFT_LOST. -/
def trunkStatVal (s : State) (k : Nat) : Word :=
  setFld (s.reg (Reg.TRUNK_STAT + 0x20 * k)) 24 24 (b2n (s.loftLost.contains k))

/-! ## Signatures (R413, R415, R417) -/

/-- Is a key certificate a root whose keys have a given hash? -/
def rootIs (h : BitVec 384) (c : List Nat) : Bool :=
  certFormat c && certKind c == 1 && Config.sha384 (sub c 96 1984) == h && issuedBy c c

/-- The anchors of trunk signing certificates (Table 22.8): the owner root once root_o is set, else the vendor root. -/
def trunkAnchors (s : State) : List (List Nat) :=
  (keyCerts s).filter (rootIs (if s.fuse.rootO = 0 then s.fuse.rootV else s.fuse.rootO))

/-- Does a trunk signing certificate's chain verify? In BLANK no root is fused and none is asked for. -/
def trunkCertOk (s : State) (c : List Nat) : Bool :=
  certKind c == 7 && (s.fuse.lifecycle == 0 || chainOk (trunkAnchors s) (timeSet s) s.time.sec [c])

/-- Check 2: the certificates that were tried, and whether one verified. -/
def trunkSigned (s : State) (digest ed ml : List Nat) : Bool :=
  (keyCerts s).any fun c => trunkCertOk s c && decide (svnOf s.fuse.trunkSvn ≤ leAt c 52 4) && bothSigs c digest ed ml

/-- Chains checked while device time is not set are counted (R413). -/
def countNoTime (n : Nat) (s : State) : State := if timeSet s then s else bumpN Reg.SEC_CERT_NOTIME n s

/-! ## All checks in order -/

/-- All (variant, logical core) pairs. -/
def trunkCores (t : TrunkImg) : List (Nat × Nat) :=
  (List.range t.nVar).flatMap fun v => (List.range ((t.nLog[v]?).getD 0)).map fun l => (v, l)

/-- The refusal code of a trunk image for slot `k`; 0 when it passes. `bad` says that a line of the image was poisoned. -/
def loadCode (s : State) (k n : Nat) (bad : Bool) (t : TrunkImg) : Nat :=
  let f := slotOwner s k
  let dig := digestBytes (Config.sha384 (t.bs.take t.sig))
  if !formatOk t n then 0x01
  else if bad || !trunkSigned s dig (sub t.bs t.sig 64) (sub t.bs (t.sig + 64) 3309) then 0x02
  else if (useOf s f).1 ≥ (quotaOf s f).1 then 0x03
  else if !(trunkCores t).all fun c => entryOk t c.1 c.2 then 0x04
  else if !(trunkCores t).all fun c => fitOk t c.1 c.2 then 0x05
  else if !(trunkCores t).all fun c => loftOk t c.1 c.2 then 0x06
  else if !tilesOk t then 0x07
  else if !(List.range t.nVar).all fun v => (jobsOf t v).all fun j => jobOk s k t v j then 0x08
  else if !(mapUses t).all fun e => mapUseOk s k e then 0x09
  else if (tableSpace s t).isNone then 0x0A
  else 0

end Sys2Proof.Machine
end

