-- ==== Sys2Proof/Machine/Trunks.lean ====
section
/-! DEFINITION. Trunk slots: load, launch, placement, stop, unload, re-placement, and the mailbox commands of Table 19.8 that
name trunks, the device and the links (R25, R317 to R326, R361). -/

namespace Sys2Proof.Machine

/-! ## Load (R317, R318, R420) -/

/-- Extend a measurement: m = SHA-384(m ‖ d). -/
def measExtend (i : Fin 8) (d : List Nat) (s : State) : State :=
  let m := Config.sha384 (digestBytes s.sec.meas[i.val] ++ d)
  { s with sec := { s.sec with meas := s.sec.meas.set i.val m } }

/-- Write a job of a trunk into the engine's table, its list renumbered. -/
def putJob (lists : List Nat) (j : Nat) (ws : List Word) (s : State) : State :=
  let w0 := (ws[0]?).getD 0
  let set := fld w0 15 8
  let ws := if set ≥ 8 then ws.set 0 (setFld w0 15 8 (8 + (lists[set - 8]?).getD 0)) else ws
  (ws.zipIdx).foldl (fun s e => s.setReg (Reg.RB_JOB + 0x20 * j + 8 * e.2) (e.1 &&& jobMask e.2)) s

/-- Write a custom list. -/
def putList (m : Nat) (es : List Nat) (s : State) : State :=
  let s := (List.range 64).foldl (fun s i => s.setReg (Reg.RB_OFFSET + 0x100 * m + 4 * i)
    (BitVec.ofNat 64 ((es[2 * i]?).getD 0 + (es[2 * i + 1]?).getD 0 * 2 ^ 16))) s
  s.setReg (Reg.RB_OFFSET_N + 4 * m) (BitVec.ofNat 64 es.length)

/-- What the loader writes on success. -/
def loadTables (k : Nat) (t : TrunkImg) (runs : List (Nat × Nat)) (lists : List Nat) (s : State) : State :=
  let s := (runs.zipIdx).foldl (fun s r => ((jobsOf t r.2).zipIdx).foldl (fun s j => putJob lists (r.1.1 + j.2) j.1 s) s) s
  let s := (lists.zip (listOffs t)).foldl (fun s m => putList m.1 (listEntries t m.2) s) s
  ((gateWords t).zipIdx).foldl (fun s g => fbPut (Reg.GATE_CFG + 0x200 * k + 8 * g.2) (g.1 &&& 0xFFFFFFFF) s) s

/-- The calibration words of a NOMINAL_CAL entry: 9 of CAL_ROT, 3 of CAL_TRANS, CAL_RB_GAIN. -/
def nominalWords (t : TrunkImg) (o : Nat) : List Word := (List.range 13).map fun i => BitVec.ofNat 64 (leAt t.bs (o + 4 + 4 * i) 4)

/-- The resident record of a loaded trunk; with frames disabled it is eligible at once (R38). -/
def loadedTrunk (s : State) (addr n : Nat) (t : TrunkImg) (runs : List (Nat × Nat)) (lists : List Nat) : TrunkSt :=
  { TrunkSt.empty with
    addr := addr, bytes := n, nLog := t.nLog, secs := t.secs, jobs := runs, lists := lists,
    decl := (trunkCores t).foldl (fun a c => sput (32 * c.1 + c.2) (declOf t c.1 c.2) a) []
    nominal := (nominalEntries t).foldl (fun a e => sput e.1 (nominalWords t e.2) a) []
    devices := (t.secs.filter fun x => x.kind == 8).flatMap fun x => (List.range x.count).map fun i =>
      (leAt t.bs (x.offset + 2 * i) 1, leAt t.bs (x.offset + 2 * i + 1) 1)
    elig := !bitOf (s.reg Reg.FRAME_CTRL) 0 }

/-- TRUNK_STAT fields. -/
def trunkShow (k : Idx8) (st variant placed : Nat) (s : State) : State :=
  let o := Reg.TRUNK_STAT + 0x20 * k.val
  s.setReg o (setFld (setFld (setFld (s.reg o) 2 0 st) 4 3 variant) 10 5 placed)

/-- A refusal: the code, the count, TRUNK_REFUSED. -/
def trunkRefuse (k : Idx8) (code ctr : Nat) (s : State) : State :=
  raise (evSlot k.val 2) (bump ctr (s.setF (Reg.TRUNK_STAT + 0x20 * k.val) 23 16 code))

/-- How many trunk signing certificates the loader tries. -/
def certsTried (s : State) (dig ed ml : List Nat) : Nat :=
  let c7 := (keyCerts s).filter fun c => certKind c == 7
  let bad := c7.takeWhile fun c =>
    !(trunkCertOk s c && decide (svnOf s.fuse.trunkSvn ≤ leAt c 52 4) && bothSigs c dig ed ml)
  if s.fuse.lifecycle = 0 then 0 else min c7.length (bad.length + 1)

/-- The trunk becomes LOADED. -/
def trunkAccept (k : Idx8) (addr n : Nat) (t : TrunkImg) (runs : List (Nat × Nat)) (lists : List Nat) (s : State) : State :=
  let rec0 := loadedTrunk s addr n t runs lists
  let o := Reg.TRUNK_STAT + 0x20 * k.val
  let s := (loadTables k.val t runs lists s).setTrunk k rec0
  let s := (s.setReg o (setFld (s.reg o) 63 32 t.ver)).setReg (Reg.TRUNK_ID + 0x20 * k.val) (BitVec.ofNat 64 t.id)
  measExtend 4 (digestBytes (Config.sha384 (t.bs.take t.sig))) (trunkShow k 2 0 0 s)

/-- Load a trunk into an EMPTY slot: the code of Table 17.4, 0 for success. -/
def loadSlot (k : Idx8) (addr n : Nat) (s : State) : Nat × State :=
  let r := memGet addr n s
  let t := trunkImg r.1
  let s := r.2.2
  let code := loadCode s k.val n r.2.1 t
  let s := if code = 1 then s
    else countNoTime (certsTried s (digestBytes (Config.sha384 (t.bs.take t.sig))) (sub t.bs t.sig 64)
      (sub t.bs (t.sig + 64) 3309)) s
  if code ≠ 0 then (code, trunkRefuse k code Reg.TRUNK_LOAD_REFUSED s)
  else match tableSpace s t with
    | none => (0x0A, trunkRefuse k 0x0A Reg.TRUNK_LOAD_REFUSED s)
    | some (runs, lists) => (0, trunkAccept k addr n t runs lists s)

/-- A slot named in byte 8 by a function that may command it; else the status. -/
def slotArg (s : State) (f : Nat) (bs : List Nat) : Nat ⊕ Idx8 :=
  let p := slotPerm s f (mboxSlot bs)
  if p ≠ 0 then .inl p else if h : mboxSlot bs < 8 then .inr ⟨mboxSlot bs, h⟩ else .inl 0xF1

/-- TRUNK_LOAD. -/
def trunkLoad (f : Nat) (bs : List Nat) (s : State) : MboxRes :=
  match slotArg s f bs with
  | .inl e => ⟨e, [], s⟩
  | .inr k =>
    let addr := leAt bs 16 8
    let n := leAt bs 24 4
    if addr + n > memBytes s then ⟨0xF1, [], s⟩
    else if trunkState s k.val ≠ 0 then ⟨0x0D, [], trunkRefuse k 0x0D Reg.TRUNK_LOAD_REFUSED s⟩
    else
      let r := loadSlot k addr n s
      ⟨r.1, bytesLE 8 (trunkStatVal r.2 k.val).toNat, r.2⟩

/-- TRUNK_LOAD. -/
def execTrunkLoad (s : State) : Res := .next (mboxRun 0x0010 trunkLoad s)

/-! ## Launch (R320, R321, R323) -/

/-- Cores on which a placed trunk sits. -/
def coresTaken (s : State) : List CoreId :=
  allSlots.flatMap fun k => if slotPlaced s k.val then (s.trunk k).place else []

/-- Is a core free for a logical core of a variant (R320): in service, hosting no placed trunk, and without parked loft lines of
another slot that share a physical line with the shelves it would hold? -/
def coreFits (s : State) (k : Idx8) (v l : Nat) (c : CoreId) : Bool :=
  inService s c && !(coresTaken s).contains c &&
    !((parkedOn s c).any fun e => e.1 != k.val && (declShelves (declWords (s.trunk k) v l)).any fun f => spansClash e.2.2 f.2)

/-- Cores for logical cores, each fixed or the lowest-numbered free core; none when one finds no core. -/
def placeEach (s : State) (k : Idx8) (v : Nat) : List (Nat × Option CoreId) → List CoreId → Option (List CoreId)
  | [], _ => some []
  | (_, some c) :: r, used => (placeEach s k v r used).map (c :: ·)
  | (l, none) :: r, used =>
    match allCores.find? fun c => coreFits s k v l c && !used.contains c with
    | some c => (placeEach s k v r (c :: used)).map (c :: ·)
    | none => none

/-- The placement of a variant: loft owners where they are parked when that core is free, the others on the lowest-numbered free
cores (R323). -/
def choosePlace (s : State) (k : Idx8) (v : Nat) : Option (List CoreId) :=
  let t := s.trunk k
  let fixed := (List.range ((t.nLog[v]?).getD 0)).map fun l => (l, match t.parked.find? fun e => e.1 == l with
    | some e => if coreFits s k v l e.2 then some e.2 else none
    | none => none)
  placeEach s k v fixed (fixed.filterMap (·.2))

/-- The variant a launch takes; else the refusal code. -/
def chooseVariant (s : State) (k : Idx8) : Nat ⊕ Nat :=
  let t := s.trunk k
  let f := slotOwner s k.val
  let u := useOf s f
  let q := quotaOf s f
  let n (v : Nat) : Nat := (t.nLog[v]?).getD 0
  match (List.range t.nLog.length).find? fun v => (choosePlace s k v).isSome && decide (u.2.1 + n v ≤ q.2.1) &&
      decide (u.2.2 - parkedLines t + variantLines t v ≤ q.2.2) with
  | some v => .inr v
  | none =>
    let last := t.nLog.length - 1
    .inl (if (choosePlace s k last).isSome then 0x03 else 0x0C)

/-- Launch a slot: the status and the variant. -/
def launchSlot (k : Idx8) (s : State) : Nat × Nat × State :=
  let t := s.trunk k
  if trunkState s k.val ≠ 2 then (0x0D, 0, trunkRefuse k 0x0D Reg.TRUNK_LAUNCH_REFUSED s)
  else if s.loftLost.contains k.val then (0x0B, 0, trunkRefuse k 0x0B Reg.TRUNK_LAUNCH_REFUSED s)
  else match chooseVariant s k with
    | .inl code => (code, 0, trunkRefuse k code Reg.TRUNK_LAUNCH_REFUSED s)
    | .inr v =>
      let place := (choosePlace s k v).getD []
      let s := trunkShow k 3 v place.length (s.setTrunk k { t with
        place := place, fresh := List.range place.length, copied := false, written := false, agreed := none })
      (0, v, place.foldl (fun s c => if domRun s c.val then s else domRequest c.val 0 s) s)

/-- TRUNK_LAUNCH. -/
def trunkLaunch (f : Nat) (bs : List Nat) (s : State) : MboxRes :=
  match slotArg s f bs with
  | .inl e => ⟨e, [], s⟩
  | .inr k =>
    let r := launchSlot k s
    ⟨r.1, if r.1 = 0 then [r.2.1] else [], r.2.2⟩

/-- TRUNK_LAUNCH. -/
def execTrunkLaunch (s : State) : Res := .next (mboxRun 0x0011 trunkLaunch s)

/-! ## The launch copy -/

/-- Write a line of a shelf, in both copies of a committed loft shelf. -/
def putBoth (c : CoreId) (e : Word) (j : Nat) (d : DLine) (s : State) : State :=
  let s := spadWrite c (physOf e false j) d s
  if seLoft e = 2 then spadWrite c (physOf e true j) d s else s

/-- Give a shelf of a core its working-copy mark. -/
def putMark (c : CoreId) (i : Nat) (b : Bool) (s : State) : State :=
  s.modCore c fun k => { k with swap := if b then k.swap ||| BitVec.ofNat 64 (2 ^ i) else k.swap &&& ~~~ (BitVec.ofNat 64 (2 ^ i)) }

/-- A shelf's image, zeros after it. -/
def copyImage (t : TrunkSt) (v l : Nat) (c : CoreId) (i : Nat) (e : Word) (s : State) : State :=
  let im := imageOf t.secs v l i
  let s := putMark c i false s
  (List.range (seLen e)).foldl (fun s j =>
    match im with
    | some x =>
      if j < x.count then
        let r := memGet (t.addr + x.offset + 64 * j) 64 s
        putBoth c e j ⟨lineOfBytes r.1, r.2.1⟩ r.2.2
      else putBoth c e j ⟨0, false⟩ s
    | none => putBoth c e j ⟨0, false⟩ s) s

/-- The working-copy mark of a shelf moves with it. -/
def moveSwap (src dst : CoreId) (i : Nat) (s : State) : State := putMark dst i ((s.core src).swap.getLsbD i) s

/-- Parked lines of a loft shelf move to another core. -/
def moveLoft (src dst : CoreId) (e : Word) (s : State) : State :=
  (List.range (seLen e)).foldl (fun s j =>
    (if seLoft e = 2 then [false, true] else [false]).foldl (fun s second =>
      let r := spadRead src (physOf e second j) 10 s
      spadWrite dst (physOf e second j) r.1 r.2.2) s) s

/-- Bring one shelf of a placed logical core into place: a loft shelf keeps its parked lines except at the first launch; a
committed loft that is not parked came with a re-placement (R325). -/
def copyShelf (t : TrunkSt) (v l : Nat) (c : CoreId) (i : Nat) (e : Word) (s : State) : State :=
  if seLoft e = 0 || !t.ever then copyImage t v l c i e s
  else match t.parked.find? fun x => x.1 == l with
    | some x => putMark c i (((sget l t.marks).getD 0).getLsbD i) (if x.2 = c then s else moveLoft x.2 c e s)
    | none => if seLoft e = 2 then s else copyImage t v l c i e s

/-- The launch copy of the logical cores that are to be filled. -/
def launchCopy (k : Idx8) (s : State) : State :=
  let t := s.trunk k
  let v := slotVariant s k.val
  let s := t.fresh.foldl (fun s l => match t.place[l]? with
    | none => s
    | some c =>
      let s := (declShelves (declWords t v l)).foldl (fun s e => copyShelf t v l c e.1 e.2 s) s
      s.modCore c fun x => { x with dirty := [], loftCopy := false }) s
  s.modTrunk k fun t => { t with copied := true, ever := true, parked := [], marks := [], fresh := [] }

/-- The pending values of a placed core (R321 step 3, R323). -/
def placeWrites (t : TrunkSt) (k v l : Nat) (c : CoreId) (s : State) : State :=
  let ws := declWords t v l
  let w (i : Nat) : Word := (ws[i]?).getD 0
  let s := (List.range 64).foldl (fun s i => fbPut (coreOff (Reg.SHELF + 8 * i) c)
    (if seValid (w i) then setFld (w i) 3 1 k &&& 0x1FFFFFFFFFFFFF else 0) s) s
  let s := (List.range 15).foldl (fun s p => fbPut (coreOff (Reg.CREDIT_POOL + 0x10 * p) c)
    (if fld (w (64 + p)) 17 0 = 0 then 0 else setFld (w (64 + p)) 20 18 k &&& 0xFFFF001FFFFF) s) s
  let s := fbPut (coreOff Reg.CORE_ENTRY c) (w 79 &&& 0x3FFFFFF) s
  (List.range 32).foldl (fun s j => fbPut (coreOff (Reg.PEER_MAP + 4 * j) c)
    (match t.place[j]? with
     | some p => BitVec.ofNat 64 (p.val + 2 ^ 31)
     | none => 0) s) s

/-- Step 3 of R321, once the copy has ended, the slot is eligible and no guard interval runs. -/
def launchWrites (k : Idx8) (s : State) : State :=
  let t := s.trunk k
  if trunkState s k.val ≠ 3 || !t.copied || t.written || !t.elig || bitOf (s.reg Reg.FRAME_STAT) 1 then s
  else
    let v := slotVariant s k.val
    let s := (t.place.zipIdx).foldl (fun s e => placeWrites t k.val v e.2 e.1 s) s
    let r := (t.jobs[v]?).getD (0, 0)
    let s := fbPut (Reg.RB_LIST + 8 * k.val) (BitVec.ofNat 64 (r.1 + r.2 * 2 ^ 8 + (if r.2 = 0 then 0 else 2 ^ 17))) s
    s.modTrunk k fun t => { t with written := true }

/-- LAUNCH_COPY_COMPLETE: every placed core is in RUN; `first` is the frame number agreed with the trunk's other devices
(R326). -/
def launchComplete (k : Idx8) (first : BitVec 32) (s : State) : State :=
  let t := s.trunk k
  if trunkState s k.val ≠ 3 || t.copied || !(t.place.all fun c => domRun s c.val) then s
  else
    let s := launchCopy k s
    launchWrites k (if t.devices.isEmpty then s else s.modTrunk k fun t => { t with agreed := some first })

/-- LAUNCH_COPY_COMPLETE. -/
def execLaunchCopyComplete (k : Idx8) (first : BitVec 32) (s : State) : Res := .next (launchComplete k first s)

/-! ## Stop, unload, query (R322) -/

/-- TRUNK_STOP. -/
def trunkStop (f : Nat) (bs : List Nat) (s : State) : MboxRes :=
  match slotArg s f bs with
  | .inl e => ⟨e, [], s⟩
  | .inr k =>
    if trunkState s k.val ≠ 4 then ⟨0x0D, [], s.setF (Reg.TRUNK_STAT + 0x20 * k.val) 23 16 0x0D⟩
    else ⟨0, [], s.setF (Reg.TRUNK_STAT + 0x20 * k.val) 2 0 5⟩

/-- TRUNK_STOP. -/
def execTrunkStop (s : State) : Res := .next (mboxRun 0x0012 trunkStop s)

/-- UNLOAD of a LOADED slot: its jobs, lists and gates are free, its parked loft is gone. -/
def unloadSlot (k : Idx8) (s : State) : State :=
  let s := (List.range 64).foldl (fun s g => fbPut (Reg.GATE_CFG + 0x200 * k.val + 8 * g) 0 s) s
  let s := { s.setTrunk k TrunkSt.empty with loftLost := s.loftLost.erase k.val }
  let o := Reg.TRUNK_STAT + 0x20 * k.val
  (s.setReg o (BitVec.ofNat 64 (fld (s.reg o) 23 16 * 2 ^ 16))).setReg (Reg.TRUNK_ID + 0x20 * k.val) 0

/-- TRUNK_UNLOAD. -/
def trunkUnload (f : Nat) (bs : List Nat) (s : State) : MboxRes :=
  match slotArg s f bs with
  | .inl e => ⟨e, [], s⟩
  | .inr k =>
    if trunkState s k.val ≠ 2 then ⟨0x0D, [], s.setF (Reg.TRUNK_STAT + 0x20 * k.val) 23 16 0x0D⟩
    else ⟨0, [], unloadSlot k s⟩

/-- TRUNK_UNLOAD. -/
def execTrunkUnload (s : State) : Res := .next (mboxRun 0x0013 trunkUnload s)

/-- TRUNK_QUERY: any function. -/
def trunkQuery (_ : Nat) (bs : List Nat) (s : State) : MboxRes :=
  let k := mboxSlot bs
  if k > 7 then ⟨0xF1, [], s⟩
  else ⟨0, bytesLE 8 (trunkStatVal s k).toNat ++ bytesLE 8 (quotaUseVal s (slotOwner s k)).toNat, s⟩

/-- TRUNK_QUERY. -/
def execTrunkQuery (s : State) : Res := .next (mboxRun 0x0014 trunkQuery s)

/-! ## Unplacing and re-placing at a fence (R322, R325) -/

/-- A core without a trunk: its program state is gone, its scratchpad and repairs are kept. -/
def coreUnplace (c : CoreId) (s : State) : State :=
  let k := s.core c
  s.setCore c { CoreSt.reset with
    spad := k.spad, upsets := k.upsets, ceRows := k.ceRows, repairQ := k.repairQ, swap := k.swap, nextSeq := k.nextSeq }

/-- Pending and active value zero. -/
def clearFb (o : Nat) (s : State) : State := (s.setReg o 0).setAct o 0

/-- The entries of slot `k` on a core become invalid. -/
def clearEntries (k : Nat) (c : CoreId) (s : State) : State :=
  let s := (List.range 64).foldl (fun s i =>
    let o := coreOff (Reg.SHELF + 8 * i) c
    if seSlot (s.actReg o) = k ∨ seSlot (s.reg o) = k then clearFb o s else s) s
  let s := (List.range 32).foldl (fun s j => clearFb (coreOff (Reg.PEER_MAP + 4 * j) c) s) s
  (List.range 15).foldl (fun s p =>
    let o := coreOff (Reg.CREDIT_POOL + 0x10 * p) c
    if fld (s.actReg o) 20 18 = k ∨ fld (s.reg o) 20 18 = k then clearFb o s else s) s

/-- A trunk is unplaced: its entries become invalid, its loft shelves stay parked, the slot becomes LOADED. -/
def unplaceSlot (k : Idx8) (s : State) : State :=
  let t := s.trunk k
  let still := !t.copied && !t.parked.isEmpty
  let park := if still then t.parked
    else ((t.place.zipIdx).filter fun e => !(declLofts t e.2).isEmpty).map fun e => (e.2, e.1)
  let marks := if still then t.marks
    else park.foldl (fun (m : Store (BitVec 64)) e => sput e.1 (s.core e.2).swap m) []
  let s := t.place.foldl (fun s c => coreUnplace c (clearEntries k.val c s)) s
  let s := clearFb (Reg.RB_LIST + 8 * k.val) s
  trunkShow k 2 0 0 (s.setTrunk k { t with place := [], parked := park, marks := marks, fresh := [], copied := false, written := false, agreed := none })

/-- TRUNK_UNPLACE: at a fence every STOPPING slot is unplaced. -/
def trunkStops (s : State) : State :=
  allSlots.foldl (fun s k => if trunkState s k.val = 5 then raise (evSlot k.val 3) (unplaceSlot k s) else s) s

/-- The committed copies of a logical core's committed lofts go from one core to another; a line that does not read without
error raises LOFT_LOST. -/
def rescueLofts (k : Idx8) (l : Nat) (src dst : CoreId) (s : State) : State :=
  ((declLofts (s.trunk k) l).filter fun e => seLoft e.2 == 2).foldl (fun s e =>
    let work := (s.core src).swap.getLsbD e.1
    let r := (List.range (seLen e.2)).foldl (fun (a : Bool × State) j =>
      let x := spadRead src (physOf e.2 (!work) j) 10 a.2
      (a.1 || x.1.poison, putBoth dst e.2 j x.1 x.2.2)) (false, s)
    let s := moveSwap src dst e.1 r.2
    if r.1 && !s.loftLost.contains k.val then loseParked src k.val e.1 s else s) s

/-- A slot has lost cores: each lost logical core goes to a free core, and the slot launches again with its variant; with no
free core it is unplaced. Returns whether it was unplaced. -/
def replaceSlot (k : Idx8) (lost : List CoreId) (s : State) : Bool × State :=
  let t := s.trunk k
  let v := slotVariant s k.val
  let gone := (t.place.zipIdx).filter fun e => lost.contains e.1
  match placeEach s k v (gone.map fun e => (e.2, none)) lost with
  | none => (true, raise (evSlot k.val 4) (unplaceSlot k s))
  | some free =>
    let swap := gone.zip free
    let place := t.place.map fun c => match swap.find? fun e => e.1.1 == c with
      | some e => e.2
      | none => c
    let s := swap.foldl (fun s e => rescueLofts k e.1.2 e.1.1 e.2 s) s
    let s := lost.foldl (fun s c => if t.place.contains c then coreUnplace c (clearEntries k.val c s) else s) s
    let s := trunkShow k 3 v place.length (s.setTrunk k { s.trunk k with
      place := place, fresh := gone.map (·.2), copied := false, written := false, agreed := none })
    (false, bump Reg.TRUNK_REPLACE_CNT (place.foldl (fun s c => if domRun s c.val then s else domRequest c.val 0 s) s))

/-- TRUNK_REPLACE (R325): every slot that has a core among those lost, in ascending order; auto_relaunch runs R320 at once. -/
def trunkReplace (lost : List CoreId) (s : State) : State :=
  allSlots.foldl (fun s k =>
    if slotPlaced s k.val && (s.trunk k).place.any (fun c => lost.contains c) then
      let r := replaceSlot k lost s
      if r.1 && bitOf (s.reg (Reg.TRUNK_CFG + 0x20 * k.val)) 4 then (launchSlot k r.2).2.2 else r.2
    else s) s

/-- TRUNK_RUNNING: a LAUNCHING slot whose values this fence has captured, and whose first frame is this one, runs: its cores
enter their frame entry state (R321, R326). -/
def trunkStarts (n : BitVec 32) (s : State) : State :=
  allSlots.foldl (fun s k =>
    let t := s.trunk k
    let now := match t.agreed with
      | none => true
      | some f => f == n
    if trunkState s k.val = 3 && t.written && now then
      let s := s.setF (Reg.TRUNK_STAT + 0x20 * k.val) 2 0 4
      (t.place.zipIdx).foldl (fun s e =>
        frameEntry e.1 true (s.modCore e.1 fun c => { c with slot := k.val, logical := e.2 })) s
    else s) s

/-- After a fence: LAUNCHING slots that run no frame are counted, loaded slots are eligible, writes held back go out. -/
def trunkAfter (s : State) : State :=
  allSlots.foldl (fun s k =>
    let s := if trunkState s k.val = 3 then bump Reg.TRUNK_SKIP_CNT s else s
    if trunkState s k.val = 0 then s else launchWrites k (s.modTrunk k fun t => { t with elig := true })) s

/-! ## The device and the links (R25, R361) -/

/-- Fenced cores. -/
def fencedCores (s : State) : List CoreId := allCores.filter (isFenced s)

/-- PLACE_STAT (R325): width, fenced, spares, rotation-slot core; zero until cores are in service. -/
def placeStatVal (s : State) : Word :=
  if !allCores.any (inService s) then 0
  else
    let f := (fencedCores s).length
    BitVec.ofNat 64 (min 32 (35 - f) + f * 2 ^ 6 + s.test.spares.length * 2 ^ 12 + s.regF Reg.ROT_STAT 5 0 * 2 ^ 15)

/-- GET_INFO: SYS_ID, firmware version, PLACE_STAT, MEM_STAT. No rule gives the firmware a version number: it is a free
value. -/
def getInfo (_ : Nat) (_ : List Nat) (s : State) : MboxRes :=
  ⟨0, bytesLE 8 (s.reg Reg.SYS_ID).toNat ++ bytesLE 4 (s.free 41 32).toNat ++ bytesLE 4 (placeStatVal s).toNat ++
    bytesLE 4 (s.reg Reg.MEM_STAT).toNat, s.drawn⟩

/-- GET_INFO. -/
def execGetInfo (s : State) : Res := .next (mboxRun 0x0001 getInfo s)

/-- LINK_ENABLE: the PF enables the ports of a mask. -/
def linkEnable (f : Nat) (bs : List Nat) (s : State) : MboxRes :=
  let m := leAt bs 8 1
  if f ≠ 0 then ⟨0xF0, [], s⟩
  else if m > 15 then ⟨0xF1, [], s⟩
  else
    let s := (List.finRange 4).foldl (fun s p => if m.testBit p.val then linkCtrlWrite p 1 s else s) s
    ⟨0, (List.finRange 4).flatMap fun p => bytesLE 4 (s.reg (linkOff Reg.LXL_STAT p)).toNat, s⟩

/-- LINK_ENABLE. -/
def execLinkEnable (s : State) : Res := .next (mboxRun 0x0050 linkEnable s)

end Sys2Proof.Machine
end

