-- ==== Sys2Proof/Machine/Test.lean ====
section
/-! DEFINITION. The test rotation, the tests in the slot, the housekeeping cores, and the fencing of cores (R394 to R402,
R404). -/

namespace Sys2Proof.Machine

/-- Change test state. -/
def State.modTest (f : TestSt → TestSt) (s : State) : State := { s with test := f s.test }

/-! ## The order of the rotation (R394, R400) -/

/-- Frames per step: 0 stops, 1 to 3 act as 4. -/
def rotPeriod (s : State) : Nat :=
  let p := s.actF Reg.ROT_CFG 10 0
  if p = 0 then 0 else max 4 p

/-- The number of the core in the rotation slot. -/
def rotCore (s : State) : Nat := s.regF Reg.ROT_STAT 5 0

/-- The first core after `c` in the order that is neither fenced nor in the slot. -/
def rotScan (s : State) : Nat → Nat → Option CoreId
  | 0, _ => none
  | n + 1, c =>
    match coreOf ((c + 1) % 36) with
    | none => none
    | some d => if isFenced s d || d.val == rotCore s then rotScan s n ((c + 1) % 36) else some d

/-- The outgoing core of the next step: a pending request, the lowest number first, else the order's. -/
def rotPick (s : State) : Option CoreId :=
  match allCores.find? fun c => s.test.reqs.contains c && !isFenced s c && c.val != rotCore s with
  | some c => some c
  | none => rotScan s 36 (s.regF Reg.ROT_STAT 11 6)

/-- Does a core host a placed trunk? -/
def hostsTrunk (s : State) (c : CoreId) : Bool := (coresTaken s).contains c

/-- Have cores been brought into service? -/
def inUse (s : State) : Bool := allCores.any (inService s)

/-- ROT_STAT as a read returns it. -/
def rotStatVal (s : State) : Word :=
  let v := s.reg Reg.ROT_STAT
  if !inUse s then v
  else
    let out := match s.test.move with
      | some m => m.out.val
      | none => match rotPick s with
        | some c => c.val
        | none => 0
    let cp := match s.test.move with
      | some m => m.copying || m.copied
      | none => false
    setFld (setFld (setFld v 17 12 out) 18 18 (b2n cp)) 19 19 (b2n (s.test.phase != 0))

/-! ## Preparing a step (R395) -/

/-- Start to prepare a step at the fence numbered `step`. -/
def rotBegin (step limit : BitVec 32) (s : State) : State :=
  match rotPick s, coreOf (rotCore s) with
  | some out, some inc => s.modTest fun t => { t with
      move := some { out := out, inc := inc, step := step, limit := limit, copying := false, copied := false, moved := false },
      reqs := t.reqs.filter (· != out) }
  | _, _ => s

/-- The first multiple of the period later than a frame number. -/
def nextStep (p : Nat) (n : BitVec 32) : BitVec 32 := n + BitVec.ofNat 32 (p - n.toNat % p)

/-- ROT_WAKE: at fence `n` a step is begun when fence n + 2 is one of the period's, and the incoming core of a step at n + 2
is woken. -/
def rotPlan (n : BitVec 32) (s : State) : State :=
  let p := rotPeriod s
  let s := if s.test.move.isNone && inUse s && p ≠ 0 && (n + 2).toNat % p == 0 then
      rotBegin (n + 2) (n + 2 + BitVec.ofNat 32 p) s
    else s
  match s.test.move with
  | some m => if m.step = n + 2 ∧ inService s m.out then domRequest m.inc.val 0 s else s
  | none => s

/-- ROT_COPY_START: from start_tclk after the preceding fence the copy and mirroring run. -/
def rotCopyStart (s : State) : State :=
  match s.test.move, s.time.lastFence with
  | some m, some f =>
    let n : BitVec 32 := (s.reg Reg.FRAME_NUM).truncate 32
    let due := f + 32 * s.actF Reg.ROT_CFG 31 11
    if m.copying || m.copied || m.step ≠ n + 1 || !hostsTrunk s m.out || !domRun s m.inc.val || s.test.phase ≠ 0 ||
        s.time.cyc < due then s
    else s.modTest fun t => { t with move := some { m with copying := true } }
  | _, _ => s

/-- ROT_COPY_START. -/
def execRotCopyStart (s : State) : Res := .next (rotCopyStart s)

/-- Verify the outgoing core's lines: one that is not read without error is poisoned from then on; in a committed copy,
LOFT_LOST. -/
def rotVerify (out : CoreId) (s : State) : State :=
  ((s.core out).spad.map (·.1)).foldl (fun s p =>
    let r := spadRead out p 9 s
    if r.1.poison && !r.2.1 then
      match committedAt r.2.2 out p with
      | some i => loseLoft out i r.2.2
      | none => r.2.2
    else r.2.2) s

/-- ROT_COPY_COMPLETE. -/
def rotCopyComplete (errs : List LineErr) (s : State) : State :=
  let s := strike errs s
  match s.test.move with
  | some m =>
    if !m.copying then s
    else (rotVerify m.out s).modTest fun t => { t with move := some { m with copying := false, copied := true } }
  | none => s

/-- ROT_COPY_COMPLETE. -/
def execRotCopyComplete (errs : List LineErr) (s : State) : Res := .next (rotCopyComplete errs s)

/-- Does the outgoing core wait in FRAME_WAIT with every queue empty and no loft copy running? -/
def rotIdle (s : State) (c : CoreId) : Bool :=
  (match (s.core c).issue with
   | .frameWait _ _ _ => true
   | _ => false) && coreQuiet s c && !(s.core c).loftCopy

/-- ROT_STATE_TRANSFER. -/
def rotTransfer (s : State) : State :=
  match s.test.move with
  | some m =>
    if m.copied && !m.moved && rotIdle s m.out then s.modTest fun t => { t with move := some { m with moved := true } } else s
  | none => s

/-- ROT_STATE_TRANSFER. -/
def execRotStateTransfer (s : State) : Res := .next (rotTransfer s)

/-! ## The step (R394 to R397) -/

/-- The shelf, pool, entry and peer registers of a core. -/
def placeRegs : List Nat :=
  ((List.range 64).map fun i => Reg.SHELF + 8 * i) ++ ((List.range 15).map fun p => Reg.CREDIT_POOL + 0x10 * p) ++
    [Reg.CORE_ENTRY] ++ (List.range 32).map fun j => Reg.PEER_MAP + 4 * j

/-- Move a register with its active value. -/
def moveReg (out inc : CoreId) (o : Nat) (s : State) : State :=
  clearFb (coreOff o out) ((s.setReg (coreOff o inc) (s.reg (coreOff o out))).setAct (coreOff o inc) (s.actReg (coreOff o out)))

/-- The outgoing scratchpad as the copy and mirroring have left it on the incoming core: verified and sealed for it. -/
def rotLines (out inc : CoreId) (s : State) : Store Line :=
  (s.core out).spad.map fun e =>
    (e.1, sealLine (saltSpad inc.val e.1) ⟨e.2.data, e.2.tag == 0 || !tagGood (saltSpad out.val e.1) e.2⟩)

/-- The incoming core takes the outgoing core's program state, shelves and logical number; its unit state holds nothing
(R396), and its repairs stay its own. -/
def rotSwapCore (out inc : CoreId) (s : State) : State :=
  let o := s.core out
  let i := s.core inc
  let lines := rotLines out inc s
  let s := placeRegs.foldl (fun s r => moveReg out inc r s) s
  let s := s.setCore inc { o with
    spad := lines, upsets := [], ceRows := i.ceRows, repairQ := i.repairQ, cclk := i.cclk, ahead := [], array := ArraySt.reset,
    cam := ⟨0, [], []⟩, gm := [], sca := { o.sca with init := false } }
  coreUnplace out s

/-- The PEER_MAP writes of R324: every core that holds a valid entry for the outgoing core names the incoming one. -/
def rotPeers (out inc : CoreId) (cores : List CoreId) (s : State) : State :=
  cores.foldl (fun s c => (List.range 32).foldl (fun s j =>
    let o := coreOff (Reg.PEER_MAP + 4 * j) c
    let f (v : Word) : Word := if bitOf v 31 && fld v 5 0 == out.val then setFld v 5 0 inc.val else v
    (s.setReg o (f (s.reg o))).setAct o (f (s.actReg o))) s) s

/-- A trunk's placement follows. -/
def rotPlace (out inc : CoreId) (s : State) : State :=
  allSlots.foldl (fun s k =>
    let t := s.trunk k
    if slotPlaced s k.val && t.place.contains out then
      let place := t.place.map fun c => if c = out then inc else c
      rotPeers out inc place (s.setTrunk k { t with place := place })
    else s) s

/-- Set a core's service bits. -/
def serviceBits (c : CoreId) (serv rot : Bool) (s : State) : State :=
  (s.setF (coreOff Reg.CORE_STAT c) 0 0 (b2n serv)).setF (coreOff Reg.CORE_STAT c) 1 1 (b2n rot)

/-- A core enters the slot. -/
def enterSlot (c : CoreId) (s : State) : State := (serviceBits c false true s).setF Reg.ROT_STAT 5 0 c.val

/-- The step itself: the cores exchange their roles, the tests of the new slot core begin, ROT_STEP is raised. -/
def rotSwap (m : RotMove) (s : State) : State :=
  let s :=
    if inService s m.out then
      let s := if hostsTrunk s m.out then rotPlace m.out m.inc (rotSwapCore m.out m.inc s) else s
      let s := serviceBits m.inc true false s
      if domRun s m.out.val then s else domRequest m.out.val 0 s
    else
      let s := serviceBits m.inc false false s
      let s := s.modTest fun t => { t with spares := (allCores.filter fun c => (t.spares.contains c || c == m.inc) && c != m.out) }
      domRequest m.out.val 0 (domRequest m.inc.val 3 s)
  let s := (enterSlot m.out s).setF Reg.ROT_STAT 11 6 m.out.val
  raise evRotStep (bump Reg.ROT_STEP_CNT (s.modTest fun t => { t with move := none, phase := 1, again := false }))

/-- Is a step ready at its fence? -/
def rotReady (s : State) (m : RotMove) : Bool :=
  s.test.phase == 0 && (!hostsTrunk s m.out || (m.copied && m.moved && rotIdle s m.out && domRun s m.inc.val))

/-- ROTATION_STEP and ROT_POSTPONE at fence `n`: a step of this fence is taken when it is ready; else it is postponed to the
next fence, and at the next scheduled step fence it is abandoned. Tests asked for again start. -/
def rotStep (n : BitVec 32) (s : State) : State :=
  let s := if s.test.again && s.test.phase == 0 then
      domRequest (rotCore s) 0 (s.modTest fun t => { t with again := false, phase := 1 })
    else s
  match s.test.move with
  | none => s
  | some m =>
    if m.step ≠ n then s
    else if m.limit = n then domRequest m.inc.val 1 (s.modTest fun t => { t with move := none })
    else if rotReady s m then rotSwap m s
    else raise evRotPostpone (bump Reg.ROT_POSTPONE_CNT (s.modTest fun t => { t with
      move := some { m with step := n + 1, moved := false } }))

/-! ## The tests in the slot (R398, R399) -/

/-- Record a test's outcome. -/
def testResult (c : Nat) (f : Word → Word) (s : State) : State :=
  let o := Reg.TEST_RESULT + 8 * c
  s.setReg o (setFld (f (s.reg o)) 31 16 ((s.reg Reg.FRAME_NUM).toNat % 2 ^ 16))

/-- The detail of a slice's log entry: slice and signature. -/
def sliceDetail (sl : Nat) (sig : Half) : Nat := sl + sig.toNat * 2 ^ 32

/-- Order a core fenced at the next fence. -/
def orderFence (c : CoreId) (s : State) : State :=
  s.modTest fun t => { t with orders := if t.orders.contains c then t.orders else t.orders ++ [c] }

/-- LBIST_SLICE_END: the signature of the slice that ran on the slot core, or of its second run. -/
def lbistEnd (sig : Half) (s : State) : State :=
  match coreOf (rotCore s) with
  | none => s
  | some c =>
    let ph := s.test.phase
    if (ph ≠ 1 ∧ ph ≠ 2) ∨ !domRun s c.val then s
    else
      let o := Reg.ROT_SLICE + 4 * c.val
      let sl := s.regF o 2 0
      let ok := s.reg (Reg.TEST_REF + 4 * sl) == sig.zeroExtend 64
      if !ok ∧ ph = 1 then s.modTest fun t => { t with phase := 2 }
      else
        let s := testResult c.val (fun _ => BitVec.ofNat 64 (sl + b2n ok * 8 + b2n (ok && ph == 2) * 32 + sig.toNat * 2 ^ 32)) s
        let s := (s.setF o 2 0 (sl + 1)).modTest fun t => { t with phase := 3 }
        if !ok then orderFence c (raise evLbistFail (bump Reg.LBIST_FAIL_CNT (logFault evLbistFail 0 c.val (sliceDetail sl sig) s)))
        else if ph = 2 then
          raise evLbistTransient (bump Reg.LBIST_TRANSIENT (logFault evLbistTransient 0 c.val (sliceDetail sl sig) s))
        else s

/-- LBIST_SLICE_END. -/
def execLbistSliceEnd (sig : Half) (s : State) : Res := .next (lbistEnd sig s)

/-- Is the row of a physical line without a spare? -/
def rowHopeless (s : State) (c : CoreId) (p : Nat) : Bool :=
  let o := coreOff (Reg.SPAD_REPAIR + 4 * (p / 8192)) c
  !(s.core c).repairQ.contains (p / 8) && decide (8 ≤ s.regF o 3 0 + s.regF o 7 4 + s.regF o 15 9)

/-- A line that fails the March: its row is queued, or MBIST_FAIL and SPAD_REPAIR_FAIL. -/
def marchBad (c : CoreId) (p : Nat) (s : State) : State :=
  if rowHopeless s c p then
    queueRow c p (raise evMbistFail (bump Reg.MBIST_FAIL_CNT (logFault evMbistFail 0 c.val p s)))
  else queueRow c p s

/-- Apply a queued row's soft repair; the fault log's event number for a repair is free (no event of Table 19.7 is one). -/
def applyRepair (c : CoreId) (row : Nat) (s : State) : State :=
  let o := coreOff (Reg.SPAD_REPAIR + 4 * (row / 1024)) c
  let s := (s.setF o 7 4 (s.regF o 7 4 + 1)).setF o 15 9 (s.regF o 15 9 - 1)
  logFault (s.free 44 16).toNat 0 c.val (8 * row) s.drawn

/-- MARCH_PASS_END: `bad` are the physical lines that failed. Queued repairs are applied, every bank is unwritten, the core
goes to SLEEP. -/
def marchEnd (bad : List Nat) (s : State) : State :=
  match coreOf (rotCore s) with
  | none => s
  | some c =>
    if s.test.phase ≠ 3 ∨ !domRun s c.val then s
    else
      let bad := bad.map (· % 131072)
      let fail := bad.any fun p => rowHopeless s c p
      let s := bad.foldl (fun s p => marchBad c p s) s
      let s := (s.core c).repairQ.foldl (fun s r => applyRepair c r s) s
      let s := coreLoses c [] (s.modCore c fun k => { k with repairQ := [] })
      let s := testResult c.val (fun v => setFld v 4 4 (b2n !fail)) s
      let wanted := match s.test.move with
        | some m => m.inc == c && m.step - (s.reg Reg.FRAME_NUM).truncate 32 ≤ 2
        | none => false
      let s := s.modTest fun t => { t with phase := 0 }
      if wanted then s else domRequest c.val 1 s

/-- MARCH_PASS_END. -/
def execMarchPassEnd (bad : List Nat) (s : State) : Res := .next (marchEnd bad s)

/-! ## Mailbox commands (R400) -/

/-- ROTATE_NOW: the next step falls at the first fence its preparation can reach; returns that fence's number. -/
def rotateNow (f : Nat) (_ : List Nat) (s : State) : MboxRes :=
  if f ≠ 0 then ⟨0xF0, [], s⟩
  else
    let n : BitVec 32 := (s.reg Reg.FRAME_NUM).truncate 32
    match s.test.move with
    | some m => ⟨0, bytesLE 4 m.step.toNat, s⟩
    | none =>
      let serv := match rotPick s with
        | some c => inService s c
        | none => false
      let step := if serv then n + 3 else n + 1
      let p := rotPeriod s
      let s := rotBegin step (if p = 0 then step + 0x7FFFFFFF else nextStep p step) s
      ⟨0, bytesLE 4 step.toNat, s⟩

/-- ROTATE_NOW. -/
def execRotateNow (s : State) : Res := .next (mboxRun 0x0020 rotateNow s)

/-- The fence of the step that a request of core `c` will take: the first of the period's that can be prepared and is not
taken, one period later for each request before it; with the rotation stopped it is free. -/
def requestFence (s : State) (c : CoreId) : BitVec 32 :=
  let p := rotPeriod s
  let n : BitVec 32 := (s.reg Reg.FRAME_NUM).truncate 32
  let base := match s.test.move with
    | some m => if later m.step (n + 2) then m.step else n + 2
    | none => n + 2
  if p = 0 then s.free 45 32
  else nextStep p base + BitVec.ofNat 32 (p * (s.test.reqs.filter fun d => decide (d.val < c.val)).length)

/-- TEST_CORE. -/
def testCore (f : Nat) (bs : List Nat) (s : State) : MboxRes :=
  let n : BitVec 32 := (s.reg Reg.FRAME_NUM).truncate 32
  if f ≠ 0 then ⟨0xF0, [], s⟩
  else match coreOf (leAt bs 8 1) with
    | none => ⟨0xF1, [], s⟩
    | some c =>
      let moving := match s.test.move with
        | some m => if m.out = c then some m.step else none
        | none => none
      if isFenced s c then ⟨0xF1, [], s⟩
      else if c.val = rotCore s ∧ inUse s then ⟨0, bytesLE 4 (n + 1).toNat, s.modTest fun t => { t with again := true }⟩
      else match moving with
        | some st => ⟨0, bytesLE 4 st.toNat, s⟩
        | none =>
          let r := requestFence s c
          let s' := s.modTest fun t => { t with reqs := if t.reqs.contains c then t.reqs else t.reqs ++ [c] }
          ⟨0, bytesLE 4 r.toNat, if rotPeriod s = 0 then s'.drawn else s'⟩

/-- TEST_CORE. -/
def execTestCore (s : State) : Res := .next (mboxRun 0x0021 testCore s)

/-! ## Housekeeping cores (R401) -/

/-- Healthy housekeeping cores, as a mask. -/
def scHealthy (s : State) : Nat := s.regF Reg.SC_STAT 3 0

/-- A housekeeping core fails: two left raise SC_DEGRADED, one or none is SC_LOST. -/
def scFail (h : Nat) (s : State) : State :=
  let m := scHealthy s
  if !m.testBit h then s
  else
    let s := s.setF Reg.SC_STAT 3 0 (m - 2 ^ h)
    let n := popcnt 4 (m - 2 ^ h)
    if n = 2 then raise evScDegraded s else if n < 2 then safeCause 0 s else s

/-- The healthy core that follows the one last under test. -/
def scNext (s : State) : Nat :=
  let cur := s.regF Reg.SC_STAT 5 4
  match ([1, 2, 3, 4].map fun i => (cur + i) % 4).find? fun h => (scHealthy s).testBit h with
  | some h => h
  | none => cur

/-- SC_ROTATION: the next healthy core runs its self-test; with two or fewer, self-test has stopped. -/
def scRotation (pass : Bool) (s : State) : State :=
  if popcnt 4 (scHealthy s) ≤ 2 then s
  else
    let h := scNext s
    let s := s.setF Reg.SC_STAT 5 4 h
    if pass then s else scFail h s

/-- SC_ROTATION. -/
def execScRotation (pass : Bool) (s : State) : Res := .next (scRotation pass s)

/-- SC_WATCHDOG. -/
def execScWatchdog (h : Fin 4) (s : State) : Res := .next (scFail h.val s)

/-! ## Fencing (R325, R402, R404) -/

/-- FENCE_REQ_WRITE: by the PF. -/
def fenceReqWrite (req : Requester) (v : Word) (s : State) : State :=
  if reqFn req ≠ some 0 then accessError s else s.setReg Reg.FENCE_REQ ((s.reg Reg.FENCE_REQ ||| v) &&& 0xFFFFFFFFF)

/-- FENCE_REQ_WRITE. -/
def execFenceReqWrite (req : Requester) (v : Word) (s : State) : Res := .next (fenceReqWrite req v s)

/-- Drop a step that involves a core; its incoming core, when it is another, returns to SLEEP. -/
def dropMove (c : CoreId) (s : State) : State :=
  match s.test.move with
  | none => s
  | some m =>
    if m.out = c then domRequest m.inc.val 1 (s.modTest fun t => { t with move := none })
    else if m.inc = c then s.modTest fun t => { t with move := none }
    else s

/-- The lowest-numbered spare leaves the spares. -/
def takeSpare (s : State) : Option (CoreId × State) :=
  match s.test.spares with
  | [] => none
  | c :: r => some (c, s.modTest fun t => { t with spares := r })

/-- Refill the slot: a spare, else the highest-numbered in-service core without a trunk, else the core the order would choose
next, which then loses its trunk. Returns the cores whose trunks are to be re-placed. -/
def refillSlot (s : State) : List CoreId × State :=
  let s := s.modTest fun t => { t with phase := 0, again := false }
  match takeSpare s with
  | some (c, s) => ([], enterSlot c s)
  | none =>
    match allCores.reverse.find? fun c => inService s c && !hostsTrunk s c with
    | some c => ([], enterSlot c (dropMove c s))
    | none =>
      match rotScan s 36 (s.regF Reg.ROT_STAT 11 6) with
      | some c => ([c], enterSlot c (dropMove c s))
      | none => ([], s)

/-- The frames of a fenced core's trunk are aborted as CORE_FENCED. -/
def fenceAborts (c : CoreId) (s : State) : State :=
  allSlots.foldl (fun s k => (s.slotFrames k.val).foldl (fun s f =>
    if f.place.contains c then recordAbort k.val f.frame 0x08 c.val s else s) s) s

/-- The marks of a fenced core: out of service, CORE_STAT and FENCE_STAT, the event, the record in flash, no test, no
spare, its domain sent to DEEP. -/
def fenceMark (c : CoreId) (s : State) : State :=
  let s := (serviceBits c false false s).setF (coreOff Reg.CORE_STAT c) 2 2 1
  let s := s.setReg Reg.FENCE_STAT (s.reg Reg.FENCE_STAT ||| BitVec.ofNat 64 (2 ^ c.val))
  let s := raise evCoreFence (logFault evCoreFence 0 c.val 0 s)
  let s := { s with flash := { s.flash with fences := if s.flash.fences.contains c then s.flash.fences else s.flash.fences ++ [c] } }
  domRequest c.val 3 (dropMove c (s.modTest fun t =>
    { t with reqs := t.reqs.filter (· != c), spares := t.spares.filter (· != c) }))

/-- A spare takes the place of a fenced core: in service, or in the rotation slot. -/
def fenceFill (serv slot : Bool) (lost : List CoreId) (s : State) : List CoreId × State :=
  if serv then
    match takeSpare s with
    | some (d, s) => (lost, serviceBits d true false s)
    | none => (lost, s)
  else if slot then (lost ++ (refillSlot s).1, (refillSlot s).2)
  else (lost, s)

/-- CORE_FENCE: one core is fenced. Returns the cores that lose their trunk. -/
def fenceCore (c : CoreId) (s : State) : List CoreId × State :=
  fenceFill (inService s c) (inRotation s c) (if hostsTrunk s c then [c] else []) (fenceMark c (fenceAborts c s))

/-- Service width W (R325). -/
def serviceWidth (s : State) : Nat := min 32 (35 - (fencedCores s).length)

/-- The WIDTH cause of Table 21.2. -/
def widthCheck (s : State) : State :=
  let m := s.regF Reg.SAFE_CFG 5 0
  if inUse s ∧ m ≠ 0 ∧ serviceWidth s < m then safeCause 4 s
  else if s.test.causes.contains 4 then safeGone 4 s else s

/-- The cores to be fenced: ordered, or asked for by FENCE_REQ. -/
def toFence (s : State) : List CoreId :=
  allCores.filter fun c => !isFenced s c && (s.test.orders.contains c || bitOf (s.reg Reg.FENCE_REQ) c.val)

/-- Fence every core that is due, and re-place the trunks that lose cores. -/
def coreFencing (s : State) : State :=
  let r := (toFence s).foldl (fun (a : List CoreId × State) c =>
    let x := fenceCore c a.2
    (a.1 ++ x.1, x.2)) ([], s)
  let s := (r.2.setReg Reg.FENCE_REQ 0).modTest fun t => { t with orders := [] }
  if r.1.isEmpty then s else trunkReplace r.1 s

/-! ## The fault log's copies (R404) -/

/-- An entry of the fault log as its words. -/
def logWords (s : State) (i : Nat) : Word × Word × Word × Word :=
  let o := Reg.FAULT_LOG + 0x20 * (i % 256)
  (s.reg o, s.reg (o + 8), s.reg (o + 16), s.reg (o + 24))

/-- FAULT_LOG_FLASH_COPY: entries not yet copied go to the boot flash account area. -/
def logFlush (s : State) : State :=
  let h := (s.reg Reg.FAULT_LOG_HEAD).toNat
  let n := (h + 2 ^ 32 - s.logCopied % 2 ^ 32) % 2 ^ 32
  let new := (List.range (min n 256)).map fun i => ((s.logCopied + i) % 2 ^ 32, logWords s (s.logCopied + i))
  { s with flash := { s.flash with log := s.flash.log ++ new }, logCopied := h }

/-- FAULT_LOG_FLASH_COPY. -/
def execFaultLogFlashCopy (s : State) : Res := .next (logFlush s)

end Sys2Proof.Machine
end

