-- ==== Sys2Proof/Machine/Capture.lean ====
section
/-! DEFINITION. What a capture of FB registers does: at a fence, and by FRAME_CTRL.load_fb (R33, R36 to R38). -/

namespace Sys2Proof.Machine

/-! ## The registers (R6, R345, R79, Table 2.1) -/

/-- Is an offset that of an FB register? -/
def isFb (o : Nat) : Bool :=
  match regAt o with
  | some r => r.1.acc == .fb
  | none => false

/-- A reserved fence source is captured as 0. -/
def captureSrc (s : State) : State :=
  if s.regF Reg.FRAME_SRC 2 0 ≤ 4 then s
  else accessError (s.setAct Reg.FRAME_SRC (setFld (s.reg Reg.FRAME_SRC) 2 0 0))

/-- CELLAR_CAPTURE: a pair whose base is not 64-byte aligned or whose region passes the installed capacity takes length 0. -/
def captureCellar (k : Nat) (s : State) : State :=
  let b := (s.reg (Reg.CELLAR + 0x10 * k)).toNat % 2 ^ 40
  let n := (s.reg (Reg.CELLAR_LINES + 0x10 * k)).toNat % 2 ^ 30
  if b % 64 = 0 ∧ (n = 0 ∨ b + 64 * n ≤ memBytes s) then s
  else accessError (s.setAct (Reg.CELLAR_LINES + 0x10 * k) 0)

/-- A cellar output ring whose lines leave the cellar takes effect with length 0. -/
def captureRings (s : State) : State :=
  { s with act := s.act.map fun e =>
      let o := e.1 - Reg.CELLAR_RING
      if decide (Reg.CELLAR_RING ≤ e.1) && decide (o < 0x800) && o % 0x10 == 0 then
        let k := o / 0x100
        let b := (cellarOf s k).1 + 64 * fld e.2 27 0
        (e.1, if inCellar s k b (fld e.2 55 28) then e.2 else setFld e.2 55 28 0)
      else e }

/-- A publisher queue base that is not 64-byte aligned, and a non-zero length outside 1,024 to 2²⁰, raise the register-access error
event at the capture that makes them active. -/
def captureQueue (base lines : Word) (s : State) : State :=
  let b := s.actReg Reg.PUB_QUEUE_BASE
  let n := s.actReg Reg.PUB_QUEUE_LINES
  let badB := fld b 5 0 != 0
  let badN := fld n 20 0 != 0 && (decide (fld n 20 0 < 1024) || decide (fld n 20 0 > 2 ^ 20))
  if (badB && b != base) || (badN && n != lines) then accessError s else s

/-- A header ring enabled with an entry count outside R356 raises the register-access error event at the capture that makes
it active. -/
def captureHdr (old : Store Word) (s : State) : State :=
  let bad := (s.act.filter fun e => decide (Reg.HRING ≤ e.1) && decide (e.1 < Reg.HRING + 0x2000) && e.1 % 0x40 == 0x10).any fun e =>
    bitOf e.2 31 && !([16, 32, 64, 128, 256, 512, 1024, 2048, 4096].contains (fld e.2 12 0)) && sget e.1 old != some e.2
  if bad then accessError s else s

/-- PWR_OP: a value outside PWR_OP_LIMIT_ACT is taken as the nearer limit (R382). -/
def captureOp (s : State) : State := s.setAct Reg.PWR_OP (setFld (s.actReg Reg.PWR_OP) 2 0 (opClamp s (opActive s)))

/-- FB_CAPTURE: every FB register's pending value becomes active. -/
def captureRegs (s : State) : State :=
  let base := s.actReg Reg.PUB_QUEUE_BASE
  let lines := s.actReg Reg.PUB_QUEUE_LINES
  let old := s.act
  let s := captureHdr old (captureSrc (captureOp { s with act := s.regs.filter fun e => isFb e.1 }))
  captureQueue base lines (captureRings ((List.range 8).foldl (fun s k => captureCellar k s) s))

/-- Every credit pool takes its new capacity and is restored (R167). -/
def capturePools (s : State) : State :=
  allCores.foldl (fun s c => (List.range 15).foldl (fun s p => restorePool c (p + 1) s) s) s

/-! ## Head slots (R66, R68, R70, R75, R76) -/

/-- HEAD_SLOT_CFG's active value. -/
def headCfg (s : State) (n : HeadId) : Word := s.actReg (headOff Reg.HEAD_SLOT_CFG n.val)

/-- A slot whose active configuration changed from `old`: enabled or disabled it passes through DOWN; an enabled slot on a
port whose link is up leaves DOWN, on one whose link is down it enters it. A slot that stays enabled keeps its state when its
program, port or address changes (DESIGN CHOICE, log entry 161). A new parser code of 9 to 15 acts as 0 with the
register-access error event. A verified head is sent CONFIG. -/
def headCaptured (n : HeadId) (old : Word) (s : State) : State :=
  let v := headCfg s n
  if v = old then s
  else
    let s := if fld v 7 4 ≥ 9 ∧ fld v 7 4 ≠ fld old 7 4 then accessError s else s
    let up := headOn s n.val && ethUp s (headPort s n.val)
    let s := if bitOf old 0 && bitOf v 0 && up then s else headDown n s
    let s := if up && headState s n.val == 0 then headEnter n 1 s else s
    if headState s n.val = 3 ∨ headState s n.val = 4 then configSend n 0 s else s

/-- The sync pin of an enabled slot in sync_mode 1. -/
def syncPin (s : State) (n : HeadId) : Option Nat :=
  let v := headCfg s n
  if bitOf v 0 && fld v 9 8 == 1 then some (fld v 11 10) else none

/-- The lowest-numbered slot that drives a pin. -/
def syncLead (s : State) (p : Nat) : Option HeadId := allHeads.find? fun n => syncPin s n == some p

/-- A slot's phase. -/
def syncPhase (s : State) (n : HeadId) : Nat := s.actF (headOff Reg.HEAD_SLOT_SYNC n.val) 29 0

/-- The firmware runs a scan-sync pin in mode 3 (R75): a pin that another mode drove is reprogrammed at the fence. -/
def syncMode (p : Idx4) (s : State) : State :=
  let r := s.reg (toutOff Reg.TOUT_CFG p)
  if fld r 2 0 = 3 then s
  else
    let v := setFld r 2 0 3
    toutDrive p ((s.setReg (toutOff Reg.TOUT_CFG p) v).setPin p { s.pin p with cfg := v.truncate 32, edges := [], ends := none })

/-- R76: each pin's TOUT_PHASE comes from its lowest-numbered slot; a slot with another phase is in conflict. -/
def syncCapture (s : State) : State :=
  let s := allPins.foldl (fun s p => match syncLead s p.val with
    | some n =>
      let v := BitVec.ofNat 64 (syncPhase s n)
      syncMode p ((s.setReg (toutOff Reg.TOUT_PHASE p) v).setAct (toutOff Reg.TOUT_PHASE p) v)
    | none => s) s
  allHeads.foldl (fun s n =>
    let bad := match syncPin s n with
      | none => false
      | some p => match syncLead s p with
        | none => false
        | some l => syncPhase s l != syncPhase s n
    let o := headOff Reg.HEAD_SLOT_STAT n.val
    let was := bitOf (s.reg o) 7
    let s := s.setF o 7 7 (b2n bad)
    if bad && !was then raise (evHead n.val 5) s else s) s

/-- Head slots take their captured configurations. -/
def headsCaptured (old : List Word) (s : State) : State :=
  syncCapture (allHeads.foldl (fun s n => headCaptured n ((old[n.val]?).getD 0) s) s)

/-! ## Gates (R233) -/

/-- GATE_STAT from its fields. -/
def gateStat (smp mis : Nat) (f : Bool) : Word := BitVec.ofNat 64 (smp + mis * 2 ^ 32 + b2n f * 2 ^ 63)

/-- R233 on a gate's active configuration and status: its state afterwards, and whether it fell back or returned. -/
def gateRule (cfg st : Word) : Word × Bool × Bool :=
  let f := bitOf st 63
  let smp := fld st 31 0
  let mis := fld st 61 32
  let miss := fld cfg 11 4
  if fld cfg 2 1 = 1 then (gateStat 0 0 true, false, false)
  else if fld cfg 2 1 = 2 then (gateStat 0 0 false, false, false)
  else if smp < fld cfg 23 12 then (st, false, false)
  else if !f ∧ mis * 256 > miss * smp then (gateStat 0 0 true, true, false)
  else if f ∧ bitOf cfg 3 ∧ mis * 512 ≤ miss * smp then (gateStat 0 0 false, false, true)
  else (gateStat 0 0 f, false, false)

/-- A gate's registers. -/
def gateOff (o k g : Nat) : Nat := o + 0x200 * k + 8 * g

/-- GATE_DECIDE for every enabled gate with force 0, and every forced gate, enabled or not; a load_fb capture (`decide` false) only
applies the forced ones. -/
def gateDecide (decide : Bool) (s : State) : State :=
  (List.range 8).foldl (fun s k => (List.range 64).foldl (fun s g =>
    let cfg := s.actReg (gateOff Reg.GATE_CFG k g)
    if !(decide && bitOf cfg 0 || fld cfg 2 1 == 1 || fld cfg 2 1 == 2) then s
    else
      let r := gateRule cfg (s.reg (gateOff Reg.GATE_STAT k g))
      let s := s.setReg (gateOff Reg.GATE_STAT k g) r.1
      let s := if r.2.1 then raise (evSlot k 0) s else s
      if r.2.2 then raise (evSlot k 1) s else s) s) s

/-- Placement of a trunk in slot `k`: F and the counts of its gates are zero. -/
def gateClear (k : Nat) (s : State) : State :=
  (List.range 64).foldl (fun s g =>
    let cfg := s.actReg (gateOff Reg.GATE_CFG k g)
    s.setReg (gateOff Reg.GATE_STAT k g) (gateStat 0 0 (fld cfg 2 1 == 1))) s

/-- GATE_STAT as a read returns it: fallback_pending is what the counts so far would decide. -/
def gateStatVal (s : State) (k g : Nat) : Word :=
  let v := s.reg (gateOff Reg.GATE_STAT k g)
  let cfg := s.actReg (gateOff Reg.GATE_CFG k g)
  if !bitOf cfg 0 && fld cfg 2 1 != 1 && fld cfg 2 1 != 2 then v else setFld v 62 62 (fld (gateRule cfg v).1 63 63)

/-! ## A capture -/

/-- What was active before a capture: Map Store entries and head configurations. -/
def mapBefore (s : State) : List (Word × Word) := (List.range 32).map (mapDir s)
/-- Head configurations before a capture. -/
def headsBefore (s : State) : List Word := allHeads.map (headCfg s)

/-- LOAD_FB (R33, R99): the capture without the rest of a fence. -/
def captureAll (s : State) : State :=
  let om := mapBefore s
  let oh := headsBefore s
  let s := capturePools (captureRegs s)
  let s := gateDecide false (headsCaptured oh (calCaptured (mapCaptured om (gridLoad s))))
  allSlots.foldl (fun s k =>
    if trunkState s k.val = 0 then s else launchWrites k (s.modTrunk k fun t => { t with elig := true })) (opStart s)

/-- Is a trunk frame in progress? -/
def frameRuns (s : State) : Bool := s.frames.toList.any fun l => !l.isEmpty

/-- LOAD_FB: refused while enable is 1 or a trunk frame is in progress. -/
def loadFb (s : State) : State :=
  if bitOf (s.reg Reg.FRAME_CTRL) 0 || frameRuns s then accessError s else captureAll s

/-- LOAD_FB. -/
def execLoadFb (s : State) : Res := .next (loadFb s)

end Sys2Proof.Machine
end

