-- ==== Sys2Proof/Machine/Fence.lean ====
section
/-! DEFINITION. Fences: their sources, the fence itself, frames beginning, the guard (R30 to R40, R46, R74, R91, R96,
R370, R371). -/

namespace Sys2Proof.Machine

/-! ## Parts of a fence -/

/-- FRAME_CTRL.enable. -/
def frameOn (s : State) : Bool := bitOf (s.reg Reg.FRAME_CTRL) 0
/-- FRAME_NUM. -/
def frameNum (s : State) : BitVec 32 := (s.reg Reg.FRAME_NUM).truncate 32

/-- The fence instant: number, fence time, FRAME_STAT, fence packets on the links. -/
def fenceInstant (n : BitVec 32) (renum : Bool) (s : State) : State :=
  let s := (s.setReg Reg.FRAME_NUM (n.zeroExtend 64)).setReg Reg.FRAME_FENCE_SEC (BitVec.ofNat 64 s.time.sec)
  let s := (s.setReg Reg.FRAME_FENCE_NS (BitVec.ofNat 64 s.time.ns)).setReg Reg.FRAME_STAT (BitVec.ofNat 64 (1 + b2n renum * 16))
  let s := raise evFrameFence (s.modTime fun t => { t with lastFence := some t.cyc })
  let s := if renum then raise evFrameRenumber (bump Reg.FENCE_RENUMBER_CNT s) else s
  sendFences n s

/-- LINK_COMMIT_LOST: a frame that has sent ready and has no decision is aborted. -/
def fenceLost (s : State) : State :=
  allSlots.foldl (fun s k => (s.slotFrames k.val).foldl (fun s f =>
    if f.ready then
      raise evLinkCommitLost (bump Reg.LINK_COMMIT_LOST (abortFrame k.val f.frame 0x0A 0xFF s))
    else s) s) s

/-- Once-in-a-frame marks are cleared. -/
def fenceMarks (s : State) : State :=
  { s with mem := { s.mem with fullRaised := false }, map := { s.map with idxRaised := false },
           pwr := { s.pwr with overRaised := false } }

/-- A core of a RUNNING trunk in its capture cycle (a LAUNCHING slot runs no frame, Table 17.5): the number for its FRAME_WAIT; a renumbering fence restarts its frame state (R35). -/
def coreCapture (n : BitVec 32) (renum : Bool) (k : CoreSt) : CoreSt :=
  if k.issue = .unplaced then k
  else
    let k := { k with capFrame := n, captured := true }
    if renum then { k with cur := n - 1, sems := k.sems.map fun v => ⟨v.count, 0⟩, ledger := [] } else k

/-- PENDING slots enter ACTIVE (R69, R78); HEAD_FRAME_FLAGS takes its value for the frame that begins (R74). -/
def fenceHeads (s : State) : State :=
  let bits (f : HeadId → Bool) : Nat := allHeads.foldl (fun a n => a + b2n (f n) * 2 ^ n.val) 0
  let st (n : HeadId) (i : Nat) : Bool := bitOf (s.reg (headOff Reg.HEAD_SLOT_STAT n.val)) i
  let new (n : HeadId) : Bool := (s.head n).nominal || (headState s n.val == 3 && (s.head n).replaced)
  let flags := bits (st · 6) + bits (st · 5) * 2 ^ 16 + bits (fun n => (s.head n).atFill && !(s.head n).filled) * 2 ^ 32 +
    bits new * 2 ^ 48
  let s := s.setReg Reg.HEAD_FRAME_FLAGS (BitVec.ofNat 64 flags)
  allHeads.foldl (fun s n =>
    let s := s.modHead n fun h => { h with
      atFill := headOn s n.val, filled := false, replaced := h.replaced && !new n, nominal := false }
    if headState s n.val = 3 then headEnter n 4 (s.modHead n fun h => { h with blkRef := none }) else s) s

/-- The TCLK cycles from a fence to the deadline of its frames (R46). -/
def deadlineCycles (s : State) : Nat :=
  let d := (s.actReg Reg.FRAME_DEADLINE).toNat % 2 ^ 32
  let last := (if frameSrc s = 0 then framePeriod s else 500000000) - 200000
  if d = 0 ∨ d > last then last else d

/-- Every RUNNING trunk begins its frame (R33). -/
def beginFrames (n : BitVec 32) (s : State) : State :=
  allSlots.foldl (fun s k =>
    if trunkState s k.val ≠ 4 then s
    else s.setFrames k.val (s.slotFrames k.val ++
      [{ frame := n, sec := s.time.sec, ns := s.time.ns, flags := s.reg Reg.HEAD_FRAME_FLAGS,
         dead := s.time.cyc + deadlineCycles s, place := (s.trunk k).place, got := [], ready := false, peers := [] }])) s

/-- The placements that run the new frame, for the rulebook engine. -/
def runPlace (s : State) (k : Nat) : Option (List CoreId) :=
  if h : k < 8 then (if trunkState s k = 4 then some (s.trunk ⟨k, h⟩).place else none) else none

/-- With park set, in-service cores that host no trunk go to DEEP (R393). -/
def fencePark (s : State) : State :=
  if !s.pwr.park then s
  else allCores.foldl (fun s c =>
    if inService s c && !hostsTrunk s c && domTarget s c.val != 3 then domRequest c.val 3 s else s) s

/-- The timer's next fence, one active period after this one. -/
def fenceTimer (s : State) : State :=
  s.modTime fun t => { t with due := if frameSrc s = 0 then some (t.cyc + framePeriod s) else none }

/-- Trunks start: those whose values the fence captured; the gates of each begin with F at 0. -/
def fenceStarts (n : BitVec 32) (s : State) : State :=
  let was := allSlots.filter fun k => trunkState s k.val == 4
  let s := trunkStarts n s
  allSlots.foldl (fun s k => if trunkState s k.val = 4 ∧ !was.contains k then gateClear k.val s else s) s

/-- FENCE: the fence that issues frame number `n` (R36, R38). -/
def fence (n : BitVec 32) (renum : Bool) (s : State) : State :=
  let timer := frameSrc s == 0
  let s := fenceMarks (fenceLost (fenceInstant n renum s))
  let s := trunkStops (calClose s)
  let om := mapBefore s
  let oh := headsBefore s
  let s := captureRegs s
  let s := rotPlan n (rotStep n (coreFencing s))
  let s := capturePools (fenceStarts n (gateDecide true s))
  let s := { s with cores := s.cores.map fun k => if trunkState s k.slot = 4 then coreCapture n renum k else k }
  let s := gridSwap n (mapCaptured om s)
  let s := calCaptured s
  let s := fenceHeads (headsCaptured oh s)
  let s := rbFence (runPlace s) (beginFrames n s)
  let s := fenceTimer (toutFence timer s)
  widthCheck (trunkAfter (fencePark (opStart s)))

/-! ## Sources (R30 to R32, R34, R35) -/

/-- Do source events act: frames are enabled and the device is not in its safe state? -/
def fencesOn (s : State) : Bool := frameOn s && !isSafe s

/-- The number the device's own fence issues: one greater than the previous, 1 for the first since enable. -/
def nextNumber (s : State) : BitVec 32 := if bitOf (s.reg Reg.FRAME_STAT) 0 then frameNum s + 1 else 1

/-- A source event that registers less than 5,000,000 cycles after the previous fence is ignored and counted. -/
def tooEarly (s : State) : Bool :=
  match s.time.lastFence with
  | some f => decide (s.time.cyc < f + 5000000)
  | none => false

/-- A source event of a device that numbers its own fences. -/
def sourceEvent (s : State) : State :=
  if tooEarly s then bump Reg.FENCE_EARLY_CNT s else fence (nextNumber s) false s

/-! ## The guard (R40) -/

/-- Is it one of the last guard_tclk cycles before a timer fence? -/
def inGuard (s : State) : Bool :=
  match s.time.due with
  | some d => fencesOn s && frameSrc s == 0 && decide (s.time.cyc < d) && decide (d ≤ s.time.cyc + (s.reg Reg.FRAME_GUARD).toNat)
  | none => false

/-- GUARD_START: the last guard_tclk cycles before a timer fence. -/
def guardStart (s : State) : State := if inGuard s then s.setF Reg.FRAME_STAT 1 1 1 else s

/-- GUARD_START. -/
def execGuardStart (s : State) : Res := .next (guardStart s)

/-- The guard interval ends: launch values held back for it go out. -/
def guardEnd (s : State) : State := allSlots.foldl (fun s k => launchWrites k s) (s.setF Reg.FRAME_STAT 1 1 0)

/-- The guard judged anew, when the fence ahead or the guard's length has changed. -/
def guardJudge (s : State) : State :=
  if inGuard s then guardStart s else if bitOf (s.reg Reg.FRAME_STAT) 1 then guardEnd s else s

/-- FRAME_TIMER_EXPIRE: the timer has reached its fence. -/
def timerExpire (s : State) : State :=
  match s.time.due with
  | some d =>
    if !fencesOn s || frameSrc s != 0 || decide (s.time.cyc < d) then s
    else if tooEarly s then
      guardJudge (bump Reg.FENCE_EARLY_CNT (s.modTime fun t => { t with due := t.lastFence.map (· + framePeriod s) }))
    else sourceEvent s
  | none => s

/-- FRAME_TIMER_EXPIRE. -/
def execFrameTimerExpire (s : State) : Res := .next (timerExpire s)

/-- TIME_IN_EDGE: captured as TIN_CFG selects; a rising edge of the source's pin is a source event. -/
def timeInEdge (j : Fin 2) (rising : Bool) (s : State) : State :=
  let s := if tinSelects s j rising then tinCapture j s else s
  if rising && fencesOn s && frameSrc s == 1 + j.val then sourceEvent s else s

/-- TIME_IN_EDGE. -/
def execTimeInEdge (j : Fin 2) (rising : Bool) (s : State) : Res := .next (timeInEdge j rising s)

/-- SW_FENCE: a write of 1 to FRAME_CTRL.sw_fence. -/
def swFence (s : State) : State :=
  if frameSrc s ≠ 4 then accessError s else if fencesOn s then sourceEvent s else s

/-- SW_FENCE. -/
def execSwFence (s : State) : Res := .next (swFence s)

/-- The oldest fence packet from a port. -/
def takeFence (p : Idx4) (s : State) : Option (Msg × State) :=
  (takeFirst (fun m => m.kind == .fence && m.dst == Agent.sys && m.addr == p.val) s.net).map fun r => (r.1, { s with net := r.2 })

/-- FENCE_FLIT_RECEIVE: with source 3, a fence packet of its port is the source event, and its number is adopted. -/
def fenceFlit (p : Idx4) (s : State) : State :=
  match takeFence p s with
  | none => s
  | some (m, s) =>
    if !fencesOn s || frameSrc s != 3 || s.actF Reg.FRAME_SRC 4 3 != p.val then s
    else if tooEarly s then bump Reg.FENCE_EARLY_CNT s
    else fence m.frame (!later m.frame (frameNum s)) s

/-- FENCE_FLIT_RECEIVE. -/
def execFenceFlitReceive (p : Idx4) (s : State) : Res := .next (fenceFlit p s)

/-- The cycle from which a missing fence is counted: the previous fence, or enable. -/
def missBase (s : State) : Nat :=
  match s.time.lastFence with
  | some f => max f s.time.armedAt
  | none => s.time.armedAt

/-- FENCE_MISSING: sources 1 to 4 have brought no fence for 500,000,000 cycles. -/
def fenceMissing (s : State) : State :=
  if !fencesOn s || frameSrc s == 0 || decide (s.time.cyc < missBase s + 500000000) then s
  else fence (nextNumber s) false (bump Reg.FENCE_MISSING_CNT s)

/-- FENCE_MISSING. -/
def execFenceMissing (s : State) : Res := .next (fenceMissing s)

/-! ## Enable and disable (R32, R91) -/

/-- FRAME_ENABLE: the source is armed. -/
def frameEnable (s : State) : State :=
  if frameOn s then s
  else
    let due := if frameSrc s = 0 then some (firstDue s) else none
    (((s.modTime fun t => { t with armedAt := t.cyc, due := due }).setF Reg.FRAME_CTRL 0 0 1).setF Reg.FRAME_STAT 0 0 0)

/-- FRAME_ENABLE. -/
def execFrameEnable (s : State) : Res := .next (frameEnable s)

/-- FRAME_DISABLE: no fence follows; the guard interval ends, and launch values held back for it go out. -/
def frameDisable (s : State) : State :=
  if !frameOn s then s
  else
    guardEnd ((s.modTime fun t => { t with due := none }).setF Reg.FRAME_CTRL 0 0 0)

/-- FRAME_DISABLE. -/
def execFrameDisable (s : State) : Res := .next (frameDisable s)

end Sys2Proof.Machine
end

