-- ==== Sys2Proof/Machine/HostQ.lean ====
section
/-! DEFINITION. The host's ways in: work queues, BAR2, raw windows, shelf writes, credits of the engines, function resets and
the PCI Express link (R26, R155 to R157, R350 to R355, R363, R429). -/

namespace Sys2Proof.Machine

/-! ## Queues (R351) -/

/-- Offset of a register of a queue. -/
def hqOff (o q : Nat) : Nat := o + 0x40 * q
/-- Entries of a queue's rings. -/
def hqSize (s : State) (q : Nat) : Nat := s.regF (hqOff Reg.HQ_CFG q) 12 0
/-- The function that owns a queue: 9 to 15 act as 0. -/
def hqOwner (s : State) (q : Nat) : Nat :=
  let o := s.regF (hqOff Reg.HQ_CFG q) 16 13
  if o > 8 then 0 else o
/-- HQ_CFG.prio. -/
def hqPrio (s : State) (q : Nat) : Nat := s.regF (hqOff Reg.HQ_CFG q) 17 17
/-- Is a queue enabled with a valid size? -/
def hqOn (s : State) (q : Nat) : Bool := bitOf (s.reg (hqOff Reg.HQ_CFG q)) 31 && ringSizeOk (hqSize s q)
/-- HQ_STAT.error. -/
def hqError (s : State) (q : Nat) : Bool := bitOf (s.reg (hqOff Reg.HQ_STAT q)) 1
/-- The descriptors of a queue in progress, in submission order. -/
def hqMine (s : State) (q : Nat) : List HqDesc := s.hq.descs.filter fun d => d.q == q
/-- Change the engine. -/
def State.modHq (f : HqSt → HqSt) (s : State) : State := { s with hq := f s.hq }

/-- HQ_STAT as a read returns it. -/
def hqStatVal (s : State) (q : Nat) : Word :=
  BitVec.ofNat 64 (b2n (hqOn s q && !hqError s q) + b2n (hqError s q) * 2 + (hqMine s q).length * 4)

/-- HQ_DOORBELL: a tail beyond the ring stops the queue with HQ_ERR. -/
def hqDoorbell (q : Nat) (v : Half) (s : State) : State :=
  let t := v.toNat % 4096
  let s := s.setReg (hqOff Reg.HQ_SQ_TAIL q) (BitVec.ofNat 64 t)
  if hqOn s q ∧ hqSize s q ≤ t then raise evHqErr (s.setF (hqOff Reg.HQ_STAT q) 1 1 1) else s

/-- HQ_DOORBELL. -/
def execHqDoorbell (q : QueueId) (v : Half) (s : State) : Res := .next (hqDoorbell q.val v s)

/-! ## Descriptors (Tables 19.2 to 19.5) -/

/-- A descriptor's fields, as its 64 bytes give them. -/
def hqParse (id q idx : Nat) (b : List Nat) (data : List HostLine) (bad : Option Nat) : HqDesc :=
  { id := id, q := q, idx := idx, op := leAt b 0 1, flags := leAt b 1 1, pool := leAt b 2 1 % 16, lines := leAt b 4 4 / 64,
    host := leAt b 8 8, dev := leAt b 16 8, cookie := leAt b 24 8, tagList := leAt b 32 8, data := data, hostErr := bad,
    asked := [], reqd := 0, sent := 0, done := 0, status := 0, fin := false }

/-- Does a descriptor keep to Table 19.2? -/
def hqFieldsOk (b : List Nat) : Bool :=
  let op := leAt b 0 1
  let len := leAt b 4 4
  decide (1 ≤ op) && decide (op ≤ 4) && leAt b 1 1 / 16 == 0 && (leAt b 2 1 / 16 == 0 && (op == 3 || leAt b 2 1 == 0)) &&
    leAt b 3 1 == 0 && len % 64 == 0 && decide (64 ≤ len) && decide (len ≤ 16777216) && leAt b 8 8 % 4 == 0 &&
    leAt b 16 8 % 64 == 0 && decide (leAt b 16 8 < 2 ^ 40) && (b.drop 40).all (· == 0)

/-- The core and first physical line of an address in the scratchpad windows. -/
def spadPlace (a : Nat) : Option (CoreId × Nat) :=
  (coreOf ((a - 0x1000000000) / 0x1000000)).map fun c => (c, a % 0x1000000 / 64)

/-- The shelf, and its line, in whose working copy a physical line lies, when the shelf is valid and has a pool. -/
def pooledAt (s : State) (c : CoreId) (p : Nat) : Option (Nat × Nat) :=
  (List.range 64).findSome? fun i =>
    let e := shelfEnt s c i
    if seValid e && sePool e != 0 then (lineOfPhys e (workSecond s c i) p).map fun j => (i, j) else none

/-- Does function `f` own the slot of a shelf that holds a physical line? -/
def ownsLine (s : State) (c : CoreId) (f p : Nat) : Bool :=
  (List.range 64).any fun i =>
    let e := shelfEnt s c i
    seValid e && slotOwner s (seSlot e) == f &&
      ((lineOfPhys e false p).isSome || (seLoft e == 2 && (lineOfPhys e true p).isSome))

/-- Table 19.5. -/
def hqRangeOk (s : State) (f op a n : Nat) : Bool :=
  match regionOf s a with
  | .lpddr =>
    let w := s.reg (Reg.HQ_FUNC_WIN + 0x10 * (f - 1))
    (op == 1 || op == 2) && decide (a + 64 * n ≤ memBytes s) &&
      (f == 0 || (decide (fld w 39 0 ≤ a) && decide (a + 64 * n ≤ fld w 39 0 + fld w 63 40 * 2 ^ 20)))
  | .spad =>
    match spadPlace a with
    | none => false
    | some (c, p) =>
      reachable s c && decide (p + n ≤ 131072) && (op == 2 || op == 3) && (List.range n).all fun i =>
        (f == 0 || ownsLine s c f (p + i)) && (op == 2 || (pooledAt s c (p + i)).isSome)
  | .grid => op == 2 && f == 0 && gridMapped (a - 0x1100000000 + 64 * (n - 1))
  | _ => false

/-- Lines that a descriptor can move: up to a failed host read. -/
def hqLimit (d : HqDesc) : Nat := match d.hostErr with
  | some i => min i d.lines
  | none => d.lines

/-- The status a descriptor starts with: 0, DESC_INVALID or ADDR_FAULT. -/
def hqCheck (s : State) (q : Nat) (b : List Nat) : Nat :=
  if !hqFieldsOk b then 1
  else if leAt b 0 1 ≠ 4 ∧ !hqRangeOk s (hqOwner s q) (leAt b 0 1) (leAt b 16 8) (leAt b 4 4 / 64) then 2 else 0

/-! ## Credits of H2S (R352) -/

/-- Replace a descriptor. -/
def putDesc (d : HqDesc) (s : State) : State :=
  s.modHq fun h => { h with descs := h.descs.map fun x => if x.id = d.id then d else x }

/-- Ask for credits for the next runs to a place in a scratchpad. -/
def hqAskAt (x : CoreId × Nat) : Nat → HqDesc → State → HqDesc × State
  | 0, d, s => (d, s)
  | n + 1, d, s =>
    if d.asked.length ≥ 4 ∨ d.reqd ≥ hqLimit d then (d, s)
    else
      let k := max 1 (min 1024 (min (poolCap s x.1 d.pool) (hqLimit d - d.reqd)))
      let slot := seSlot (shelfEnt s x.1 (((pooledAt s x.1 (x.2 + d.reqd)).map (·.1)).getD 0))
      let id := s.hq.seq
      let s := (s.modHq fun h => { h with seq := id + 1 }).send
        { kind := .creditReq, src := .hq, dst := .core x.1, seq := id, slot := slot, pool := d.pool, k := k }
      hqAskAt x n { d with asked := d.asked ++ [(k, id)], reqd := d.reqd + k } s

/-- Ask for credits for the next runs, at most 4 requests outstanding. -/
def hqAsk (n : Nat) (d : HqDesc) (s : State) : HqDesc × State := (spadPlace d.dev).elim (d, s) fun x => hqAskAt x n d s

/-- A line as it enters the device at an internal address (R353): its data, poisoned or not, and the status it gives. -/
def hqLine (d : HqDesc) (i : Nat) : DLine × Nat :=
  let l := (d.data[i]?).getD ⟨0, false, 0⟩
  if l.ep then (⟨l.data, true⟩, 4)
  else if d.flags.testBit 0 && !tagGood (saltAddr (d.dev + 64 * i)) ⟨l.data, l.tag⟩ then (⟨l.data, true⟩, 3)
  else (⟨l.data, false⟩, 0)

/-- Count a line that fails its supplied tag. -/
def hqTagFail (code : Nat) (s : State) : State := if code = 3 then bump Reg.HQ_TAG_FAIL s else s

/-- A descriptor after a line with a status. -/
def hqNote (code : Nat) (d : HqDesc) : HqDesc :=
  { d with status := if d.status = 0 then code else d.status, done := d.done + if code = 0 then 1 else 0 }

/-- Send line `i` of a descriptor to a place in a scratchpad. -/
def hqSendAt (stamp : Nat) (i : Nat) (a : HqDesc × State) (x : CoreId × Nat) : HqDesc × State :=
  let d := a.1
  let r := hqLine d i
  let e := (pooledAt a.2 x.1 (x.2 + i)).getD (0, 0)
  let slot := seSlot (shelfEnt a.2 x.1 e.1)
  let salt := saltTransit x.1.val e.1 e.2 slot a.2.coordX a.2.coordY
  (hqNote r.2 { d with sent := d.sent + 1 }, (hqTagFail r.2 a.2).send
    { kind := .write, src := .hq, dst := .core x.1, seq := d.id, slot := slot, shelf := e.1, idx := e.2, pool := d.pool,
      stamp := stamp, line := sealLine salt r.1 })

/-- Send line `i` of a descriptor under a grant. -/
def hqSendLine (stamp : Nat) (i : Nat) (a : HqDesc × State) : HqDesc × State :=
  (spadPlace a.1.dev).elim a (hqSendAt stamp i a)

/-- Put back a descriptor. -/
def hqPut (r : HqDesc × State) : State := putDesc r.1 r.2

/-- The lines of a granted run are sent. -/
def hqSendRun (m : Msg) (d : HqDesc) (s : State) : HqDesc × State :=
  (List.range m.k).foldl (fun a _ => hqSendLine m.stamp a.1.sent a) (d, s)

/-- A credit answer to a descriptor for a run of `k` lines: the run is sent; a refusal ends the descriptor with status 6; a
stale refusal is asked again. -/
def hqTaken (m : Msg) (k : Nat) (d : HqDesc) (s : State) : State :=
  if m.err ≠ 0 then putDesc { d with status := if d.status = 0 then 6 else d.status, fin := true, asked := [] } s
  else if m.k = 0 then hqPut (hqAsk 4 { d with reqd := d.reqd - k } s)
  else
    let a := hqSendRun m d s
    hqPut (hqAsk 4 a.1 a.2)

/-- A credit answer to a descriptor. -/
def hqAnswer (m : Msg) (d : HqDesc) (s : State) : State :=
  hqTaken m (((d.asked.find? fun x => x.2 == m.seq).map (·.1)).getD 0)
    { d with asked := d.asked.filter fun x => x.2 != m.seq } s

/-- The answer to a credit request of the engine. -/
def hqGrant (c : CoreId) (s : State) : State :=
  match s.receive .creditAns (.core c) .hq with
  | none => s
  | some (m, s) =>
    match s.hq.descs.find? fun d => d.asked.any fun x => x.2 == m.seq with
    | none => s
    | some d => hqAnswer m d s

/-- CREDIT_GRANT_RECEIVE: the answer of core `c`'s pools to one of its requesters. -/
def creditReceive (c : CoreId) (dst : Agent) (errs : List LineErr) (s : State) : State :=
  match dst with
  | .core t => takeCreditAns t (.core c) errs s
  | .dev x y u => takeCreditAns c (.dev x y u) errs s
  | .grid => rbCredit c s
  | .hq => hqGrant c s
  | _ => s

/-- CREDIT_GRANT_RECEIVE. -/
def execCreditGrantReceive (c : CoreId) (dst : Agent) (errs : List LineErr) (s : State) : Res := .next (creditReceive c dst errs s)

/-! ## Starting (R351, R352) -/

/-- May queue `q` start a descriptor: it has one, and its completion ring has a slot for the entry? -/
def hqCan (s : State) (q : Nat) : Bool :=
  let n := (hqMine s q).length
  hqOn s q && !hqError s q && s.pcie.linkUp && domRun s 43 && decide (n < 4) && decide (s.hq.descs.length < 32) &&
    s.reg (hqOff Reg.HQ_SQ_HEAD q) != s.reg (hqOff Reg.HQ_SQ_TAIL q) &&
    ((s.reg (hqOff Reg.HQ_CQ_TAIL q)).toNat + n) % hqSize s q != (s.reg (hqOff Reg.HQ_CQ_HEAD q)).toNat

/-- Does queue `r` come before queue `q`: a higher priority, or its turn in the round? -/
def hqBefore (s : State) (r q : Nat) : Bool :=
  let last := if hqPrio s q = 1 then s.hq.last1 else s.hq.last0
  decide (hqPrio s q < hqPrio s r) || (hqPrio s q == hqPrio s r && decide ((r + 63 - last) % 64 < (q + 63 - last) % 64))

/-- HQ_DESCRIPTOR_START: `b` is the descriptor fetched, `data` the lines and tags read from host memory, `bad` the line at
which a host read failed. A queue with descriptors in progress may be held by a barrier and does not keep others waiting. -/
def hqStart (q : Nat) (b : List Nat) (data : List HostLine) (bad : Option Nat) (s : State) : State :=
  let waits := (List.range 64).any fun r => r != q && hqCan s r && (hqMine s r).isEmpty && hqBefore s r q
  if !hqCan s q || waits || ((leAt b 1 1).testBit 3 && !(hqMine s q).isEmpty) then s
  else
    let idx := (s.reg (hqOff Reg.HQ_SQ_HEAD q)).toNat
    let code := hqCheck s q b
    let id := s.hq.seq
    let d := { hqParse id q idx b data bad with status := code, fin := code != 0 }
    let s := s.setReg (hqOff Reg.HQ_SQ_HEAD q) (BitVec.ofNat 64 ((idx + 1) % hqSize s q))
    let s := s.modHq fun h => { h with
      seq := id + 1, descs := h.descs ++ [d],
      last0 := if hqPrio s q = 1 then h.last0 else q, last1 := if hqPrio s q = 1 then q else h.last1 }
    if d.op = 3 ∧ code = 0 then
      let r := hqAsk 4 d s
      putDesc r.1 r.2
    else s

/-- HQ_DESCRIPTOR_START. -/
def execHqDescriptorStart (q : QueueId) (desc : List Nat) (data : List HostLine) (bad : Option Nat) (s : State) : Res :=
  .next (hqStart q.val desc data bad s)

/-! ## Completing (R351 to R353) -/

/-- The 32 bytes of a completion entry (Table 19.3). -/
def hqEntry (s : State) (d : HqDesc) (status done : Nat) : List Nat :=
  let ph := (sget d.q s.hq.phase).getD true
  bytesLE 8 d.cookie ++ bytesLE 4 done ++ [status, b2n ph] ++ bytesLE 2 ((d.idx + 1) % max 1 (hqSize s d.q)) ++
    bytesLE 6 s.time.sec ++ bytesLE 4 s.time.ns ++ bytesLE 2 d.q ++ [0, 0, 0, 0]

/-- Is there room for an entry that can be written now? -/
def hqRoom (s : State) (q : Nat) : Bool :=
  s.pcie.linkUp && s.reg (hqOff Reg.HQ_CQ_TAIL q) != s.reg (hqOff Reg.HQ_CQ_HEAD q)

/-- A descriptor ends: its entry is written, counted, and signalled when it asks for it. -/
def hqFinish (d : HqDesc) (status done : Nat) (s : State) : State :=
  let t := (s.reg (hqOff Reg.HQ_CQ_TAIL d.q)).toNat
  let s := s.emit (.hostWrite ((s.reg (hqOff Reg.HQ_CQ_BASE d.q)).toNat + 32 * t) (hqEntry s d status done))
  let n := (t + 1) % max 1 (hqSize s d.q)
  let ph := (sget d.q s.hq.phase).getD true
  let s := s.setReg (hqOff Reg.HQ_CQ_TAIL d.q) (BitVec.ofNat 64 n)
  let s := s.modHq fun h => { h with
    descs := h.descs.filter fun x => x.id != d.id, phase := if n = 0 then sput d.q (!ph) h.phase else h.phase }
  let s := bump Reg.HQ_DESC_CNT s
  if d.flags.testBit 2 then raise (evHqCq d.q) s else s

/-- H2D: every line that the host reads gave is stored. -/
def hqH2d (d : HqDesc) (s : State) : HqDesc × State :=
  (List.range (hqLimit d)).foldl (fun a i =>
    let r := hqLine d i
    (hqNote r.2 a.1, memPut (d.dev + 64 * i) r.1 (hqTagFail r.2 a.2))) (d, s)

/-- One line of a device range, checked at exit. -/
def hqRead (a : Nat) (s : State) : DLine × State :=
  match regionOf s a with
  | .lpddr => memRead a s
  | .grid => gridReadLine (a - 0x1100000000) s
  | _ =>
    match spadPlace a with
    | some (c, p) =>
      let r := windowRead c p 9 s
      (r.1, r.2.2)
    | none => (⟨0, true⟩, s)

/-- D2H: lines, then the tag list with tag_out. -/
def hqD2h (d : HqDesc) (s : State) : HqDesc × State :=
  let r := (List.range d.lines).foldl (fun (a : HqDesc × List Nat × State) i =>
    let x := hqRead (d.dev + 64 * i) a.2.2
    let s := x.2.emit (.hostLine (d.host + 64 * i) x.1.data x.1.poison)
    let s := if x.1.poison then bump Reg.E2E_EXIT_FAIL s else s
    (hqNote (if x.1.poison then 4 else 0) a.1, a.2.1 ++ bytesLE 2 (sealLine (saltAddr (d.dev + 64 * i)) x.1).tag.toNat, s))
    (d, [], s)
  (r.1, if d.flags.testBit 1 then r.2.2.emit (.hostWrite d.tagList r.2.1) else r.2.2)

/-- Acknowledgements that have returned to a descriptor. -/
def hqAcks (s : State) (d : HqDesc) : List Msg := s.net.filter fun m => m.kind == .writeAck && m.dst == Agent.hq && m.seq == d.id

/-- H2S ends: every line sent is acknowledged, and none is left to send. -/
def hqH2s (d : HqDesc) (s : State) : Option (HqDesc × State) :=
  let acks := hqAcks s d
  let bad := (acks.filter fun m => m.err != 0).length
  if (!d.fin && decide (d.sent < hqLimit d)) || decide (acks.length < d.sent) then none
  else
    let s := { s with net := s.net.filter fun m => !(m.kind == .writeAck && m.dst == Agent.hq && m.seq == d.id) }
    some ({ d with done := d.done - bad, status := if d.status = 0 ∧ bad ≠ 0 then 2 else d.status }, s)

/-- Does a device range wait: its memory is held, or the grid store's handover is pending or its domain down (R39, R333)? -/
def hqHeld (s : State) (d : HqDesc) : Bool :=
  match regionOf s d.dev with
  | .lpddr => memHeld s d.dev d.lines
  | .grid => handoverPending s || !domRun s 37
  | _ => false

/-- The transfer of a descriptor, when it can end now. -/
def hqTransfer (d : HqDesc) (es : List MemErr) (errs : List LineErr) (s : State) : Option (HqDesc × State) :=
  if d.status = 1 ∨ d.status = 2 then some (d, s)
  else match d.op with
    | 1 => if hqHeld s d then none else some (hqH2d d (memStrike es s))
    | 2 => if hqHeld s d then none else some (hqD2h d (strike errs (memStrike es s)))
    | 3 => hqH2s d (strike errs s)
    | _ => some (d, s)

/-- HQ_DESCRIPTOR_COMPLETE: the oldest descriptor of a queue ends. -/
def hqComplete (q : Nat) (es : List MemErr) (errs : List LineErr) (s : State) : State :=
  match hqMine s q with
  | [] => s
  | d :: _ =>
    if !hqRoom s q then s
    else match hqTransfer d es errs s with
      | none => s
      | some (d, s) =>
        let host := d.hostErr.isSome && (d.op == 1 || d.op == 3) && d.status != 1 && d.status != 2 && d.status != 6
        hqFinish d (if host then 5 else d.status) (64 * d.done) s

/-- HQ_DESCRIPTOR_COMPLETE. -/
def execHqDescriptorComplete (q : QueueId) (es : List MemErr) (errs : List LineErr) (s : State) : Res :=
  .next (hqComplete q.val es errs s)

/-! ## Ending (R355) -/

/-- Descriptors in progress end with status 7; those not started are discarded. -/
def hqStop (q : Nat) (s : State) : State :=
  let s := (hqMine s q).foldl (fun s d =>
    if hqRoom s q then hqFinish d 7 (64 * d.done) s
    else s.modHq fun h => { h with descs := h.descs.filter fun x => x.id != d.id }) s
  s.setReg (hqOff Reg.HQ_SQ_HEAD q) (s.reg (hqOff Reg.HQ_SQ_TAIL q))

/-- HQ_DISABLE: HQ_CFG.enable is cleared. -/
def hqDisable (q : Nat) (s : State) : State :=
  (hqStop q (s.setF (hqOff Reg.HQ_CFG q) 31 31 0)).setF (hqOff Reg.HQ_STAT q) 1 1 0

/-- HQ_DISABLE. -/
def execHqDisable (q : QueueId) (s : State) : Res := .next (hqDisable q.val s)

/-- A function's mailbox and MSI-X state are cleared. -/
def flrClear (f : Nat) (s : State) : State :=
  let s := (mboxPut f (List.replicate 64 0) s).setReg (Reg.MBOX_STAT + 0x100 * f) 0
  { s with mbox := s.mbox.filter (· != f),
           pcie := { s.pcie with masked := s.pcie.masked.filter fun e => e.1 != f,
                                 msixPend := s.pcie.msixPend.filter fun e => e.1 != f } }

/-- The running trunks of a virtual function are stopped. -/
def flrTrunks (f : Nat) (s : State) : State :=
  if f = 0 then s
  else allSlots.foldl (fun s k =>
    if slotOwner s k.val = f ∧ trunkState s k.val = 4 then s.setF (Reg.TRUNK_STAT + 0x20 * k.val) 2 0 5 else s) s

/-- FUNCTION_LEVEL_RESET. -/
def flr (f : Nat) (s : State) : State :=
  flrTrunks f (flrClear f ((List.range 64).foldl (fun s q => if hqOwner s q = f then hqStop q s else s) s))

/-- FUNCTION_LEVEL_RESET. -/
def execFunctionLevelReset (f : Fin 9) (s : State) : Res := .next (flr f.val s)

/-- PCIE_LINK_DOWN. -/
def execPcieLinkDown (s : State) : Res := .next { s with pcie := { s.pcie with linkUp := false } }

/-- PCIE_LINK_UP: out of reset, powered, with its PLL locked. -/
def execPcieLinkUp (s : State) : Res :=
  .next (if s.pcie.inReset || !domRun s 43 || !bitOf (s.reg Reg.CLK_STAT) 12 then s
    else { s with pcie := { s.pcie with linkUp := true } })

/-- PCIE_PERST: low holds the interface in reset with its link down. -/
def execPciePerst (low : Bool) (s : State) : Res :=
  .next { s with pcie := { s.pcie with inReset := low, linkUp := s.pcie.linkUp && !low } }

/-! ## BAR2 (R26, R350) -/

/-- The internal address of a BAR2 offset. -/
def bar2Addr (s : State) (off : Nat) : Nat :=
  let b := if s.pcie.bar2Log2 ≥ 36 then 0 else s.regF Reg.HQ_BAR2_WIN 5 0
  (b * 2 ^ s.pcie.bar2Log2 + off) % 2 ^ 36

/-- The lines of a range. -/
def linesOf (a n : Nat) : List Nat := (List.range (cdiv (a % 64 + n) 64)).map fun i => a / 64 * 64 + 64 * i

/-- A BAR2 write: whole lines are sealed, parts merged; with EP set every line it touches is stored poisoned. -/
def bar2Write (a : Nat) (bs : List Nat) (ep : Bool) (s : State) : State :=
  let s := memSet a bs s
  if ep then (linesOf a bs.length).foldl (fun s x =>
    let r := memRead x s
    memPut x ⟨r.1.data, true⟩ r.2) s
  else s

/-- A BAR2 read: the bytes, with the EP bit when a line is poisoned or fails; such lines are counted. -/
def bar2Read (a n : Nat) (s : State) : State :=
  let r := memExit a n s
  r.2.2.emit (.bar2Rsp r.1 (r.2.1 != 0) false)

/-- Does a BAR2 offset reach the boot staging SRAM (R408)? -/
def bar2Staged (s : State) (off : Nat) : Bool := s.regF Reg.SEC_BOOT_STAT 2 0 == 2 && decide (off < 0x200000)

/-- An access of the staging SRAM: bytes not written since reset read zero. -/
def stageAccess (off n : Nat) (wr : Bool) (data : List Nat) (s : State) : State :=
  let b := s.sec.staging
  if wr then
    { s with sec := { s.sec with staging := (setBytes (b ++ List.replicate (off - b.length) 0) off data).take 0x200000 } }
  else s.emit (.bar2Rsp ((b.drop off).take n ++ List.replicate (min n (off + n - b.length)) 0) false false)

/-- BAR2_ACCESS: `n` bytes read, or `data` written. Beyond the installed capacity a read completes with Unsupported Request,
a write is discarded, and both raise the register-access error event. -/
def bar2Access (off n : Nat) (wr : Bool) (data : List Nat) (ep : Bool) (es : List MemErr) (s : State) : State :=
  let a := bar2Addr s off
  let len := if wr then data.length else n
  if !s.pcie.linkUp then s
  else if bar2Staged s off then stageAccess off n wr data s
  else if a + len > memBytes s then
    let s := accessError s
    if wr then s else s.emit (.bar2Rsp [] false true)
  else if memHeld s (a / 64 * 64) (cdiv (a % 64 + len) 64) then s
  else
    let s := memStrike es s
    if wr then bar2Write a data ep s else bar2Read a n s

/-- BAR2_ACCESS. -/
def execBar2Access (off : Nat) (n : Nat) (wr : Bool) (data : List Nat) (ep : Bool) (es : List MemErr) (s : State) : Res :=
  .next (bar2Access off n wr data ep es s)

/-! ## Shelves and raw windows (R155 to R157) -/

/-- Is a core's aperture reached: its domain in RUN or SLEEP (R24)? -/
def apertureOn (s : State) (c : CoreId) : Bool := decide (domState s c.val < 2)

/-- SHELF_WRITE by the host or the firmware; by a core it traps, by a virtual function it reaches nothing. -/
def shelfPend (req : Requester) (c : CoreId) (sh : Nat) (v : Word) (s : State) : State :=
  match req with
  | .core t => seqTrap t trapDenied (s.core t).pc 0 s
  | .vf _ => accessError s
  | _ =>
    if !apertureOn s c then accessError s
    else
      let v := v &&& 0x1FFFFFFFFFFFFF
      let o := coreOff (Reg.SHELF + 8 * sh) c
      if shelfLayoutOk v then fbPut o v s else accessError (fbPut o (setFld v 0 0 0) s)

/-- SHELF_WRITE. -/
def execShelfWrite (req : Requester) (c : CoreId) (sh : Fin 64) (v : Word) (s : State) : Res := .next (shelfPend req c sh.val v s)

/-- RAW_WINDOW_WRITE: into a valid pooled shelf, with a credit of its pool held; else denied, and a core traps. -/
def rawWrite (src : Agent) (c : CoreId) (line : Nat) (d : BitVec 512) (s : State) : State :=
  let deny (s : State) : State := match src with
    | .core t => seqTrap t trapDenied (s.core t).pc 0 s
    | _ => s
  if !reachable s c || decide (131072 ≤ line) then deny s
  else match pooledAt s c line with
    | none => deny s
    | some (i, j) =>
      let p := sePool (shelfEnt s c i)
      match spendGrant (poolOf (s.core c) p) src (frameStamp s) with
      | none => deny s
      | some q => shelfWrite c i j ⟨d, false⟩ (s.modCore c fun k => setPool k p q)

/-- RAW_WINDOW_WRITE. -/
def execRawWindowWrite (src : Agent) (c : CoreId) (line : Nat) (d : BitVec 512) (s : State) : Res := .next (rawWrite src c line d s)

end Sys2Proof.Machine
end

