-- ==== Sys2Proof/Machine/Publish.lean ====
section
/-! DEFINITION. What a port sends: its rings, the publisher, PTP; and the PTP servo (R59, R79 to R81, R88, R89). -/

namespace Sys2Proof.Machine

/-! ## The publisher (R79 to R81) -/

/-- The two words of PUB_DEST[d]. -/
def pubLo (s : State) (d : Nat) : Word := s.reg (Reg.PUB_DEST_LO + 0x20 * d)
/-- The high word. -/
def pubHi (s : State) (d : Nat) : Word := s.reg (Reg.PUB_DEST_HI + 0x20 * d)
/-- lines_max: 0 acts as 1, a value above 142 as 142. -/
def pubMax (s : State) (d : Nat) : Nat := min 142 (max 1 (fld (pubHi s d) 55 48))
/-- The port of a destination. -/
def pubPort (s : State) (d : Nat) : Nat := fld (pubLo s d) 50 48

/-- The 32 bytes of the header of Table 3.9. -/
def pubHeader (f : PubFrame) (frag n : Nat) (last : Bool) : List Nat :=
  [0x5E, 0xA9, 0x01, 0x0A, f.slot, b2n last + 2 * b2n f.trunc] ++ bytesLE 2 frag ++ bytesLE 4 f.frame.toNat ++
    bytesLE 6 f.sec ++ bytesLE 4 f.ns ++ bytesLE 2 n ++ bytesLE 8 f.flags.toNat

/-- The payload lines of a datagram: bytes, whether any is poisoned or fails, the state after. -/
def pubLines (first : Nat) : Nat → State → List Nat × Nat × State
  | 0, s => ([], 0, s)
  | n + 1, s =>
    let q := pubQueue s
    let r := memGet (q.1 + 64 * (first % q.2)) 64 s
    let t := pubLines ((first + 1) % 2 ^ 32) n r.2.2
    (r.1 ++ t.1, b2n r.2.1 + t.2.1, t.2.2)

/-- The destination's datagram has been sent or discarded. -/
def pubAdvance (d frag line : Nat) (last : Bool) (s : State) : State :=
  match s.pub.frames with
  | [] => s
  | f :: r =>
    let todo := if last then f.todo.filter (fun e => e.1 != d)
      else f.todo.map fun e => if e.1 = d then (d, frag, line) else e
    pubFree { s with pub := { s.pub with frames := { f with todo := todo } :: r } }

/-- The next datagram of the frame at the head of the publisher for destination `d`. Nothing is published while no slot owns
the queue, nor in the safe state. -/
def pubSend (d : Nat) (s : State) : Option State :=
  match s.pub.frames with
  | [] => none
  | f :: _ =>
    match f.todo.find? fun e => e.1 == d with
    | none => none
    | some (_, frag, line) =>
      if (pubOwner s).isNone || isSafe s then none
      else
        let n := min (pubMax s d) (f.lines - line)
        let last := decide (f.lines ≤ line + n)
        let p := pubPort s d
        let next (s : State) : State := pubAdvance d (frag + 1) (line + n) last s
        if !ethUp s p then some (next (bump Reg.PUB_LINK_DROP s))
        else
          let r := pubLines ((f.first + line) % 2 ^ 32) n s
          let s := bumpN Reg.E2E_EXIT_FAIL r.2.1 r.2.2
          if r.2.1 ≠ 0 then some (next (raise evPubPoison (bump Reg.PUB_POISON_DROP s)))
          else
            let m := pubHeader f frag n last ++ r.1
            let vid := fld (pubLo s d) 63 52
            let b := datagram s p (fld (pubLo s d) 47 0) (fld (pubHi s d) 31 0) (fld (pubHi s d) 47 32)
              (if vid = 0 then none else some vid) (m ++ bytesLE 4 (crc32c m))
            some (next (ethSend p b false s))

/-- Does the firmware's transmit ring of a port hold a descriptor? -/
def txWaits (s : State) (p : Idx8) (i : Nat) : Bool :=
  match ethRing s p i with
  | some (_, _, head, tail) => head != tail
  | none => false

/-- PUBLISH: the next datagram for a destination, once firmware ring 0 of its port is empty. -/
def publish (d : Nat) (s : State) : State :=
  match (List.finRange 8).find? fun p => p.val == pubPort s d with
  | none => s
  | some p => if !macLive s p || txWaits s p 2 then s else (pubSend d s).getD s

/-- PUBLISH. -/
def execPublish (d : Nat) (s : State) : Res := .next (publish d s)

/-- ETH_TRANSMIT: firmware ring 0, then the publisher, then host ring 1 (R59). -/
def ethTransmit (p : Idx8) (s : State) : State :=
  if !macLive s p then s
  else match txRing p 2 s with
  | some s' => s'
  | none =>
    match (List.range 4).findSome? fun d => if pubPort s d = p.val then pubSend d s else none with
    | some s' => s'
    | none => (txRing p 3 s).getD s

/-- ETH_TRANSMIT. -/
def execEthTransmit (p : Idx8) (s : State) : Res := .next (ethTransmit p s)

/-! ## PTP (R88, R89) -/

/-- Change the servo. -/
def modServo (f : ServoSt → ServoSt) (s : State) : State := s.modTime fun t => { t with servo := f t.servo }

/-- The PTP message of a frame. -/
def ptpBytes (b : List Nat) : List Nat := if innerType b = 0x88F7 then b.drop (l3Off b) else udpData b

/-- TIME_SERVO_STAT.state. -/
def servoState (s : State) : Nat := s.regF Reg.TIME_SERVO_STAT 1 0

/-- Enter a state of the servo; a change raises TIME_SERVO. -/
def servoEnter (st : Nat) (s : State) : State :=
  if servoState s = st then s else raise evTimeServo (s.setF Reg.TIME_SERVO_STAT 1 0 st)

/-- A quotient rounded away from zero. -/
def divAway (a : Int) (b : Nat) : Int := if a ≥ 0 then (cdiv a.natAbs b : Int) else -(cdiv a.natAbs b : Int)

/-- The frequency term from device time and master time elapsed, in units of TIME_RATE. -/
def freqTerm (dt dm : Int) : Int := -(divAway ((dt - dm) * 2 ^ 33) dm.natAbs)

/-- The phase term that removes an offset over 8 intervals of `dm` ns. -/
def phaseTerm (off dm : Int) : Int := -(divAway (off * 2 ^ 32) (4 * dm.natAbs))

/-- TIME_SERVO_STAT's port and offset, saturated. -/
def servoShow (p : Nat) (off : Int) (s : State) : State :=
  let o := max (-(2 ^ 31)) (min (2 ^ 31 - 1) off)
  (s.setF Reg.TIME_SERVO_STAT 5 2 p).setF Reg.TIME_SERVO_STAT 63 32 (wrapInt 32 o)

/-- A first offset: ACQUIRE; an offset beyond 1 ms is stepped once in mode 1, by the step command (R85). -/
def servoFirst (off : Int) (stamp master : Nat) (s : State) : State :=
  let s := servoEnter 1 s
  if !bitOf (s.reg Reg.TIME_STAT) 0 && decide (off.natAbs > 1000000) then
    let s := s.setReg Reg.TIME_STEP_SEC (BitVec.ofNat 64 (wrapInt 48 ((-off) / 1000000000)))
    let s := stepOffset (s.setReg Reg.TIME_STEP_NS (BitVec.ofNat 64 ((-off) % 1000000000).toNat))
    let moved := bitOf (s.reg Reg.TIME_STAT) 0
    modServo (fun v => { v with
      prev := some (if moved then ((stamp : Int) - off).toNat else stamp, master), last := none, reqs := [], peers := [] }) s
  else modServo (fun v => { v with prev := some (stamp, master) }) s

/-- The rate after another offset: first the frequency measured since the previous one, added to the rate that held between
them, with a phase term over 8 intervals; then a further phase term once that has run (log entry 148). -/
def servoRate (off : Int) (stamp master : Nat) (s : State) : State :=
  match s.time.servo.prev with
  | none => s
  | some (ps, pm) =>
    let dm : Int := (master : Int) - pm
    if dm ≤ 0 then s
    else match s.time.servo.freq with
      | none =>
        let f := (sfld (s.reg Reg.TIME_RATE) 31 0) + freqTerm ((stamp : Int) - ps) dm
        rateWrite (f + phaseTerm off dm) (modServo (fun v => { v with freq := some f, phase := 8 }) s)
      | some f =>
        if s.time.servo.phase > 1 then modServo (fun v => { v with phase := v.phase - 1 }) s
        else if s.time.servo.phase = 1 then rateWrite f (modServo (fun v => { v with phase := 0 }) s)
        else if off = 0 then s
        else rateWrite (f + phaseTerm off dm) (modServo (fun v => { v with phase := 8 }) s)

/-- An offset measured on a slave port. -/
def servoOffset (p : Nat) (stamp master : Nat) (s : State) : State :=
  let off : Int := (stamp : Int) - master
  let s := servoShow p off s
  if servoState s = 0 ∨ s.time.servo.prev.isNone then servoFirst off stamp master s
  else
    let s := modServo (fun v => { v with prev := some (stamp, master) }) (servoRate off stamp master s)
    let k := if off.natAbs < 100 then s.time.servo.streak + 1 else 0
    let s := modServo (fun v => { v with streak := k }) s
    if k ≥ 8 then servoEnter 2 s
    else if servoState s = 3 ∨ k = 0 then servoEnter 1 s
    else s

/-- The time an origin field names, in ns. -/
def ptpStamp (m : List Nat) : Nat := beAt m 34 6 * 1000000000 + beAt m 40 4
/-- The correction field, in ns. -/
def ptpCorr (m : List Nat) : Int := asInt 64 (beAt m 8 8) / 65536
/-- The time an origin field names, in ns, with the correction field added. -/
def ptpTime (m : List Nat) : Nat := ((ptpStamp m : Int) + ptpCorr m).toNat

/-- The corrected transmit stamp of a frame that starts now (R87). -/
def txStamp (s : State) (p : Idx8) : Nat × Nat := stampAt s.nowNs (-(sfld (s.reg (ethOff Reg.ETH_TS_LAT p)) 31 16))

/-- The path delay of a port, in ns; 0 before one has been measured. -/
def pathDelay (s : State) (p : Idx8) : Int := (sget p.val s.time.servo.delays).getD 0

/-- Send a PTP message: type, sequence number, the time it carries. -/
def ptpSend (p : Idx8) (type seq sec ns : Nat) (s : State) : State :=
  if !ethUp s p.val then bump (ethOff Reg.TX_LINK_DROP p) s
  else bump (ethOff Reg.TX_FRAMES_CNT p) (s.emit (.ptp p.val type seq sec ns))

/-- The slave asks for the path delay (R88): Delay_Req, or Pdelay_Req under the peer-delay mechanism; its transmit stamp is
kept. -/
def delayAsk (p : Idx8) (peer : Bool) (s : State) : State :=
  let q := (sget p.val s.time.servo.reqSeq).getD 0
  let st := txStamp s p
  let s := modServo (fun v => { v with
    reqSeq := sput p.val ((q + 1) % 65536) v.reqSeq, reqs := sput p.val (q, st.1 * 1000000000 + st.2) v.reqs }) s
  ptpSend p (if peer then 2 else 1) q 0 0 s

/-- A path delay measured: half of the round trip less the other side's hold. -/
def delaySet (p : Idx8) (x : Int) (s : State) : State :=
  modServo (fun v => { v with delays := sput p.val (x / 2) v.delays, reqs := sdel p.val v.reqs, peers := sdel p.val v.peers }) s

/-- The slave half: Sync and Follow_Up drive the servo, and each is followed by a delay request; the answers give the path
delay. -/
def ptpSlave (p : Idx8) (peer : Bool) (type sq st : Nat) (m : List Nat) (s : State) : State :=
  let v := s.time.servo
  match type with
  | 0 => modServo (fun v => { v with sync := some (p.val, sq, st) }) s
  | 8 =>
    match v.sync with
    | some (q, n, t) =>
      if q == p.val && n == sq then
        let s := modServo (fun v => { v with sync := none, last := some (p.val, t, ptpTime m) }) s
        delayAsk p peer (servoOffset p.val t ((ptpTime m : Int) + pathDelay s p).toNat s)
      else s
    | none => s
  | 9 =>
    match v.last, sget p.val v.reqs with
    | some (q, t2, t1), some (n, t3) =>
      if !peer && q == p.val && n == sq then
        delaySet p (((t2 : Int) - t1) + (((ptpStamp m : Int) - ptpCorr m) - t3)) s
      else s
    | _, _ => s
  | _ => s

/-- The peer-delay mechanism: a request is answered with its receive stamp and the stamp of the answer; an answer and its
Follow_Up give the delay of the link. -/
def ptpPeer (p : Idx8) (type sq : Nat) (f : RxFrame) (m : List Nat) (s : State) : State :=
  let v := s.time.servo
  match type with
  | 2 => let now := txStamp s p; ptpSend p 10 sq now.1 now.2 (ptpSend p 3 sq f.sec f.ns s)
  | 3 =>
    match sget p.val v.reqs with
    | some (n, _) =>
      if n == sq then modServo (fun v => { v with peers := sput p.val (sq, ptpTime m, f.sec * 1000000000 + f.ns) v.peers }) s
      else s
    | none => s
  | 10 =>
    match sget p.val v.reqs, sget p.val v.peers with
    | some (n, t1), some (q, t2, t4) =>
      if n == sq && q == sq then delaySet p (((t4 : Int) - t1) - ((ptpTime m : Int) - t2)) s else s
    | _, _ => s
  | _ => s

/-- The servo's port is no slave any more: no master is selected, the state is FREE and the rate holds (R89). -/
def servoFree (p : Idx8) (s : State) : State :=
  if servoState s ≠ 0 ∧ s.regF Reg.TIME_SERVO_STAT 5 2 = p.val then
    servoEnter 0 (modServo (fun v => { v with sync := none, last := none, prev := none, freq := none, phase := 0, streak := 0 }) s)
  else s

/-- A PTP message on a port: `slave` says that the firmware has selected the port's master, so that the port is in slave state,
and `peer` that the port uses the peer-delay mechanism. A master answers delay requests. -/
def ptpHandle (p : Idx8) (slave peer : Bool) (f : RxFrame) (s : State) : State :=
  let m := ptpBytes f.bytes
  let sq := beAt m 30 2
  let type := leAt m 0 1 % 16
  let s := if slave then s else servoFree p s
  let s := if slave then ptpSlave p peer type sq (f.sec * 1000000000 + f.ns) m s
    else if type = 1 ∧ !peer then ptpSend p 9 sq f.sec f.ns s else s
  if peer then ptpPeer p type sq f m s else s

/-- PTP_MESSAGE: the firmware takes the oldest PTP frame of a port; an IPv4 frame that fails the checks of R56 is discarded. -/
def ptpMessage (p : Idx8) (slave peer : Bool) (s : State) : State :=
  match takeFirst (fun f : RxFrame => f.cls == 1 && f.port == p.val) s.ingest.fwq with
  | none => s
  | some (f, rest) =>
    let s := s.modIngest fun g => { g with fwq := rest }
    if isIp f.bytes && !ipOk f.bytes then s else ptpHandle p slave peer f s

/-- PTP_MESSAGE. -/
def execPtpMessage (p : Idx8) (slave peer : Bool) (s : State) : Res := .next (ptpMessage p slave peer s)

/-- PTP_SYNC_TRANSMIT: Sync, then its Follow_Up with the Sync's transmit stamp. -/
def ptpSync (p : Idx8) (s : State) : State :=
  if !macLive s p then s
  else if !ethUp s p.val then bumpN (ethOff Reg.TX_LINK_DROP p) 2 s
  else
    let q := (sget p.val s.time.servo.txSeq).getD 0
    let now := txStamp s p
    let s := modServo (fun v => { v with txSeq := sput p.val ((q + 1) % 65536) v.txSeq }) s
    bumpN (ethOff Reg.TX_FRAMES_CNT p) 2 ((s.emit (.ptp p.val 0 q 0 0)).emit (.ptp p.val 8 q now.1 now.2))

/-- PTP_SYNC_TRANSMIT. -/
def execPtpSyncTransmit (p : Idx8) (s : State) : Res := .next (ptpSync p s)

/-- Four intervals without a Sync while LOCKED: the rate holds, and the next offset starts a new measurement. -/
def servoHoldover (s : State) : State :=
  if servoState s = 2 then
    modServo (fun v => { v with streak := 0, prev := none, freq := none, phase := 0 }) (servoEnter 3 s)
  else s

/-- SERVO_HOLDOVER. -/
def execServoHoldover (s : State) : Res := .next (servoHoldover s)

end Sys2Proof.Machine
end

