-- ==== Sys2Proof/Machine/Bus.lean ====
section
/-! DEFINITION. Register space: what an access reaches, what a read returns and what a write does (R4 to R11, R22 to R24,
R37, R349, R439). Every register with an effect of its own on a write routes to the operation its row names. -/

namespace Sys2Proof.Machine

/-! ## What an access reaches -/

/-- One register reached by an access: its description, the offset of its element, and the bits covered. -/
structure Piece where
  r : RegSpec
  o : Nat
  m : Word
  /-- The access reaches the _ACT mirror, not the register. -/
  mirror : Bool
deriving DecidableEq, Repr

/-- The bits [31:0] of a register. -/
def lowMask : Word := 0xFFFFFFFF
/-- The bits [63:32] of a register. -/
def highMask : Word := 0xFFFFFFFF00000000

/-- The register or mirror at an offset, with the offset of the pending element and of what was found. -/
def occupant (o : Nat) : Option (RegSpec × Nat × Nat × Bool) :=
  match regAt o with
  | some (r, e) => some (r, e, e, false)
  | none =>
    match actAt o with
    | some (r, e) => some (r, e, e + (r.act.getD 0) - r.base, true)
    | none => none

/-- The 32-bit half at an offset. -/
def pieceHalf (o : Nat) : Option Piece :=
  (occupant o).map fun (r, e, f, act) => ⟨r, e, if o = f then lowMask else highMask, act⟩

/-- The whole 64-bit register that starts at an offset. -/
def pieceWhole (o : Nat) : Option Piece :=
  match occupant o with
  | some (r, e, f, act) => if o = f ∧ r.width = 64 then some ⟨r, e, lowMask ||| highMask, act⟩ else none
  | none => none

/-- The accesses that an access comes to (R439): each with what it reaches and the position of its data in the access; none is
an unoccupied offset. -/
def pieces (o : Nat) (w : Width) : List (Option Piece × Nat) :=
  match w with
  | .w32 => if o % 4 = 0 then [(pieceHalf o, 0)] else [(none, 0)]
  | .w64 =>
    if o % 8 ≠ 0 then [(none, 0)]
    else match pieceWhole o with
      | some p => [(some p, 0)]
      | none => [(pieceHalf o, 0), (pieceHalf (o + 4), 32)]
  | _ => [(none, 0)]

/-- The core whose aperture an offset lies in. -/
def apertureCore (o : Nat) : Option CoreId := if o < 0x1000000 then none else coreOf (o / 0x100000 - 16)

/-- Does VF `f` reach a register (R349): the queues it owns, its mailbox, HQ_TRUNK_ABORT, the rings of the slots it owns? -/
def vfReaches (s : State) (f : Nat) (p : Piece) : Bool :=
  let b := p.r.base
  if Reg.HQ_CFG ≤ b ∧ b ≤ Reg.HQ_STAT then hqOwner s ((p.o - Reg.HQ_CFG) / 0x40) == f
  else if b = Reg.MBOX ∨ b = Reg.MBOX_CTRL ∨ b = Reg.MBOX_STAT then (p.o - Reg.MBOX) / 0x100 == f
  else if b = Reg.HQ_TRUNK_ABORT then true
  else if Reg.HRING ≤ b ∧ b ≤ Reg.HRING_HDR_CONS then slotOwner s ((p.o - Reg.HRING) / 0x400) == f
  else false

/-- Does a requester's access reach a register? Of a core aperture in DEEP or DEEP_RET a read of CORE_INFO alone does (R24). -/
def reaches (s : State) (req : Requester) (wr : Bool) (p : Piece) : Bool :=
  (match apertureCore p.o with
   | some c => apertureOn s c || (!wr && p.r.base == Reg.CORE_INFO)
   | none => true) &&
  match req with
  | .vf f => vfReaches s (f.val + 1) p
  | _ => true

/-- Is a core's access denied (R22, R156): outside its own aperture, or a write of its shelves, peers and pools? -/
def coreDenied (req : Requester) (o : Nat) (wr : Bool) : Option CoreId :=
  match req with
  | .core c =>
    let b := (regAt o).map fun r => r.1.base
    if apertureCore o != some c then some c
    else if wr && (b == some Reg.SHELF || b == some Reg.PEER_MAP || b == some Reg.CREDIT_POOL) then some c
    else none
  | _ => none

/-! ## Reads -/

/-- Position of an element in an array. -/
def elemIdx (p : Piece) (base stride : Nat) : Nat := (p.o - base) / stride

/-- The values of the SYS and PWR registers that show other state. -/
def showSys (s : State) (p : Piece) : Option Word :=
  let b := p.r.base
  if b = Reg.TRUNK_STAT then some (trunkStatVal s (elemIdx p b 0x20))
  else if b = Reg.QUOTA_USE then some (quotaUseVal s (elemIdx p b 8))
  else if b = Reg.PLACE_STAT then some (placeStatVal s)
  else if b = Reg.GATE_STAT then some (gateStatVal s ((p.o - b) / 0x200) ((p.o - b) % 0x200 / 8))
  else if (b = Reg.CLK_GATE_RUN ∨ b = Reg.CLK_GATE_SLEEP) ∧ 37 ≤ elemIdx p b 0x10 then some (s.reg p.o &&& 1)
  else if b = Reg.TIN_STAT then some (BitVec.ofNat 64 (s.caps (Fin.ofNat 2 (elemIdx p b 0x40))).length)
  else if b = Reg.PWR_WAKE_STAT then some (wakeStatVal s (elemIdx p b 8))
  else if b = Reg.PWR_STATIC then some (BitVec.ofNat 64 (staticQa s (elemIdx p b 8)))
  else none

/-- The values of the agents' registers that show other state. -/
def showAgent (s : State) (p : Piece) : Option Word :=
  let b := p.r.base
  if b = Reg.GRID_STAT then some (gridStatVal s)
  else if b = Reg.RB_STAT then some (rbStatVal s)
  else if b = Reg.CAL_SLOT_STAT then some (calStatVal s (Fin.ofNat 16 (elemIdx p b 0x100)))
  else if b = Reg.CAL_STAT then some (calEngineStat s)
  else if b = Reg.MAP_STAT then some (mapStatVal s)
  else if b = Reg.MAP_PREV_BUSY then some (mapPrevVal s)
  else if b = Reg.SMU_STAT then some (smuStatVal s)
  else if b = Reg.MEM_STAT then some (memStatVal s)
  else if b = Reg.HQ_STAT then some (hqStatVal s (elemIdx p b 0x40))
  else if b = Reg.ROT_STAT then some (rotStatVal s)
  else if b = Reg.SEC_MEAS then
    some ((s.sec.meas[(Fin.ofNat 8 ((p.o - b) / 0x40)).val]).extractLsb' (64 * ((p.o - b) % 0x40 / 8)) 64)
  else none

/-- The values of a core's registers that show other state. -/
def showCore (s : State) (c : CoreId) (p : Piece) : Option Word :=
  let b := p.r.base
  let x := p.o - coreOff b c
  if b = Reg.CORE_STAT then some (coreStatVal s c)
  else if b = Reg.SEQ_STAT then some (seqStatVal s c)
  else if b = Reg.SEM_VAL then some (semVal (s.core c) (x / 4))
  else if b = Reg.CREDIT_POOL_STAT then some (poolStatVal (s.core c) (x / 0x10 + 1))
  else if b = Reg.ARRAY_STAT then some (arrayStatVal s c)
  else if b = Reg.SPARSE_STAT then some (sparseStatVal (s.core c))
  else if b = Reg.SCA_STAT then some (scaStatVal (s.core c))
  else if b = Reg.MOVE_STAT then some (moveStatVal (s.core c))
  else none

/-- What a register shows (R4, R6): WO reads zero, a mirror shows the active value. -/
def showReg (s : State) (p : Piece) : Word :=
  if p.mirror then s.actReg p.o
  else if p.r.acc = .wo then 0
  else
    let shown := match apertureCore p.o with
      | some c => showCore s c p
      | none => match showSys s p with
        | some v => some v
        | none => showAgent s p
    shown.getD (s.reg p.o)

/-- A 32-bit half of a value. -/
def halfOf (v m : Word) : Word := if m = highMask then v >>> 32 else v &&& m

/-- A latched value of R86, taken by the read. -/
def takeLatch (req : Requester) (l : List (Requester × Nat)) : Option Nat := (l.find? fun e => e.1 == req).map (·.2)

/-- A read of TIME_NOW_SEC (48 bits), TIME_NOW_NS or TIME_NOW_FRAC (R86): a latched half or register is spent by the read that
returns it, the live value stands where none is latched. -/
def readNow (req : Requester) (p : Piece) (s : State) : Word × State :=
  let t := s.time
  let mine (e : Requester × Nat) : Bool := e.1 != req
  if p.r.base = Reg.TIME_NOW_NS then (BitVec.ofNat 64 t.ns, nowRead req s)
  else if p.r.base = Reg.TIME_NOW_FRAC then
    (BitVec.ofNat 64 ((takeLatch req t.nowFrac).getD t.frac), s.modTime fun t => { t with nowFrac := t.nowFrac.filter mine })
  else if p.m = highMask then
    (BitVec.ofNat 64 ((takeLatch req t.nowHigh).getD t.sec % 2 ^ 48), s.modTime fun t => { t with nowHigh := t.nowHigh.filter mine })
  else if p.m = lowMask then
    (BitVec.ofNat 64 ((takeLatch req t.nowSec).getD t.sec % 2 ^ 48), s.modTime fun t => { t with nowSec := t.nowSec.filter mine })
  else
    (BitVec.ofNat 64 ((takeLatch req t.nowSec).getD t.sec % 2 ^ 48),
      s.modTime fun t => { t with nowSec := t.nowSec.filter mine, nowHigh := t.nowHigh.filter mine })

/-- The counters of clock cycles that the model leaves out: lost arbitrations, array bubbles, MMS line waits and fetch stalls (R152,
R175, R216, R247). -/
def timedCounters : List Nat :=
  [Reg.SPAD_CONFLICT_CNT, Reg.ARRAY_BUB_WEIGHT, Reg.ARRAY_BUB_INPUT, Reg.ARRAY_BUB_DRAIN, Reg.ARRAY_BUB_THROTTLE, Reg.MMS_LINE_WAIT,
   Reg.SEQ_STALL_FETCH]

/-- Before a read, such a counter has counted a number of cycles that nothing here fixes (log entry 147). -/
def timedCount (p : Piece) (s : State) : State :=
  if timedCounters.contains p.r.base then bumpN p.o (s.free 70 32).toNat s.drawn else s

/-- A read of a statistics counter (R10): the low half latches the high half for the requester; the high half returns and
spends the latched value. -/
def readCount (req : Requester) (p : Piece) (s : State) : Word × State :=
  let mine := s.latch.find? fun e => e.1 == req && e.2.1 == p.o
  let s := if p.m = highMask ∧ mine.isSome then s else timedCount p s
  let v := s.reg p.o
  let rest := s.latch.filter fun e => !(e.1 == req && e.2.1 == p.o)
  if p.m = lowMask then (v &&& lowMask, { s with latch := (req, p.o, (v >>> 32).truncate 32) :: rest })
  else if p.m = highMask then
    match mine with
    | some e => (e.2.2.zeroExtend 64, { s with latch := rest })
    | none => (v >>> 32, s)
  else (v, s)

/-- A read of one register or half: the value, aligned to bit 0, and the state after it. -/
def readPiece (req : Requester) (p : Piece) (s : State) : Word × State :=
  let b := p.r.base
  if b = Reg.TIME_NOW_SEC ∨ b = Reg.TIME_NOW_NS ∨ b = Reg.TIME_NOW_FRAC then
    let r := readNow req p s
    (halfOf r.1 p.m, r.2)
  else if b = Reg.TIN_CAP_NS then
    let s := tinCapRead (Fin.ofNat 2 (elemIdx p b 0x40)) s
    (s.lastRead, s)
  else if p.r.acc = .rc then
    let s := latMaxRead s
    (s.lastRead, s)
  else if p.r.acc = .cnt then readCount req p s
  else (halfOf (showReg s p) p.m, s)

/-- A read that a requester makes: what it returns, and the state after it. An unoccupied part reads zero and raises the
register-access error event (R8); a core denied traps (R22). -/
def busReadVal (req : Requester) (o : Nat) (w : Width) (s : State) : Word × State :=
  match coreDenied req o false with
  | some c => (0, seqTrap c trapDenied (s.core c).pc 0 s)
  | none =>
    (pieces o w).foldl (fun (a : Word × State) (e : Option Piece × Nat) =>
      match e.1.filter (reaches s req false) with
      | none => (a.1, accessError a.2)
      | some p =>
        let r := readPiece req p a.2
        (a.1 ||| (r.1 <<< e.2), r.2)) (0, s)

/-- A read, its value kept as the last one read. -/
def busRead (req : Requester) (o : Nat) (w : Width) (s : State) : State :=
  let r := busReadVal req o w s
  { r.2 with lastRead := r.1 }

/-! ## Writes -/

/-- The value that a write leaves in a register's writable bits. -/
def merged (p : Piece) (old v : Word) : Word :=
  let w := BitVec.ofNat 64 p.r.mask &&& p.m
  (old &&& ~~~w) ||| (v &&& w)

/-- A write with no effect but the register's own (R4): RW, FB and W1C bits. -/
def plainWrite (p : Piece) (v : Word) (s : State) : State :=
  let old := s.reg p.o
  match p.r.acc with
  | .fb => fbPut p.o (merged p old v) s
  | .rw | .ro => s.setReg p.o (merged p old v &&& ~~~(v &&& p.m &&& BitVec.ofNat 64 p.r.w1c))
  | _ => s

/-- The bits written as 1 that the access covers. -/
def ones (p : Piece) (v : Word) : Word := v &&& p.m

/-- FRAME_CTRL (R31 to R33): conditions are judged with enable as the write leaves it. -/
def frameCtrlWrite (v : Word) (s : State) : State :=
  let s := if bitOf v 0 then frameEnable s else frameDisable s
  let s := if bitOf v 1 then swFence s else s
  if bitOf v 2 then loadFb s else s

/-- GRID_VOXEL: edges outside 10 to 2,000 mm are clamped and raise. -/
def voxelWrite (v : Word) (s : State) : State :=
  let c (x : Nat) : Nat := max 10 (min 2000 x)
  let w : Word := BitVec.ofNat 64 (c (fld v 11 0) + c (fld v 23 12) * 2 ^ 12)
  let s := fbPut Reg.GRID_VOXEL w s
  if w = v then s else accessError s

/-- HEAD_SLOT_CFG, GRID and calibration controls. CAL_CTRL: clearing enable stops the engine, freeze acts on a change. -/
def calCtrlWrite (v : Word) (s : State) : State :=
  let old := s.reg Reg.CAL_CTRL
  let s := s.setReg Reg.CAL_CTRL v
  let s := if bitOf old 0 && !bitOf v 0 then calStop s else s
  if bitOf v 1 && !bitOf old 1 then calFreeze s
  else if bitOf old 1 && !bitOf v 1 then calUnfreeze s else s

/-- A ring's configuration: enabled with a size out of range it is disabled and raises (R57, R308). -/
def ringCfgWrite (o : Nat) (ok : Bool) (v : Word) (s : State) : State :=
  let s := s.setReg o v
  if !ok then accessError s else s

/-- HQ_CFG[q] (R351, R355). -/
def hqCfgWrite (q : Nat) (v : Word) (s : State) : State :=
  let was := bitOf (s.reg (hqOff Reg.HQ_CFG q)) 31
  let s := if was && !bitOf v 31 then hqDisable q s else s
  ringCfgWrite (hqOff Reg.HQ_CFG q) (ringSizeOk (fld v 12 0)) v s

/-- The first counter that a counter-clear register covers (R11). -/
def clearBase (b : Nat) : Option Nat :=
  if b = Reg.FRAME_CNT_CLR then some Reg.FRAME_COMMIT_CNT
  else if [Reg.TRUNK_CNT_CLR, Reg.CLK_CNT_CLR, Reg.PWR_CNT_CLR, Reg.TIME_CNT_CLR, Reg.ETH_CNT_CLR, Reg.HEAD_CNT_CLR,
      Reg.GRID_CNT_CLR, Reg.RB_CNT_CLR, Reg.CAL_CNT_CLR, Reg.MAP_CNT_CLR, Reg.SMU_CNT_CLR, Reg.MEM_CNT_CLR,
      Reg.HQ_CNT_CLR, Reg.LXL_CNT_CLR, Reg.TEST_CNT_CLR, Reg.SEC_CNT_CLR, Reg.SEQ_CNT_CLR, Reg.CORE_CNT_CLR,
      Reg.ARRAY_CNT_CLR, Reg.FMT_CNT_CLR, Reg.SPARSE_CNT_CLR, Reg.SCA_CNT_CLR, Reg.TENSOR_CNT_CLR].contains b then
    some (b - 0x80)
  else none

/-- A write of a counter-clear register: each counter whose bit is 1 is zeroed with its overflow bit (R11). -/
def clearCounters (p : Piece) (v : Word) (s : State) : State :=
  match clearBase p.r.base with
  | none => s
  | some c =>
    (bitsSet 32 (ones p v &&& BitVec.ofNat 64 p.r.mask).toNat).foldl
      (fun s i => s.setReg (c + (p.o - p.r.base) + 8 * i) 0) s

/-- SYS registers. -/
def writeSys (p : Piece) (v : Word) (s : State) : State :=
  if p.r.base = Reg.FRAME_CTRL then (if p.m = highMask then s else frameCtrlWrite v s)
  else if p.r.base = Reg.FRAME_GUARD then guardJudge (plainWrite p v s)
  else plainWrite p v s

/-- CLK and PWR registers. -/
def writePwr (p : Piece) (v : Word) (s : State) : State :=
  let b := p.r.base
  let n := merged p (s.reg p.o) v
  let h : Half := n.truncate 32
  if b = Reg.CLK_CTRL then (if bitOf (ones p v) 0 then clkRelock s else s)
  else if b = Reg.CLK_PLL_CFG2 then pllCfgWrite false h s
  else if b = Reg.CLK_PLL_CFG3 then pllCfgWrite true h s
  else if b = Reg.CLK_OBS_CFG then obsWrite h s
  else if b = Reg.PWR_DOM_CTRL then domWrite (elemIdx p b 8) h s
  else if Reg.PWR_BUDGET0 ≤ b ∧ b ≤ Reg.PWR_BUDGET3 then budgetWrite ((b - Reg.PWR_BUDGET0) / 0x10) n s
  else if b = Reg.PWR_MODE then modeWrite n s
  else plainWrite p v s

/-- TIME registers. -/
def writeTime (p : Piece) (v : Word) (s : State) : State :=
  let b := p.r.base
  let n := merged p (s.reg p.o) v
  let pin (base : Nat) : Idx4 := Fin.ofNat 4 (elemIdx p base 0x40)
  if b = Reg.TIME_RATE then rateWrite ((n.truncate 32 : Half).toInt) s
  else if b = Reg.TIME_STEP_CMD then
    if bitOf v 0 then (if bitOf v 1 then stepOffset s else stepAbsolute s) else s
  else if b = Reg.FRAME_TIMER_PERIOD then periodWrite n.toNat s
  else if b = Reg.TOUT_CFG then toutWrite (pin b) 0 (n ||| (v &&& 0xE0)) s
  else if b = Reg.TOUT_TIME_SEC then toutWrite (pin b) 1 n s
  else if b = Reg.TOUT_TIME_NS then toutWrite (pin b) 2 n s
  else if b = Reg.TOUT_PERIOD_NS then toutWrite (pin b) 3 n s
  else plainWrite p v s

/-- ETH and HEAD registers. -/
def writePorts (p : Piece) (v : Word) (s : State) : State :=
  let b := p.r.base
  let n := merged p (s.reg p.o) v
  let x := p.o - b
  if b = Reg.ETH_CFG then ethCfgWrite (Fin.ofNat 8 (x / 0x10000)) n s
  else if b = Reg.ETH_RING_CFG then ringCfgWrite p.o (ringSizeOk (fld n 12 0)) n s
  else if b = Reg.PARSE_HDR then progWrite (Fin.ofNat 8 (x / 0x100)) (x % 0x100 / 8) n s
  else if b = Reg.PARSE_DESC then progWrite (Fin.ofNat 8 (x / 0x100)) (x % 0x100 / 8 + 4) n s
  else plainWrite p v s

/-- GRID and CAL registers. -/
def writeGrid (p : Piece) (v : Word) (s : State) : State :=
  let b := p.r.base
  let n := merged p (s.reg p.o) v
  let x := p.o - b
  let cal (i : Nat) : State := calSoftWrite (Fin.ofNat 16 (p.o % 0x10000 / 0x100)) (Fin.ofNat 13 i) (n.truncate 32) s
  if b = Reg.GRID_VOXEL then voxelWrite n s
  else if b = Reg.GRID_ELEV then elevWrite (Fin.ofNat 16 (x / 0x800)) (BitVec.ofNat 8 (x % 0x800 / 8)) n s
  else if b = Reg.RB_JOB ∨ b = Reg.RB_OFFSET ∨ b = Reg.RB_OFFSET_N then rbJobWrite p.o n s
  else if Reg.CAL_ROT0 ≤ b ∧ b ≤ Reg.CAL_ROT8 then cal ((b - Reg.CAL_ROT0) / 4)
  else if b = Reg.CAL_TRANS then cal (9 + x % 0x100 / 4)
  else if b = Reg.CAL_RB_GAIN then cal 12
  else if b = Reg.CAL_CTRL then calCtrlWrite n s
  else plainWrite p v s

/-- MAP and MEM registers. -/
def writeMem (p : Piece) (v : Word) (s : State) : State :=
  let b := p.r.base
  let n := merged p (s.reg p.o) v
  if b = Reg.MAP_DIR0 then mapDirWrite (elemIdx p b 0x10) false n s
  else if b = Reg.MAP_DIR1 then mapDirWrite (elemIdx p b 0x10) true n s
  else if b = Reg.MAP_UPD_CFG then ringCfgWrite p.o (((List.range 11).any fun i => fld n 16 0 == 64 * 2 ^ i)) n s
  else if b = Reg.MEM_CTRL then
    let s := if bitOf v 0 then memTrain s else s
    if bitOf v 1 then memFill s else s
  else plainWrite p v s

/-- HOSTQ and LINK registers. -/
def writeHost (req : Requester) (p : Piece) (v : Word) (s : State) : State :=
  let b := p.r.base
  let n := merged p (s.reg p.o) v
  let h : Half := n.truncate 32
  let x := p.o - b
  if b = Reg.HQ_CFG then hqCfgWrite (x / 0x40) n s
  else if b = Reg.HQ_SQ_TAIL then hqDoorbell (x / 0x40) h s
  else if b = Reg.HQ_TRUNK_ABORT then (if bitOf v 8 then hostAbort req (fld v 2 0) s else s)
  else if b = Reg.MBOX then mboxWordWrite (x / 0x100) (x % 0x100 / 4) h s
  else if b = Reg.MBOX_CTRL then mboxGo (x / 0x100) (v.truncate 32) s
  else if b = Reg.LXL_CTRL then linkCtrlWrite (Fin.ofNat 4 (x / 0x10000)) (ones p v) s
  else if b = Reg.LINK_TOPO then topoWrite h s
  else plainWrite p v s

/-- SAFE_CFG: the width limit is judged at once; with tout_off changed in the safe state the pins follow. -/
def safeCfgWrite (v : Word) (s : State) : State :=
  let was := toutOffNow s
  let s := s.setReg Reg.SAFE_CFG v
  widthCheck (if toutOffNow s != was then allPins.foldl (fun s i => toutDrive i s) s else s)

/-- FENCE_CLEAR: the cores leave the flash record, and are not fenced at the next boot. -/
def fenceClearWrite (p : Piece) (v : Word) (s : State) : State :=
  let w := ones p v &&& BitVec.ofNat 64 p.r.w1s
  let s := s.setReg Reg.FENCE_CLEAR (s.reg Reg.FENCE_CLEAR ||| w)
  { s with flash := { s.flash with fences := s.flash.fences.filter fun c => !bitOf w c.val } }

/-- TEST registers. -/
def writeTest (req : Requester) (p : Piece) (v : Word) (s : State) : State :=
  let b := p.r.base
  if b = Reg.TEST_REF then (if bitOf (s.reg Reg.SEC_LOCK) 0 then s else plainWrite p v s)
  else if b = Reg.FENCE_REQ then fenceReqWrite req (ones p v) s
  else if b = Reg.FENCE_CLEAR then fenceClearWrite p v s
  else if b = Reg.SAFE_CTRL then
    let s := if bitOf v 0 then safeCause 5 s else s
    if bitOf v 1 then safeRelease req s else s
  else if b = Reg.SAFE_CFG then safeCfgWrite (merged p (s.reg p.o) v) s
  else plainWrite p v s

/-- SEC_MEAS_EXT (R420): bit 0 extends SEC_MEAS[4] with the 48 bytes of SEC_MEAS_IN. -/
def measExt (v : Word) (s : State) : State :=
  if bitOf v 0 then
    measExtend 4 ((List.range 6).flatMap fun i => bytesLE 8 (s.reg (Reg.SEC_MEAS_IN + 8 * i)).toNat) s
  else s

/-! ## Fuses (R414, Tables 22.6 and 22.7) -/

/-- SEC_STAT as the fuses and the debug unlock make it. -/
def secShow (s : State) : State :=
  s.setReg Reg.SEC_STAT (BitVec.ofNat 64 (s.fuse.lifecycle.toNat + svnOf s.fuse.fwSvn * 2 ^ 8 + svnOf s.fuse.trunkSvn * 2 ^ 15 +
    b2n (s.fuse.rootO != 0) * 2 ^ 22 + s.regF Reg.SEC_STAT 23 23 * 2 ^ 23))

/-- A thermometer code of `n` set bits. -/
def thermo (n : Nat) : BitVec 64 := BitVec.ofNat 64 (2 ^ n - 1)

/-- Does a life cycle permit a fuse field to be programmed (Table 22.7)? -/
def fusePermits (s : State) (field value : Nat) : Bool :=
  let l := s.fuse.lifecycle.toNat
  if field = 1 then l == 0 || l == 1
  else if field = 2 then (l == 0 && value == 1) || ((l == 1 || l == 3) && value == 7)
  else (field == 3 || field == 4) && (l == 0 || l == 1 || l == 3)

/-- Would a command clear a programmed bit, or take a counter beyond its 64 bits? -/
def fuseLowers (s : State) (field value : Nat) : Bool :=
  if field = 1 then s.fuse.rootO != 0
  else if field = 2 then decide (s.fuse.lifecycle.toNat &&& value ≠ s.fuse.lifecycle.toNat)
  else if field = 3 then decide (value < svnOf s.fuse.fwSvn) || decide (64 < value)
  else decide (value < svnOf s.fuse.trunkSvn) || decide (64 < value)

/-- Program a field: bits go from 0 to 1 only. The hash written to root_o is a free value, which is not zero: the command
carries none. Programming it in PROD makes the part OWNED. -/
def fuseProgram (field value : Nat) (s : State) : State :=
  let f := s.fuse
  let f' : FuseSt :=
    if field = 1 then
      { f with rootO := f.rootO ||| s.free 60 384 ||| 1, lifecycle := if f.lifecycle = 1 then 3 else f.lifecycle }
    else if field = 2 then { f with lifecycle := f.lifecycle ||| BitVec.ofNat 8 value }
    else if field = 3 then { f with fwSvn := f.fwSvn ||| thermo value }
    else { f with trunkSvn := f.trunkSvn ||| thermo value }
  secShow (if field = 1 then { s with fuse := f' }.drawn else { s with fuse := f' })

/-- SEC_FUSE_CMD. `fail` says that the programmed read-back fails. -/
def fuseCmd (req : Requester) (v : Word) (fail : Bool) (s : State) : State :=
  let field := fld v 3 0
  let value := fld v 15 8
  if req ≠ .sc then accessError s
  else if bitOf (s.reg Reg.SEC_LOCK) 1 || !fusePermits s field value || fuseLowers s field value || fail then raise evFuseErr s
  else fuseProgram field value s

/-- SEC registers. SEC_BOOT_CTRL.go acts after the access (`accessWrite`). -/
def writeSec (req : Requester) (p : Piece) (v : Word) (s : State) : State :=
  let b := p.r.base
  if b = Reg.SEC_LOCK then s.setReg b (s.reg b ||| (ones p v &&& 3))
  else if b = Reg.SEC_FUSE_CMD then (if p.m = highMask then s else fuseCmd req v false s)
  else if b = Reg.SEC_MEAS_EXT then (if req ≠ .sc then accessError s else measExt (ones p v) s)
  else if b = Reg.SEC_MEAS_IN then (if req ≠ .sc then accessError s else s.setReg p.o (merged p (s.reg p.o) v))
  else plainWrite p v s

/-- CORE registers. -/
def writeCore (req : Requester) (c : CoreId) (p : Piece) (v : Word) (s : State) : State :=
  if p.r.base = Reg.SHELF then shelfPend req c ((p.o - coreOff Reg.SHELF c) / 8) (merged p (s.reg p.o) v) s
  else plainWrite p v s

/-- A write of one register or half. A mirror ignores it; `v` stands where the register's bits stand. -/
def writePiece (req : Requester) (p : Piece) (v : Word) (s : State) : State :=
  if p.mirror then s
  else if (clearBase p.r.base).isSome then clearCounters p v s
  else match p.o / 0x100000 with
    | 0 => writeSys p v s
    | 1 | 2 => writePwr p v s
    | 3 => writeTime p v s
    | 4 | 5 => writePorts p v s
    | 6 | 7 => writeGrid p v s
    | 8 | 10 => writeMem p v s
    | 11 | 12 => writeHost req p v s
    | 13 => writeTest req p v s
    | 14 => writeSec req p v s
    | _ => match apertureCore p.o with
      | some c => writeCore req c p v s
      | none => plainWrite p v s

/-- A piece of the data of an access, moved to where the register's bits stand. -/
def pieceData (p : Piece) (v : Word) (pos : Nat) : Word :=
  if p.m = highMask then (v >>> pos) <<< 32 else (v >>> pos) &&& p.m

/-- A write that a requester makes. An unoccupied part is ignored and raises the register-access error event (R8); a core
denied traps (R22, R156). -/
def busWrite (req : Requester) (o : Nat) (w : Width) (v : Word) (s : State) : State :=
  match coreDenied req o true with
  | some c => seqTrap c trapDenied (s.core c).pc 0 s
  | none =>
    (pieces o w).foldl (fun s (e : Option Piece × Nat) =>
      match e.1.filter (reaches s req true) with
      | none => accessError s
      | some p => writePiece req p (pieceData p v e.2) s) s

end Sys2Proof.Machine
end

