-- ==== Sys2Proof/Machine/Boot.lean ====
section
/-! DEFINITION. Reset, the boot ROM, the firmware's start, security versions, attestation and debug unlock (R168, R362, R403,
R407 to R423, R429). -/

namespace Sys2Proof.Machine

/-! ## Reset (R407, R429) -/

/-- Fused repairs of a bank: the number of spares they use (R168). -/
def fusedRows (f : FuseSt) (c : CoreId) (bank : Nat) : Nat :=
  (f.repair.filter fun e => e.1 == c && e.2 / 1024 == bank).length

/-- SPAD_REPAIR.fused of every bank, from the fuse map. -/
def fusedRepairs (s : State) : State :=
  (s.fuse.repair.map fun e => (e.1, e.2 / 1024)).foldl (fun s e =>
    s.setF (coreOff (Reg.SPAD_REPAIR + 4 * e.2) e.1) 3 0 (fusedRows s.fuse e.1 e.2)) s

/-- RESET: fuses and flash persist, and with them the level at PCIE_PERST_N; everything else takes its reset value, BOOT_SEL is
sampled, FAULT_N is driven low during the reset and released at its end. -/
def deviceReset (strap : BitVec 2) (s : State) : State :=
  let r := { State.reset with
    pending := s.pending, freeCtr := s.freeCtr, out := s.out ++ [.pin "FAULT_N" false, .pin "FAULT_N" true],
    flash := s.flash, fuse := s.fuse, pcie := { PcieSt.reset with inReset := s.pcie.inReset } }
  (fusedRepairs r).setReg Reg.SEC_BOOT_STAT (BitVec.ofNat 64 (strap.toNat * 8 + b2n (strap == 3) * 2 ^ 7))

/-- RESET. -/
def execReset (strap : BitVec 2) (s : State) : Res := .next (deviceReset strap s)

/-! ## Firmware images (R410, Tables 22.3 and 22.4) -/

/-- A section of an image: its kind and its bytes. -/
structure FwSec where
  kind  : Nat
  bytes : List Nat
deriving DecidableEq, Repr

/-- An image as its header reads: svn, trunk_svn_min, svn_commit, the bytes under signature, both signatures, the sections. -/
structure FwFile where
  svn    : Nat
  trunk  : Nat
  commit : Bool
  signed : List Nat
  ed     : List Nat
  ml     : List Nat
  secs   : List FwSec
deriving DecidableEq, Repr

/-- The svn field of a header, before it is judged. -/
def headerSvn (b : List Nat) : Nat := leAt b 8 4

/-- Is a header within Table 22.3? -/
def fwHeaderOk (b : List Nat) : Bool :=
  let sig := leAt b 20 4
  leAt b 0 4 == 0x57465254 && leAt b 4 2 == 1 && decide (leAt b 6 2 ≤ 1) && decide (leAt b 8 4 ≤ 63) &&
    decide (leAt b 12 4 ≤ 63) && leAt b 16 4 == sig + 3373 && decide (leAt b 16 4 ≤ 2097152) && decide (leAt b 16 4 ≤ b.length) &&
    sig % 64 == 0 && decide (1 ≤ leAt b 24 4) && decide (leAt b 24 4 ≤ 64) && decide (256 + 16 * leAt b 24 4 ≤ sig) &&
    allZero (sub b 28 228)

/-- Is section entry `i` within R410: its kind, its zero bytes, its place? -/
def fwEntryOk (b : List Nat) (i : Nat) : Bool :=
  let e := sub b (256 + 16 * i) 16
  let off := leAt e 4 4
  decide (1 ≤ leAt e 0 1) && decide (leAt e 0 1 ≤ 5) && allZero (sub e 1 3) && allZero (sub e 12 4) && off % 64 == 0 &&
    decide (256 + 16 * leAt b 24 4 ≤ off) && decide (off + leAt e 8 4 ≤ leAt b 20 4)

/-- The certificates of a section. -/
def secCerts (x : FwSec) : List (List Nat) := splitCerts (x.bytes.length / 5453 + 1) x.bytes

/-- Is a section's content of the form of Table 22.4? -/
def fwSecOk (x : FwSec) : Bool :=
  let n := x.bytes.length / 5453
  if x.kind = 2 then x.bytes.length == 32
  else if x.kind = 3 then x.bytes.length % 16 == 0
  else if x.kind = 4 then
    x.bytes.length % 5453 == 0 && decide (1 ≤ n) && decide (n ≤ 16) && (secCerts x).all fun c => certKind c == 1 || certKind c == 2
  else if x.kind = 5 then
    let count (k : Nat) : Nat := ((secCerts x).filter fun c => certKind c == k).length
    x.bytes.length % 5453 == 0 && decide (1 ≤ count 1) && decide (1 ≤ count 6) && decide (1 ≤ count 7) && decide (count 7 ≤ 4) &&
      decide (count 1 + count 6 + count 7 + count 8 = n)
  else true

/-- An image read from a slot's bytes; none when its header or its section table breaks Tables 22.3 and 22.4. -/
def fwRead (b : List Nat) : Option FwFile :=
  let n := leAt b 24 4
  if !fwHeaderOk b || !(List.range n).all (fwEntryOk b) then none
  else
    let secs := (List.range n).map fun i =>
      let e := sub b (256 + 16 * i) 16
      ⟨leAt e 0 1, sub b (leAt e 4 4) (leAt e 8 4)⟩
    let sig := leAt b 20 4
    if !secs.all fwSecOk then none
    else some { svn := leAt b 8 4, trunk := leAt b 12 4, commit := leAt b 6 1 % 2 == 1, signed := b.take sig,
                ed := sub b sig 64, ml := sub b (sig + 64) 3309, secs := secs }

/-- The sections of a kind, joined. -/
def fwSecs (f : FwFile) (kind : Nat) : List FwSec := f.secs.filter fun x => x.kind == kind

/-- The key certificates of section 5, in order. -/
def fwKeys (f : FwFile) : List (List Nat) := (fwSecs f 5).flatMap secCerts

/-- The firmware signing certificates whose chain verifies (R413, R415): issued by the vendor root, whose hash is root_v. -/
def fwSigners (s : State) (f : FwFile) : List (List Nat) :=
  (fwKeys f).filter fun c => certKind c == 6 && chainOk ((fwKeys f).filter (rootIs s.fuse.rootV)) (timeSet s) s.time.sec [c]

/-- Does the ROM accept an image (R411)? In BLANK no signature is checked. -/
def fwAccepts (s : State) (f : FwFile) : Bool :=
  decide (svnOf s.fuse.fwSvn ≤ f.svn) &&
    (s.fuse.lifecycle == 0 || (fwSigners s f).any fun c => bothSigs c (digestBytes (Config.sha384 f.signed)) f.ed f.ml)

/-- An image verified: the image when it is accepted, and the state with the chains checked without time counted. -/
def fwVerify (b : List Nat) (s : State) : Option FwFile × State :=
  match fwRead b with
  | none => (none, s)
  | some f =>
    let s := if s.fuse.lifecycle = 0 then s else countNoTime ((fwKeys f).filter fun c => certKind c == 6).length s
    (if fwAccepts s f then some f else none, s)

/-! ## Keys (R419) -/

/-- A byte list of a given length. -/
def fixLen (n : Nat) (b : List Nat) : List Nat := b.take n ++ List.replicate (n - b.length) 0

/-- Do device and alias keys exist: outside BLANK and RMA (R419)? -/
def deviceKeys (s : State) : Bool := s.fuse.lifecycle != 0 && s.fuse.lifecycle != 7

/-- Is debug unlocked? -/
def debugOn (s : State) : Bool := bitOf (s.reg Reg.SEC_STAT) 23

/-- The salt of the alias pair: the digest of SEC_MEAS[0] to SEC_MEAS[3]. -/
def aliasSalt (s : State) : List Nat :=
  digestBytes (Config.sha384 ((List.finRange 4).flatMap fun i => digestBytes s.sec.meas[i.val]))

/-- The device certificate in the flash. -/
def deviceCert (s : State) : List Nat := fixLen 5453 s.flash.cert

/-- Bytes 0 to 2,079 of the alias certificate (Table 22.5). -/
def aliasBody (s : State) : List Nat :=
  let pk := fixLen 1984 (Config.aliasKeys (aliasSalt s) (debugOn s))
  bytesLE 4 0x43545254 ++ [1, 4, 0, 0] ++ bytesLE 8 ((Config.sha384 pk).toNat % 2 ^ 64) ++ bytesLE 8 (certKey (deviceCert s)) ++
    bytesLE 16 s.fuse.serial.toNat ++ List.replicate 56 0 ++ pk

/-- The alias certificate is issued with the device key (R419). -/
def aliasIssue (s : State) : State :=
  if deviceKeys s then
    let b := aliasBody s
    { s with sec := { s.sec with aliasCert := b ++ fixLen 3373 (Config.deviceSign (digestBytes (Config.sha384 b))) } }
  else s

/-! ## The firmware's start (R362, Table 19.10) -/

/-- A unit of 64 bytes of the boot flash (Table 22.2); erased bytes read 0xFF. -/
def flashUnit (f : FlashSt) (u : Nat) : BitVec 512 :=
  let pick (b : List Nat) (base : Nat) : BitVec 512 :=
    let x := (b.drop (64 * u - base)).take 64
    lineOfBytes (x ++ List.replicate (64 - x.length) 0xFF)
  if u < 0x8000 then pick f.slotA 0
  else if u < 0x10000 then pick f.slotB 0x200000
  else if u < 0x10400 then pick f.cert 0x400000
  else (sget u f.data).getD (BitVec.allOnes 512)

/-- A copy entry: lines of the flash to LPDDR-6, sealed for their destination. A line outside memory is not written and raises. -/
def cfgCopy (u a n : Nat) (s : State) : State :=
  (List.range n).foldl (fun s i =>
    if regionOf s (a + 64 * i) = .lpddr then memPut ((a + 64 * i) / 64 * 64) ⟨flashUnit s.flash (u + i), false⟩ s
    else accessError s) s

/-- ATTEST's report before its signatures (Table 22.10). -/
def attestBody (nonce : List Nat) (s : State) : List Nat :=
  bytesLE 4 0x54415452 ++ bytesLE 2 1 ++ bytesLE 2 (b2n (debugOn s) + b2n (s.fuse.rootO != 0) * 2) ++ bytesLE 4 14871 ++
    bytesLE 4 s.fuse.lifecycle.toNat ++ bytesLE 16 s.fuse.serial.toNat ++ fixLen 32 nonce ++
    bytesLE 6 s.time.sec ++ bytesLE 4 s.time.ns ++ bytesLE 2 (svnOf s.fuse.fwSvn) ++ bytesLE 2 (svnOf s.fuse.trunkSvn) ++ [0, 0] ++
    (s.sec.meas.toList.flatMap digestBytes) ++
    ((List.range 8).flatMap fun k =>
      bytesLE 8 (s.reg (Reg.TRUNK_ID + 0x20 * k)).toNat ++ bytesLE 4 (s.regF (Reg.TRUNK_STAT + 0x20 * k) 63 32) ++
        [s.regF (Reg.TRUNK_STAT + 0x20 * k) 2 0, s.regF (Reg.TRUNK_STAT + 0x20 * k) 4 3, 0, 0]) ++
    fixLen 5453 s.sec.aliasCert ++ deviceCert s

/-- The report with the alias key's signatures over bytes 0 to 11,497. -/
def attestReport (nonce : List Nat) (s : State) : List Nat :=
  let b := attestBody nonce s
  b ++ fixLen 3373 (Config.aliasSign (aliasSalt s) (debugOn s) (digestBytes (Config.sha384 b)))

/-- May function `f` have a report of `n` bytes at `a`? -/
def attestFits (s : State) (f a n : Nat) : Bool :=
  let w := s.reg (Reg.HQ_FUNC_WIN + 0x10 * (f - 1))
  decide (14871 ≤ n) && a % 64 == 0 && decide (a + n ≤ memBytes s) &&
    (f == 0 || (decide (fld w 39 0 ≤ a) && decide (a + n ≤ fld w 39 0 + fld w 63 40 * 2 ^ 20)))

/-- ATTEST (R421). -/
def attest (f : Nat) (bs : List Nat) (s : State) : MboxRes :=
  if !deviceKeys s then ⟨0xF0, [], s⟩
  else if !attestFits s f (leAt bs 40 8) (leAt bs 48 4) then ⟨0xF1, [], s⟩
  else ⟨0, bytesLE 4 14871, memSet (leAt bs 40 8) (attestReport (sub bs 8 32) s) s⟩

/-- ATTEST. -/
def execAttest (s : State) : Res := .next (mboxRun 0x0040 attest s)

/-- A mailbox command by its code (Table 19.8). -/
def mboxCommand (f : Nat) (bs : List Nat) (s : State) : MboxRes :=
  match leAt bs 0 2 with
  | 0x0001 => getInfo f bs s
  | 0x0010 => trunkLoad f bs s
  | 0x0011 => trunkLaunch f bs s
  | 0x0012 => trunkStop f bs s
  | 0x0013 => trunkUnload f bs s
  | 0x0014 => trunkQuery f bs s
  | 0x0020 => rotateNow f bs s
  | 0x0021 => testCore f bs s
  | 0x0030 => powerPolicy f bs s
  | 0x0040 => attest f bs s
  | 0x0050 => linkEnable f bs s
  | _ => ⟨0xFF, [], s⟩

/-- Apply the entries of a configuration record as the PF. `polls` says of each poll whose condition does not hold at once
whether it comes to hold within 100 ms. Answers whether the record ended well. -/
def cfgApply : Nat → List (List Nat) → List Bool → State → Bool × State
  | 0, _, _, s => (true, s)
  | _ + 1, [], _, s => (true, s)
  | n + 1, e :: es, polls, s =>
    let off := leAt e 4 4
    match leAt e 0 1 with
    | 0 => (true, s)
    | 1 => cfgApply n es polls (busWrite .pf off .w32 (BitVec.ofNat 64 (leAt e 8 4)) s)
    | 2 => cfgApply n es polls (busWrite .pf off .w64 (BitVec.ofNat 64 (leAt e 8 8)) s)
    | 3 =>
      let r := busReadVal .pf off .w32 s
      if r.1.toNat &&& leAt e 8 4 = leAt e 12 4 then cfgApply n es polls r.2
      else match polls with
        | true :: ps => cfgApply n es ps r.2
        | _ => (false, r.2)
    | 4 => cfgApply n es polls (cfgCopy off (leAt e 8 5) (leAt e 13 3) s)
    | 5 =>
      let r := mboxCommand 0 ((es.take 4).flatMap id) s
      if r.status = 0 then cfgApply n (es.drop 4) polls r.s else (false, r.s)
    | _ => (false, s)

/-- A domain the firmware brings into RUN and waits for before it goes on. -/
def bootWake (d : Nat) (s : State) : State :=
  if domState s d = 0 then s
  else bump Reg.PWR_WAKE_CNT (domShow d 0 false false (s.setF (Reg.PWR_DOM_CTRL + 8 * d) 1 0 0))

/-- The cores come into service: 0 to 31 in service, 32 in the rotation slot, 33 to 35 spare (chapter 21); those of the flash's
fence records are fenced again (R402). -/
def bootService (s : State) : State :=
  let s := allCores.foldl (fun s c => if c.val < 32 then serviceBits c true false s else s) s
  let s := enterSlot 32 (s.modTest fun t => { t with spares := [33, 34, 35], orders := s.flash.fences })
  if s.flash.fences.isEmpty then s else coreFencing s

/-- FIRMWARE_START (R362): train memory, apply the record. `bad` are the channels that fail their training. -/
def firmwareStart (bad : BitVec 8) (polls : List Bool) (s : State) : State :=
  let s := memTrained bad (memTrain (bootWake 42 (bootWake 41 (bootService s))))
  if !bitOf (s.reg Reg.MEM_STAT) 0 then safeCause 6 s
  else
    let cfg := match s.sec.fw with
      | none => []
      | some f => f.config
    let r := cfgApply cfg.length cfg polls s
    if r.1 then r.2 else safeCause 6 r.2

/-! ## The ROM (R407 to R411, R420) -/

/-- SEC_BOOT_STAT.state. -/
def bootState (s : State) : Nat := s.regF Reg.SEC_BOOT_STAT 2 0
/-- Change SEC_BOOT_STAT.state. -/
def setBoot (v : Nat) (s : State) : State := s.setF Reg.SEC_BOOT_STAT 2 0 v

/-- Split bytes into 16-byte entries. -/
def entries16 : Nat → List Nat → List (List Nat)
  | 0, _ => []
  | n + 1, b => if b.isEmpty then [] else b.take 16 :: entries16 n (b.drop 16)

/-- The reference signatures of section 2. -/
def fwRefs (f : FwFile) : List Nat :=
  (fwSecs f 2).flatMap fun x => (List.range 8).map fun i => leAt x.bytes (4 * i) 4

/-- The image in housekeeping memory: its sections loaded. -/
def fwImage (f : FwFile) : FwImage :=
  { svn := f.svn, trunkSvnMin := f.trunk, svnCommit := f.commit, trust := (fwSecs f 4).flatMap secCerts, keys := fwKeys f, code := (fwSecs f 1).flatMap (·.bytes),
    config := (fwSecs f 3).flatMap fun x => entries16 x.bytes.length x.bytes }

/-- The measurements of the ROM (Table 22.9). -/
def measureBoot (f : FwFile) (s : State) : State :=
  let s := measExtend 0 [s.fuse.lifecycle.toNat] (measExtend 0 (digestBytes Config.romDigest) s)
  let s := measExtend 1 (digestBytes (Config.sha384 f.signed)) s
  let s := (fwKeys f).foldl (fun s c => measExtend 2 (bytesLE 8 (certKey c)) s) s
  (fwSecs f 4).foldl (fun s x => measExtend 3 (digestBytes (Config.sha384 x.bytes)) s) s

/-- TEST_REF from section 2, locked. -/
def loadRefs (f : FwFile) (s : State) : State :=
  let s := ((fwRefs f).take 8).zipIdx.foldl (fun s e => s.setReg (Reg.TEST_REF + 4 * e.2) (BitVec.ofNat 64 e.1)) s
  s.setReg Reg.SEC_LOCK (s.reg Reg.SEC_LOCK ||| 1)

/-- An accepted image is loaded and measured, the alias key derived, the firmware started. -/
def bootAccept (f : FwFile) (slotB host : Bool) (bad : BitVec 8) (polls : List Bool) (s : State) : State :=
  let s := { s with sec := { s.sec with fw := some (fwImage f) } }
  let s := loadRefs f (aliasIssue (measureBoot f s))
  let s := ((s.setF Reg.SEC_BOOT_STAT 5 5 (b2n slotB)).setF Reg.SEC_BOOT_STAT 6 6 (b2n host)).setF Reg.SEC_BOOT_STAT 14 9 f.svn
  firmwareStart bad polls (setBoot 3 s)

/-- An image that fails is counted and raises (R408, R411). -/
def bootFail (s : State) : State := raise evBootSlotFail (bump Reg.SEC_BOOT_FAIL_CNT s)

/-- The order in which the ROM tries the slots (R411): the higher svn first, slot A on a tie. -/
def slotOrder (s : State) : List Bool :=
  if headerSvn s.flash.slotA < headerSvn s.flash.slotB then [true, false] else [false, true]

/-- What the verification of an image comes to: it is taken, or its failure is recorded and the next image is tried. -/
def bootNext (b : Bool) (next : State → Option (FwFile × Bool) × State) (r : Option FwFile × State) :
    Option (FwFile × Bool) × State :=
  match r.1 with
  | some f => (some (f, b), r.2)
  | none => next (bootFail r.2)

/-- Try slots in order: the first accepted image, and the state with failures counted. -/
def bootSlots : List Bool → State → Option (FwFile × Bool) × State
  | [], s => (none, s)
  | b :: bs, s => bootNext b (fun s => bootSlots bs s) (fwVerify (if b then s.flash.slotB else s.flash.slotA) s)

/-- HOST_WAIT: PD[43] comes up and the ROM waits for a host image (R408). -/
def hostWait (s : State) : State := setBoot 2 (bootWake 43 s)

/-- May the ROM start: the crystal judged, PLL[4] and PLL[5] locked? -/
def romReady (s : State) : Bool :=
  bitOf (s.reg Reg.CLK_STAT) 0 && bitOf (s.reg Reg.CLK_STAT) 9 && bitOf (s.reg Reg.CLK_STAT) 10

/-- BOOT_ROM_START. -/
def bootRom (bad : BitVec 8) (polls : List Bool) (s : State) : State :=
  if bootState s ≠ 0 ∨ !romReady s then s
  else
    let strap := s.regF Reg.SEC_BOOT_STAT 4 3
    let s := secShow s
    if strap = 1 then hostWait s
    else
      let s := setBoot 1 (s.setF Reg.SEC_BOOT_STAT 8 8 (b2n s.flash.slow))
      let r := bootSlots (slotOrder s) s
      match r.1 with
      | some (f, b) => bootAccept f b false bad polls r.2
      | none =>
        if strap = 2 then hostWait (raise evBootFallback r.2)
        else safeCause 6 (setBoot 4 r.2)

/-- BOOT_ROM_START. -/
def execBootRomStart (bad : BitVec 8) (polls : List Bool) (s : State) : Res := .next (bootRom bad polls s)

/-- HOST_IMAGE_GO: SEC_BOOT_CTRL.go acts in HOST_WAIT only (R408). -/
def hostGo (bad : BitVec 8) (polls : List Bool) (s : State) : State :=
  if bootState s ≠ 2 then s
  else
    let r := fwVerify s.sec.staging s
    match r.1 with
    | some f => bootAccept f false true bad polls r.2
    | none => bootFail r.2

/-- HOST_IMAGE_GO. -/
def execHostImageGo (bad : BitVec 8) (polls : List Bool) (s : State) : Res := .next (hostGo bad polls s)

/-! ## Fuses and measurements (R414, R416, R420) -/

/-- SEC_FUSE_CMD. -/
def execSecFuseCmd (req : Requester) (v : Word) (fail : Bool) (s : State) : Res := .next (fuseCmd req v fail s)

/-- SEC_MEAS_EXT: by the system controller only. -/
def execSecMeasExt (req : Requester) (v : Word) (s : State) : Res :=
  .next (if req ≠ .sc then accessError s else measExt v s)

/-- Raise one counter to a value of the running image (R416); a raise raises SEC_SVN_ADVANCED. -/
def svnRaise (field value have_ : Nat) (s : State) : State :=
  if value ≤ have_ then s
  else
    let s' := fuseCmd .sc (BitVec.ofNat 64 (field + value * 256)) false s
    if s'.fuse = s.fuse then s' else raise evSvnAdvanced s'

/-- SVN_ADVANCE: once R362 has completed, with svn_commit. -/
def svnAdvance (s : State) : State :=
  match s.sec.fw with
  | none => s
  | some f =>
    if bootState s ≠ 3 ∨ s.test.causes.contains 6 ∨ !f.svnCommit then s
    else
      let s := svnRaise 3 f.svn (svnOf s.fuse.fwSvn) s
      svnRaise 4 f.trunkSvnMin (svnOf s.fuse.trunkSvn) s

/-- SVN_ADVANCE. -/
def execSvnAdvance (s : State) : Res := .next (svnAdvance s)

/-! ## Debug unlock (R423) -/

/-- DEBUG_CHALLENGE_READ: the engine draws a new challenge of 32 bytes, a free value. -/
def debugChallenge (s : State) : State :=
  { s with sec := { s.sec with chal := some (bytesLE 32 (s.free 61 256).toNat) } }.drawn

/-- DEBUG_CHALLENGE_READ. -/
def execDebugChallengeRead (s : State) : Res := .next (debugChallenge s)

/-- The anchors of debug certificates (Table 22.8): the vendor root; in OWNED the owner root too. -/
def debugAnchors (s : State) : List (List Nat) :=
  (keyCerts s).filter fun c => rootIs s.fuse.rootV c || (s.fuse.lifecycle == 3 && rootIs s.fuse.rootO c)

/-- Do a debug certificate of the running image and both signatures over the challenge and the serial verify? -/
def debugVerifies (s : State) (cert ed ml : List Nat) : Bool :=
  match s.sec.chal with
  | none => false
  | some c =>
    certKind cert == 8 && (keyCerts s).contains cert &&
      (s.fuse.lifecycle == 0 || chainOk (debugAnchors s) (timeSet s) s.time.sec [cert]) &&
      bothSigs cert (c ++ bytesLE 16 s.fuse.serial.toNat) ed ml

/-- DEBUG_UNLOCK: after 4 failures attempts are refused until reset. -/
def debugUnlock (cert ed ml : List Nat) (s : State) : State :=
  if s.sec.fails ≥ 4 then s
  else
    let s := if s.fuse.lifecycle = 0 then s else countNoTime 1 s
    if debugVerifies s cert ed ml then
      raise evDebugUnlock (aliasIssue (measExtend 5 [1] (s.setF Reg.SEC_STAT 23 23 1)))
    else
      raise evDebugFail (bump Reg.SEC_DEBUG_FAIL { s with sec := { s.sec with fails := s.sec.fails + 1 } })

/-- DEBUG_UNLOCK. -/
def execDebugUnlock (cert ed ml : List Nat) (s : State) : Res := .next (debugUnlock cert ed ml s)

end Sys2Proof.Machine
end

