-- ==== Sys2Proof/Machine/Access.lean ====
section
/-! DEFINITION. The commands that access registers: REGISTER_WRITE, FB_REGISTER_WRITE, COUNTER_CLEAR, COUNTER_READ_LOW and
UNOCCUPIED_ACCESS (R4, R8 to R11, R22, R439). -/

namespace Sys2Proof.Machine

/-- Does a write set SEC_BOOT_CTRL.go: its bit 0, by a requester that reaches the register? -/
def setsGo (req : Requester) (o : Nat) (w : Width) (v : Word) (s : State) : Bool :=
  (coreDenied req o true).isNone && (pieces o w).any fun e =>
    match e.1.filter (reaches s req true) with
    | some p => p.r.base == Reg.SEC_BOOT_CTRL && !p.mirror && bitOf (pieceData p v e.2) 0
    | none => false

/-- A register write with the effect of SEC_BOOT_CTRL.go (R4, R408): as HOST_IMAGE_GO where every memory channel
trains and no condition that a configuration polls for comes later (log entry 126). -/
def accessWrite (req : Requester) (o : Nat) (w : Width) (v : Word) (s : State) : State :=
  let go := setsGo req o w v s
  let s := busWrite req o w v s
  if go then hostGo 0 [] s else s

/-- REGISTER_WRITE. -/
def execRegisterWrite (req : Requester) (off : Nat) (w : Width) (v : Word) (s : State) : Res := .next (accessWrite req off w v s)

/-- FB_REGISTER_WRITE. -/
def execFbRegisterWrite (req : Requester) (off : Nat) (w : Width) (v : Word) (s : State) : Res := .next (accessWrite req off w v s)

/-- COUNTER_CLEAR. -/
def execCounterClear (req : Requester) (off : Nat) (v : Half) (s : State) : Res := .next (accessWrite req off .w32 (v.zeroExtend 64) s)

/-- COUNTER_READ_LOW. -/
def execCounterReadLow (req : Requester) (off : Nat) (s : State) : Res := .next (busRead req off .w32 s)

/-- An access at a 40-bit internal address (R8, R22): in register space it is the access at that offset, unoccupied parts
included; an unmapped address reads zero or ignores the write and raises the register-access error event for the system
controller and a PCI Express function, and traps a core. An address of another resource is not a register access. -/
def addrAccess (req : Requester) (addr : Nat) (w : Width) (wr : Bool) (v : Word) (s : State) : State :=
  if 0x1200000000 ≤ addr ∧ addr < 0x1204000000 then
    if wr then accessWrite req (addr - 0x1200000000) w v s else busRead req (addr - 0x1200000000) w s
  else if regionOf s addr != .unmapped then s
  else
    match req with
    | .core c => seqTrap c trapUnmapped (s.core c).pc 0 s
    | _ => if wr then accessError s else { accessError s with lastRead := 0 }

/-- UNOCCUPIED_ACCESS. -/
def execUnoccupiedAccess (req : Requester) (addr : Nat) (w : Width) (wr : Bool) (v : Word) (s : State) : Res :=
  .next (addrAccess req addr w wr v s)

end Sys2Proof.Machine
end

