-- ==== Sys2Proof/Machine/Cores.lean ====
section
/-! DEFINITION. The commands of a core's own program: the next word of the core, when it is an instruction of the command's
row, is issued and what its queues can do is done (chapters 13, 14). -/

namespace Sys2Proof.Machine

/-- WLOAD (R171). -/
def execWload (c : CoreId) (errs : List LineErr) (s : State) : Res := .next (issueStep c errs (some .wload) s)

/-- MM (R173). -/
def execMm (c : CoreId) (errs : List LineErr) (s : State) : Res := .next (issueStep c errs (some .mm) s)

/-- MMG (R275). -/
def execMmg (c : CoreId) (errs : List LineErr) (s : State) : Res := .next (issueStep c errs (some .mmg) s)

/-- MMS (R214). -/
def execMms (c : CoreId) (errs : List LineErr) (s : State) : Res := .next (issueStep c errs (some .mms) s)

/-- MMP (R185). -/
def execMmp (c : CoreId) (errs : List LineErr) (s : State) : Res := .next (issueStep c errs (some .mmp) s)

/-- ACC_INIT (R177). -/
def execAccInit (c : CoreId) (errs : List LineErr) (s : State) : Res := .next (issueStep c errs (some .accInit) s)

/-- ACC_DRAIN (R178). -/
def execAccDrain (c : CoreId) (errs : List LineErr) (s : State) : Res := .next (issueStep c errs (some .accDrain) s)

/-- PART (R182). -/
def execPart (c : CoreId) (errs : List LineErr) (s : State) : Res := .next (issueStep c errs (some .part) s)

/-- PACK (R222). -/
def execPack (c : CoreId) (errs : List LineErr) (s : State) : Res := .next (issueStep c errs (some .pack) s)

/-- MATCH_LOAD (R223). -/
def execMatchLoad (c : CoreId) (errs : List LineErr) (s : State) : Res := .next (issueStep c errs (some .matchLoad) s)

/-- MATCH_PROBE (R224). -/
def execMatchProbe (c : CoreId) (errs : List LineErr) (s : State) : Res := .next (issueStep c errs (some .matchProbe) s)

/-- PRED_GATE (R226). -/
def execPredGate (c : CoreId) (errs : List LineErr) (s : State) : Res := .next (issueStep c errs (some .predGate) s)

/-- SCA_INIT (R235). -/
def execScaInit (c : CoreId) (errs : List LineErr) (s : State) : Res := .next (issueStep c errs (some .scaInit) s)

/-- SCA_ADD (R236). -/
def execScaAdd (c : CoreId) (errs : List LineErr) (s : State) : Res := .next (issueStep c errs (some .scaAdd) s)

/-- SCA_DRAIN (R239). -/
def execScaDrain (c : CoreId) (errs : List LineErr) (s : State) : Res := .next (issueStep c errs (some .scaDrain) s)

/-- ALU (R245). -/
def execAlu (c : CoreId) (errs : List LineErr) (s : State) : Res := .next (issueStep c errs (some .alu) s)

/-- ALUI (R245). -/
def execAlui (c : CoreId) (errs : List LineErr) (s : State) : Res := .next (issueStep c errs (some .alui) s)

/-- LI (R245). -/
def execLi (c : CoreId) (errs : List LineErr) (s : State) : Res := .next (issueStep c errs (some .li) s)

/-- LUI (R245). -/
def execLui (c : CoreId) (errs : List LineErr) (s : State) : Res := .next (issueStep c errs (some .lui) s)

/-- CMP (R245). -/
def execCmp (c : CoreId) (errs : List LineErr) (s : State) : Res := .next (issueStep c errs (some .cmp) s)

/-- CMPI (R245). -/
def execCmpi (c : CoreId) (errs : List LineErr) (s : State) : Res := .next (issueStep c errs (some .cmpi) s)

/-- PLOG (R245). -/
def execPlog (c : CoreId) (errs : List LineErr) (s : State) : Res := .next (issueStep c errs (some .plog) s)

/-- LD (R256). -/
def execLd (c : CoreId) (errs : List LineErr) (s : State) : Res := .next (issueStep c errs (some .ld) s)

/-- ST (R256). -/
def execSt (c : CoreId) (errs : List LineErr) (s : State) : Res := .next (issueStep c errs (some .st) s)

/-- RDS (R257). -/
def execRds (c : CoreId) (errs : List LineErr) (s : State) : Res := .next (issueStep c errs (some .rds) s)

/-- WRS (R257). -/
def execWrs (c : CoreId) (errs : List LineErr) (s : State) : Res := .next (issueStep c errs (some .wrs) s)

/-- BR (R259). -/
def execBr (c : CoreId) (errs : List LineErr) (s : State) : Res := .next (issueStep c errs (some .br) s)

/-- BRR (R259). -/
def execBrr (c : CoreId) (errs : List LineErr) (s : State) : Res := .next (issueStep c errs (some .brr) s)

/-- CALL (R259). -/
def execCall (c : CoreId) (errs : List LineErr) (s : State) : Res := .next (issueStep c errs (some .call) s)

/-- RET (R259). -/
def execRet (c : CoreId) (errs : List LineErr) (s : State) : Res := .next (issueStep c errs (some .ret) s)

/-- LOOP (R258). -/
def execLoop (c : CoreId) (errs : List LineErr) (s : State) : Res := .next (issueStep c errs (some .loop) s)

/-- LOOPI (R258). -/
def execLoopi (c : CoreId) (errs : List LineErr) (s : State) : Res := .next (issueStep c errs (some .loopi) s)

/-- QWAIT (R250). -/
def execQwait (c : CoreId) (errs : List LineErr) (s : State) : Res := .next (issueStep c errs (some .qwait) s)

/-- FRAME_WAIT (R254). -/
def execFrameWait (c : CoreId) (errs : List LineErr) (s : State) : Res := .next (issueStep c errs (some .frameWait) s)

/-- TRAP (R261). -/
def execTrap (c : CoreId) (errs : List LineErr) (s : State) : Res := .next (issueStep c errs (some .trap) s)

/-- WAIT (R252). -/
def execWait (c : CoreId) (errs : List LineErr) (s : State) : Res := .next (issueStep c errs (some .wait) s)

/-- SIG (R252). -/
def execSig (c : CoreId) (errs : List LineErr) (s : State) : Res := .next (issueStep c errs (some .sig) s)

/-- SIGR (R253). -/
def execSigr (c : CoreId) (errs : List LineErr) (s : State) : Res := .next (issueStep c errs (some .sigr) s)

/-- NOP (R245). -/
def execNop (c : CoreId) (errs : List LineErr) (s : State) : Res := .next (issueStep c errs (some .nop) s)

/-- COPY (R268). -/
def execCopy (c : CoreId) (errs : List LineErr) (s : State) : Res := .next (issueStep c errs (some .copy) s)

/-- GET (R269). -/
def execGet (c : CoreId) (errs : List LineErr) (s : State) : Res := .next (issueStep c errs (some .get) s)

/-- GETX (R273). -/
def execGetx (c : CoreId) (errs : List LineErr) (s : State) : Res := .next (issueStep c errs (some .getx) s)

/-- PUT (R270). -/
def execPut (c : CoreId) (errs : List LineErr) (s : State) : Res := .next (issueStep c errs (some .put) s)

/-- FETCH (R271). -/
def execFetch (c : CoreId) (errs : List LineErr) (s : State) : Res := .next (issueStep c errs (some .fetch) s)

/-- STORE (R271). -/
def execStore (c : CoreId) (errs : List LineErr) (s : State) : Res := .next (issueStep c errs (some .store) s)

/-- STORE_RING (R271). -/
def execStoreRing (c : CoreId) (errs : List LineErr) (s : State) : Res := .next (issueStep c errs (some .storeRing) s)

/-- GATHER (R272). -/
def execGather (c : CoreId) (errs : List LineErr) (s : State) : Res := .next (issueStep c errs (some .gather) s)

/-- CREDIT_REQ (R270). -/
def execCreditReq (c : CoreId) (errs : List LineErr) (s : State) : Res := .next (issueStep c errs (some .creditReq) s)

/-- CREDIT_RET (R270). -/
def execCreditRet (c : CoreId) (errs : List LineErr) (s : State) : Res := .next (issueStep c errs (some .creditRet) s)

/-- VALU (R197). -/
def execValu (c : CoreId) (errs : List LineErr) (s : State) : Res := .next (issueStep c errs (some .valu) s)

/-- VFMA (R197). -/
def execVfma (c : CoreId) (errs : List LineErr) (s : State) : Res := .next (issueStep c errs (some .vfma) s)

/-- VSF (R201). -/
def execVsf (c : CoreId) (errs : List LineErr) (s : State) : Res := .next (issueStep c errs (some .vsf) s)

/-- VRED (R277). -/
def execVred (c : CoreId) (errs : List LineErr) (s : State) : Res := .next (issueStep c errs (some .vred) s)

/-- VBCAST (R277). -/
def execVbcast (c : CoreId) (errs : List LineErr) (s : State) : Res := .next (issueStep c errs (some .vbcast) s)

/-- VEXT (R265). -/
def execVext (c : CoreId) (errs : List LineErr) (s : State) : Res := .next (issueStep c errs (some .vext) s)

/-- VLD (R278). -/
def execVld (c : CoreId) (errs : List LineErr) (s : State) : Res := .next (issueStep c errs (some .vld) s)

/-- VST (R278). -/
def execVst (c : CoreId) (errs : List LineErr) (s : State) : Res := .next (issueStep c errs (some .vst) s)

/-- VCVT (R278). -/
def execVcvt (c : CoreId) (errs : List LineErr) (s : State) : Res := .next (issueStep c errs (some .vcvt) s)

/-- ARGMAX (R279). -/
def execArgmax (c : CoreId) (errs : List LineErr) (s : State) : Res := .next (issueStep c errs (some .argmax) s)

/-- TOPK (R285). -/
def execTopk (c : CoreId) (errs : List LineErr) (s : State) : Res := .next (issueStep c errs (some .topk) s)

/-- MERGE (R294). -/
def execMerge (c : CoreId) (errs : List LineErr) (s : State) : Res := .next (issueStep c errs (some .merge) s)

/-- COMMIT (R255). -/
def execCommit (c : CoreId) (errs : List LineErr) (s : State) : Res := .next (issueStep c errs (some .commit) s)

/-- ILLEGAL_OP (R243, R244): the word at pc is not a legal instruction. -/
def execIllegalOp (c : CoreId) (errs : List LineErr) (s : State) : Res := .next (issueStep c errs none s)

/-- QWAIT_RELEASE (R250). -/
def execQwaitRelease (c : CoreId) (errs : List LineErr) (s : State) : Res := .next (qwaitRelease c errs s)

/-- FRAME_WAIT_RETURN (R254). -/
def execFrameWaitReturn (c : CoreId) (errs : List LineErr) (s : State) : Res := .next (frameWaitReturn c errs s)

/-- WAIT_RELEASE (R252): waiting WAITs at the heads of their queues are tested in ascending queue number. -/
def execWaitRelease (c : CoreId) (errs : List LineErr) (s : State) : Res := .next (settle c (strike errs s))

end Sys2Proof.Machine
end

