-- ==== Sys2Proof/Machine/Dispatch.lean ====
section
/-! DEFINITION. What each command does: one arm per constructor, one call per arm. -/

namespace Sys2Proof.Machine

open Sys2Proof

def exec (i : Instr) (s : State) : Host.Outcome State Fault Refusal :=
  match i with
  | .registerWrite req off w v => Sys2Proof.Machine.execRegisterWrite req off w v s
  | .unoccupiedAccess req addr w wr v => Sys2Proof.Machine.execUnoccupiedAccess req addr w wr v s
  | .counterReadLow req off => Sys2Proof.Machine.execCounterReadLow req off s
  | .counterClear req off v => Sys2Proof.Machine.execCounterClear req off v s
  | .fbRegisterWrite req off w v => Sys2Proof.Machine.execFbRegisterWrite req off w v s
  | .frameTimerExpire => Sys2Proof.Machine.execFrameTimerExpire s
  | .timeInEdge j rising => Sys2Proof.Machine.execTimeInEdge j rising s
  | .swFence => Sys2Proof.Machine.execSwFence s
  | .fenceFlitReceive p => Sys2Proof.Machine.execFenceFlitReceive p s
  | .fenceMissing => Sys2Proof.Machine.execFenceMissing s
  | .guardStart => Sys2Proof.Machine.execGuardStart s
  | .frameEnable => Sys2Proof.Machine.execFrameEnable s
  | .frameDisable => Sys2Proof.Machine.execFrameDisable s
  | .loadFb => Sys2Proof.Machine.execLoadFb s
  | .gridHandoverComplete => Sys2Proof.Machine.execGridHandoverComplete s
  | .commit c errs => Sys2Proof.Machine.execCommit c errs s
  | .commitPoint c => Sys2Proof.Machine.execCommitPoint c s
  | .loftCopyComplete c => Sys2Proof.Machine.execLoftCopyComplete c s
  | .deadlineExpire k => Sys2Proof.Machine.execDeadlineExpire k s
  | .trapReportArrive src => Sys2Proof.Machine.execTrapReportArrive src s
  | .poisonReport src => Sys2Proof.Machine.execPoisonReport src s
  | .abortFlitReceive => Sys2Proof.Machine.execAbortFlitReceive s
  | .ethLinkChange p up => Sys2Proof.Machine.execEthLinkChange p up s
  | .usxgmiiRateChange p mbps => Sys2Proof.Machine.execUsxgmiiRateChange p mbps s
  | .ethFrameReceive p b ago noRoom => Sys2Proof.Machine.execEthFrameReceive p b ago noRoom s
  | .ethRingTailWrite p ring v => Sys2Proof.Machine.execEthRingTailWrite p ring v s
  | .ethTransmit p => Sys2Proof.Machine.execEthTransmit p s
  | .hello p => Sys2Proof.Machine.execHello p s
  | .ident p => Sys2Proof.Machine.execIdent p s
  | .response p => Sys2Proof.Machine.execResponse p s
  | .identTimeout n => Sys2Proof.Machine.execIdentTimeout n s
  | .responseTimeout n => Sys2Proof.Machine.execResponseTimeout n s
  | .configEcho p => Sys2Proof.Machine.execConfigEcho p s
  | .configEchoTimeout n => Sys2Proof.Machine.execConfigEchoTimeout n s
  | .health p => Sys2Proof.Machine.execHealth p s
  | .life p => Sys2Proof.Machine.execLife p s
  | .scanSync n start period sweep => Sys2Proof.Machine.execScanSync n start period sweep s
  | .pointBlock p => Sys2Proof.Machine.execPointBlock p s
  | .parseProgWrite m w v => Sys2Proof.Machine.execParseProgWrite m w v s
  | .headOntimeTick => Sys2Proof.Machine.execHeadOntimeTick s
  | .lifeRecordWrite n shutdown => Sys2Proof.Machine.execLifeRecordWrite n shutdown s
  | .publish d => Sys2Proof.Machine.execPublish d s
  | .timeAdvance => Sys2Proof.Machine.execTimeAdvance s
  | .timeRateWrite v => Sys2Proof.Machine.execTimeRateWrite v s
  | .timeStepAbsolute => Sys2Proof.Machine.execTimeStepAbsolute s
  | .timeStepOffset => Sys2Proof.Machine.execTimeStepOffset s
  | .timeNowRead r => Sys2Proof.Machine.execTimeNowRead r s
  | .ptpMessage p slave peer => Sys2Proof.Machine.execPtpMessage p slave peer s
  | .servoHoldover => Sys2Proof.Machine.execServoHoldover s
  | .toutEdge pin => Sys2Proof.Machine.execToutEdge pin s
  | .toutPulseEnd pin => Sys2Proof.Machine.execToutPulseEnd pin s
  | .toutCfgWrite pin which v => Sys2Proof.Machine.execToutCfgWrite pin which v s
  | .tinCapRead j => Sys2Proof.Machine.execTinCapRead j s
  | .gridBlockTransform lat spoiled us => Sys2Proof.Machine.execGridBlockTransform lat spoiled us s
  | .gridWindowRead src us => Sys2Proof.Machine.execGridWindowRead src us s
  | .gridElevWrite n ch v => Sys2Proof.Machine.execGridElevWrite n ch v s
  | .gridLatMaxRead => Sys2Proof.Machine.execGridLatMaxRead s
  | .rbTile wait us => Sys2Proof.Machine.execRbTile wait us s
  | .rbTileSignal c => Sys2Proof.Machine.execRbTileSignal c s
  | .rbJobWrite o v => Sys2Proof.Machine.execRbJobWrite o v s
  | .calSample us => Sys2Proof.Machine.execCalSample us s
  | .calProposal n => Sys2Proof.Machine.execCalProposal n s
  | .calSoftwareWrite n idx v => Sys2Proof.Machine.execCalSoftwareWrite n idx v s
  | .calFreeze => Sys2Proof.Machine.execCalFreeze s
  | .calUnfreeze => Sys2Proof.Machine.execCalUnfreeze s
  | .calDisable => Sys2Proof.Machine.execCalDisable s
  | .shelfWrite req c sh v => Sys2Proof.Machine.execShelfWrite req c sh v s
  | .rawWindowWrite src c line d => Sys2Proof.Machine.execRawWindowWrite src c line d s
  | .remoteReadServe src c errs => Sys2Proof.Machine.execRemoteReadServe src c errs s
  | .remoteWriteApply src c => Sys2Proof.Machine.execRemoteWriteApply src c s
  | .remoteReadResponse src c errs => Sys2Proof.Machine.execRemoteReadResponse src c errs s
  | .writeAckReceive src c errs => Sys2Proof.Machine.execWriteAckReceive src c errs s
  | .creditRequestReceive src c => Sys2Proof.Machine.execCreditRequestReceive src c s
  | .creditGrant c pool => Sys2Proof.Machine.execCreditGrant c pool s
  | .creditTimeout c pool idx => Sys2Proof.Machine.execCreditTimeout c pool idx s
  | .creditGrantReceive c dst errs => Sys2Proof.Machine.execCreditGrantReceive c dst errs s
  | .wload c errs => Sys2Proof.Machine.execWload c errs s
  | .mm c errs => Sys2Proof.Machine.execMm c errs s
  | .mmg c errs => Sys2Proof.Machine.execMmg c errs s
  | .mms c errs => Sys2Proof.Machine.execMms c errs s
  | .mmp c errs => Sys2Proof.Machine.execMmp c errs s
  | .accInit c errs => Sys2Proof.Machine.execAccInit c errs s
  | .accDrain c errs => Sys2Proof.Machine.execAccDrain c errs s
  | .part c errs => Sys2Proof.Machine.execPart c errs s
  | .pack c errs => Sys2Proof.Machine.execPack c errs s
  | .matchLoad c errs => Sys2Proof.Machine.execMatchLoad c errs s
  | .matchProbe c errs => Sys2Proof.Machine.execMatchProbe c errs s
  | .predGate c errs => Sys2Proof.Machine.execPredGate c errs s
  | .gateReport c => Sys2Proof.Machine.execGateReport c s
  | .scaInit c errs => Sys2Proof.Machine.execScaInit c errs s
  | .scaAdd c errs => Sys2Proof.Machine.execScaAdd c errs s
  | .scaDrain c errs => Sys2Proof.Machine.execScaDrain c errs s
  | .alu c errs => Sys2Proof.Machine.execAlu c errs s
  | .alui c errs => Sys2Proof.Machine.execAlui c errs s
  | .li c errs => Sys2Proof.Machine.execLi c errs s
  | .lui c errs => Sys2Proof.Machine.execLui c errs s
  | .cmp c errs => Sys2Proof.Machine.execCmp c errs s
  | .cmpi c errs => Sys2Proof.Machine.execCmpi c errs s
  | .plog c errs => Sys2Proof.Machine.execPlog c errs s
  | .ld c errs => Sys2Proof.Machine.execLd c errs s
  | .st c errs => Sys2Proof.Machine.execSt c errs s
  | .rds c errs => Sys2Proof.Machine.execRds c errs s
  | .wrs c errs => Sys2Proof.Machine.execWrs c errs s
  | .br c errs => Sys2Proof.Machine.execBr c errs s
  | .brr c errs => Sys2Proof.Machine.execBrr c errs s
  | .call c errs => Sys2Proof.Machine.execCall c errs s
  | .ret c errs => Sys2Proof.Machine.execRet c errs s
  | .loop c errs => Sys2Proof.Machine.execLoop c errs s
  | .loopi c errs => Sys2Proof.Machine.execLoopi c errs s
  | .qwait c errs => Sys2Proof.Machine.execQwait c errs s
  | .qwaitRelease c errs => Sys2Proof.Machine.execQwaitRelease c errs s
  | .frameWait c errs => Sys2Proof.Machine.execFrameWait c errs s
  | .frameWaitReturn c errs => Sys2Proof.Machine.execFrameWaitReturn c errs s
  | .trap c errs => Sys2Proof.Machine.execTrap c errs s
  | .wait c errs => Sys2Proof.Machine.execWait c errs s
  | .waitRelease c errs => Sys2Proof.Machine.execWaitRelease c errs s
  | .sig c errs => Sys2Proof.Machine.execSig c errs s
  | .sigr c errs => Sys2Proof.Machine.execSigr c errs s
  | .signalReceive src c => Sys2Proof.Machine.execSignalReceive src c s
  | .nop c errs => Sys2Proof.Machine.execNop c errs s
  | .copy c errs => Sys2Proof.Machine.execCopy c errs s
  | .get c errs => Sys2Proof.Machine.execGet c errs s
  | .getx c errs => Sys2Proof.Machine.execGetx c errs s
  | .put c errs => Sys2Proof.Machine.execPut c errs s
  | .fetch c errs => Sys2Proof.Machine.execFetch c errs s
  | .store c errs => Sys2Proof.Machine.execStore c errs s
  | .storeRing c errs => Sys2Proof.Machine.execStoreRing c errs s
  | .gather c errs => Sys2Proof.Machine.execGather c errs s
  | .creditReq c errs => Sys2Proof.Machine.execCreditReq c errs s
  | .creditRet c errs => Sys2Proof.Machine.execCreditRet c errs s
  | .valu c errs => Sys2Proof.Machine.execValu c errs s
  | .vfma c errs => Sys2Proof.Machine.execVfma c errs s
  | .vsf c errs => Sys2Proof.Machine.execVsf c errs s
  | .vred c errs => Sys2Proof.Machine.execVred c errs s
  | .vbcast c errs => Sys2Proof.Machine.execVbcast c errs s
  | .vext c errs => Sys2Proof.Machine.execVext c errs s
  | .vld c errs => Sys2Proof.Machine.execVld c errs s
  | .vst c errs => Sys2Proof.Machine.execVst c errs s
  | .vcvt c errs => Sys2Proof.Machine.execVcvt c errs s
  | .argmax c errs => Sys2Proof.Machine.execArgmax c errs s
  | .topk c errs => Sys2Proof.Machine.execTopk c errs s
  | .merge c errs => Sys2Proof.Machine.execMerge c errs s
  | .smuContextAssign => Sys2Proof.Machine.execSmuContextAssign s
  | .smuResolve ctx errs => Sys2Proof.Machine.execSmuResolve ctx errs s
  | .mapGatherStart errs => Sys2Proof.Machine.execMapGatherStart errs s
  | .mapFetchReturn ctx p es => Sys2Proof.Machine.execMapFetchReturn ctx p es s
  | .mapUpdate wait es => Sys2Proof.Machine.execMapUpdate wait es s
  | .mapUpdTailWrite v => Sys2Proof.Machine.execMapUpdTailWrite v s
  | .mapSelReload es => Sys2Proof.Machine.execMapSelReload es s
  | .getInfo => Sys2Proof.Machine.execGetInfo s
  | .trunkLoad => Sys2Proof.Machine.execTrunkLoad s
  | .trunkLaunch => Sys2Proof.Machine.execTrunkLaunch s
  | .launchCopyComplete k first => Sys2Proof.Machine.execLaunchCopyComplete k first s
  | .trunkStop => Sys2Proof.Machine.execTrunkStop s
  | .trunkUnload => Sys2Proof.Machine.execTrunkUnload s
  | .trunkQuery => Sys2Proof.Machine.execTrunkQuery s
  | .mboxUnknown => Sys2Proof.Machine.execMboxUnknown s
  | .memTrain => Sys2Proof.Machine.execMemTrain s
  | .memTrainComplete bad => Sys2Proof.Machine.execMemTrainComplete bad s
  | .memFill => Sys2Proof.Machine.execMemFill s
  | .memFillComplete => Sys2Proof.Machine.execMemFillComplete s
  | .memRead src es => Sys2Proof.Machine.execMemRead src es s
  | .memWrite src retries bad => Sys2Proof.Machine.execMemWrite src retries bad s
  | .memScrub linkCe retries linkBad ce ue => Sys2Proof.Machine.execMemScrub linkCe retries linkBad ce ue s
  | .bar2Access off n wr data ep es => Sys2Proof.Machine.execBar2Access off n wr data ep es s
  | .hqDoorbell q v => Sys2Proof.Machine.execHqDoorbell q v s
  | .hqDescriptorStart q desc data bad => Sys2Proof.Machine.execHqDescriptorStart q desc data bad s
  | .hqDescriptorComplete q es errs => Sys2Proof.Machine.execHqDescriptorComplete q es errs s
  | .hqDisable q => Sys2Proof.Machine.execHqDisable q s
  | .functionLevelReset f => Sys2Proof.Machine.execFunctionLevelReset f s
  | .pcieLinkDown => Sys2Proof.Machine.execPcieLinkDown s
  | .pciePerst low => Sys2Proof.Machine.execPciePerst low s
  | .hostAbort req k => Sys2Proof.Machine.execHostAbort req k s
  | .lxlFlitReceive p f => Sys2Proof.Machine.execLxlFlitReceive p f s
  | .lxlReplay p ack => Sys2Proof.Machine.execLxlReplay p ack s
  | .lxlDown p => Sys2Proof.Machine.execLxlDown p s
  | .lxlTrainingComplete p ok x y port => Sys2Proof.Machine.execLxlTrainingComplete p ok x y port s
  | .lxlRetrain p => Sys2Proof.Machine.execLxlRetrain p s
  | .linkTopoWrite v => Sys2Proof.Machine.execLinkTopoWrite v s
  | .linkEnable => Sys2Proof.Machine.execLinkEnable s
  | .commitReady => Sys2Proof.Machine.execCommitReady s
  | .commitDecision => Sys2Proof.Machine.execCommitDecision s
  | .pwrDomTargetWrite d v => Sys2Proof.Machine.execPwrDomTargetWrite d v s
  | .pwrAdmit r => Sys2Proof.Machine.execPwrAdmit r s
  | .domainLeaveRun d => Sys2Proof.Machine.execDomainLeaveRun d s
  | .domainTransitionEnd d => Sys2Proof.Machine.execDomainTransitionEnd d s
  | .wakeRampEnd d => Sys2Proof.Machine.execWakeRampEnd d s
  | .pwrWakeSlow d => Sys2Proof.Machine.execPwrWakeSlow d s
  | .pbaWindow want held => Sys2Proof.Machine.execPbaWindow want held s
  | .avsAck => Sys2Proof.Machine.execAvsAck s
  | .pllLock => Sys2Proof.Machine.execPllLock s
  | .cclkSwitch => Sys2Proof.Machine.execCclkSwitch s
  | .avsTimeout => Sys2Proof.Machine.execAvsTimeout s
  | .standbyEnter => Sys2Proof.Machine.execStandbyEnter s
  | .standbyWake src => Sys2Proof.Machine.execStandbyWake src s
  | .powerPolicy => Sys2Proof.Machine.execPowerPolicy s
  | .telemetryUpdate r v => Sys2Proof.Machine.execTelemetryUpdate r v s
  | .xtalJudgeWindow count => Sys2Proof.Machine.execXtalJudgeWindow count s
  | .refLost r => Sys2Proof.Machine.execRefLost r s
  | .refReturn r => Sys2Proof.Machine.execRefReturn r s
  | .clkRelock => Sys2Proof.Machine.execClkRelock s
  | .clkPllCfgWrite gclk v => Sys2Proof.Machine.execClkPllCfgWrite gclk v s
  | .clkObsCfgWrite v => Sys2Proof.Machine.execClkObsCfgWrite v s
  | .rotCopyStart => Sys2Proof.Machine.execRotCopyStart s
  | .rotCopyComplete errs => Sys2Proof.Machine.execRotCopyComplete errs s
  | .rotStateTransfer => Sys2Proof.Machine.execRotStateTransfer s
  | .lbistSliceEnd sig => Sys2Proof.Machine.execLbistSliceEnd sig s
  | .marchPassEnd bad => Sys2Proof.Machine.execMarchPassEnd bad s
  | .rotateNow => Sys2Proof.Machine.execRotateNow s
  | .testCore => Sys2Proof.Machine.execTestCore s
  | .scRotation pass => Sys2Proof.Machine.execScRotation pass s
  | .scWatchdog h => Sys2Proof.Machine.execScWatchdog h s
  | .fenceReqWrite req v => Sys2Proof.Machine.execFenceReqWrite req v s
  | .thermalFault t => Sys2Proof.Machine.execThermalFault t s
  | .thermWarn t => Sys2Proof.Machine.execThermWarn t s
  | .thermtrip => Sys2Proof.Machine.execThermtrip s
  | .safeEnter req => Sys2Proof.Machine.execSafeEnter req s
  | .safeRelease req => Sys2Proof.Machine.execSafeRelease req s
  | .faultLogFlashCopy => Sys2Proof.Machine.execFaultLogFlashCopy s
  | .reset strap => Sys2Proof.Machine.execReset strap s
  | .bootRomStart bad polls => Sys2Proof.Machine.execBootRomStart bad polls s
  | .hostImageGo bad polls => Sys2Proof.Machine.execHostImageGo bad polls s
  | .secFuseCmd req v fail => Sys2Proof.Machine.execSecFuseCmd req v fail s
  | .secMeasExt req v => Sys2Proof.Machine.execSecMeasExt req v s
  | .svnAdvance => Sys2Proof.Machine.execSvnAdvance s
  | .attest => Sys2Proof.Machine.execAttest s
  | .debugChallengeRead => Sys2Proof.Machine.execDebugChallengeRead s
  | .debugUnlock cert ed ml => Sys2Proof.Machine.execDebugUnlock cert ed ml s
  | .pcieLinkUp => Sys2Proof.Machine.execPcieLinkUp s
  | .voltageSettleEnd => Sys2Proof.Machine.execVoltageSettleEnd s
  | .thermalClear t => Sys2Proof.Machine.execThermalClear t s
  | .selClearingEnd t => Sys2Proof.Machine.execSelClearingEnd t s
  | .illegalOp c errs => Sys2Proof.Machine.execIllegalOp c errs s
  | .ptpSyncTransmit p => Sys2Proof.Machine.execPtpSyncTransmit p s

end Sys2Proof.Machine
end

