-- ==== Sys2Proof/Safety.lean ====
section
/-! DEFINITION. What counts as a safe run: the terms in which statements about the whole device are made. -/

namespace Sys2Proof.Safety

open Sys2Proof Sys2Proof.Machine

/-- A thermometer code: below every set bit the next lower bit is set (Table 22.6). -/
abbrev thermometer (x : BitVec 64) : Prop := x >>> 1 &&& x = x >>> 1

/-- The fuses hold a state that programming can reach (Tables 22.6 and 22.7): a life cycle the table names, thermometer codes in
both security-version fields, and an owner's root wherever the life cycle says that there is one. -/
abbrev FuseOk (f : FuseSt) : Prop :=
  (f.lifecycle = 0 ∨ f.lifecycle = 1 ∨ f.lifecycle = 3 ∨ f.lifecycle = 7) ∧ thermometer f.fwSvn ∧ thermometer f.trunkSvn ∧
    (f.lifecycle = 3 → f.rootO ≠ 0)

/-- Every bit that is programmed in `f` is programmed in `g`, and the fields that no command programs are the same (R414). -/
abbrev FuseRise (f g : FuseSt) : Prop :=
  f.rootO &&& g.rootO = f.rootO ∧ f.lifecycle &&& g.lifecycle = f.lifecycle ∧ f.fwSvn &&& g.fwSvn = f.fwSvn ∧
    f.trunkSvn &&& g.trunkSvn = f.trunkSvn ∧ g.serial = f.serial ∧ g.rootV = f.rootV ∧ g.repair = f.repair

/-! ## A core that issues -/

/-- Core `c` is at an instruction of row `m` that nothing holds up: it issues in a powered domain, the word at its pc is `w` (and
`w1` after it), legal (R243) and enabled by its predicate, its unit queues and its scoreboard are empty, its first FRAME_WAIT
has returned (R254), and its operands name registers that exist (R246). -/
abbrev Ready (c : CoreId) (m : Mn) (w w1 : Word) (s : State) : Prop :=
  (s.core c).issue = .running ∧ domRun s c.val = true ∧ (s.core c).queues = Vector.replicate 6 [] ∧
    (s.core c).active = [] ∧ (s.core c).pendS = 0 ∧ (s.core c).pendP = 0 ∧ (s.core c).fwDone = true ∧
    fetchWord c s = (⟨0, w, w1⟩, s) ∧ issueMn (s.core c) w w1 = some m ∧ (rdP (s.core c) (iPr w) == iPn w) = false ∧
    pairRange m w = false

/-- The instruction as it enters its unit queue: its operands captured (R265). -/
def issuedOp (c : CoreId) (m : Mn) (w w1 : Word) (s : State) : Op := capture (s.core c) m (s.core c).pc w w1

/-- The state right after the issue of a queue instruction: it waits alone in its queue, the registers it writes are pending,
the pc has moved past it, and SEQ_ISSUE_CNT has counted it (R245 to R248). -/
def issued (c : CoreId) (m : Mn) (w w1 : Word) (s : State) : State :=
  bumpC c Reg.SEQ_ISSUE_CNT (s.modCore c fun k =>
    let o := issuedOp c m w w1 s
    let k := setPending m w k
    let k := { k with nextSeq := k.nextSeq + 1, committed := if m = .commit && k.committed.isNone then some o.seq else k.committed }
    advance (o.pc + if iLong w then 2 else 1) (setQueue k (iQ w) [o]))

/-- The instruction has left its unit queue. -/
def retire (c : CoreId) (w : Word) (s : State) : State := s.modCore c fun k => setQueue k (iQ w) []

/-- The instruction has left its unit queue and runs on as `a`. -/
def started (c : CoreId) (w : Word) (a : Active) (s : State) : State :=
  (retire c w s).modCore c fun k => { k with active := k.active ++ [a] }

/-- The instruction has left its unit queue and its core has trapped at it: `pc` is the instruction's own (R261). -/
def trappedAt (c : CoreId) (code arg pc : Nat) (w : Word) (s : State) : State :=
  coreTrap c code (iQ w) pc w arg (retire c w s)

/-- The command of an instruction's row. -/
def rowOf (m : Mn) (c : CoreId) (errs : List LineErr) : Instr :=
  match m with
  | .alu => .alu c errs | .alui => .alui c errs | .li => .li c errs | .lui => .lui c errs
  | .cmp => .cmp c errs | .cmpi => .cmpi c errs | .plog => .plog c errs | .ld => .ld c errs
  | .st => .st c errs | .rds => .rds c errs | .wrs => .wrs c errs | .br => .br c errs
  | .brr => .brr c errs | .call => .call c errs | .ret => .ret c errs | .loop => .loop c errs
  | .loopi => .loopi c errs | .qwait => .qwait c errs | .frameWait => .frameWait c errs | .commit => .commit c errs
  | .trap => .trap c errs | .wait => .wait c errs | .sig => .sig c errs | .sigr => .sigr c errs
  | .nop => .nop c errs | .copy => .copy c errs | .get => .get c errs | .getx => .getx c errs
  | .put => .put c errs | .fetch => .fetch c errs | .store => .store c errs | .storeRing => .storeRing c errs
  | .gather => .gather c errs | .creditReq => .creditReq c errs | .creditRet => .creditRet c errs | .wload => .wload c errs
  | .mm => .mm c errs | .mmg => .mmg c errs | .mms => .mms c errs | .mmp => .mmp c errs
  | .accInit => .accInit c errs | .accDrain => .accDrain c errs | .part => .part c errs | .vld => .vld c errs
  | .vst => .vst c errs | .valu => .valu c errs | .vfma => .vfma c errs | .vsf => .vsf c errs
  | .vcvt => .vcvt c errs | .vred => .vred c errs | .vbcast => .vbcast c errs | .vext => .vext c errs
  | .argmax => .argmax c errs | .predGate => .predGate c errs | .pack => .pack c errs | .matchLoad => .matchLoad c errs
  | .matchProbe => .matchProbe c errs | .scaInit => .scaInit c errs | .scaAdd => .scaAdd c errs | .scaDrain => .scaDrain c errs
  | .topk => .topk c errs | .merge => .merge c errs

/-- What an instruction that leaves its queue comes to, by what its unit answers; `pc` is the instruction's own. -/
def ran (c : CoreId) (pc : Nat) (w : Word) (u : State) (x : Start) : State :=
  match x with
  | .done t => retire c w t
  | .active a t => started c w a t
  | .trap code arg t => trappedAt c code arg pc w t
  | .hold => u

/-- The state right after the sequencer has counted an instruction that it resolves itself (R245). -/
def resolved (c : CoreId) (m : Mn) (w : Word) (s : State) : State :=
  bumpC c Reg.SEQ_ISSUE_CNT (s.modCore c (setPending m w))

/-- The array takes a product (R169, R170, R185, R186, R214, R229): operands and formats pass, bank `b` is current or named, the
rows fit the partition, no gated set is named where none may be, and the weight sets `ws` are loaded and fit. -/
abbrev ProductOk (a : ArraySt) (o : Op) (kind : Nat) (g : Bool) (b : Nat) (ws : WSet × WSet) : Prop :=
  a.stopped = false ∧ productArgs o kind g = 0 ∧ pickBank a (fld o.w1 8 7) false = some b ∧ productWide a o kind g = false ∧
    namesGated a o kind = false ∧ productSets a o kind = some ws ∧ productFit a o kind ws.1 ws.2 = 0

/-- The rows of a product that takes gathered records (`g`) or consecutive rows, formed one after another. -/
def productRows (c : CoreId) (o : Op) (g : Bool) (p : Prod) (u : State) : RunEnd :=
  if g then runSegment c o p (fld o.w1 18 9) (productSpan o g) (segFuel u c o) (low32 o.a) (low32 o.n) false u
  else runRows c o p (p.dense == 1 && rowsPacked p.f (u.core c).array.mode) (fld o.w1 18 9) (productSpan o g) (low32 o.n) 0 false u

/-- The lines of an ungathered product's rows and scales may be reached (R266). -/
abbrev ProductRunsOk (c : CoreId) (o : Op) (g : Bool) (p : Prod) (s : State) : Prop :=
  g = true ∨
    (let packed := p.dense == 1 && rowsPacked p.f (s.core c).array.mode
     let last := inputLines p.f (s.core c).array.mode packed (p.dense * low32 o.n - 1)
     runCheck s c (lSa o.w0) (low32 o.a) (last.1 + last.2) = 0 ∧
       runCheck s c (lSc o.w0) (low32 o.c) (inScaleLines p.f (p.dense * low32 o.n)) = 0)

/-- A product of no reduction rows sets ARRAY_STAT bit 8 (R188). -/
def afterProduct (c : CoreId) (p : Prod) (t : State) : State :=
  if p.kLen = 0 then t.setF (coreOff Reg.ARRAY_STAT c) 8 8 1 else t

/-- A product that has formed its rows leaves its queue; where a check of a row has failed since the last trap, the array stops and
the core traps (R172, R183). -/
def productEnded (c : CoreId) (pc : Nat) (w : Word) (t : State) : State :=
  if arrayFailed t c then
    trappedAt c trapArrayCheck 0 pc w (modArray c (fun a => { a with failed := false, stopped := true }) t)
  else retire c w t

/-- Line `j` of shelf `i` of core `c`, in the working copy, holds `l`: written, sealed for its place, and struck by no storage
error, so that a read delivers it as it stands (R154, R158, R161). -/
abbrev GoodLine (c : CoreId) (i j : Nat) (l : Line) (s : State) : Prop :=
  let p := physOf (shelfEnt s c i) (workSecond s c i) j
  sget p (s.core c).spad = some l ∧ sget p (s.core c).upsets = none ∧ l.tag ≠ 0 ∧ tagGood (saltSpad c.val p) l = true

end Sys2Proof.Safety
end

