-- ==== Sys2Proof/Certificates/Slice0/Obligations.lean ====
section
/-! DEFINITION. The statements for the provers. -/

open Sys2Proof Sys2Proof.Machine Sys2Proof.Safety

/-! ## The queue of commands -/

/-- A step takes the command at the front of the queue and runs it with the queue's rest; by the model's choice (log entry 2) a
step on an empty queue changes nothing. -/
def Obligations.StepRunsFrontCommand : Prop :=
  (∀ (i : Instr) (s : State), step { s with pending := i :: s.pending } = exec i s) ∧
    (∀ s : State, s.pending = [] → step s = .next s)

/-- Every command completes in every state, and none touches the queue of waiting commands. -/
def Obligations.CommandsKeepQueue : Prop :=
  ∀ (i : Instr) (s : State), ∃ t, exec i s = .next t ∧ t.pending = s.pending

/-! ## Fuses -/

/-- R414: in every step each fuse bit can only go from 0 to 1, and the fields that no command programs do not change; a command
that changes fuses is the system controller's; and its SEC_FUSE_CMD programs what it names, unless it is refused (the life cycle
does not permit it, it would lower a value, its read-back fails, or the programming is locked) and raises SEC_FUSE_ERR. -/
def Obligations.FuseBitsOnlyRise : Prop :=
  (∀ s t : State, step s = .next t → FuseRise s.fuse t.fuse) ∧
  (∀ (i : Instr) (s t : State), exec i s = .next t → t.fuse ≠ s.fuse →
    i = .svnAdvance ∨ (∃ v fail, i = .secFuseCmd .sc v fail) ∨ (∃ o w v, i = .registerWrite .sc o w v) ∨
      (∃ o w v, i = .fbRegisterWrite .sc o w v) ∨ (∃ o v, i = .counterClear .sc o v) ∨
      (∃ a w v, i = .unoccupiedAccess .sc a w true v)) ∧
  (∀ (v : Word) (fail : Bool) (s : State),
    let refused := bitOf (s.reg Reg.SEC_LOCK) 1 || !fusePermits s (fld v 3 0) (fld v 15 8) ||
      fuseLowers s (fld v 3 0) (fld v 15 8) || fail
    (refused = true → exec (.secFuseCmd .sc v fail) s = .next (raise evFuseErr s)) ∧
    (refused = false → exec (.secFuseCmd .sc v fail) s = .next (fuseProgram (fld v 3 0) (fld v 15 8) s)) ∧
    (fld v 3 0 = 3 → (fuseProgram (fld v 3 0) (fld v 15 8) s).fuse =
      { s.fuse with fwSvn := s.fuse.fwSvn ||| BitVec.ofNat 64 (2 ^ fld v 15 8 - 1) }) ∧
    (fld v 3 0 = 4 → (fuseProgram (fld v 3 0) (fld v 15 8) s).fuse =
      { s.fuse with trunkSvn := s.fuse.trunkSvn ||| BitVec.ofNat 64 (2 ^ fld v 15 8 - 1) }) ∧
    (∀ req, req ≠ .sc → exec (.secFuseCmd req v fail) s = .next (accessError s)))

/-- Tables 22.6 and 22.7: every step leaves the fuses in a state that programming can reach. -/
def Obligations.FuseStateInvariant : Prop :=
  ∀ s t : State, FuseOk s.fuse → step s = .next t → FuseOk t.fuse

/-- R6, R82, R156, R373, R407, R420: the machine right after reset: no command waits, every register and every active value is at
its reset value, device time is zero, every switched domain is in DEEP, the measurements are zero, every shelf entry is invalid
and memory lists nothing; and the fuses, whose contents at reset are the model's choice (log entry 8), meet the invariant. -/
def Obligations.ResetState : Prop :=
  State.reset.pending = [] ∧ FuseOk State.reset.fuse ∧
    (∀ o, State.reset.reg o = regReset o ∧ State.reset.actReg o = regReset o) ∧
    State.reset.time.sec = 0 ∧ State.reset.time.ns = 0 ∧ State.reset.time.frac = 0 ∧
    (∀ d : Fin 48, domState State.reset d.val = 3) ∧ (∀ i : Fin 8, State.reset.sec.meas[i.val] = 0) ∧
    (∀ (c : CoreId) (i : Nat), i < 64 → seValid (shelfEnt State.reset c i) = false) ∧
    State.reset.mem.lines = [] ∧ (∀ c : CoreId, (State.reset.core c).spad = [])

/-! ## Issue -/

/-- R245, R246, R154: for every instruction of a core's program: where the next word is another row's, its command changes nothing;
where its predicate is 0, it is discarded and the pc moves past it; where a register it names is pending, or its queue is
full, only a stall is counted; storage errors that the command reports strike first. -/
def Obligations.IssueRules : Prop :=
  ∀ (c : CoreId) (m : Mn) (w w1 : Word) (s : State),
    let k := s.core c
    let atWord := k.issue = .running ∧ domRun s c.val = true ∧ k.active = [] ∧ k.fwDone = true ∧
      fetchWord c s = (⟨0, w, w1⟩, s) ∧ pump c s = s
    (∀ m', atWord → issueMn k w w1 = some m' → m' ≠ m → exec (rowOf m c []) s = .next s) ∧
    (atWord → issueMn k w w1 = some m → k.pendP = 0 → (rdP k (iPr w) == iPn w) = true →
      exec (rowOf m c []) s = .next (s.modCore c (advance (k.pc + if iLong w then 2 else 1)))) ∧
    (atWord → issueMn k w w1 = some m → iPr w ≠ 0 → k.pendP.getLsbD (iPr w) = true →
      exec (rowOf m c []) s = .next (bumpC c Reg.SEQ_STALL_DEP s)) ∧
    (∀ r, atWord → issueMn k w w1 = some m → (rdP k (iPr w) == iPn w) = false → (iPr w = 0 ∨ k.pendP.getLsbD (iPr w) = false) →
      pairRange m w = false → r ∈ readsS m w w1 ++ writesS m w → k.pendS.getLsbD r = true →
      exec (rowOf m c []) s = .next (bumpC c Reg.SEQ_STALL_DEP s)) ∧
    (atWord → issueMn k w w1 = some m → (rdP k (iPr w) == iPn w) = false → k.pendP = 0 → k.pendS = 0 →
      pairRange m w = false → isControl m = false ∨ m = .frameWait → 16 ≤ (queueOf k (iQ w)).length →
      exec (rowOf m c []) s = .next (bumpC c Reg.SEQ_STALL_QUEUE s)) ∧
    (∀ errs, Ready c m w w1 (strike errs s) → exec (rowOf m c errs) s = exec (rowOf m c []) (strike errs s))

/-- Tables 13.3 and 14.1, R245, R265: what an instruction captures of its operands at issue: the registers its format names, as
they stand then. -/
def Obligations.OperandCapture : Prop :=
  ∀ (c : CoreId) (m : Mn) (w w1 : Word) (s : State), Ready c m w w1 s →
    let k := s.core c
    let o := issuedOp c m w w1 s
    (o.mn = m ∧ o.q = fld w 2 0 ∧ o.pc = k.pc ∧ o.seq = k.nextSeq ∧ o.w0 = w ∧ o.w1 = w1) ∧
    (bitOf w 9 = true → o.a = rdS k (fld w 24 20) ∧ o.b = rdS k (fld w 35 31) ∧ o.c = rdS k (fld w 46 42) ∧
      o.n = rdS k (fld w 51 47) ∧ o.d = rdS k (fld w 56 52)) ∧
    (bitOf w 9 = false → m ≠ .sigr → o.a = rdS k (fld w 23 19) ∧ o.b = rdS k (fld w 28 24) ∧ o.d = rdS k (fld w 18 14)) ∧
    (m = .sigr → o.a = rdS k (fld w 30 26) ∧ o.b = rdS k (fld w 35 31))

/-! ## A core's scalar instructions -/

/-- Table 13.1: s0 reads zero and p0 reads one, and writes to them are discarded; another register reads what was written, and
the registers beside it are as before. -/
def Obligations.RegisterZeroAndReadBack : Prop :=
  ∀ (c : CoreId) (s : State),
    (rdS (s.core c) 0 = 0 ∧ rdP (s.core c) 0 = true) ∧
    (∀ v : Word, ((wrS c 0 v s).core c).s = (s.core c).s) ∧
    (∀ v : Bool, ((wrP c 0 v s).core c).p = (s.core c).p) ∧
    (∀ (d r : Nat) (v : Word), 0 < d → d < 32 →
      rdS ((wrS c d v s).core c) r = if r = d then v else rdS (s.core c) r) ∧
    (∀ (d r : Nat) (v : Bool), 0 < d → d < 8 → r < 8 →
      rdP ((wrP c d v s).core c) r = if r = d then v else rdP (s.core c) r)

/-- Tables 13.4 to 13.6: an arithmetic or comparison instruction that nothing holds up completes with the value the tables give,
its operands read before it. -/
def Obligations.ScalarResults : Prop :=
  ∀ (c : CoreId) (w w1 : Word) (s : State),
    let a := rdS (s.core c) (iA w)
    let b := rdS (s.core c) (iB w)
    (Ready c .alu w w1 s →
      exec (.alu c []) s = .next (retire c w (wrS c (iD w) (aluFn (iX w % 16) a b) (issued c .alu w w1 s)))) ∧
    (Ready c .alui w w1 s →
      exec (.alui c []) s = .next (retire c w (wrS c (iD w) (aluFn (iF w % 16) a (iImm w)) (issued c .alui w w1 s)))) ∧
    (Ready c .li w w1 s →
      exec (.li c []) s = .next (retire c w (wrS c (iD w) (iImm w) (issued c .li w w1 s)))) ∧
    (Ready c .lui w w1 s →
      exec (.lui c []) s = .next (retire c w
        (wrS c (iD w) (BitVec.ofNat 64 (a.toNat % 2 ^ 32 + iImmN w * 2 ^ 32)) (issued c .lui w w1 s)))) ∧
    (Ready c .cmp w w1 s →
      exec (.cmp c []) s = .next (retire c w (wrP c (iD w) (cmpFn (iX w % 8) a b) (issued c .cmp w w1 s)))) ∧
    (Ready c .cmpi w w1 s →
      exec (.cmpi c []) s = .next (retire c w (wrP c (iD w) (cmpFn (iF w % 8) a (iImm w)) (issued c .cmpi w w1 s)))) ∧
    (Ready c .plog w w1 s →
      exec (.plog c []) s = .next (retire c w (wrP c (iD w)
        ((iX w).testBit (2 * b2n (rdP (s.core c) (iA w)) + b2n (rdP (s.core c) (iB w)))) (issued c .plog w w1 s)))) ∧
    (Ready c .nop w w1 s → exec (.nop c []) s = .next (retire c w (issued c .nop w w1 s)))

/-- What those instructions leave alone: every scalar register but the destination (ALU, ALUI, LI, LUI) and every predicate
register but the destination (CMP, CMPI, PLOG), the vector registers, the scratchpad, the semaphores, every other core, the
external memory, and, while the issue counter does not saturate, every register but that counter. -/
def Obligations.ScalarFrame : Prop :=
  ∀ (c : CoreId) (m : Mn) (i : Instr) (w w1 : Word) (s t : State),
    (m, i) ∈ [(Mn.alu, Instr.alu c []), (.alui, .alui c []), (.li, .li c []), (.lui, .lui c []), (.cmp, .cmp c []),
      (.cmpi, .cmpi c []), (.plog, .plog c []), (.nop, .nop c [])] →
    Ready c m w w1 s → exec i s = .next t →
      (∀ r, (r ≠ iD w ∨ m ∈ [Mn.cmp, .cmpi, .plog, .nop]) → rdS (t.core c) r = rdS (s.core c) r) ∧
      (∀ r, (r % 8 ≠ iD w % 8 ∨ m ∉ [Mn.cmp, .cmpi, .plog]) → rdP (t.core c) r = rdP (s.core c) r) ∧
      (t.core c).v = (s.core c).v ∧ (t.core c).vp = (s.core c).vp ∧ (t.core c).spad = (s.core c).spad ∧
      (t.core c).sems = (s.core c).sems ∧ (t.core c).array = (s.core c).array ∧
      (∀ d, d ≠ c → t.core d = s.core d) ∧ t.mem = s.mem ∧
      (cntSaturates (s.reg (coreOff Reg.SEQ_ISSUE_CNT c)) 1 = false →
        ∀ o, o ≠ coreOff Reg.SEQ_ISSUE_CNT c → t.reg o = s.reg o)

/-- R256: an aligned LD of a line that the core may read, and that holds no error, loads the 1, 2, 4 or 8 bytes at a + imm,
zero-extended; an aligned ST replaces those bytes of the line and writes it; a misaligned one, and one whose line the core may
not reach, traps with its code. -/
def Obligations.LoadStoreResults : Prop :=
  (∀ (c : CoreId) (w w1 : Word) (s : State) (l : Line),
    let sh := iF w % 64
    let size := 2 ^ (iF w / 64)
    let off := (rdS (s.core c) (iA w) + iImm w).toNat
    off % size = 0 → GoodLine c sh (off / 64) l s →
    (Ready c .ld w w1 s → runCheck s c sh (off / 64) 1 = 0 →
      exec (.ld c []) s = .next (retire c w
        (wrS c (iD w) (BitVec.ofNat 64 (bitsAt l.data (8 * (off % 64)) (8 * size))) (issued c .ld w w1 s)))) ∧
    (Ready c .st w w1 s → writeCheck s c (s.core c).nextSeq sh (off / 64) 1 = 0 →
      exec (.st c []) s = .next (retire c w
        (shelfWrite c sh (off / 64)
          ⟨putBits l.data (8 * (off % 64)) (8 * size) (rdS (s.core c) (iD w)).toNat, false⟩ (issued c .st w w1 s))))) ∧
  (∀ (c : CoreId) (m : Mn) (i : Instr) (w w1 : Word) (s : State),
    (m, i) ∈ [(Mn.ld, Instr.ld c []), (.st, .st c [])] → Ready c m w w1 s →
    let sh := iF w % 64
    let off := (rdS (s.core c) (iA w) + iImm w).toNat
    (off % 2 ^ (iF w / 64) ≠ 0 →
      exec i s = .next (trappedAt c trapAlign 0 (s.core c).pc w (issued c m w w1 s))) ∧
    (let t := if m = .ld then runCheck s c sh (off / 64) 1 else writeCheck s c (s.core c).nextSeq sh (off / 64) 1
     off % 2 ^ (iF w / 64) = 0 → t ≠ 0 →
      exec i s = .next (trappedAt c t 0 (s.core c).pc w (issued c m w w1 s))))

/-- What a ST leaves alone, and what it stores: the line that the shelf's layout names reads back with the new bytes, and every
other line of the scratchpad, every scalar, predicate and vector register, every other core and the external memory are as
before. -/
def Obligations.StoreFrame : Prop :=
  ∀ (c : CoreId) (w w1 : Word) (s t : State) (l : Line),
    let sh := iF w % 64
    let size := 2 ^ (iF w / 64)
    let off := (rdS (s.core c) (iA w) + iImm w).toNat
    let p := physOf (shelfEnt s c sh) (workSecond s c sh) (off / 64)
    Ready c .st w w1 s → off % size = 0 → GoodLine c sh (off / 64) l s →
    writeCheck s c (s.core c).nextSeq sh (off / 64) 1 = 0 → exec (.st c []) s = .next t →
      sget p (t.core c).spad = some (sealLine (saltSpad c.val p)
        ⟨putBits l.data (8 * (off % 64)) (8 * size) (rdS (s.core c) (iD w)).toNat, false⟩) ∧
      (∀ q, q ≠ p → sget q (t.core c).spad = sget q (s.core c).spad) ∧
      (∀ r, rdS (t.core c) r = rdS (s.core c) r) ∧ (t.core c).p = (s.core c).p ∧ (t.core c).v = (s.core c).v ∧
      (∀ d, d ≠ c → t.core d = s.core d) ∧ t.mem = s.mem

/-- R257: RDS reads the status value its index names; an index the table does not list traps. WRS clears the sticky
bit of ARRAY_STAT or of a partition's ARRAY_PART_STAT that is set in its operand, and traps on any other index. -/
def Obligations.StatusAccess : Prop :=
  (∀ (c : CoreId) (w w1 : Word) (s : State), Ready c .rds w w1 s →
    let u := issued c .rds w w1 s
    (∀ v, statusVal u c (iImmN w) = some v →
      exec (.rds c []) s = .next (retire c w
        (wrS c (iD w) v (if iImmN w = 0 then u.drawn.modCore c fun k => { k with cclk := v } else u)))) ∧
    (statusVal u c (iImmN w) = none →
      exec (.rds c []) s = .next (trappedAt c trapIllegal 0 (s.core c).pc w u)) ∧
    statusVal u c 0 = some (cclkNow u c) ∧ statusVal u c 1 = some ((s.core c).cur.zeroExtend 64) ∧
    statusVal u c 2 = some (BitVec.ofNat 64 (s.core c).logical) ∧
    statusVal u c 3 = some (BitVec.ofNat 64 c.val) ∧
    statusVal u c 4 = some (BitVec.ofNat 64 (s.core c).slot) ∧
    statusVal u c 5 = some (BitVec.ofNat 64 (s.coordX + s.coordY * 256)) ∧
    statusVal u c 0x10 = some (coreStatVal u c) ∧ statusVal u c 0x11 = some (arrayStatVal u c) ∧
    (∀ p, p < 4 → statusVal u c (0x12 + p) = some (u.reg (coreOff (Reg.ARRAY_PART_STAT + 8 * p) c))) ∧
    statusVal u c 0x16 = some (sparseStatVal (s.core c)) ∧ statusVal u c 0x17 = some (scaStatVal (s.core c)) ∧
    (∀ p, 1 ≤ p → p ≤ 15 → statusVal u c (0x20 + p - 1) = some (poolStatVal (s.core c) p)) ∧
    (∀ i, i < 64 → statusVal u c (0x40 + i) = some (shelfEnt s c i)) ∧
    (∀ t, t < 16 → statusVal u c (0x80 + t) = some (semVal (s.core c) t)) ∧
    (∀ i, (6 ≤ i ∧ i < 0x10) ∨ (0x18 ≤ i ∧ i < 0x20) ∨ (0x2F ≤ i ∧ i < 0x40) ∨ 0x90 ≤ i → statusVal u c i = none)) ∧
  (∀ (c : CoreId) (w w1 : Word) (s : State), Ready c .wrs w w1 s →
    let u := issued c .wrs w w1 s
    let a := rdS (s.core c) (iA w)
    (iImmN w = 0x11 → exec (.wrs c []) s = .next (retire c w
      (if bitOf a 8 then u.setF (coreOff Reg.ARRAY_STAT c) 8 8 0 else u))) ∧
    (∀ p, p < 4 → iImmN w = 0x12 + p → exec (.wrs c []) s = .next (retire c w
      (if bitOf a 63 then u.setF (coreOff (Reg.ARRAY_PART_STAT + 8 * p) c) 63 63 0 else u))) ∧
    (iImmN w ∉ [0x11, 0x12, 0x13, 0x14, 0x15] →
      exec (.wrs c []) s = .next (trappedAt c trapIllegal 0 (s.core c).pc w u)))

/-! ## A core's control, synchronisation and frame instructions -/

/-- R250, R254, R258, R259: what the sequencer does itself at issue: branches, calls and returns, loops, QWAIT on empty queues,
and FRAME_WAIT, which leaves the core waiting. -/
def Obligations.ControlResults : Prop :=
  ∀ (c : CoreId) (w w1 : Word) (s : State),
    let k := s.core c
    let np := k.pc + 1
    let target := (((np : Int) + sfld w 63 32) % 2 ^ 20).toNat
    let reg := fld (rdS k (iA w)) 19 0
    let pop (t : Nat) (l : List LoopEnt) := l.filter fun e => decide (e.start ≤ t) && decide (t < e.stop)
    (Ready c .br w w1 s → exec (.br c []) s = .next ((resolved c .br w s).modCore c fun k =>
      { k with pc := target, loops := pop target k.loops })) ∧
    (Ready c .brr w w1 s → exec (.brr c []) s = .next ((resolved c .brr w s).modCore c fun k =>
      { k with pc := reg, loops := pop reg k.loops })) ∧
    (Ready c .call w w1 s → k.rets.length < 8 → exec (.call c []) s = .next ((resolved c .call w s).modCore c fun k =>
      { k with rets := (np % 2 ^ 20) :: k.rets, pc := target })) ∧
    (∀ r rs, Ready c .ret w w1 s → k.rets = r :: rs → exec (.ret c []) s = .next ((resolved c .ret w s).modCore c fun k =>
      { k with rets := rs, pc := r })) ∧
    (Ready c .loop w w1 s → low32 (rdS k (iA w)) ≠ 0 → k.loops.length < 4 →
      exec (.loop c []) s = .next ((resolved c .loop w s).modCore c fun k =>
        { k with loops := ⟨np, np + fld w 43 32, low32 (rdS k (iA w))⟩ :: k.loops, pc := np % 2 ^ 20 })) ∧
    (Ready c .loop w w1 s → low32 (rdS k (iA w)) = 0 → exec (.loop c []) s = .next ((resolved c .loop w s).modCore c fun k =>
      { k with pc := (np + fld w 43 32) % 2 ^ 20 })) ∧
    (Ready c .loopi w w1 s → fld w 63 44 ≠ 0 → k.loops.length < 4 →
      exec (.loopi c []) s = .next ((resolved c .loopi w s).modCore c fun k =>
        { k with loops := ⟨np, np + fld w 43 32, fld w 63 44⟩ :: k.loops, pc := np % 2 ^ 20 })) ∧
    (Ready c .qwait w w1 s → exec (.qwait c []) s = .next ((resolved c .qwait w s).modCore c (advance np))) ∧
    (Ready c .frameWait w w1 s → exec (.frameWait c []) s = .next ((resolved c .frameWait w s).modCore c fun u =>
      { advance np u with issue := .frameWait (iD w) k.pc w }))

/-- R245, R258: a CALL beyond eight return addresses, a RET without one, and a LOOP or LOOPI beyond four loops trap with the
code of Table 13.9, and so does the TRAP instruction with its own argument. -/
def Obligations.ControlTraps : Prop :=
  ∀ (c : CoreId) (w w1 : Word) (s : State),
    let k := s.core c
    (Ready c .call w w1 s → 8 ≤ k.rets.length →
      exec (.call c []) s = .next (coreTrap c trapCallDepth 7 k.pc w 0 (resolved c .call w s))) ∧
    (Ready c .ret w w1 s → k.rets = [] →
      exec (.ret c []) s = .next (coreTrap c trapCallDepth 7 k.pc w 0 (resolved c .ret w s))) ∧
    (Ready c .loop w w1 s → low32 (rdS k (iA w)) ≠ 0 → 4 ≤ k.loops.length →
      exec (.loop c []) s = .next (coreTrap c trapLoopDepth 7 k.pc w 0 (resolved c .loop w s))) ∧
    (Ready c .loopi w w1 s → fld w 63 44 ≠ 0 → 4 ≤ k.loops.length →
      exec (.loopi c []) s = .next (coreTrap c trapLoopDepth 7 k.pc w 0 (resolved c .loopi w s))) ∧
    (Ready c .trap w w1 s →
      exec (.trap c []) s = .next (trappedAt c trapSw (fld w 47 32) k.pc w (issued c .trap w w1 s)))

/-- R251 to R253: WAIT takes its count from a semaphore that has it, and stays at the head of its queue otherwise; SIG and a
SIGR to the core itself add to a semaphore with the current frame's stamp; a SIGR to another core of the device that can be
reached sends the count, and one to a core that cannot traps; a SIGR to another device sends it out of the port of that device,
and traps where no port is mapped. -/
def Obligations.SignalResults : Prop :=
  ∀ (c : CoreId) (w w1 : Word) (s : State),
    let k := s.core c
    let stamp := k.cur.toNat % 256
    let dst := fld (rdS k (iYa w)) 4 0
    (Ready c .wait w w1 s →
      exec (.wait c []) s = .next (if iN w ≤ (semOf k (iT w)).count then
        retire c w ((issued c .wait w w1 s).modCore c fun k =>
          setSem k (iT w) { semOf k (iT w) with count := (semOf k (iT w)).count - iN w })
        else issued c .wait w w1 s)) ∧
    (∀ m i, (m, i) ∈ [(Mn.sig, Instr.sig c []), (.sigr, .sigr c [])] → Ready c m w w1 s →
      (m = .sigr → iYrd w = false ∧ peerCore s c dst = some c) → (semOf k (iT w)).count + iN w ≤ 65535 →
      exec i s = .next (retire c w ((issued c m w w1 s).modCore c fun k =>
        setSem k (iT w) { semOf k (iT w) with count := (semOf k (iT w)).count + iN w }))) ∧
    (∀ t, Ready c .sigr w w1 s → iYrd w = false → peerCore s c dst = some t → t ≠ c → reachable s t = false →
      exec (.sigr c []) s = .next (trappedAt c trapDenied 0 k.pc w (issued c .sigr w w1 s))) ∧
    (let u := issued c .sigr w w1 s
     let y := fld (rdS k (iYb w)) 15 8
     let x := fld (rdS k (iYb w)) 7 0
     let r := transmit { kind := .signal, src := .core c, dst := .dev x y dst, seq := k.nextSeq, slot := k.slot, idx := iT w,
                         k := iN w, stamp := stamp } u
     Ready c .sigr w w1 s → iYrd w = true → ¬(x = s.coordX ∧ y = s.coordY) →
      exec (.sigr c []) s = .next (match r.1 with
        | some v => retire c w v
        | none => trappedAt c trapUnmapped 0 k.pc w r.2)) ∧
    (∀ t, Ready c .sigr w w1 s → iYrd w = false → peerCore s c dst = some t → t ≠ c → reachable s t = true →
      exec (.sigr c []) s = .next (retire c w ((issued c .sigr w w1 s).send
        { kind := .signal, src := .core c, dst := .core t, slot := k.slot, idx := iT w, k := iN w, stamp := stamp }))) ∧
    (Ready c .sigr w w1 s → iYrd w = false → peerCore s c dst = none →
      exec (.sigr c []) s = .next (trappedAt c trapDenied 0 k.pc w (issued c .sigr w w1 s)))

/-- R43, R255: the first COMMIT of a frame, of the current frame number, reports the frame, and with it the core's gate counts,
to SYS; a COMMIT of another number traps. -/
def Obligations.CommitResults : Prop :=
  ∀ (c : CoreId) (w w1 : Word) (s : State), Ready c .commit w w1 s →
    let k := s.core c
    let u := issued c .commit w w1 s
    (rdS k (iA w) = k.cur.zeroExtend 64 → k.committed = none →
      exec (.commit c []) s = .next (retire c w (sendGateCounts c (u.send
        { kind := .commit, src := .core c, dst := .sys, slot := k.slot, frame := k.cur })))) ∧
    (∀ q, rdS k (iA w) = k.cur.zeroExtend 64 → k.committed = some q → q < k.nextSeq →
      exec (.commit c []) s = .next (retire c w u)) ∧
    (rdS k (iA w) ≠ k.cur.zeroExtend 64 →
      exec (.commit c []) s = .next (trappedAt c trapCommitStale 0 k.pc w u))

/-- R243, R244: a word that is no legal instruction traps with ILLEGAL_OP and runs nothing. -/
def Obligations.IllegalWordTraps : Prop :=
  ∀ (c : CoreId) (w w1 : Word) (s : State),
    let k := s.core c
    k.issue = .running → domRun s c.val = true → k.queues = Vector.replicate 6 [] → k.pendP = 0 → k.fwDone = true →
    fetchWord c s = (⟨0, w, w1⟩, s) → issueMn k w w1 = none → (rdP k (iPr w) == iPn w) = false →
      exec (.illegalOp c []) s = .next (coreTrap c trapIllegal 7 k.pc w 0 s)

/-- R250, R252, R254: the waits end. QWAIT_RELEASE lets the core issue again once its mask of queues has completed;
FRAME_WAIT_RETURN gives the core the captured frame, its held signals, an empty ledger and the frame number in s[d];
WAIT_RELEASE runs a WAIT at the head of its queue once the semaphore has its count. -/
def Obligations.WaitReleases : Prop :=
  ∀ (c : CoreId) (s : State),
    let k := s.core c
    (∀ mask limit, k.issue = .qwait mask limit → k.queues = Vector.replicate 6 [] → k.active = [] →
      exec (.qwaitRelease c []) s = .next (s.modCore c fun k => { k with issue := .running })) ∧
    (∀ d pc w, k.issue = .frameWait d pc w → frameWaitReady s c = true →
      (∀ t, t < 16 → (semOf k t).count + (semOf k t).held ≤ 65535) →
      exec (.frameWaitReturn c []) s = .next (wrS c d (k.capFrame.zeroExtend 64) (s.modCore c fun k =>
        { k with cur := k.capFrame, sems := k.sems.map fun v => ⟨v.count + v.held, 0⟩, ledger := [], fwDone := true,
                 committed := none, issue := .running }))) ∧
    (∀ (q : Nat) (o : Op) (hq : q < 6), k.queues = (Vector.replicate 6 []).set q [o] hq → k.active = [] → k.issue ≠ .trapped →
      o.mn = .wait → iN o.w0 ≤ (semOf k (iT o.w0)).count →
      exec (.waitRelease c []) s = .next ((s.modCore c fun k =>
        setSem k (iT o.w0) { semOf k (iT o.w0) with count := (semOf k (iT o.w0)).count - iN o.w0 }).modCore c fun k =>
          { k with queues := Vector.replicate 6 [] }))

/-! ## A core's move instructions -/

/-- R268 to R271: COPY, GET, PUT, FETCH, STORE and STORE in ring form, with operands in range, extents that the core may reach
and lines without an uncorrectable error, do what the chapter says: COPY has copied its lines; each of the others has started,
with one request for each line, the first of them sent. Requests to stops of this device leave in order, as many as there is
room for, and none of them is refused. -/
def Obligations.MoveResults : Prop :=
  (∀ (c : CoreId) (w w1 : Word) (s : State),
    let k := s.core c
    let a := rdS k (lRa w)
    let b := rdS k (lRb w)
    let cc := rdS k (lRc w)
    let d := rdS k (lRd w)
    let n := low32 (rdS k (lRn w))
    let ok := upperZero (rdS k (lRn w)) = true ∧ n ≤ 131072
    (let u := issued c .copy w w1 s
     let r := copyLoop c (lSa w) (low32 a) (lSc w) (low32 cc) n u
     Ready c .copy w w1 s → ok → upperZero a = true → upperZero cc = true → runCheck s c (lSa w) (low32 a) n = 0 →
       writeCheck s c k.nextSeq (lSc w) (low32 cc) n = 0 → r.1 = false →
       exec (.copy c []) s = .next (retire c w r.2)) ∧
    (let u := issued c .get w w1 s
     let o := issuedOp c .get w w1 s
     let p := resolvePeer u c d (lOptB w 0)
     Ready c .get w w1 s → ok → upperZero a = true → upperZero b = true → peerOk d (lOptB w 0) = true →
       writeCheck s c k.nextSeq (lSa w) (low32 a) n = 0 → p.2 = 0 →
       exec (.get c []) s = .next (ran c k.pc w u (launch c o [] ((List.range n).map fun i =>
         { kind := .readReq, src := .core c, dst := p.1, seq := k.nextSeq, slot := k.slot, shelf := lSb w,
           idx := low32 b + i, dshelf := lSa w, didx := low32 a + i }) u))) ∧
    (let v := issued c .put w w1 s
     let u := v.modCore c fun k => ledgerTake k d (lOptB w 0) (fld w1 3 0) n
     let o := issuedOp c .put w w1 s
     let p := resolvePeer v c d (lOptB w 0)
     let r := shelfReadN c (lSa w) (low32 a) 2 n u
     let late := match k.committed with
       | some q => decide (q < k.nextSeq)
       | none => false
     Ready c .put w w1 s → ok → upperZero a = true → upperZero b = true → peerOk d (lOptB w 0) = true →
       runCheck s c (lSa w) (low32 a) n = 0 → p.2 = 0 → n ≤ ledgerHas k d (lOptB w 0) (fld w1 3 0) →
       r.2.1 = false → r.2.2 = u →
       exec (.put c []) s = .next (ran c k.pc w v (launch c o [] (r.1.mapIdx fun i x =>
         { kind := .write, src := .core c, dst := p.1, seq := k.nextSeq, slot := k.slot, shelf := lSb w, idx := low32 b + i,
           line := sealLine (saltTransit (peerNum p.1) (lSb w) (low32 b + i) k.slot (peerXY u p.1).1 (peerXY u p.1).2) x,
           pool := fld w1 3 0, stamp := k.cur.toNat % 256, cd := late }) u))) ∧
    (let u := issued c .fetch w w1 s
     let o := issuedOp c .fetch w w1 s
     let e := fld b 39 0
     Ready c .fetch w w1 s → ok → 0 < n → upperZero cc = true → fld b 63 40 = 0 → extentCheck u k.slot e n true = 0 →
       writeCheck s c k.nextSeq (lSc w) (low32 cc) n = 0 →
       exec (.fetch c []) s = .next (ran c k.pc w u (launch c o [] ((List.range n).map fun i =>
         { kind := if e + 64 * i < 0x1000000000 then .memRead else .gridRead, src := .core c,
           dst := if e + 64 * i < 0x1000000000 then .mem else .grid, seq := k.nextSeq, slot := k.slot, addr := e + 64 * i,
           dshelf := lSc w, didx := low32 cc + i }) u))) ∧
    (let u := issued c .store w w1 s
     let o := issuedOp c .store w w1 s
     let e := fld b 39 0
     let r := shelfReadN c (lSa w) (low32 a) 2 n u
     Ready c .store w w1 s → ok → 0 < n → upperZero a = true → fld b 63 40 = 0 → runCheck s c (lSa w) (low32 a) n = 0 →
       extentCheck u k.slot e n false = 0 → r.2.1 = false →
       exec (.store c []) s = .next (ran c k.pc w u (launch c o [] (r.1.mapIdx fun i x =>
         { kind := .memWrite, src := .core c, dst := .mem, seq := k.nextSeq, slot := k.slot, addr := e + 64 * i,
           line := sealLine (saltAddr (e + 64 * i)) x }) r.2.2))) ∧
    (let u := issued c .storeRing w w1 s
     let o := issuedOp c .storeRing w w1 s
     let r := shelfReadN c (lSa w) (low32 a) 2 n u
     Ready c .storeRing w w1 s → ok → 0 < n → upperZero a = true → b = 0 → fld w1 5 0 ≤ 32 →
       runCheck s c (lSa w) (low32 a) n = 0 → k.committed = none → r.2.1 = false →
       exec (.storeRing c []) s = .next (ran c k.pc w u (launch c o [] (r.1.map fun x =>
         { kind := .ringWrite, src := .core c, dst := .mem, seq := k.nextSeq, slot := k.slot, idx := fld w1 5 0,
           line := sealLine (saltAddr 0) x, frame := k.cur, disc := true }) r.2.2)))) ∧
  (∀ (room : Nat) (a : Active) (s : State),
    (∀ m, m ∈ a.todo → m.kind ≠ .ringWrite ∧ ∀ x y u, m.dst ≠ .dev x y u) →
    sendTodo room a s = ({ a with todo := a.todo.drop room, wait := a.wait + min room a.todo.length }, false,
      { s with net := s.net ++ a.todo.take room })) ∧
  (∀ (room : Nat) (a : Active) (m : Msg) (s : State), a.todo = [m] → 0 < room → m.kind = .ringWrite → m.dst = .mem →
    let d := checked (saltAddr 0) m.line
    let r := ringTake m.slot m.idx s
    d.poison = false →
    sendTodo room a s = match r.1 with
      | some x => ({ a with todo := [], wait := a.wait + 1 }, false,
          { r.2 with net := r.2.net ++ [{ m with kind := .memWrite, addr := x, idx := 0,
                                                 line := sealLine (saltAddr x) d }] })
      | none => ({ a with todo := [] }, false, r.2))

/-- R270, R272, R273 and Table 14.2: GETX writes its records back and asks for the rows it still needs, counting them; GATHER
and CREDIT_REQ send their request; CREDIT_RET returns its credits to the pool, up to its capacity. -/
def Obligations.GatherAndCreditResults : Prop :=
  ∀ (c : CoreId) (w w1 : Word) (s : State),
    let k := s.core c
    let a := rdS k (lRa w)
    let b := rdS k (lRb w)
    let n := low32 (rdS k (lRn w))
    (let u := issued c .getx w w1 s
     let o := issuedOp c .getx w w1 s
     let nc := fld w1 5 0
     let rl := fld w1 9 6
     let cap := fld w1 29 10
     let r := getxLines c o (seLen (shelfEnt u c (lSa w)) + 1) GetxSt.start u
     let g := r.1
     let t := getxCount c g r.2
     Ready c .getx w w1 s → upperZero a = true → upperZero b = true → upperZero (rdS k (lRn w)) = true → n ≤ 1048575 →
       0 < nc → nc ≤ 32 → 0 < rl → rl ≤ 8 → 16 ≤ cap → low32 b + cap ≤ 2 ^ 20 →
       exec (.getx c []) s = .next (if g.code = 0 then
         ran c k.pc w u (launch c o [(lRd w, BitVec.ofNat 64 g.done), (lRd w + 1, BitVec.ofNat 64 (g.lines + g.staged * 2 ^ 32))]
           g.reqs (if g.done < n then bumpC c Reg.GETX_STOP_CNT t else t))
         else trappedAt c g.code 0 k.pc w (sendEarlier c o g.reqs t))) ∧
    (let u := issued c .gather w w1 s
     let o := issuedOp c .gather w w1 s
     let mode := fld w1 6 5
     let d := rdS k (lRd w)
     Ready c .gather w w1 s → upperZero a = true → upperZero (rdS k (lRc w)) = true → upperZero (rdS k (lRn w)) = true →
       n ≤ 1048575 → (mode = 1 ∨ mode = 2 → upperZero b = true ∧ upperZero d = true ∧
         runCheck s c (lSb w) (low32 b) (cdiv (low32 d) 16) = 0) →
       runCheck s c (lSa w) (low32 a) (cdiv n 16) = 0 →
       exec (.gather c []) s = .next (started c w ⟨o, [], 1, []⟩ (u.send
         { kind := .gather, src := .core c, dst := .map, seq := k.nextSeq, slot := k.slot }))) ∧
    (let u := issued c .creditReq w w1 s
     let o := issuedOp c .creditReq w w1 s
     let v := rdS k (iA w)
     let remote := (iX w).testBit 4
     let p := resolvePeer u c v remote
     let count := (rdS k (iB w)).toNat
     Ready c .creditReq w w1 s → peerOk v remote = true → 0 < count → count ≤ 16383 → p.2 = 0 →
       ((ledgerKeys k).contains (ledgerKey v remote (iX w % 16)) = true ∨ (ledgerKeys k).length < 16) →
       exec (.creditReq c []) s = .next (ran c k.pc w u (launch c o []
         [{ kind := .creditReq, src := .core c, dst := p.1, seq := k.nextSeq, slot := k.slot, pool := iX w % 16, k := count }]
         u))) ∧
    (let u := issued c .creditRet w w1 s
     let p := iX w % 16
     let v := rdS k (iB w)
     let q := poolOf k p
     Ready c .creditRet w w1 s → 0 < p → fld (poolCfg s c p) 20 18 = k.slot → fld v 63 18 = 0 →
       q.avail + fld v 17 0 ≤ poolCap s c p →
       exec (.creditRet c []) s = .next (retire c w (if fld v 17 0 = 0 then u
         else u.modCore c fun x => setPool x p { q with avail := q.avail + fld v 17 0 })))

/-! ## A core's vector instructions -/

/-- Tables 14.7 and 14.8, R197, R201, R277: each lane operation writes the 64 lanes the tables give, with the poison of its
sources; VRED and VEXT write a scalar register. -/
def Obligations.VectorResults : Prop :=
  ∀ (c : CoreId) (w w1 : Word) (s : State),
    let k := s.core c
    let a := getV s c (iA w)
    let b := getV s c (iB w)
    let d := getV s c (iD w)
    let isInt := (iX w).testBit 5
    let fn := iX w % 32
    let pa := vPoison k (iA w)
    let pb := vPoison k (iB w)
    (Ready c .valu w w1 s → fn < 13 →
      exec (.valu c []) s = .next (retire c w (putV c (iD w) (List.zipWith (valuFn isInt fn) a b)
        (pa || (decide (fn < 11) && pb)) (issued c .valu w w1 s)))) ∧
    (Ready c .valu w w1 s → fn = 13 → isInt = false →
      exec (.valu c []) s = .next (retire c w (putV c (iD w) (a.map fun x => laneOf (fofInt x.toInt)) pa
        (issued c .valu w w1 s)))) ∧
    (Ready c .valu w w1 s → fn = 13 → isInt = true →
      exec (.valu c []) s = .next (retire c w (putV c (iD w) (a.map fun x => (f32toInt x).1) pa
        (countConv c ((a.map f32toInt).foldl (fun k r => k.plus r.2) .zero) (issued c .valu w w1 s))))) ∧
    (Ready c .vfma w w1 s →
      exec (.vfma c []) s = .next (retire c w (putV c (iD w)
        (List.zipWith (fun p z => if isInt then p.1 * p.2 + z else f32fma p.1 p.2 z) (List.zip a b) d)
        (pa || pb || vPoison k (iD w)) (issued c .vfma w w1 s)))) ∧
    (Ready c .vsf w w1 s →
      exec (.vsf c []) s = .next (retire c w (putV c (iD w) (a.map (vsf (iX w % 8))) pa (issued c .vsf w w1 s)))) ∧
    (let red := if iX w % 4 = 0 then laneAdd isInt
       else if iX w % 4 = 1 then (if isInt then intMinmax true else f32minmax true)
       else if isInt then intMinmax false else f32minmax false
     Ready c .vred w w1 s →
      exec (.vred c []) s = .next (retire c w (wrS c (iD w) (laneExt isInt (reduceTree red a)) (issued c .vred w w1 s)))) ∧
    (Ready c .vbcast w w1 s →
      exec (.vbcast c []) s = .next (if upperZero (rdS k (iA w)) then
        retire c w (putV c (iD w) (List.replicate 64 ((rdS k (iA w)).truncate 32)) false (issued c .vbcast w w1 s))
        else trappedAt c trapRange 0 k.pc w (issued c .vbcast w w1 s))) ∧
    (Ready c .vext w w1 s → (rdS k (iB w)).toNat ≤ 63 →
      exec (.vext c []) s = .next (retire c w (wrS c (iD w)
        (laneExt isInt (lane (rdV k (iA w)) (rdS k (iB w)).toNat)) (issued c .vext w w1 s)))) ∧
    (Ready c .vext w w1 s → 63 < (rdS k (iB w)).toNat →
      exec (.vext c []) s = .next (trappedAt c trapRange 0 k.pc w (issued c .vext w w1 s)))

/-- R198, R278, R279: VLD, VST, VCVT and ARGMAX with operands in range, lines that the core may reach and no uncorrectable line:
what is loaded into the register, or written to the lines. -/
def Obligations.VectorMemoryResults : Prop :=
  ∀ (c : CoreId) (w w1 : Word) (s : State),
    let k := s.core c
    let a := low32 (rdS k (lRa w))
    let b := low32 (rdS k (lRb w))
    let cc := low32 (rdS k (lRc w))
    let n := low32 (rdS k (lRn w))
    let f := fld w1 4 0
    let bits := fmtBits f
    let p := bitLines (bits * n) (bits * 64)
    let sp := bitLines (8 * (n / 32)) 16
    let upper := upperZero (rdS k (lRa w)) = true ∧ upperZero (rdS k (lRb w)) = true ∧ upperZero (rdS k (lRn w)) = true
    (let u := issued c .vld w w1 s
     let comp := fld w1 6 5
     let r := readEls c (lSa w) a 5 bits n 64 u
     let q := if fmtMx f then readEls c (lSb w) b 5 8 (n / 32) 2 r.2.2.2 else ([], false, false, r.2.2.2)
     let lanes := if f = 15 then lanesF32 (r.1.map fun x => fxVal x comp)
       else if fmtInt f then (r.1.map fun x => BitVec.ofInt 32 (intElem f x), .zero)
       else if f = 0 then (r.1.map (BitVec.ofNat 32), .zero)
       else lanesF32 (elVals f r.1 q.1)
     Ready c .vld w w1 s → upper → f ≤ 15 → (f = 15 → comp ≠ 3) → (fmtMx f = true → n % 32 = 0) →
       runCheck s c (lSa w) (a + p.1) p.2 = 0 → (fmtMx f = true → runCheck s c (lSb w) (b + sp.1) sp.2 = 0) →
       r.2.2.1 = false → q.2.2.1 = false →
       exec (.vld c []) s = .next (retire c w (putV c (lRd w) lanes.1 (r.2.1 || q.2.1) (countConv c lanes.2 q.2.2.2)))) ∧
    (let u := issued c .vst w w1 s
     let v := convVals f ((getV s c (lRd w)).map fun x => if fmtInt f then fofInt x.toInt else f32 x)
     let poison := vPoison k (lRd w)
     let t := writeRange c (lSa w) 6 (fun _ => poison) (p.2 + 1) (a + p.1) 0 (bits * n % 512) (bits * 64)
       (packEls bits v.1) (countConv c v.2.2 u)
     let x := if fmtMx f then writeRange c (lSb w) 6 (fun _ => poison) 2 (b + sp.1) 0 (8 * (n / 32) % 512) 16
       (packEls 8 v.2.1) t.2 else (false, t.2)
     Ready c .vst w w1 s → upper → f < 15 → (fmtMx f = true → n % 64 = 0) →
       writeCheck s c k.nextSeq (lSa w) (a + p.1) p.2 = 0 →
       (fmtMx f = true → writeCheck s c k.nextSeq (lSb w) (b + sp.1) sp.2 = 0) → t.1 = false → x.1 = false →
       exec (.vst c []) s = .next (retire c w x.2)) ∧
    (let u := issued c .vcvt w w1 s
     let g := fld w1 9 5
     let y := low32 (rdS k (fld w1 20 16))
     let nf := if g = 15 && f ≠ 15 then 3 * n else n
     let ng := if f = 15 && g ≠ 15 then 3 * n else n
     let lg := bitLines 0 (fmtBits g * ng)
     let r := readEls c (lSa w) a 5 bits 0 nf u
     let q := if fmtMx f then readEls c (lSb w) b 5 8 0 (nf / 32) r.2.2.2 else ([], false, false, r.2.2.2)
     let vals := cvtVals f r.1 q.1
     let mx := if fmtMx g then lanesF32 vals else ([], .zero)
     let vs := if fmtMx g then mx.1.map f32 else vals
     let ws := (triples vs).mapIdx fun j t => fxWord (if f = 15 then ((r.1[j]?).getD 0) >>> 60 else fld w1 24 21) t
     let v : List Nat × List Nat × ConvCount :=
       if g = 15 then (ws.map (·.1), [], ws.foldl (fun k w => k.plus w.2) .zero) else convVals g vs
     let t := writeRange c (lSc w) 6 (fun _ => r.2.1 || q.2.1) (lg.2 + 1) cc 0 0 (fmtBits g * ng) (packEls (fmtBits g) v.1)
       (countConv c (v.2.2.plus mx.2) q.2.2.2)
     let x := if fmtMx g then writeRange c (fld w1 15 10) 6 (fun _ => r.2.1 || q.2.1) (cdiv v.2.1.length 64 + 1) y 0 0
         (8 * v.2.1.length) (packEls 8 v.2.1) t.2
       else (false, t.2)
     Ready c .vcvt w w1 s → upper → upperZero (rdS k (lRc w)) = true → upperZero (rdS k (fld w1 20 16)) = true →
       n ≤ 1048575 → f ≤ 15 → g ≤ 15 → (fmtMx f = true ∨ fmtMx g = true → n % 32 = 0) →
       runCheck s c (lSa w) a (bitLines 0 (bits * nf)).2 = 0 →
       (fmtMx f = true → runCheck s c (lSb w) b (cdiv (nf / 32) 64) = 0) →
       writeCheck s c k.nextSeq (lSc w) cc lg.2 = 0 →
       (fmtMx g = true → writeCheck s c k.nextSeq (fld w1 15 10) y (cdiv (cdiv ng 32) 64) = 0) →
       r.2.2.1 = false → q.2.2.1 = false → t.1 = false → x.1 = false →
       exec (.vcvt c []) s = .next (retire c w x.2)) ∧
    (let u := issued c .argmax w w1 s
     let l := fld w1 21 5
     let rl := cdiv (l * bits) 512
     let lines := cdiv n 8
     let r := argRows c (issuedOp c .argmax w w1 s) f l rl n 0 u
     Ready c .argmax w w1 s → upperZero (rdS k (lRa w)) = true → upperZero (rdS k (lRc w)) = true →
       upperZero (rdS k (lRn w)) = true → n ≤ 1048575 → l ≤ 65536 → selectFmt f = true →
       runCheck s c (lSa w) a (n * rl) = 0 → writeCheck s c k.nextSeq (lSc w) cc lines = 0 → r.2.1 = false →
       exec (.argmax c []) s = .next (retire c w (writeBits c (lSc w) cc lines
         (packEls 64 (r.1.map (·.1) ++ List.replicate (8 * lines - n) (fillRec f)))
         (fun i => ((r.1.drop (8 * i)).take 8).any (·.2)) r.2.2)))

/-! ## A core's array instructions -/

/-- R171, R212, R213, R229: WLOAD in each of its modes, from lines without an uncorrectable error: the weight set that the array
then holds, and it is the current one. -/
def Obligations.WeightLoadResults : Prop :=
  ∀ (c : CoreId) (w w1 : Word) (s : State), Ready c .wload w w1 s →
    let k := s.core c
    let u := issued c .wload w w1 s
    let o := issuedOp c .wload w w1 s
    let a := low32 (rdS k (lRa w))
    let cc := low32 (rdS k (lRc w))
    let f := fld w1 4 0
    let mode := fld w1 8 7
    let q := fld w1 25 24
    let set := (pickSet k.array (fld w1 6 5) true).getD 0
    k.array.stopped = false → upperZero (rdS k (lRa w)) = true → upperZero (rdS k (lRc w)) = true →
    upperZero (rdS k (lRn w)) = true → fld w1 6 5 ≠ 3 → arrayFmt f = true → (mode = 1 → fmtClass f ≠ 0) →
    q < partCount k.array.mode → (mode = 1 ∨ k.array.mode ≠ 2 ∨ fmtMx f = false ∨ fmtClass f ≠ 2) →
    (let nLen := fld w1 15 9
     let rows := fld w1 23 16
     let r := shelfReadN c (lSa w) a 7 (tileLines f rows) u
     let z := shelfReadN c (lSc w) cc 7 (wScaleLines f rows) r.2.2
     let bits := r.1.foldr (fun l acc => l.data.toNat + 2 ^ 512 * acc) 0
     mode = 0 → 0 < nLen → nLen ≤ 64 → rows ≤ kLimit f k.array.mode → runCheck s c (lSa w) a (tileLines f rows) = 0 →
       runCheck s c (lSc w) cc (wScaleLines f rows) = 0 → r.2.1 = false → z.2.1 = false →
       exec (.wload c []) s = .next (retire c w (installSet c q set
         { mode := 0, fmt := f, nLen := nLen, expand := 1, chk := [], scale := scaleBytes z.1,
           poison := anyPoison r.1 || anyPoison z.1, nonfinite := false,
           w := ((List.range rows).map fun i => (List.range nLen).map fun n =>
             some ((bits >>> weightBit f i n) % 2 ^ fmtBits f)) ++ zeroRows f k.array.mode rows nLen } z.2.2))) ∧
    (∀ (h : TileHdr) (t : List (List (Option Nat))),
      let r := readTile c (lSa w) a f 7 u
      let z := shelfReadN c (lSc w) cc 7 (wScaleLines f h.rows) r.2
      mode = 1 ∨ mode = 2 → bitOf w1 26 = false → r.1.2.1 = some h → r.1.2.2.2.2 = false → h.role = 0 →
      (mode = 1 → h.pack = 0 ∧ h.rows ≤ peRows k.array.mode * (8 / h.n) * (if fmtClass f = 3 then 2 else 1)) →
      (mode = 2 → h.rows ≤ kLimit f k.array.mode) → runCheck s c (lSc w) cc (wScaleLines f h.rows) = 0 →
      (h.pack = 0 → codesOk f h.n h.nLen r.1.2.2.1 = true ∧ t = expandStruct f h.n h.nLen h.rows r.1.2.2.1) →
      (h.pack ≠ 0 → expandVar f h r.1.2.2.1 = some t) → z.2.1 = false →
      exec (.wload c []) s = .next (retire c w (installSet c q set
        { mode := mode, fmt := f, nLen := h.nLen, expand := 8 / h.n, chk := [], scale := scaleBytes z.1,
          poison := r.1.2.2.2.1 || anyPoison z.1, nonfinite := false,
          w := if mode = 1 then t
            else t.map (fun row => row.map fun e => some (e.getD 0)) ++ zeroRows f k.array.mode h.rows h.nLen } z.2.2))) ∧
    (mode = 1 ∨ mode = 2 → bitOf w1 26 = true → exec (.wload c []) s = .next (ran c k.pc w u (wloadTransposed c o f q set u))) ∧
    (mode = 3 → exec (.wload c []) s = .next (ran c k.pc w u (wloadGated c o f q set u)))

/-- R169, R170, R172, R173, R185, R186, R199, R214, R219, R275: a product whose operands, bank, rows and weight sets pass the
array's checks, and that meets no uncorrectable line, forms its rows, and traps behind them where a check of a row has failed; MMS
counts its rows in MMS_ROW_CNT as well; a product of no rows changes nothing. -/
def Obligations.ProductResults : Prop :=
  ∀ (c : CoreId) (w w1 : Word) (s : State) (b : Nat) (ws : WSet × WSet),
    let k := s.core c
    let counted (u t : State) : State := bumpN (coreOff Reg.MMS_ROW_CNT c)
      ((t.reg (coreOff Reg.ARRAY_ROW_CNT c)).toNat % 2 ^ 48 - (u.reg (coreOff Reg.ARRAY_ROW_CNT c)).toNat % 2 ^ 48) t
    (let u := issued c .mm w w1 s
     let o := issuedOp c .mm w w1 s
     let p := productOf k.array o 0 b ws.1 ws.2
     let e := productRows c o false p u
     Ready c .mm w w1 s → ProductOk k.array o 0 false b ws → 0 < low32 o.n → tileAt c (lSa w) (low32 o.a) p.f u = false →
       ProductRunsOk c o false p s → e.1 = 0 → e.2.1 = false →
       exec (.mm c []) s = .next (productEnded c k.pc w (afterProduct c p e.2.2))) ∧
    (∀ (h : TileHdr) (rs : List (List Nat × Bool)),
      let u := issued c .mm w w1 s
      let o := issuedOp c .mm w w1 s
      let p := productOf k.array o 0 b ws.1 ws.2
      let t := readTile c (lSa w) (low32 o.a) p.f 3 u
      let e := runPacked c o p t.1.2.2.2.1 (fld w1 18 9) (productSpan o false) (rs.take (low32 o.n)) 0 t.1.2.2.2.2 t.2
      Ready c .mm w w1 s → ProductOk k.array o 0 false b ws → 0 < low32 o.n → tileAt c (lSa w) (low32 o.a) p.f u = true →
        t.1.2.1 = some h → h.role = 1 → low32 o.n ≤ h.rows →
        runCheck s c (lSc w) (low32 o.c) (inScaleLines p.f (low32 o.n)) = 0 →
        tileRows p.f h t.1.2.2.1 = some rs → e.1 = 0 → e.2.1 = false →
        exec (.mm c []) s = .next (productEnded c k.pc w (afterProduct c p e.2.2))) ∧
    (let u := issued c .mmg w w1 s
     let o := issuedOp c .mmg w w1 s
     let p := productOf k.array o 0 b ws.1 ws.2
     let e := productRows c o true p u
     Ready c .mmg w w1 s → ProductOk k.array o 0 true b ws → 0 < low32 o.n → tileAt c (lSb w) 0 p.f u = false → e.1 = 0 →
       e.2.1 = false → exec (.mmg c []) s = .next (productEnded c k.pc w (afterProduct c p e.2.2))) ∧
    (let u := issued c .mms w w1 s
     let o := issuedOp c .mms w w1 s
     let g := lOptB w 0
     let p := productOf k.array o 3 b ws.1 ws.2
     let e := productRows c o g p u
     Ready c .mms w w1 s → ProductOk k.array o 3 g b ws → 0 < low32 o.n →
       (if g then tileAt c (lSb w) 0 p.f u else tileAt c (lSa w) (low32 o.a) p.f u) = false →
       ProductRunsOk c o g p s → e.1 = 0 → e.2.1 = false →
       exec (.mms c []) s = .next (productEnded c k.pc w (counted u (afterProduct c p e.2.2)))) ∧
    (let u := issued c .mmp w w1 s
     let o := issuedOp c .mmp w w1 s
     let g := lOptB w 0
     let kind := if bitOf w1 39 then 2 else 1
     let p := productOf k.array o kind b ws.1 ws.2
     let e := productRows c o g p u
     Ready c .mmp w w1 s → ProductOk k.array o kind g b ws → 0 < low32 o.n →
       ProductRunsOk c o g p s → e.1 = 0 → e.2.1 = false →
       exec (.mmp c []) s = .next (productEnded c k.pc w (afterProduct c p e.2.2))) ∧
    (let o := issuedOp c .mm w w1 s
     Ready c .mm w w1 s → ProductOk k.array o 0 false b ws → low32 o.n = 0 →
       exec (.mm c []) s = .next (retire c w (issued c .mm w w1 s)))

/-- R177, R178, R182, R276: ACC_INIT gives rows their bank's vectors and makes the bank current; ACC_DRAIN (plain form) tests,
converts and writes its rows; PART sets the array's mode and empties its sets and mask registers. -/
def Obligations.AccumulatorResults : Prop :=
  ∀ (c : CoreId) (w w1 : Word) (s : State),
    let k := s.core c
    let a := low32 (rdS k (lRa w))
    let b := low32 (rdS k (lRb w))
    let cc := low32 (rdS k (lRc w))
    let n := low32 (rdS k (lRn w))
    let upper := upperZero (rdS k (lRa w)) = true ∧ upperZero (rdS k (lRb w)) = true ∧ upperZero (rdS k (lRn w)) = true
    (let u := issued c .accInit w w1 s
     let r0 := fld w1 11 2
     let isInt := bitOf w1 12
     let la := if lOptB w 0 then 4 else 0
     let lb := if lOptB w 1 then 4 else 0
     let bk := (pickBank k.array (fld w1 1 0) true).getD 0
     let i := shelfReadN c (lSa w) a 3 la u
     let v := shelfReadN c (lSb w) b 3 lb i.2.2
     let bi : BankInit := ⟨isInt, if lOptB w 0 then fourLines i.1 else List.replicate 64 0,
       if lOptB w 1 then fourLines v.1 else List.replicate 64 0x3F800000#32, anyPoison i.1 || anyPoison v.1⟩
     Ready c .accInit w w1 s → k.array.stopped = false → upper → fld w1 1 0 ≠ 3 → r0 + n ≤ 1024 →
       runCheck s c (lSa w) a la = 0 → runCheck s c (lSb w) b lb = 0 → i.2.1 = false → v.2.1 = false →
       exec (.accInit c []) s = .next (retire c w (modArray c (fun x =>
         let x := if bk = 0 then { x with bank0 := some bi } else { x with bank1 := some bi }
         { x with curBank := some bk, acc := loopN n (fun j st => sput (1024 * bk + r0 + j) accInitRow st) x.acc }) v.2.2))) ∧
    (∀ bk,
      let u := issued c .accDrain w w1 s
      let f := fld w1 4 0
      let r0 := fld w1 16 7
      let bm := bitOf w1 18
      let lines := drainLines f n
      let r := drainRows c bk f (bitOf w1 17) n r0 ⟨[], [], [], [], false⟩ u
      let bad (i : Nat) : Bool := (r.1.bad[i]?).getD false
      let t := writeRange c (lSc w) 4
        (fun i => let x := rowsOfLine f i; (List.range (x.2 + 1 - x.1)).any fun j => bad (x.1 + j)) (lines + 1) cc 0 0
        (if fmt6 f then 512 * lines else 64 * fmtBits f * n) (packEls (64 * fmtBits f) r.1.bits) r.2
      let v := writeRange c (lSa w) 4 (fun i => (List.range 32).any fun j => bad (32 * i + j)) (n + 1) a 0 0
        (if fmtMx f then 16 * n else 0) (packEls 16 (r.1.sc.map (packEls 8))) t.2
      Ready c .accDrain w w1 s → k.array.stopped = false → upper → upperZero (rdS k (lRc w)) = true → fld w1 6 5 ≠ 3 →
        arrayFmt f = true → pickBank k.array (fld w1 6 5) false = some bk → r0 + n ≤ 1024 → bitOf w1 19 = false →
        writeCheck s c k.nextSeq (lSc w) cc lines = 0 → writeCheck s c k.nextSeq (lSa w) a (drainScaleLines f n) = 0 →
        writeCheck s c k.nextSeq (lSb w) b (if bm then cdiv n 512 else 0) = 0 → t.1 = false → v.1 = false →
        r.1.trap = false → arrayFailed v.2 c = false →
        exec (.accDrain c []) s = .next (retire c w (if bm then
          writeBits c (lSb w) b (cdiv n 512) (packEls 1 (r.1.touch.map b2n)) (fun _ => false) v.2 else v.2))) ∧
    (∀ bk, Ready c .accDrain w w1 s → k.array.stopped = false → upper → upperZero (rdS k (lRc w)) = true → fld w1 6 5 ≠ 3 →
      arrayFmt (fld w1 4 0) = true → pickBank k.array (fld w1 6 5) false = some bk → n ≤ 1024 → bitOf w1 19 = true →
      exec (.accDrain c []) s = .next (ran c k.pc w (issued c .accDrain w w1 s)
        (drainGated c (issuedOp c .accDrain w w1 s) bk (fld w1 4 0) (issued c .accDrain w w1 s)))) ∧
    (Ready c .part w w1 s → k.array.stopped = false → fld w 33 32 ≠ 3 →
      exec (.part c []) s = .next (retire c w ((issued c .part w w1 s).modCore c fun k => { k with
        gm := [], array := { k.array with mode := fld w 33 32, contain := fld w 37 34, sets := [], curSet := none,
                                          curBank := none } })))

/-! ## A core's sparse, gating, scatter and select instructions -/

/-- R208, R209, R222: PACK writes the variable form of its source when it is no longer than the dense payload, the dense payload
otherwise, and the length in bytes to s[rd]; PACK from a reference tile writes what the reference's codes select. -/
def Obligations.PackResults : Prop :=
  ∀ (c : CoreId) (w w1 : Word) (s : State), Ready c .pack w w1 s →
    let k := s.core c
    let u := issued c .pack w w1 s
    let o := issuedOp c .pack w w1 s
    let a := low32 (rdS k (lRa w))
    let cc := low32 (rdS k (lRc w))
    let n := low32 (rdS k (lRn w))
    let f := fld w1 4 0
    let role := fld w1 5 5
    let nLen := fld w1 13 7
    let dense := densePayload f role n
    let lines := srcLines f role n
    let r := shelfReadN c (lSa w) a 7 lines u
    let src := r.1.foldr (fun l acc => l.data.toNat + 2 ^ 512 * acc) 0
    let four := fmtClass f == 3
    let cols := if role = 0 then (if four then 2 * nLen else nLen) else rowElems f
    let els := (List.range (if role = 0 && four then cdiv n 2 else n)).map fun i => (List.range (rowElems f)).map fun e =>
      if e < cols then (src >>> srcBit f role i e) % 2 ^ fmtBits f else 0
    let v := varTileBits f els
    let out (big : Bool) (bytes payload : Nat) (t : State) : State := wrS c (lRd w) (BitVec.ofNat 64 (16 + bytes))
      (writeBits c (lSc w) cc (packedLines bytes) (hdrBits ⟨big, 1, 0, false, role, f, nLen, n, bytes⟩ + 2 ^ 128 * payload)
        (if big then denseBad r.1 bytes else variableBad f role cols r.1 els) t)
    upperZero (rdS k (lRa w)) = true → upperZero (rdS k (lRb w)) = true → upperZero (rdS k (lRc w)) = true →
    upperZero (rdS k (lRn w)) = true → arrayFmt f = true → (bitOf w1 6 = true → fmtClass f ≠ 0) →
    (bitOf w1 6 = false → 0 < n → n ≤ (if role = 0 then rowElems f else 1048575) → (role = 0 → 0 < nLen ∧ nLen ≤ 64) →
      runCheck s c (lSa w) a lines = 0 →
      writeCheck s c k.nextSeq (lSc w) cc (packedLines dense) = 0 → r.2.1 = false →
      (v.2 / 8 ≤ dense → exec (.pack c []) s = .next (retire c w (out false (v.2 / 8) v.1 r.2.2))) ∧
      (dense < v.2 / 8 → exec (.pack c []) s = .next (retire c w (out true dense (src % 2 ^ (8 * dense))
        (bumpC c Reg.PACK_DENSE_CNT r.2.2))))) ∧
    (bitOf w1 6 = true → exec (.pack c []) s = .next (ran c k.pc w u (packRef c o f u)))

/-- R223 to R225, R280: MATCH_LOAD fills the key memory, or one group of it, with the keys of its lines in order; MATCH_PROBE
writes the hits of its probe words and their number. -/
def Obligations.MatchResults : Prop :=
  ∀ (c : CoreId) (w w1 : Word) (s : State),
    let k := s.core c
    let a := low32 (rdS k (lRa w))
    let cc := low32 (rdS k (lRc w))
    let n := low32 (rdS k (lRn w))
    let split := lOptB w 1
    (let u := issued c .matchLoad w w1 s
     let r := shelfReadN c (lSa w) a 7 (cdiv n 8) u
     let keys := ((keyWords r.1).take n).mapIdx camKey
     let g := fld w1 1 0
     let put (g : Nat) (ks : List CamKey) (st : Store (List CamKey)) := if ks.isEmpty then sdel g st else sput g ks st
     let groups := if split then put g keys (if k.cam.mode = 1 then [] else k.cam.groups)
       else loopN 4 (fun g st => put g ((keys.drop (256 * g)).take 256) st) []
     let bad := if split then
         (if anyPoison r.1 then [g] else []) ++ (if k.cam.mode = 1 then [] else k.cam.poison.filter (· != g))
       else (List.range 4).filter fun g => ((r.1.drop (32 * g)).take 32).any (·.poison)
     Ready c .matchLoad w w1 s → upperZero (rdS k (lRa w)) = true → upperZero (rdS k (lRn w)) = true →
       n ≤ (if split then 256 else 1024) → runCheck s c (lSa w) a (cdiv n 8) = 0 → r.2.1 = false →
       exec (.matchLoad c []) s = .next (retire c w (r.2.2.modCore c fun k =>
         { k with cam := ⟨if groups.isEmpty then 0 else if split then 2 else 1, groups, bad⟩ }))) ∧
    (let u := issued c .matchProbe w w1 s
     let o := issuedOp c .matchProbe w w1 s
     let d := fld w1 20 0
     let stride := fld w1 41 21
     let r := probeGroup c o (k.cam.groups.flatMap (·.2)) a n d u
     let x := writeRecords c o cc r.1 (!k.cam.poison.isEmpty) r.1.bad r.2
     let q := probeSplit c o k.cam n d stride (List.range 4) u
     let y := writeSplit c o k.cam d (firstPoisoned q.1) q.1 q.2
     let count (i : Nat) : Nat := (y.1[i]?).getD 0
     Ready c .matchProbe w w1 s → upperZero (rdS k (lRa w)) = true → upperZero (rdS k (lRc w)) = true →
       upperZero (rdS k (lRn w)) = true → 0 < n → n ≤ 1048576 →
       (split = false → runCheck s c (lSa w) a (cdiv n 8) = 0 → writeCheck s c k.nextSeq (lSc w) cc d = 0 → r.1.ecc = false →
         exec (.matchProbe c []) s = .next (retire c w (wrS c (lRd w) (BitVec.ofNat 64 x.1) x.2))) ∧
       (split = true → (∀ g, g < 4 → (sget g k.cam.groups).isSome = true →
           runCheck s c (lSa w) (a + g * stride) (cdiv n 8) = 0 ∧ writeCheck s c k.nextSeq (lSc w) (cc + g * d) d = 0) →
         (∀ p, p ∈ q.1 → p.2.ecc = false) →
         exec (.matchProbe c []) s = .next (retire c w (wrS c (lRd w + 1) (BitVec.ofNat 64 (count 2 + count 3 * 2 ^ 32))
           (wrS c (lRd w) (BitVec.ofNat 64 (count 0 + count 1 * 2 ^ 32)) y.2)))))

/-- R226 to R228: PRED_GATE makes a mask register from its score rows: the groups predicted active, and those that the rotation
has in shadow; on a gate in fallback every group is active. The number of chunks goes to s[rd]. -/
def Obligations.PredGateResults : Prop :=
  ∀ (c : CoreId) (w w1 : Word) (s : State), Ready c .predGate w w1 s →
    let k := s.core c
    let u := issued c .predGate w w1 s
    let a := low32 (rdS k (lRa w))
    let n := low32 (rdS k (lRn w))
    let thr := (rdS k (fld w1 24 20)).toNat
    let f := fld w1 4 0
    let ng := fld w1 11 5
    let gate := fld w1 17 12
    let m := fld w1 19 18
    let rl := cdiv (ng * fmtBits f) 512
    let q := scoreRows c (issuedOp c .predGate w w1 s) f thr ng rl n 0 u
    let all := 2 ^ ng - 1
    let z := rotate q.1 (List.range ng) ((sget gate k.rot).getD 0)
    let inFallback := bitOf (u.reg (Reg.GATE_STAT + 0x200 * k.slot + 8 * gate)) 63
    upperZero (rdS k (lRa w)) = true → upperZero (rdS k (lRn w)) = true → n ≤ 1024 → scoreFmt f = true → thr < 2 ^ fmtBits f →
    0 < ng → ng ≤ 64 → bitOf (gateCfg s k.slot gate) 0 = true → runCheck s c (lSa w) a (n * rl) = 0 → q.2.1 = false →
      (inFallback = true →
        let gm : GateMask := ⟨q.1, all, all - q.1, gate, ng⟩
        exec (.predGate c []) s = .next (retire c w (wrS c (lRd w) (BitVec.ofNat 64 (gmChunks gm))
          (q.2.2.modCore c fun k => { k with gm := sput m gm k.gm })))) ∧
      (inFallback = false →
        let gm : GateMask := ⟨q.1, q.1, z.1, gate, ng⟩
        exec (.predGate c []) s = .next (retire c w (wrS c (lRd w) (BitVec.ofNat 64 (gmChunks gm))
          (q.2.2.modCore c fun k => { k with
            gm := sput m gm k.gm, rot := if z.2 = 0 then sdel gate k.rot else sput gate z.2 k.rot }))))

/-- R235, R236, R239: SCA_INIT empties the index over a value shelf; SCA_ADD takes its pairs in order and sends the lines that
spill; SCA_DRAIN writes the keys in the order of their slots and the counts to three scalar registers. -/
def Obligations.ScatterResults : Prop :=
  ∀ (c : CoreId) (w w1 : Word) (s : State),
    let k := s.core c
    let a := low32 (rdS k (lRa w))
    let cc := low32 (rdS k (lRc w))
    let n := low32 (rdS k (lRn w))
    let sca := k.sca
    (Ready c .scaInit w w1 s → 0 < fld w 38 32 → fld w 38 32 ≤ 64 → runCheck s c (fld w 29 24) 0 1 = 0 →
      exec (.scaInit c []) s = .next (retire c w ((issued c .scaInit w w1 s).modCore c fun k =>
        { k with sca := ⟨true, false, fld w 29 24, fld w 38 32, bitOf w 39, [], 0, 0⟩ }))) ∧
    (let u := issued c .scaAdd w w1 s
     let o := issuedOp c .scaAdd w w1 s
     let r := scaPairs c o n a ⟨[], none, 0⟩ u
     Ready c .scaAdd w w1 s → upperZero (rdS k (lRa w)) = true → upperZero (rdS k (lRn w)) = true → n ≤ 1048575 →
       sca.init = true → runCheck s c (lSa w) a (n * scaLin sca.lanes) = 0 →
       (0 < n → writeCheck s c k.nextSeq sca.shelf 0 1 = 0) → r.1.trap = 0 →
       exec (.scaAdd c []) s = .next (ran c k.pc w u (launch c o [] r.1.spill r.2))) ∧
    (let u := issued c .scaDrain w w1 s
     let keys := sca.keys.length
     let t := writeRange c (lSc w) 7 (fun _ => sca.poisoned) (cdiv keys 8 + 1) cc 0 0 (64 * keys)
       (packEls 64 (sca.keys.map (·.key))) u
     Ready c .scaDrain w w1 s → upperZero (rdS k (lRc w)) = true → sca.init = true →
       writeCheck s c k.nextSeq (lSc w) cc (cdiv keys 8) = 0 → t.1 = false →
       exec (.scaDrain c []) s = .next (retire c w (wrS c (lRd w + 2) (BitVec.ofNat 64 sca.spillPos)
         (wrS c (lRd w + 1) (BitVec.ofNat 64 sca.spilled) (wrS c (lRd w) (BitVec.ofNat 64 keys) t.2)))))

/-- R281, R289 to R296: TOPK and MERGE with operands in range ask the SMU for a context and wait; a TOPK of no rows completes. The
oldest request obtains a free context, and the lines of its first row, or of its merge, are sent to it; a context resolves its row,
or its merge, from the lines that it has checked, the lines of the next row are sent, and after the last the instruction has its
answer and the context is free. -/
def Obligations.SelectResults : Prop :=
  (∀ (c : CoreId) (w w1 : Word) (s : State),
    let k := s.core c
    let a := low32 (rdS k (lRa w))
    let cc := low32 (rdS k (lRc w))
    let n := low32 (rdS k (lRn w))
    let f := fld w1 4 0
    let upper := upperZero (rdS k (lRa w)) = true ∧ upperZero (rdS k (lRc w)) = true ∧ upperZero (rdS k (lRn w)) = true
    let ask (o : Op) (u : State) : State := started c w ⟨o, [], 1, []⟩ (u.send
      { kind := .smuWork, src := .core c, dst := .smu, seq := k.nextSeq, slot := k.slot })
    (let l := fld w1 29 5
     let kk := fld w1 42 30
     Ready c .topk w w1 s → upper → n ≤ 1048575 → 0 < kk → kk ≤ 4096 → 0 < l → l ≤ 2 ^ 24 → selectFmt f = true →
       runCheck s c (lSa w) a (n * cdiv (l * fmtBits f) 512) = 0 →
       writeCheck s c k.nextSeq (lSc w) cc (n * blockLines kk) = 0 →
       exec (.topk c []) s = .next (if n = 0 then retire c w (issued c .topk w w1 s)
         else ask (issuedOp c .topk w w1 s) (issued c .topk w w1 s))) ∧
    (let ki := fld w1 17 5
     let ko := fld w1 42 30
     Ready c .merge w w1 s → upper → 0 < n → n ≤ 64 → 0 < ki → ki ≤ 4096 → 0 < ko → ko ≤ 4096 → selectFmt f = true →
       runCheck s c (lSa w) a (n * blockLines ki) = 0 → writeCheck s c k.nextSeq (lSc w) cc (blockLines ko) = 0 →
       exec (.merge c []) s = .next (ask (issuedOp c .merge w w1 s) (issued c .merge w w1 s)))) ∧
  (∀ (c : CoreId) (m : Msg) (rest : List Msg) (a : Active) (s : State), domRun s 40 = true → s.smu.length < 64 →
    takeFirst (fun m : Msg => m.kind == .smuWork) s.net = some (m, rest) → m.src = .core c →
    findActive (s.core c) m.seq = some a →
    let r := smuLines c a.op 0 { s with net := rest }
    exec .smuContextAssign s = .next (if r.2.1 then activeTrap c m.seq trapBankEcc r.2.2
      else pump c { r.2.2 with smu := r.2.2.smu ++ [⟨c, m.seq, 0, r.1⟩] })) ∧
  (∀ (i : Nat) (k : SmuCtx) (a : Active) (errs : List LineErr) (s : State), s.smu[i]? = some k → domRun s 40 = true →
    findActive (s.core k.core) k.seq = some a →
    let ls := smuChecked k.core errs k.lines
    let u := strike errs s
    let free (s : State) : State := { s with smu := s.smu.eraseIdx i }
    (let r := resolveTopk k.core a.op k.row ls u
     let z := smuLines k.core a.op (k.row + 1) r.2
     a.op.mn = .topk → r.1.trap = 0 →
      exec (.smuResolve i errs) s = .next (if r.1.fin then settle k.core (answered k.core k.seq (free r.2))
        else if z.2.1 then activeTrap k.core k.seq trapBankEcc (free z.2.2)
        else pump k.core { z.2.2 with smu := z.2.2.smu.set i { k with row := k.row + 1, lines := z.1 } })) ∧
    (let r := resolveMerge k.core a.op ls u
     a.op.mn = .merge → r.1.trap = 0 →
      exec (.smuResolve i errs) s = .next (settle k.core (answered k.core k.seq (free r.2)))) ∧
    (let r := if a.op.mn = .topk then resolveTopk k.core a.op k.row ls u else resolveMerge k.core a.op ls u
     r.1.trap ≠ 0 → exec (.smuResolve i errs) s = .next (activeTrap k.core k.seq r.1.trap (free r.2))))

/-! ## Time -/

/-- R83 to R86: TIME_ADVANCE adds the present increment, a write of TIME_RATE is clamped, an accepted step sets device time, a
second one is refused and counted, a read of TIME_NOW_NS latches the seconds and the fraction of the same cycle, and a read of
those returns what is latched for its requester, or the present value. -/
def Obligations.TimeBaseResults : Prop :=
  ∀ s : State,
    (∃ t, exec .timeAdvance s = .next t ∧
      t.nowNs * 2 ^ 32 + t.time.frac = s.nowNs * 2 ^ 32 + ((s.time.frac : Int) + 2 * 2 ^ 32 + s.rateAct).toNat ∧
      t.time.frac < 2 ^ 32 ∧ (s.time.frac < 2 ^ 32 → s.time.ns < 1000000000 → t.time.ns < 1000000000) ∧
      t.time.cyc = s.time.cyc + 1 ∧ t.reg Reg.TIME_RATE_ACT = s.reg Reg.TIME_RATE ∧
      ((∀ i, (s.pin i).wrote = false) → ∀ o, o ≠ Reg.TIME_RATE_ACT → t.reg o = s.reg o) ∧
      t.act = s.act ∧ t.mem = s.mem ∧ t.cores = s.cores) ∧
    (∀ v : Half, exec (.timeRateWrite v) s = .next (
      if v.toInt < -8589934 then (s.setReg Reg.TIME_RATE (i32 (-8589934))).setF Reg.TIME_STAT 1 1 1
      else if 8589934 < v.toInt then (s.setReg Reg.TIME_RATE (i32 8589934)).setF Reg.TIME_STAT 1 1 1
      else s.setReg Reg.TIME_RATE (i32 v.toInt))) ∧
    (bitOf (s.reg Reg.TIME_STAT) 0 = false → s.regF Reg.TIME_STEP_NS 29 0 < 1000000000 →
      exec .timeStepAbsolute s = .next (toutAfterStep
        (decide (s.regF Reg.TIME_STEP_SEC 47 0 * 1000000000 + s.regF Reg.TIME_STEP_NS 29 0 < s.nowNs)) ((s.modTime fun t =>
          { t with sec := s.regF Reg.TIME_STEP_SEC 47 0, ns := s.regF Reg.TIME_STEP_NS 29 0, frac := 0 }).setF
            Reg.TIME_STAT 0 0 1))) ∧
    (let n : Int := (s.nowNs : Int) + sfld (s.reg Reg.TIME_STEP_SEC) 47 0 * 1000000000 + s.regF Reg.TIME_STEP_NS 29 0
     bitOf (s.reg Reg.TIME_STAT) 0 = false → s.regF Reg.TIME_STEP_NS 29 0 < 1000000000 → 0 ≤ n → n < 2 ^ 48 * 1000000000 →
      exec .timeStepOffset s = .next (toutAfterStep (decide (n < (s.nowNs : Int))) ((s.modTime fun t =>
        { t with sec := n.toNat / 1000000000, ns := n.toNat % 1000000000 }).setF Reg.TIME_STAT 0 0 1))) ∧
    (bitOf (s.reg Reg.TIME_STAT) 0 = true →
      exec .timeStepAbsolute s = .next (raise evTimeStepDenied (bump Reg.TIME_STEP_REFUSED s)) ∧
      exec .timeStepOffset s = .next (raise evTimeStepDenied (bump Reg.TIME_STEP_REFUSED s))) ∧
    (∀ r : Requester, ∃ t, exec (.timeNowRead r) s = .next t ∧ t.lastRead = BitVec.ofNat 64 s.time.ns ∧
      takeLatch r t.time.nowSec = some s.time.sec ∧ takeLatch r t.time.nowFrac = some s.time.frac ∧ t.regs = s.regs) ∧
    (∀ r : Requester, coreDenied r Reg.TIME_NOW_SEC false = none → (∀ f, r ≠ .vf f) →
      (busReadVal r Reg.TIME_NOW_SEC .w64 s).1 =
        BitVec.ofNat 64 ((match takeLatch r s.time.nowSec with | some x => x | none => s.time.sec) % 2 ^ 48) ∧
      (busReadVal r Reg.TIME_NOW_FRAC .w32 s).1 =
        BitVec.ofNat 64 (match takeLatch r s.time.nowFrac with | some x => x | none => s.time.frac) &&& lowMask)

/-- R92 to R97: a pin whose oldest edge device time has reached pulses, unless a timer fence that takes it is due, and the pulse
ends, 8 ns before the next edge where its width reaches that edge; a write of a pin's registers takes effect in the next TCLK
cycle: the schedule is cancelled and the new one made; a captured edge of TIME_IN enters its queue less 4 ns, a fifth is counted,
and a read takes the oldest. -/
def Obligations.TimedPinResults : Prop :=
  ∀ s : State,
    (∀ (i : Idx4) (t : Nat) (k : Bool) (r : List (Nat × Bool)), (s.pin i).edges = (t, k) :: r → t ≤ s.nowNs →
      edgeLate s i (t, k) = false →
      exec (.toutEdge i) s = .next (toutDrive i (s.setPin i { s.pin i with
        edges := if toutMode s i = 2 then edgePut (t + toutPeriod s i, false) r else r, ends := some (t + toutWidth s i) }))) ∧
    (∀ (i : Idx4) (t : Nat) (k : Bool) (r : List (Nat × Bool)), (s.pin i).edges = (t, k) :: r → s.nowNs < t →
      exec (.toutEdge i) s = .next s) ∧
    (∀ (i : Idx4) (t : Nat), (s.pin i).ends = some t →
      (match toutNext s i with
        | some n => if n ≤ t then n - 8 else t
        | none => t) ≤ s.nowNs →
      exec (.toutPulseEnd i) s = .next (toutDrive i (s.setPin i { s.pin i with ends := none }))) ∧
    (∀ (i : Idx4) (v : Word), fld v 2 0 ≤ 4 →
      exec (.toutCfgWrite i 0 v) s =
        .next ((s.setPin i { s.pin i with wrote := true }).setReg (toutOff Reg.TOUT_CFG i) (v &&& 0xFFFFFF1F))) ∧
    (∀ (i : Idx4) (v : Word), exec (.toutCfgWrite i 2 v) s =
      .next ((s.setPin i { s.pin i with wrote := true }).setReg (toutOff Reg.TOUT_TIME_NS i) (v &&& 0x3FFFFFFF))) ∧
    (∀ i : Idx4, (∀ j : Idx4, (s.pin j).wrote = decide (j = i)) →
      let u := (s.modTime fun t => t.advance s.rateAct).setReg Reg.TIME_RATE_ACT (s.reg Reg.TIME_RATE)
      let p : ToutPin := { cfg := (s.reg (toutOff Reg.TOUT_CFG i)).truncate 32,
                           start := s.regF (toutOff Reg.TOUT_TIME_SEC i) 47 0 * 1000000000 + s.regF (toutOff Reg.TOUT_TIME_NS i) 29 0,
                           period := s.regF (toutOff Reg.TOUT_PERIOD_NS i) 31 0, wrote := false, edges := [], ends := none }
      (fld p.cfg 2 0 ≠ 1 → fld p.cfg 2 0 ≠ 2 → exec .timeAdvance s = .next (toutDrive i (u.setPin i p))) ∧
      (fld p.cfg 2 0 = 1 ∨ fld p.cfg 2 0 = 2 → u.nowNs ≤ p.start →
        exec .timeAdvance s = .next ((toutDrive i (u.setPin i p)).setPin i { p with edges := [(p.start, false)] }))) ∧
    (∀ (j : Fin 2) (rising : Bool), bitOf (s.reg (Reg.TIN_CFG + 0x40 * j.val)) (if rising then 0 else 1) = true →
      frameOn s = false → (s.caps j).length < 4 → 4 ≤ s.nowNs →
      exec (.timeInEdge j rising) s = .next (s.setCaps j (s.caps j ++
        [((s.nowNs - 4) / 1000000000, (s.nowNs - 4) % 1000000000)]))) ∧
    (∀ (j : Fin 2) (rising : Bool), bitOf (s.reg (Reg.TIN_CFG + 0x40 * j.val)) (if rising then 0 else 1) = true →
      frameOn s = false → 4 ≤ (s.caps j).length →
      exec (.timeInEdge j rising) s = .next (raise (evTinOvf j.val) (bump (Reg.TIN_OVF + 8 * j.val) s))) ∧
    (∀ (j : Fin 2) (x : Nat × Nat) (r : List (Nat × Nat)), s.caps j = x :: r →
      exec (.tinCapRead j) s = .next
        { ((s.setCaps j r).setReg (Reg.TIN_CAP_SEC + 0x40 * j.val) (BitVec.ofNat 64 x.1)) with
          lastRead := BitVec.ofNat 64 x.2 }) ∧
    (∀ j : Fin 2, s.caps j = [] → exec (.tinCapRead j) s = .next { s with lastRead := 0 })

/-! ## Frames and fences -/

/-- R12, R30 to R36, R39, R40, R91: what makes a fence: each source's event, when that source is selected and not too early, and
a fence missing for 500,000,000 cycles; the number it issues; enabling, disabling, the guard interval, load_fb and the end of
the grid handover. -/
def Obligations.FenceSourceResults : Prop :=
  ∀ s : State,
    let early := match s.time.lastFence with
      | some f => decide (s.time.cyc < f + 5000000)
      | none => false
    let num := if bitOf (s.reg Reg.FRAME_STAT) 0 then frameNum s + 1 else 1
    let on := frameOn s = true ∧ isSafe s = false
    (∀ d, on → frameSrc s = 0 → s.time.due = some d → d ≤ s.time.cyc → early = false →
      exec .frameTimerExpire s = .next (fence num false s)) ∧
    (∀ j : Fin 2, on → frameSrc s = 1 + j.val → tinSelects s j true = false → early = false →
      exec (.timeInEdge j true) s = .next (fence num false s)) ∧
    (∀ j : Fin 2, on → frameSrc s = 1 + j.val → tinSelects s j true = false → early = true →
      exec (.timeInEdge j true) s = .next (bump Reg.FENCE_EARLY_CNT s)) ∧
    (on → frameSrc s = 4 → early = false → exec .swFence s = .next (fence num false s)) ∧
    (frameSrc s ≠ 4 → exec .swFence s = .next (accessError s)) ∧
    (∀ (p : Idx4) (m : Msg) (u : State), takeFence p s = some (m, u) → on → frameSrc s = 3 → s.actF Reg.FRAME_SRC 4 3 = p.val →
      early = false → exec (.fenceFlitReceive p) s = .next (fence m.frame (!later m.frame (frameNum s)) u)) ∧
    (on → frameSrc s ≠ 0 → missBase s + 500000000 ≤ s.time.cyc →
      exec .fenceMissing s = .next (fence num false (bump Reg.FENCE_MISSING_CNT s))) ∧
    (∀ d, on → frameSrc s = 0 → s.time.due = some d → s.time.cyc < d → d ≤ s.time.cyc + (s.reg Reg.FRAME_GUARD).toNat →
      exec .guardStart s = .next (s.setF Reg.FRAME_STAT 1 1 1)) ∧
    (frameOn s = false → exec .frameEnable s = .next (((s.modTime fun t =>
      { t with armedAt := t.cyc, due := if frameSrc s = 0 then some (firstDue s) else none }).setF
        Reg.FRAME_CTRL 0 0 1).setF Reg.FRAME_STAT 0 0 0)) ∧
    (frameOn s = true → exec .frameDisable s = .next (allSlots.foldl (fun s k => launchWrites k s)
      (((s.modTime fun t => { t with due := none }).setF Reg.FRAME_CTRL 0 0 0).setF Reg.FRAME_STAT 1 1 0))) ∧
    (frameOn s = false → (s.frames.toList.any fun l => !l.isEmpty) = false → exec .loadFb s = .next (captureAll s)) ∧
    (frameOn s = true ∨ (s.frames.toList.any fun l => !l.isEmpty) = true → exec .loadFb s = .next (accessError s)) ∧
    (handoverOwed s = false → exec .gridHandoverComplete s = .next (s.setF Reg.FRAME_STAT 3 3 0))

/-- R34, R35, R36: the fence instant gives FRAME_NUM the fence's number and FRAME_FENCE_SEC and FRAME_FENCE_NS device time; a
renumbering fence makes a placed core's frame one less than the new number and empties what it held for frames to come. -/
def Obligations.FenceInstantEffects : Prop :=
  (∀ (n : BitVec 32) (renum : Bool) (s : State),
    let t := fenceInstant n renum s
    frameNum t = n ∧ t.time.lastFence = some s.time.cyc ∧ t.cores = s.cores ∧ t.frames = s.frames ∧ t.act = s.act ∧
      t.reg Reg.FRAME_FENCE_SEC = BitVec.ofNat 64 s.time.sec ∧ t.reg Reg.FRAME_FENCE_NS = BitVec.ofNat 64 s.time.ns) ∧
  (∀ (n : BitVec 32) (k : CoreSt), k.issue ≠ .unplaced →
    (coreCapture n false k).capFrame = n ∧ (coreCapture n false k).cur = k.cur ∧ (coreCapture n false k).sems = k.sems ∧
    (coreCapture n true k).capFrame = n ∧ (coreCapture n true k).cur = n - 1 ∧ (coreCapture n true k).ledger = [] ∧
    (∀ t, t < 16 → (semOf (coreCapture n true k) t).held = 0 ∧
      (semOf (coreCapture n true k) t).count = (semOf k t).count)) ∧
  (∀ a b : BitVec 32, later a b = true ↔ (1 ≤ (a - b).toNat ∧ (a - b).toNat ≤ 2 ^ 31 - 1))

/-! ## External memory -/

/-- R333, R338, R339: training, fills and the patrol scrub. -/
def Obligations.MemoryControlResults : Prop :=
  ∀ s : State,
    (s.mem.training = none → exec .memTrain s = .next ((s.modMem fun m =>
      { m with training := some (s.reg Reg.MEM_CFG) }).setF Reg.MEM_STAT 0 0 0)) ∧
    (s.mem.training.isSome = true → exec .memTrain s = .next (accessError s)) ∧
    (∀ cfg, s.mem.training = some cfg → ∃ t, exec (.memTrainComplete 0) s = .next t ∧ t.mem.training = none ∧
      t.mem.capGib = (if bitOf cfg 0 then 4 else 8) * 2 ^ fld cfg 5 4 ∧ bitOf (t.reg Reg.MEM_STAT) 0 = true ∧
      (s.mem.trainedCfg = some cfg → t.mem.lines = s.mem.lines) ∧ (s.mem.trainedCfg = none → t.mem.lines = [])) ∧
    (∀ cfg, s.mem.training = some cfg → bitOf cfg 0 = false → ∃ t, exec (.memTrainComplete 1) s =
      .next (raise evMemTrainFail t) ∧ t.mem.training = none ∧ t.mem.capGib = 0 ∧ fld (t.reg Reg.MEM_STAT) 8 1 = 1) ∧
    (let b := s.regF Reg.MEM_FILL_BASE 39 0
     let n := s.regF Reg.MEM_FILL_LINES 29 0
     bitOf (s.reg Reg.MEM_STAT) 16 = false → bitOf (s.reg Reg.MEM_STAT) 0 = true → b % 64 = 0 → 0 < n →
      b + 64 * n ≤ memBytes s → exec .memFill s = .next ((s.modMem fun m => { m with fillNext := b, fillLeft := n }).setF
        Reg.MEM_STAT 16 16 1)) ∧
    (bitOf (s.reg Reg.MEM_STAT) 16 = true → s.mem.training = none → exec .memFillComplete s = .next (
      ((memPutN s.mem.fillNext (List.replicate s.mem.fillLeft ⟨0, false⟩) s).modMem fun m => { m with fillLeft := 0 }).setF
        Reg.MEM_STAT 16 16 0)) ∧
    (bitOf (s.reg Reg.MEM_SCRUB_CFG) 0 = true → 0 < memBytes s → memHeld s (64 * s.mem.scrubPos) 1 = false →
      exec (.memScrub false 0 false false false) s = .next (bump Reg.MEM_SCRUB_LINES (s.modMem fun m =>
        { m with scrubPos := (m.scrubPos + 1) % (memBytes s / 64) })) ∧
      exec (.memScrub false 0 false true false) s = .next (bump Reg.MEM_SCRUB_LINES ((bump Reg.MEM_CE_CNT s).modMem fun m =>
        { m with scrubPos := (m.scrubPos + 1) % (memBytes s / 64) })))

/-- R335, R336, R339: a served read delivers the line as it is stored, a served write stores it and is acknowledged; the line
written reads back, and every other line is as before. A reply to this device's mesh is a message behind those under way. -/
def Obligations.MemoryLineResults : Prop :=
  ∀ (src : Agent) (m : Msg) (s u : State), s.mem.training = none → m.addr < memBytes s → memHeld s m.addr 1 = false →
    (s.receive .memRead src .mem = some (m, u) →
      (∀ l, sget (m.addr / 64) s.mem.lines = some l →
        exec (.memRead src []) s = .next (post { memReply m .readRsp with line := l } u)) ∧
      (sget (m.addr / 64) s.mem.lines = none →
        exec (.memRead src []) s = .next (post { memReply m .readRsp with line := ⟨u.free 2 512, 0⟩ } u.drawn))) ∧
    (let v := { u with mem := { u.mem with lines := sput (m.addr / 64) m.line u.mem.lines } }
     s.receive .memWrite src .mem = some (m, u) → tagFails (saltAddr m.addr) m.line = false →
      exec (.memWrite src 0 false) s = .next (post (memReply m .writeAck) v) ∧
        sget (m.addr / 64) v.mem.lines = some m.line ∧
        (∀ a, a ≠ m.addr / 64 → sget a v.mem.lines = sget a s.mem.lines) ∧ v.regs = s.regs ∧ v.cores = s.cores) ∧
    (s.receive .memWrite src .mem = some (m, u) → tagFails (saltAddr m.addr) m.line = true → m.disc = false →
      exec (.memWrite src 0 false) s = .next (post (memReply m .writeAck)
        (raise 0x153 (bump Reg.MEM_E2E_FAIL { u with mem := { u.mem with
          lines := sput (m.addr / 64) ⟨m.line.data, 0⟩ u.mem.lines } })))) ∧
    (∀ r : Msg, (∀ x y c, r.dst ≠ .dev x y c) → post r u = u.send r)

/-! ## Registers, counters, events -/

/-- R4, R6, R8, R10, R11: what an access to one register does, in either width: a plain RW register of the SYS, TEST and EVT
blocks or of a core takes the bits written where its mask has them, a plain FB register's pending value does, and the write
counts where it comes in the guard interval; a mirror ignores a write; a counter-clear register zeroes the counters named; a
read of the low half of a counter latches the high half for its reader; an unoccupied offset reads zero, ignores a write and
raises the register-access error event, as does an unmapped address and a register beyond the requester's reach; and a core
that may not make the access traps. -/
def Obligations.RegisterAccessResults : Prop :=
  (∀ (req : Requester) (o : Nat) (w : Width) (p : Piece) (v : Word) (s : State), coreDenied req o true = none →
    pieces o w = [(some p, 0)] →
    let m := BitVec.ofNat 64 p.r.mask &&& p.m
    let d := if p.m = highMask then v <<< 32 else v
    let n := (s.reg p.o &&& ~~~m) ||| (d &&& m)
    (reaches s req true p = true → p.mirror = false → clearBase p.r.base = none →
      p.o / 0x100000 ∉ [1, 2, 3, 4, 5, 6, 7, 8, 10, 11, 12, 14] →
      p.r.base ∉ [Reg.FRAME_CTRL, Reg.FRAME_GUARD, Reg.TEST_REF, Reg.FENCE_REQ, Reg.FENCE_CLEAR, Reg.SAFE_CTRL, Reg.SAFE_CFG,
        Reg.SHELF, Reg.SEC_BOOT_CTRL] →
        (p.r.acc = .rw → exec (.registerWrite req o w v) s =
          .next (s.setReg p.o (n &&& ~~~(d &&& p.m &&& BitVec.ofNat 64 p.r.w1c)))) ∧
        (p.r.acc = .fb → exec (.fbRegisterWrite req o w v) s = .next (
          if bitOf (s.reg Reg.FRAME_STAT) 1 then bump Reg.FB_LATE_WRITE_CNT (s.setReg p.o n) else s.setReg p.o n))) ∧
    (reaches s req true p = true → p.mirror = true → exec (.registerWrite req o w v) s = .next s) ∧
    (reaches s req true p = false → exec (.registerWrite req o w v) s = .next (accessError s)) ∧
    (∀ c (h : Half), w = .w32 → p.m = lowMask → reaches s req true p = true → p.mirror = false →
      clearBase p.r.base = some c →
      exec (.counterClear req o h) s = .next ((bitsSet 32 (h.zeroExtend 64 &&& BitVec.ofNat 64 p.r.mask).toNat).foldl
        (fun s i => s.setReg (c + (p.o - p.r.base) + 8 * i) 0) s))) ∧
  (∀ (req : Requester) (o : Nat) (p : Piece) (s : State), coreDenied req o false = none → pieces o .w32 = [(some p, 0)] →
    reaches s req false p = true → p.m = lowMask → p.r.acc = .cnt →
    p.r.base ∉ [Reg.TIME_NOW_SEC, Reg.TIME_NOW_NS, Reg.TIME_NOW_FRAC, Reg.TIN_CAP_NS] →
      let u := timedCount p s
      exec (.counterReadLow req o) s = .next { u with
        latch := (req, p.o, (u.reg p.o >>> 32).truncate 32) :: u.latch.filter fun e => !(e.1 == req && e.2.1 == p.o),
        lastRead := u.reg p.o &&& lowMask }) ∧
  (∀ (req : Requester) (o : Nat) (w : Width) (v : Word) (s : State), coreDenied req o true = none → pieces o w = [(none, 0)] →
    exec (.registerWrite req o w v) s = .next (accessError s) ∧
    (o < 0x4000000 → exec (.unoccupiedAccess req (0x1200000000 + o) w true v) s = .next (accessError s)) ∧
    (o < 0x4000000 → coreDenied req o false = none →
      exec (.unoccupiedAccess req (0x1200000000 + o) w false v) s = .next { accessError s with lastRead := 0 })) ∧
  (∀ (req : Requester) (a : Nat) (w : Width) (v : Word) (s : State), regionOf s a = .unmapped →
    ((∀ c, req ≠ .core c) → exec (.unoccupiedAccess req a w true v) s = .next (accessError s) ∧
      exec (.unoccupiedAccess req a w false v) s = .next { accessError s with lastRead := 0 }) ∧
    (∀ c wr, req = .core c →
      exec (.unoccupiedAccess req a w wr v) s = .next (seqTrap c trapUnmapped (s.core c).pc 0 s))) ∧
  (∀ (req : Requester) (o : Nat) (c : CoreId) (w : Width) (v : Word) (s : State), coreDenied req o true = some c →
    exec (.registerWrite req o w v) s = .next (seqTrap c trapDenied (s.core c).pc 0 s) ∧
    exec (.fbRegisterWrite req o w v) s = .next (seqTrap c trapDenied (s.core c).pc 0 s))

/-- R9: a statistics counter holds 48 bits and saturates; the count that saturates it sets the overflow bit, which stays, and
raises the overflow event of its block; nothing but the counter changes before and after that, until it has been cleared. The
reserved bits stay zero. -/
def Obligations.CounterRules : Prop :=
  ∀ (o n : Nat) (s : State), 0 < n →
    (cntAdd (s.reg o) n).toNat % 2 ^ 48 = min (2 ^ 48 - 1) ((s.reg o).toNat % 2 ^ 48 + n) ∧
    (cntAdd (s.reg o) n).getLsbD 63 =
      ((s.reg o).getLsbD 63 || decide (2 ^ 48 - 1 ≤ (s.reg o).toNat % 2 ^ 48 + n)) ∧
    (cntAdd (s.reg o) n).toNat / 2 ^ 48 % 2 ^ 15 = 0 ∧
    ((s.reg o).getLsbD 63 = true ∨ (s.reg o).toNat % 2 ^ 48 + n < 2 ^ 48 - 1 →
      bumpN o n s = s.setReg o (cntAdd (s.reg o) n)) ∧
    ((s.reg o).getLsbD 63 = false → 2 ^ 48 - 1 ≤ (s.reg o).toNat % 2 ^ 48 + n →
      bumpN o n s = raise (ovfEvent o) (s.setReg o (cntAdd (s.reg o) n)))

/-- R359: an event that is pending already does nothing more; otherwise its pending bit is set, and its route may send an MSI-X
message, set the message's pending bit where the vector is masked, and note the event for the firmware. -/
def Obligations.EventRules : Prop :=
  ∀ (e : Nat) (s : State), e < 1024 →
    let r := s.reg (Reg.EVT_ROUTE + 4 * e)
    let fn := if fld r 11 8 ≥ 9 then 0 else fld r 11 8
    let vec := fld r 7 0
    let o := Reg.EVT_PEND + 4 * (e / 32)
    let u := s.setReg o (s.reg o ||| BitVec.ofNat 64 (2 ^ (e % 32)))
    let noted (t : State) : State := if bitOf r 13 then { t with fwNotes := t.fwNotes ++ [e] } else t
    (s.isPend e = true → raise e s = s) ∧
    (s.isPend e = false → bitOf r 12 = false → raise e s = noted u) ∧
    (s.isPend e = false → bitOf r 12 = true → vec < msixSize s.pcie fn → s.pcie.linkUp = true →
      s.pcie.masked.contains (fn, vec) = false → s.pcie.d3hot.contains fn = false →
        raise e s = noted { u with out := u.out ++ [.msix fn vec] }) ∧
    (s.isPend e = false → bitOf r 12 = true → vec < msixSize s.pcie fn → s.pcie.linkUp = true →
      s.pcie.masked.contains (fn, vec) = true →
        raise e s = noted { u with pcie := { u.pcie with msixPend := (fn, vec) :: u.pcie.msixPend.erase (fn, vec) } }) ∧
    (raise e s).isPend e = true

/-! ## Point blocks, the grid, calibration -/

/-- R64 to R67, R87: the parser takes the oldest packet of a port once its stamp has come: a packet of no slot, of another UDP
port, or of a block that fails a check is counted and dropped; a block that passes is accepted, native or of a parser program;
and a parser program may be written while no slot names it. -/
def Obligations.PointBlockResults : Prop :=
  ∀ (p : Idx8) (s : State),
    (∀ (f : RxFrame) (rest : List RxFrame), domRun s 36 = true →
      takeFirst (fun f : RxFrame => f.port == p.val) s.ingest.parserq = some (f, rest) →
      let u := { s with ingest := { s.ingest with parserq := rest } }
      (s.time.cyc < f.cyc → exec (.pointBlock p) s = .next s) ∧
      (f.cyc ≤ s.time.cyc → blockSlot s f = none → exec (.pointBlock p) s = .next (bump (ethOff Reg.RX_UNCLASS_DROP p) u)) ∧
      (∀ n : HeadId, f.cyc ≤ s.time.cyc → blockSlot s f = some n →
        let k := headProg s n.val
        let m := udpData f.bytes
        let parsed := if k = 0 then parseNative n (udpLen f.bytes - 8) m else parseForeign u k f m
        let good := udpDst f.bytes = (if k = 0 then 47611 else progHdr u k 0 2)
        (¬good → exec (.pointBlock p) s = .next (bump (headOff Reg.BLK_FORMAT_DROP n.val) u)) ∧
        (∀ o, good → parsed = .inl o → exec (.pointBlock p) s = .next (bump (headOff o n.val) u)) ∧
        (∀ b, good → parsed = .inr b → activeAt u n f.cyc = false →
          exec (.pointBlock p) s = .next (bump (headOff Reg.BLK_UNAUTH_DROP n.val) u)) ∧
        (∀ b q r, good → parsed = .inr b → activeAt u n f.cyc = true →
          b.seq = some q → (s.head n).blkRef = some r → laterSeq 32 q r = false →
          exec (.pointBlock p) s = .next (bump (headOff Reg.BLK_STALE_DROP n.val) u)) ∧
        (∀ b, good → parsed = .inr b → activeAt u n f.cyc = true →
          (b.seq = none ∨ (s.head n).blkRef = none ∨
            ∃ q r, b.seq = some q ∧ (s.head n).blkRef = some r ∧ laterSeq 32 q r = true) →
          exec (.pointBlock p) s = .next (blockAccept n f b u)))) ∧
    (∀ (w : Nat) (v : Word), (∀ n, n < 16 → headProg s n ≠ p.val + 1) →
      (w < 4 → (w = 0 → v.toNat % 65536 ∉ [319, 320, 47610]) →
        exec (.parseProgWrite p w v) s = .next (s.setReg (Reg.PARSE_HDR + 0x100 * p.val + 8 * w)
          (if w = 2 then v &&& 0xFFFF else if w = 3 then 0 else v))) ∧
      (4 ≤ w → w < 20 →
        exec (.parseProgWrite p w v) s = .next (s.setReg (Reg.PARSE_DESC + 0x100 * p.val + 8 * (w - 4)) v))) ∧
    (∀ (w : Nat) (v : Word) (n : Nat), n < 16 → headProg s n = p.val + 1 →
      exec (.parseProgWrite p w v) s = .next (accessError s))

/-- R39, R98 to R101, R105, R111, R118: a block enters the grid in order, or is dropped and counted while the builder is off; a
point that is out of range changes no entry; a core's window read is answered with the computing buffer's line, sealed for its
address; elevation entries and GRID_LAT_MAX. -/
def Obligations.GridResults : Prop :=
  ∀ s : State,
    (∀ (k : GridBlock) (rest : List GridBlock) (lat : Nat), s.grid.queue = k :: rest →
      let u := { s with grid := { s.grid with queue := rest } }
      (bitOf (s.actReg Reg.GRID_CFG) 0 = false ∨ domRun s 37 = false →
        exec (.gridBlockTransform lat [] []) s = .next (bump Reg.GRID_OFF_DROP u)) ∧
      (bitOf (s.actReg Reg.GRID_CFG) 0 = true → domRun s 37 = true → lat ≤ 900 →
        (∀ e, e ∈ k.lines.zipIdx → tagGood (saltBlock k.slot k.seq e.2) e.1 = true) →
        exec (.gridBlockTransform lat [] []) s = .next ((blockPoints k [] u).setReg Reg.GRID_LAT_MAX
          (BitVec.ofNat 64 (max ((blockPoints k [] u).reg Reg.GRID_LAT_MAX).toNat lat))))) ∧
    (∀ (b : Fin 2) (pt : GridPoint), pointKey (s.gbuf b).set pt.p = none →
      let t := gridPoint b pt s
      (t.gbuf b).e0 = (s.gbuf b).e0 ∧ (t.gbuf b).e1 = (s.gbuf b).e1 ∧ (t.gbuf b).n = (s.gbuf b).n ∧
        t.gbuf (1 - b) = s.gbuf (1 - b) ∧ (t.gbuf b).points = sat32 ((s.gbuf b).points + 1) ∧
        (t.gbuf b).dropRange = sat32 ((s.gbuf b).dropRange + 1)) ∧
    (∀ (src : Agent) (m : Msg) (u : State), bitOf (s.reg Reg.FRAME_STAT) 3 = false → domRun s 37 = true →
      s.receive .gridRead src .grid = some (m, u) →
      let r := gridReadLine (m.addr - 0x1100000000) u
      exec (.gridWindowRead src []) s = .next (post
        { kind := .readRsp, src := .grid, dst := m.src, seq := m.seq, slot := m.slot, dshelf := m.dshelf, didx := m.didx,
          addr := m.addr, line := sealLine (saltAddr m.addr) r.1 } r.2)) ∧
    (∀ (src : Agent), bitOf (s.reg Reg.FRAME_STAT) 3 = true → exec (.gridWindowRead src []) s = .next s) ∧
    (∀ (n : HeadId) (ch : BitVec 8) (v : Word),
      (headOn s n.val = false → bitOf (s.reg Reg.FRAME_STAT) 3 = false →
        exec (.gridElevWrite n ch v) s = .next (s.setReg (Reg.GRID_ELEV + 0x800 * n.val + 8 * ch.toNat) v)) ∧
      (headOn s n.val = true ∨ bitOf (s.reg Reg.FRAME_STAT) 3 = true → exec (.gridElevWrite n ch v) s = .next (accessError s))) ∧
    exec .gridLatMaxRead s = .next { s.setReg Reg.GRID_LAT_MAX 0 with lastRead := s.reg Reg.GRID_LAT_MAX }

/-- R139 to R148: a candidate becomes a sample, or is rejected and counted; a solution adds an estimate to its slot's history,
or clears it where the samples are too few; software's write is the slot's pending value; freezing withdraws what the engine
has pending of its own values, unfreezing clears the histories, and disabling empties the engine. -/
def Obligations.CalibrationResults : Prop :=
  ∀ s : State,
    (∀ (k : CalCand) (rest : List CalCand), s.cal.queue = k :: rest → calOn s = true → s.cal.taken < calMax s →
      let u := { s with cal := { s.cal with queue := rest, taken := s.cal.taken + 1 } }
      let g := s.gbuf s.grid.filling
      let r := (neighbours k.key).map (lookNeighbour g s.grid.filling.val k.a)
      let pts := repPos g.set k.key k.off :: r.filterMap (·.1)
      let q := (k.p.1 * 16, k.p.2.1 * 16, k.p.2.2 * 16)
      (∀ x, x ∈ r → x.2 = 0) →
      let d := planeResid (planeNormal pts) pts q
      (pts.length < 6 ∨ planeFits pts = false →
        exec (.calSample []) s = .next (bump Reg.CAL_REJECT_PLANE u)) ∧
      (6 ≤ pts.length → planeFits pts = true → s.actF Reg.CAL_CFG 31 24 * 2 ^ 40 < d.natAbs * 1000 →
        exec (.calSample []) s = .next (bump Reg.CAL_REJECT_RESID u)) ∧
      (6 ≤ pts.length → planeFits pts = true → d.natAbs * 1000 ≤ s.actF Reg.CAL_CFG 31 24 * 2 ^ 40 →
        exec (.calSample []) s = .next (bump Reg.CAL_SAMPLE_CNT { u with cal := { u.cal with
          samples := s.cal.samples ++ [calAdd u k pts (planeNormal pts) q d] } }))) ∧
    (∀ n : HeadId, (s.calSlot n).solve = true → calOn s = true →
      let rows := calRows s n.val
      let u := (s.modSlot n fun c => { c with solve := false }).drawn.setF (Reg.CAL_SLOT_STAT + 0x100 * n.val) 47 32
        (if rows.isEmpty then (s.free 72 16).toNat else min 65535 (rmsMicro rows))
      (rows.length < 8 * s.actF Reg.CAL_CFG 23 16 →
        exec (.calProposal n) s = .next (u.modSlot n fun c => { c with hist := [] })) ∧
      (8 * s.actF Reg.CAL_CFG 23 16 ≤ rows.length → poseIll rows = true →
        exec (.calProposal n) s = .next (raise (evCalDegenerate n.val) (bump Reg.CAL_DEGENERATE_CNT
          (u.modSlot n fun c => { c with hist := [], state := 4 })))) ∧
      (8 * s.actF Reg.CAL_CFG 23 16 ≤ rows.length → poseIll rows = false → (s.calSlot n).hist.length < 7 →
        exec (.calProposal n) s = .next (u.drawn.modSlot n fun c =>
          { c with hist := c.hist ++ [calEstimate u n.val], state := if c.state = 4 then 1 else c.state }))) ∧
    (∀ (n : HeadId) (idx : Fin 13) (v : Half), bitOf (s.reg Reg.FRAME_STAT) 1 = false →
      let mine := (s.calSlot n).mine.filter fun i => !([idx.val] : List Nat).contains i
      exec (.calSoftwareWrite n idx v) s = .next (((s.setReg (((calOffs n.val)[idx.val]?).getD 0)
        (v.zeroExtend 64 &&& if idx.val = 12 then 0xFFFFFFFF else 0xFFFFFF)).setF
          (Reg.CAL_SLOT_STAT + 0x100 * n.val) 3 3 (b2n !mine.isEmpty)).modSlot n fun c => { c with swPend := true, mine := mine })) ∧
    ((∀ n : HeadId, (s.calSlot n).mine = []) → exec .calFreeze s = .next (s.setF Reg.CAL_CTRL 1 1 1)) ∧
    (∀ n : HeadId, (s.calSlot n).mine ≠ [] → calWithdraw n s =
      (setMine n [] ((s.calSlot n).mine.foldl (fun s i =>
        s.setReg (((calOffs n.val)[i]?).getD 0) (s.actReg (((calOffs n.val)[i]?).getD 0))) s)).modSlot n
          fun c => { c with skip := false, state := if c.state = 2 then 1 else c.state }) ∧
    (∃ t, exec .calUnfreeze s = .next t ∧ t.regs = (s.setF Reg.CAL_CTRL 1 1 0).regs ∧ t.cal.queue = s.cal.queue ∧
      ∀ n : HeadId, t.calSlot n = { s.calSlot n with hist := [] }) ∧
    (∃ t, exec .calDisable s = .next t ∧ t.regs = (s.setF Reg.CAL_CTRL 0 0 0).regs ∧ t.cal.queue = [] ∧ t.cal.taken = 0 ∧
      t.cal.samples = [] ∧ t.cal.closed = [] ∧
      ∀ n : HeadId, t.calSlot n = { s.calSlot n with hist := [], state := 0, solve := false, skip := false })

/-! ## Ethernet ports -/

/-- R51, R52, R54 to R56, R58, R59, R68: link and rate changes, the judgement of a received frame, and the transmission of the
descriptor at the head of firmware ring 0. -/
def Obligations.EthernetResults : Prop :=
  ∀ (p : Idx8) (s : State),
    (macLive s p = true → s.ingest.held.contains p.val = false → ethUp s p.val = false →
      ∃ t, exec (.ethLinkChange p true) s = .next t ∧ ethUp t p.val = true ∧
        (∀ n : HeadId, headOn s n.val = true → headPort s n.val = p.val → headState t n.val = 1) ∧
        (∀ n : HeadId, headOn s n.val = false ∨ headPort s n.val ≠ p.val → headState t n.val = headState s n.val) ∧
        t.act = s.act ∧ t.mem = s.mem) ∧
    (∀ up, macLive s p = true → s.ingest.held.contains p.val = false → up = ethUp s p.val →
      exec (.ethLinkChange p up) s = .next s) ∧
    (∀ mbps code, bitOf (s.reg (ethOff Reg.ETH_CFG p)) 3 = true → ethMode s p ≠ 0 → usxRate mbps = some code →
      exec (.usxgmiiRateChange p mbps) s = .next ((s.setF (ethOff Reg.ETH_STAT p) 3 1 code).modIngest fun g =>
        { g with held := g.held.filter (· != p.val) })) ∧
    (∀ (b : List Nat) (ago : Nat), bitOf (s.reg (ethOff Reg.ETH_CFG p)) 7 = true → ethUp s p.val = true → domRun s 36 = true →
      let body := b.take (b.length - 4)
      let st := stampAt (s.nowNs - ago) (sfld (s.reg (ethOff Reg.ETH_TS_LAT p)) 15 0)
      let u := bump (ethOff Reg.RX_FRAMES_CNT p) s
      (exec (.ethFrameReceive p b ago true) s = .next (bump (ethOff Reg.RX_BUF_DROP p) s)) ∧
      (b.length < 64 ∨ 9216 < b.length → exec (.ethFrameReceive p b ago false) s = .next (bump (ethOff Reg.RX_LEN_DROP p) s)) ∧
      (64 ≤ b.length → b.length ≤ 9216 → leAt b (b.length - 4) 4 ≠ (crc32Ieee body).toNat →
        exec (.ethFrameReceive p b ago false) s = .next (bump (ethOff Reg.RX_FCS_DROP p) s)) ∧
      (rxJudge s p b = none → rxClass s p body = 2 → ipOk body = true →
        exec (.ethFrameReceive p b ago false) s = .next (u.modIngest fun g =>
          { g with parserq := g.parserq ++ [⟨p.val, 2, body, st.1, st.2,
            stampCyc s (sfld (s.reg (ethOff Reg.ETH_TS_LAT p)) 15 0)⟩] })) ∧
      (rxJudge s p b = none → rxClass s p body = 2 → ipOk body = false →
        exec (.ethFrameReceive p b ago false) s = .next (bump (ethOff Reg.RX_IP_DROP p) u)) ∧
      (rxJudge s p b = none → rxClass s p body = 6 →
        exec (.ethFrameReceive p b ago false) s = .next (bump (ethOff Reg.RX_UNCLASS_DROP p) u))) ∧
    (∀ (r : Fin 4) (v : Half), exec (.ethRingTailWrite p r v) s =
      .next (s.setReg (ringOff Reg.ETH_RING_TAIL p r.val) (BitVec.ofNat 64 (v.toNat % 4096)))) ∧
    (∀ base size head tail, macLive s p = true → ethRing s p 2 = some (base, size, head, tail) → head ≠ tail →
      let d := base + 32 * (head % size)
      let r := memGet d 32 s
      let len := leAt r.1 8 2
      let r2 := memExit (leAt r.1 0 5) len r.2.2
      let done (status : Nat) (u : State) : State := ringAdvance p 2 size head (memSet (d + 14)
        ([0, 0, status, 0x80, 0, 0] ++ bytesLE 4 0 ++ bytesLE 6 0 ++ [0, 0]) u)
      (len < 60 ∨ 9212 < len → exec (.ethTransmit p) s = .next (done 2 r.2.2)) ∧
      (60 ≤ len → len ≤ 9212 → ethUp s p.val = false →
        exec (.ethTransmit p) s = .next (done 1 (bump (ethOff Reg.TX_LINK_DROP p) r.2.2))) ∧
      (60 ≤ len → len ≤ 9212 → ethUp s p.val = true → leAt r.1 10 1 % 4 = 0 → r2.2.1 = 0 →
        exec (.ethTransmit p) s = .next (done 0 (ethSend p.val r2.1 false r2.2.2))))

/-- R56, R80, R81, R88, R89: the publisher sends the next datagram of its oldest frame, or counts it where the port's link is down;
the firmware discards a PTP packet whose IPv4 header fails its checks; the servo notes a Sync on a slave port and takes its offset
from the Follow_Up, and the path delay from a Delay_Resp; a Delay_Req and a Pdelay_Req are answered with their stamps; a Sync goes
out with its Follow_Up; a locked servo enters HOLDOVER. -/
def Obligations.PublisherAndPtpResults : Prop :=
  ∀ (p : Idx8) (s : State),
    (∀ (d frag line : Nat) (f : PubFrame) (r : List PubFrame), pubPort s d = p.val → macLive s p = true →
      txWaits s p 2 = false → s.pub.frames = f :: r → (f.todo.find? fun e => e.1 == d) = some (d, frag, line) →
      (pubOwner s).isSome = true → isSafe s = false →
      let n := min (pubMax s d) (f.lines - line)
      let last := decide (f.lines ≤ line + n)
      let q := pubLines ((f.first + line) % 2 ^ 32) n s
      let m := pubHeader f frag n last ++ q.1
      let vid := fld (pubLo s d) 63 52
      (ethUp s p.val = false →
        exec (.publish d) s = .next (pubAdvance d (frag + 1) (line + n) last (bump Reg.PUB_LINK_DROP s))) ∧
      (ethUp s p.val = true → q.2.1 = 0 →
        exec (.publish d) s = .next (pubAdvance d (frag + 1) (line + n) last (ethSend p.val (datagram q.2.2 p.val
          (fld (pubLo s d) 47 0) (fld (pubHi s d) 31 0) (fld (pubHi s d) 47 32) (if vid = 0 then none else some vid)
          (m ++ bytesLE 4 (crc32c m))) false q.2.2)))) ∧
    (∀ (f : RxFrame) (rest : List RxFrame),
      takeFirst (fun f : RxFrame => f.cls == 1 && f.port == p.val) s.ingest.fwq = some (f, rest) →
      let u := { s with ingest := { s.ingest with fwq := rest } }
      let m := ptpBytes f.bytes
      let type := leAt m 0 1 % 16
      let sq := beAt m 30 2
      (∀ slave peer, isIp f.bytes = true → ipOk f.bytes = false → exec (.ptpMessage p slave peer) s = .next u) ∧
      ((isIp f.bytes = true → ipOk f.bytes = true) →
        (∀ peer, type = 0 → exec (.ptpMessage p true peer) s = .next (modServo (fun v =>
          { v with sync := some (p.val, sq, f.sec * 1000000000 + f.ns) }) u)) ∧
        (∀ peer t, type = 8 → s.time.servo.sync = some (p.val, sq, t) →
          let v := modServo (fun v => { v with sync := none, last := some (p.val, t, ptpTime m) }) u
          exec (.ptpMessage p true peer) s = .next
            (delayAsk p peer (servoOffset p.val t ((ptpTime m : Int) + pathDelay v p).toNat v))) ∧
        (type = 1 → exec (.ptpMessage p false false) s = .next (ptpSend p 9 sq f.sec f.ns (servoFree p u))) ∧
        (∀ t1 t2 t3, type = 9 → s.time.servo.last = some (p.val, t2, t1) → sget p.val s.time.servo.reqs = some (sq, t3) →
          exec (.ptpMessage p true false) s = .next
            (delaySet p (((t2 : Int) - t1) + (((ptpStamp m : Int) - ptpCorr m) - t3)) u)) ∧
        (type = 2 → exec (.ptpMessage p true true) s = .next (ptpSend p 10 sq (txStamp u p).1 (txStamp u p).2
          (ptpSend p 3 sq f.sec f.ns u))))) ∧
    (macLive s p = true → ethUp s p.val = true →
      let q := (sget p.val s.time.servo.txSeq).getD 0
      let now := stampAt s.nowNs (-(sfld (s.reg (ethOff Reg.ETH_TS_LAT p)) 31 16))
      exec (.ptpSyncTransmit p) s = .next (bumpN (ethOff Reg.TX_FRAMES_CNT p) 2
        (((modServo (fun v => { v with txSeq := sput p.val ((q + 1) % 65536) v.txSeq }) s).emit (.ptp p.val 0 q 0 0)).emit
          (.ptp p.val 8 q now.1 now.2)))) ∧
    (macLive s p = true → ethUp s p.val = false →
      exec (.ptpSyncTransmit p) s = .next (bumpN (ethOff Reg.TX_LINK_DROP p) 2 s)) ∧
    (s.regF Reg.TIME_SERVO_STAT 1 0 = 2 → exec .servoHoldover s =
      .next (modServo (fun v => { v with streak := 0, prev := none, freq := none, phase := 0 })
        (raise evTimeServo (s.setF Reg.TIME_SERVO_STAT 1 0 3)))) ∧
    (s.regF Reg.TIME_SERVO_STAT 1 0 ≠ 2 → exec .servoHoldover s = .next s)

/-! ## Sensor heads -/

/-- R60, R61, R69 to R73, R77, R440: the firmware takes the oldest control message of a port: one that its checks drop is
counted; HELLO starts authentication, IDENT gathers the chain, RESPONSE verifies the head or fails it, CONFIG's echo ends its
wait, HEALTH and LIFE report. -/
def Obligations.HeadMessageResults : Prop :=
  ∀ (p : Idx8) (f : RxFrame) (rest : List RxFrame) (n : HeadId) (seq : Nat) (body : List Nat) (s : State),
    takeFirst (fun f : RxFrame => f.cls == 3 && f.port == p.val) s.ingest.fwq = some (f, rest) →
    let u0 := { s with ingest := { s.ingest with fwq := rest } }
    let u := u0.modHead n fun h => { h with ctlRef := some seq, mac := leAt f.bytes 6 6, tagged := isTagged f.bytes }
    let h := s.head n
    let st := headState s n.val
    (ctlJudge s f = .drop n → ∀ i, i ∈ [Instr.hello p, .ident p, .response p, .configEcho p, .health p, .life p] →
      exec i s = .next (bump (headOff Reg.HEAD_CTL_DROP n.val) u0)) ∧
    (ctlJudge s f = .take n 1 seq body → st ≠ 0 → st ≠ 5 → exec (.hello p) s = .next (headEnter n 2 (u.modHead n fun h =>
      { h with txSeq := 0, model := leAt body 0 4, nFrag := none, frags := [], chain := [], nonce := none, key := none,
               rated := 0, echo := none, blkRef := none }))) ∧
    (ctlJudge s f = .take n 2 seq body → st = 2 → h.nonce = none → leAt body 1 1 = h.nFrag.getD (leAt body 1 1) →
      leAt body 0 1 < leAt body 1 1 → sget (leAt body 0 1) h.frags = none →
      let fr := sput (leAt body 0 1) (body.drop 2) h.frags
      let v := u.modHead n fun h => { h with nFrag := some (leAt body 1 1), frags := fr }
      exec (.ident p) s = .next (if fr.length = leAt body 1 1 then chainDone n v else v)) ∧
    (∀ nonce, ctlJudge s f = .take n 4 seq body → st = 2 → h.nonce = some nonce →
      exec (.response p) s = .next (
        if bothSigs h.chain (nonce ++ bytesLE 16 s.fuse.serial.toNat ++ [n.val]) (sub body 0 64) (sub body 64 3309) then
          headVerified n u else headFail n u)) ∧
    (ctlJudge s f = .take n 5 seq body → exec (.configEcho p) s = .next (u.modHead n fun h => { h with echo := none })) ∧
    (ctlJudge s f = .take n 8 seq body → exec (.health p) s = .next (
      if leAt body 2 4 = 0 then u.setF (headOff Reg.HEAD_SLOT_STAT n.val) 63 32 (leAt body 2 4)
      else raise (evHead n.val 5) (u.setF (headOff Reg.HEAD_SLOT_STAT n.val) 63 32 (leAt body 2 4)))) ∧
    (ctlJudge s f = .take n 9 seq body → st ≠ 4 → exec (.life p) s = .next (u.modHead n fun h =>
      { h with life := some (leAt body 0 4), base := some (h.base.getD (leAt body 0 4)) }))

/-- R70, R71, R75: what the heads' timers bring: a head that does not answer in time fails its attempt, the third failure in a
row leaves it FAILED; a missing echo is counted and CONFIG sent again, three times; SCAN_SYNC goes out in time; a tick counts the
on-time of the slots that accepted a block in it; and a life record is written after 15 minutes or at shutdown. -/
def Obligations.HeadTimerResults : Prop :=
  ∀ (n : HeadId) (s : State),
    let h := s.head n
    let off := headOff Reg.HEAD_SLOT_STAT n.val
    let failed := s.modHead n fun h => { h with nFrag := none, frags := [], nonce := none }
    (∀ i, (i = Instr.identTimeout n ∧ h.nonce = none) ∨ (i = .responseTimeout n ∧ h.nonce.isSome = true) →
      headState s n.val = 2 →
      (headFails s n < 2 → exec i s = .next ((failed.setF off 4 3 (headFails s n + 1)).setF off 2 0 1)) ∧
      (2 ≤ headFails s n → exec i s = .next (raise (evHead n.val 0) ((failed.setF off 4 3 3).setF off 2 0 5)))) ∧
    (∀ i, i ∈ [Instr.identTimeout n, .responseTimeout n] → headState s n.val ≠ 2 → exec i s = .next s) ∧
    (∀ k, h.echo = some k → k < 3 →
      exec (.configEchoTimeout n) s = .next (configSend n (k + 1) (bump (headOff Reg.HEAD_CTL_DROP n.val) s))) ∧
    (∀ k, h.echo = some k → 3 ≤ k → exec (.configEchoTimeout n) s = .next (raise (evHead n.val 5)
      ((bump (headOff Reg.HEAD_CTL_DROP n.val) s).modHead n fun h => { h with echo := none }))) ∧
    (∀ start period sweep, headOn s n.val = true → s.actF (headOff Reg.HEAD_SLOT_CFG n.val) 9 8 = 2 →
      (headState s n.val = 3 ∨ headState s n.val = 4) → s.nowNs + 1000000 ≤ start →
      exec (.scanSync n start period sweep) s = .next (ctlSend n 6 (bytesLE 6 (start / 1000000000) ++
        bytesLE 4 (start % 1000000000) ++ bytesLE 4 period ++ [sweep % 16]) s)) ∧
    (s.ingest.tick < s.time.cyc / 5000000 → (∀ m : HeadId, (s.head m).onTick = false) →
      exec .headOntimeTick s = .next { s with ingest := { s.ingest with tick := s.time.cyc / 5000000 } }) ∧
    (s.ingest.tick < s.time.cyc / 5000000 → h.onTick = true → (∀ m : HeadId, m ≠ n → (s.head m).onTick = false) →
      headState s n.val ≠ 4 →
      exec .headOntimeTick s = .next (bump (headOff Reg.HEAD_ONTIME n.val)
        ({ s with ingest := { s.ingest with tick := s.time.cyc / 5000000 } }.modHead n fun h =>
          { h with onTick := false, ticks := h.ticks + 1 }))) ∧
    (∀ (shutdown : Bool) (key dev : Nat) (r : LifeRec), h.key = some key → devCount h = some dev →
      (shutdown = true ∨ h.saved + 90000 ≤ h.ticks) → (s.flash.life.find? fun r => r.key == key) = some r →
      exec (.lifeRecordWrite n shutdown) s = .next ({ s with flash := { s.flash with
        life := ⟨key, some dev, r.last, true⟩ :: s.flash.life.filter fun r => r.key != key } }.modHead n fun h =>
          { h with saved := h.ticks }))

/-! ## Commit and abort -/

/-- R42 to R45, R371: the last commit message of a frame is its commit point, or, across devices, this device's ready and the
coordinator's decision; a commit point ends the frame, exchanges the roles of the loft shelves' copies and counts; the copy
engine then makes the copies equal. -/
def Obligations.FrameCommitResults : Prop :=
  ∀ s : State,
    (∀ (c : CoreId) (m : Msg) (u : State) (f : SlotFrame), s.receive .commit (.core c) .sys = some (m, u) →
      ((s.slotFrames m.slot).find? fun f => f.frame == m.frame) = some f → f.ready = false → f.got.contains c = false →
      let f' := { f with got := f.got ++ [c] }
      let v := putFrame m.slot f' u
      ((f.place.all fun d => f'.got.contains d) = false → exec (.commitPoint c) s = .next v) ∧
      ((f.place.all fun d => f'.got.contains d) = true → slotDevices s m.slot = [] →
        exec (.commitPoint c) s = .next (commitPoint m.slot f' v)) ∧
      ((f.place.all fun d => f'.got.contains d) = true → slotDevices s m.slot ≠ [] → coordinates s m.slot = false →
        exec (.commitPoint c) s = .next (tellDevices ((slotDevices s m.slot).take 1) 0x09 m.slot 0 f.frame
          (putFrame m.slot { f' with ready := true, peers := s.here :: f.peers } v)))) ∧
    (∀ (m : Msg) (u : State) (f : SlotFrame), sysTake .ready s = some (m, u) →
      ((s.slotFrames m.slot).find? fun f => f.frame == m.frame) = some f → coordinates s m.slot = true →
      let f' := { f with peers := msgDevice s m :: f.peers }
      let v := putFrame m.slot f' u
      exec .commitReady s = .next (if (slotDevices s m.slot).all fun d => f'.peers.contains d then
        commitPoint m.slot f' (tellDevices (otherDevices s m.slot) 0x0A m.slot 1 f.frame v) else v)) ∧
    (∀ (m : Msg) (u : State) (f : SlotFrame), sysTake .decision s = some (m, u) →
      ((s.slotFrames m.slot).find? fun f => f.frame == m.frame) = some f →
      exec .commitDecision s = .next (if m.k = 1 then commitPoint m.slot f u else abortFrame m.slot m.frame 0x0A 0xFF u)) ∧
    (∀ (k : Nat) (f : SlotFrame), k < 8 → ((commitPoint k f s).slotFrames k).all (fun g => g.frame != f.frame) = true) ∧
    (∀ c : CoreId, (s.core c).loftCopy = true → ∃ t, exec (.loftCopyComplete c) s = .next t ∧
      (t.core c).loftCopy = false ∧ (t.core c).dirty = [] ∧ (t.core c).swap = (s.core c).swap ∧
      (t.core c).s = (s.core c).s ∧ t.mem = s.mem ∧ ∀ d, d ≠ c → t.core d = s.core d) ∧
    (∀ c : CoreId, (s.core c).loftCopy = false → exec (.loftCopyComplete c) s = .next s)

/-- R46 to R48, R261, R343, R360: what aborts a frame in progress of a trunk of one device, and with which cause; an abort takes
the frame out of progress, and one that is not in progress is not aborted. -/
def Obligations.FrameAbortResults : Prop :=
  ∀ s : State,
    (∀ (k : Idx8) (f : SlotFrame), ((s.slotFrames k.val).find? fun f => decide (f.dead ≤ s.time.cyc)) = some f →
      slotDevices s k.val = [] → exec (.deadlineExpire k) s = .next (abortFrame k.val f.frame 0x01 0xFF s)) ∧
    (∀ k : Idx8, ((s.slotFrames k.val).find? fun f => decide (f.dead ≤ s.time.cyc)) = none →
      exec (.deadlineExpire k) s = .next s) ∧
    (∀ (c : CoreId) (m : Msg) (u : State), s.receive .trapReport (.core c) .sys = some (m, u) → m.k ≠ 3 → m.k ≠ 4 →
      slotDevices s m.slot = [] → ((s.slotFrames m.slot).any fun f => f.frame == m.frame) = true →
      exec (.trapReportArrive (.core c)) s = .next (abortFrame m.slot m.frame m.k c.val u)) ∧
    (∀ (c : CoreId) (m : Msg) (u : State), s.receive .trapReport (.core c) .sys = some (m, u) → m.k ≠ 3 → m.k ≠ 4 →
      ((s.slotFrames m.slot).any fun f => f.frame == m.frame) = false → (s.core c).issue = .trapped →
      exec (.trapReportArrive (.core c)) s = .next (frameEntry c false u)) ∧
    (∀ (src : Agent) (m : Msg) (u : State), s.receive .poisonReport src .sys = some (m, u) → slotDevices s m.slot = [] →
      ((s.slotFrames m.slot).any fun f => f.frame == m.frame) = true →
      exec (.poisonReport src) s = .next (abortFrame m.slot m.frame 0x02 (agentCore src) u)) ∧
    (∀ (m : Msg) (u : State) (f : SlotFrame), sysTake .abortMsg s = some (m, u) → coordinates s m.slot = false →
      ((s.slotFrames m.slot).find? fun f => f.frame == m.frame) = some f →
      exec .abortFlitReceive s = .next (if f.ready then u else abortFrame m.slot m.frame 0x0A 0xFF u)) ∧
    (∀ (req : Requester) (k : Idx8) (f : SlotFrame),
      (reqFn req = some 0 ∨ reqFn req = some (slotOwner s k.val)) → trunkState s k.val = 4 →
      (s.slotFrames k.val).getLast? = some f → slotDevices s k.val = [] →
      exec (.hostAbort req k) s = .next (abortFrame k.val f.frame 0x09 0xFF s)) ∧
    (∀ (req : Requester) (k : Idx8), trunkState s k.val ≠ 4 ∨ s.slotFrames k.val = [] →
      exec (.hostAbort req k) s = .next (bump Reg.HQ_ABORT_IGN s)) ∧
    (∀ (k : Nat) (n : BitVec 32) (cause core : Nat), k < 8 →
      ((abortFrame k n cause core s).slotFrames k).all (fun g => g.frame != n) = true ∧
      (((s.slotFrames k).any fun f => f.frame == n) = false → abortFrame k n cause core s = s))

/-- R403, Tables 21.1 and 21.2: the causes of the safe state that the PF and the thermal sensors bring, and its end; the warning
and the trip of the thermal sensors. -/
def Obligations.SafeStateResults : Prop :=
  ∀ s : State,
    (∀ req, reqFn req ≠ some 0 →
      exec (.safeEnter req) s = .next (accessError s) ∧ exec (.safeRelease req) s = .next (accessError s)) ∧
    (∀ req, reqFn req = some 0 → s.test.causes = [] → isSafe s = false → ∃ t, exec (.safeEnter req) s = .next t ∧
      t.test.causes = [5] ∧ t.test.hold = true ∧ (∀ k : Idx8, t.slotFrames k.val = []) ∧
      ((∀ k : Idx8, s.slotFrames k.val = []) → isSafe t = true ∧ .pin "FAULT_N" false ∈ t.out)) ∧
    (∀ req, reqFn req = some 0 → isSafe s = true → s.test.causes.contains 5 = false →
      let u := safeShow { s with test := { s.test with causes := s.test.causes ++ [5], hold := true } }
      exec (.safeEnter req) s = .next (logFault evSafeState 5 0xFF (u.reg Reg.SAFE_STAT).toNat u)) ∧
    (∀ req, reqFn req = some 0 → s.test.causes.contains 5 = true → exec (.safeEnter req) s = .next s) ∧
    (∀ req, reqFn req = some 0 → (∀ c, c ∈ s.test.causes → c = 5) → isSafe s = true → toutOffNow s = false →
      exec (.safeRelease req) s = .next
        { ((safeShow { s with test := { s.test with causes := [] } }).setReg Reg.SAFE_STAT 0).emit (.pin "FAULT_N" true) with
          test := { s.test with causes := [], hold := false } }) ∧
    (∀ t : Int, t < s.regF Reg.TEMP_CFG 15 8 →
      exec (.thermalFault t) s = .next (s.setReg Reg.TEMP_STAT (BitVec.ofNat 64 (wrapInt 8 t)))) ∧
    (∀ t : Int, s.regF Reg.TEMP_CFG 15 8 ≤ t →
      exec (.thermalFault t) s = .next (safeCause 2 (s.setReg Reg.TEMP_STAT (BitVec.ofNat 64 (wrapInt 8 t))))) ∧
    (∀ t : Int, s.regF Reg.TEMP_CFG 7 0 ≤ t → s.test.hot = false →
      exec (.thermWarn t) s = .next (raise evThermWarn
        { s.setReg Reg.TEMP_STAT (BitVec.ofNat 64 (wrapInt 8 t)) with test := { s.test with hot := true } })) ∧
    (∀ t : Int, t < s.regF Reg.TEMP_CFG 7 0 ∨ s.test.hot = true →
      exec (.thermWarn t) s = .next (s.setReg Reg.TEMP_STAT (BitVec.ofNat 64 (wrapInt 8 t)))) ∧
    (∀ t : Int,
      let r := s.setReg Reg.TEMP_STAT (BitVec.ofNat 64 (wrapInt 8 t))
      let u := if t < s.regF Reg.TEMP_CFG 7 0 then { r with test := { s.test with hot := false } } else r
      ((s.regF Reg.TEMP_CFG 15 8 : Int) - 10 ≤ t → exec (.thermalClear t) s = .next u) ∧
      (t < (s.regF Reg.TEMP_CFG 15 8 : Int) - 10 → exec (.thermalClear t) s = .next (safeGone 2 u))) ∧
    exec .thermtrip s = .next { s with out := s.out ++ [.pin "THERMTRIP_N" false] }

/-! ## What reaches a core over the mesh -/

/-- R157, R162, R164 to R167, R232, R248, R251, R269 to R271: a remote read is served or refused; a remote write spends a credit
of its grant, is applied or discarded as stale, and is acknowledged; answers reach the instruction that waits for them; credit
requests queue, are granted in full or refused; signals and gate counts arrive, and a signal that another device refused traps its
sender. -/
def Obligations.RemoteResults : Prop :=
  ∀ (src : Agent) (c : CoreId) (m : Msg) (s u : State),
    (s.receive .readReq src (.core c) = some (m, u) →
      let t := if !reachable u c then trapDenied else if m.addr ≠ 0 then 0 else shelfCheck u c m.shelf m.slot m.idx 1 false
      let t := if t = 0 && m.addr = 0 && readsFault u c m.shelf m.idx 1 then trapRbFault else t
      let r := if m.addr ≠ 0 then windowRead c (m.addr % 0x1000000 / 64) 9 u else shelfRead c m.shelf m.idx 9 u
      (t ≠ 0 → exec (.remoteReadServe src c []) s = .next (post { replyTo m .readRsp with err := t } u)) ∧
      (t = 0 → r.2.1 = true → exec (.remoteReadServe src c []) s =
        .next (post { replyTo m .readRsp with err := trapBankEcc } r.2.2)) ∧
      (t = 0 → r.2.1 = false → exec (.remoteReadServe src c []) s = .next (post { replyTo m .readRsp with
        line := sealLine (requesterSalt u src m.dshelf m.didx m.slot) r.1 } (bumpC c Reg.REMOTE_RD_CNT r.2.2)))) ∧
    (s.receive .write src (.core c) = some (m, u) → reachable s c = true →
      (spendGrant (poolOf (s.core c) m.pool) src m.stamp = none →
        exec (.remoteWriteApply src c) s = .next (post (replyTo m .writeAck) (bumpC c Reg.CREDIT_STALE u))) ∧
      (∀ p, spendGrant (poolOf (s.core c) m.pool) src m.stamp = some p →
        let v := u.modCore c fun k => setPool k m.pool p
        let t := shelfCheck v c m.shelf m.slot m.idx 1 true
        let cd := m.cd && seLoft (shelfEnt u c m.shelf) == 2
        (t ≠ 0 → exec (.remoteWriteApply src c) s = .next (post { replyTo m .writeAck with err := t } v)) ∧
        (t = 0 → sePool (shelfEnt u c m.shelf) = m.pool → cd = true →
          exec (.remoteWriteApply src c) s = .next (post { replyTo m .writeAck with err := trapCommitOrder } v)) ∧
        (t = 0 → sePool (shelfEnt u c m.shelf) = m.pool → cd = false → src ≠ .grid →
          exec (.remoteWriteApply src c) s = .next (post (replyTo m .writeAck) (bumpC c Reg.REMOTE_WR_CNT
            (shelfWrite c m.shelf m.idx (checked (saltTransit (targetNum v src c) m.shelf m.idx m.slot v.coordX v.coordY) m.line)
              v)))))) ∧
    (∀ a, s.receive .readRsp src (.core c) = some (m, u) → findActive (s.core c) m.seq = some a →
      (m.err ≠ 0 → exec (.remoteReadResponse src c []) s = .next (activeTrap c m.seq m.err u)) ∧
      (m.err = 0 → exec (.remoteReadResponse src c []) s = .next (settle c (answered c m.seq
        (shelfWrite c m.dshelf m.didx (checked (if src == .mem || src == .grid then saltAddr m.addr
          else saltTransit c.val m.dshelf m.didx m.slot u.coordX u.coordY) m.line) u))))) ∧
    (∀ a, s.receive .writeAck src (.core c) = some (m, u) → findActive (s.core c) m.seq = some a →
      exec (.writeAckReceive src c []) s = .next (
        if m.err ≠ 0 then activeTrap c m.seq m.err u else settle c (answered c m.seq u))) ∧
    (s.receive .creditReq src (.core c) = some (m, u) →
      let p := poolOf (s.core c) m.pool
      let ok := poolCap s c m.pool ≠ 0 ∧ fld (poolCfg s c m.pool) 20 18 = m.slot
      (ok → m.k ≤ poolCap s c m.pool → p.queue.length < 64 → exec (.creditRequestReceive src c) s =
        .next (u.modCore c fun k => setPool k m.pool { p with queue := p.queue ++ [⟨src, m.seq, m.slot, m.k⟩] })) ∧
      (ok → poolCap s c m.pool < m.k → exec (.creditRequestReceive src c) s =
        .next (post (creditAnswer c src m.seq m.slot m.pool 0 0 trapCreditTimeout)
          (bumpC c Reg.CREDIT_REFUSED (bumpC c Reg.CREDIT_OVERSIZE u)))) ∧
      (ok → m.k ≤ poolCap s c m.pool → 64 ≤ p.queue.length → exec (.creditRequestReceive src c) s =
        .next (post (creditAnswer c src m.seq m.slot m.pool 0 0 trapCreditTimeout) (bumpC c Reg.CREDIT_REFUSED u)))) ∧
    (∀ (pool : Nat) (r : PoolReq) (rest : List PoolReq), (poolOf (s.core c) pool).queue = r :: rest →
      let p := poolOf (s.core c) pool
      (r.k ≤ p.avail → exec (.creditGrant c pool) s = .next (post
        (creditAnswer c r.src r.seq r.slot pool r.k (frameStamp s) 0) (s.modCore c fun k => setPool k pool
          { avail := p.avail - r.k, queue := rest, grants := p.grants ++ [⟨r.src, frameStamp s, r.k⟩] }))) ∧
      (p.avail < r.k → exec (.creditGrant c pool) s = .next s)) ∧
    (∀ (pool i : Nat) (r : PoolReq), (poolOf (s.core c) pool).queue[i]? = some r →
      exec (.creditTimeout c pool i) s = .next (post (creditAnswer c r.src r.seq r.slot pool 0 0 trapCreditTimeout)
        (bumpC c Reg.CREDIT_REFUSED (s.modCore c fun k => setPool k pool
          { poolOf k pool with queue := (poolOf k pool).queue.eraseIdx i })))) ∧
    (∀ (t : CoreId) (a : Active), s.receive .creditAns (.core c) (.core t) = some (m, u) →
      findActive (s.core t) m.seq = some a →
      (m.err ≠ 0 → exec (.creditGrantReceive c (.core t) []) s = .next (activeTrap t m.seq trapCreditTimeout u)) ∧
      (m.err = 0 → m.k ≠ 0 → exec (.creditGrantReceive c (.core t) []) s = .next (settle t (answered t m.seq
        (u.modCore t fun k => ledgerAdd k a.op.a ((iX a.op.w0).testBit 4) (iX a.op.w0 % 16) m.k m.stamp))))) ∧
    (s.receive .signal src (.core c) = some (m, u) → m.err ≠ 0 →
      let k := s.core c
      exec (.signalReceive src c) s = .next (
        if m.slot = k.slot && m.stamp % 256 == k.cur.toNat % 256 && k.issue != .unplaced then seqTrap c m.err k.pc 0 u else u)) ∧
    (s.receive .signal src (.core c) = some (m, u) → m.err = 0 →
      exec (.signalReceive src c) s = .next (settle c (applySignal c (m.idx % 16) m.k (m.stamp % 256) m.slot u))) ∧
    (s.receive .gateReport (.core c) .sys = some (m, u) → u.receive .gateReport (.core c) .sys = none →
      let o := Reg.GATE_STAT + 0x200 * (m.slot % 8) + 8 * (m.idx % 64)
      let v := s.reg o
      exec (.gateReport c) s = .next (u.setReg o (setFld (setFld v 31 0 (min (2 ^ 32 - 1) (fld v 31 0 + m.k))) 61 32
        (min (2 ^ 30 - 1) (fld v 61 32 + m.stamp)))))

/-! ## The host's work queues, BAR2 and the PCI Express link -/

/-- R26, R155 to R157, R350 to R355: doorbells, the start of a descriptor and the end of one, disabling a queue, a function's
reset, the PCI Express link, an access through BAR2, a write of a shelf's entry, and one through a raw window. -/
def Obligations.HostInterfaceResults : Prop :=
  ∀ s : State,
    (∀ (q : QueueId) (v : Half), let u := s.setReg (hqOff Reg.HQ_SQ_TAIL q.val) (BitVec.ofNat 64 (v.toNat % 4096))
      (hqOn s q.val = false ∨ v.toNat % 4096 < hqSize s q.val → exec (.hqDoorbell q v) s = .next u) ∧
      (hqOn s q.val = true → hqSize s q.val ≤ v.toNat % 4096 →
        exec (.hqDoorbell q v) s = .next (raise evHqErr (u.setF (hqOff Reg.HQ_STAT q.val) 1 1 1)))) ∧
    (∀ (q : QueueId) (b : List Nat) (data : List HostLine), hqCan s q.val = true → hqMine s q.val = [] →
      ((List.range 64).any fun r => r != q.val && hqCan s r && (hqMine s r).isEmpty && hqBefore s r q.val) = false →
      leAt b 0 1 ≠ 3 →
      let idx := (s.reg (hqOff Reg.HQ_SQ_HEAD q.val)).toNat
      let code := hqCheck s q.val b
      exec (.hqDescriptorStart q b data none) s = .next ((s.setReg (hqOff Reg.HQ_SQ_HEAD q.val)
        (BitVec.ofNat 64 ((idx + 1) % hqSize s q.val))).modHq fun h => { h with
          seq := h.seq + 1,
          descs := h.descs ++ [{ hqParse s.hq.seq q.val idx b data none with status := code, fin := code != 0 }],
          last0 := if hqPrio s q.val = 1 then h.last0 else q.val, last1 := if hqPrio s q.val = 1 then q.val else h.last1 })) ∧
    (∀ (q : QueueId) (d : HqDesc) (r : List HqDesc), hqMine s q.val = d :: r → hqRoom s q.val = true →
      (d.status = 1 ∨ d.status = 2 ∨ d.op = 4 →
        exec (.hqDescriptorComplete q [] []) s = .next (hqFinish d d.status (64 * d.done) s)) ∧
      (d.status = 0 → d.op = 1 → d.hostErr = none → hqHeld s d = false →
        exec (.hqDescriptorComplete q [] []) s =
          .next (hqFinish (hqH2d d s).1 (hqH2d d s).1.status (64 * (hqH2d d s).1.done) (hqH2d d s).2)) ∧
      (d.status = 0 → d.op = 2 → hqHeld s d = false →
        exec (.hqDescriptorComplete q [] []) s =
          .next (hqFinish (hqD2h d s).1 (hqD2h d s).1.status (64 * (hqD2h d s).1.done) (hqD2h d s).2))) ∧
    (∀ q : QueueId, hqMine s q.val = [] → exec (.hqDisable q) s = .next (((s.setF (hqOff Reg.HQ_CFG q.val) 31 31 0).setReg
      (hqOff Reg.HQ_SQ_HEAD q.val) (s.reg (hqOff Reg.HQ_SQ_TAIL q.val))).setF (hqOff Reg.HQ_STAT q.val) 1 1 0)) ∧
    (∀ f : Fin 9, (∀ q, q < 64 → hqOwner s q ≠ f.val) → (∀ k : Idx8, f.val ≠ 0 → slotOwner s k.val ≠ f.val) →
      exec (.functionLevelReset f) s = .next (flrClear f.val s)) ∧
    exec .pcieLinkDown s = .next { s with pcie := { s.pcie with linkUp := false } } ∧
    (s.pcie.inReset = false → domRun s 43 = true → bitOf (s.reg Reg.CLK_STAT) 12 = true →
      exec .pcieLinkUp s = .next { s with pcie := { s.pcie with linkUp := true } }) ∧
    exec (.pciePerst true) s = .next { s with pcie := { s.pcie with inReset := true, linkUp := false } } ∧
    exec (.pciePerst false) s = .next { s with pcie := { s.pcie with inReset := false } } ∧
    (∀ (off n : Nat) (data : List Nat), s.pcie.linkUp = true → s.regF Reg.SEC_BOOT_STAT 2 0 ≠ 2 →
      (bar2Addr s off + data.length ≤ memBytes s →
        memHeld s (bar2Addr s off / 64 * 64) (cdiv (bar2Addr s off % 64 + data.length) 64) = false →
        exec (.bar2Access off n true data false []) s = .next (memSet (bar2Addr s off) data s)) ∧
      (bar2Addr s off + n ≤ memBytes s →
        memHeld s (bar2Addr s off / 64 * 64) (cdiv (bar2Addr s off % 64 + n) 64) = false →
        exec (.bar2Access off n false data false []) s = .next (bar2Read (bar2Addr s off) n s)) ∧
      (memBytes s < bar2Addr s off + data.length →
        exec (.bar2Access off n true data false []) s = .next (accessError s)) ∧
      (memBytes s < bar2Addr s off + n →
        exec (.bar2Access off n false data false []) s = .next ((accessError s).emit (.bar2Rsp [] false true)))) ∧
    (∀ (req : Requester) (c : CoreId) (sh : Fin 64) (v : Word), req = .pf ∨ req = .sc → domState s c.val < 2 →
      shelfLayoutOk (v &&& 0x1FFFFFFFFFFFFF) = true → bitOf (s.reg Reg.FRAME_STAT) 1 = false →
      exec (.shelfWrite req c sh v) s = .next (s.setReg (coreOff (Reg.SHELF + 8 * sh.val) c) (v &&& 0x1FFFFFFFFFFFFF))) ∧
    (∀ (c t : CoreId) (sh : Fin 64) (v : Word),
      exec (.shelfWrite (.core t) c sh v) s = .next (seqTrap t trapDenied (s.core t).pc 0 s)) ∧
    (∀ (src : Agent) (c : CoreId) (line i j : Nat) (d : BitVec 512) (q : Pool), reachable s c = true → line < 131072 →
      pooledAt s c line = some (i, j) →
      spendGrant (poolOf (s.core c) (sePool (shelfEnt s c i))) src (frameStamp s) = some q →
      exec (.rawWindowWrite src c line d) s = .next (shelfWrite c i j ⟨d, false⟩
        (s.modCore c fun k => setPool k (sePool (shelfEnt s c i)) q))) ∧
    (∀ (t c : CoreId) (line : Nat) (d : BitVec 512), pooledAt s c line = none →
      exec (.rawWindowWrite (.core t) c line d) s = .next (seqTrap t trapDenied (s.core t).pc 0 s))

/-! ## Trunks and the mailbox -/

/-- R317 to R326, R361, Tables 17.4, 17.5, 19.8: the mailbox's oldest command runs when its code is the command's own and is
answered with its status and results: the trunk commands, GET_INFO and LINK_ENABLE; a code that the table does not list is
answered with 0xFF; and the end of a launch copy. -/
def Obligations.TrunkResults : Prop :=
  ∀ s : State,
    (∀ (f : Nat) (rest : List Nat), s.mbox = f :: rest →
      let bs := mboxBytes s f
      let code := leAt bs 0 2
      (code ∉ mboxCodes → exec .mboxUnknown s = .next (mboxAnswer f 0xFF [] s)) ∧
      (code = 0x0001 → exec .getInfo s = .next (mboxAnswer f 0 (bytesLE 8 (s.reg Reg.SYS_ID).toNat ++
        bytesLE 4 (s.free 41 32).toNat ++ bytesLE 4 (placeStatVal s).toNat ++ bytesLE 4 (s.reg Reg.MEM_STAT).toNat) s.drawn)) ∧
      (let u := (List.finRange 4).foldl (fun s p => if (leAt bs 8 1).testBit p.val then linkCtrlWrite p 1 s else s) s
       code = 0x0050 → f = 0 → leAt bs 8 1 ≤ 15 → exec .linkEnable s = .next (mboxAnswer f 0
        ((List.finRange 4).flatMap fun p => bytesLE 4 (u.reg (linkOff Reg.LXL_STAT p)).toNat) u)) ∧
      (code = 0x0050 → f ≠ 0 → exec .linkEnable s = .next (mboxAnswer f 0xF0 [] s)) ∧
      (code = 0x0014 → leAt bs 8 1 ≤ 7 → exec .trunkQuery s = .next (mboxAnswer f 0
        (bytesLE 8 (trunkStatVal s (leAt bs 8 1)).toNat ++ bytesLE 8 (quotaUseVal s (slotOwner s (leAt bs 8 1))).toNat) s)) ∧
      (∀ k : Idx8, leAt bs 8 1 = k.val → f ≠ 0 → slotOwner s k.val ≠ f →
        (code = 0x0010 → exec .trunkLoad s = .next (mboxAnswer f 0xF0 [] s)) ∧
        (code = 0x0011 → exec .trunkLaunch s = .next (mboxAnswer f 0xF0 [] s)) ∧
        (code = 0x0012 → exec .trunkStop s = .next (mboxAnswer f 0xF0 [] s)) ∧
        (code = 0x0013 → exec .trunkUnload s = .next (mboxAnswer f 0xF0 [] s))) ∧
      (∀ k : Idx8, leAt bs 8 1 = k.val → f = 0 ∨ slotOwner s k.val = f →
        let o := Reg.TRUNK_STAT + 0x20 * k.val
        let t := s.trunk k
        (code = 0x0010 → leAt bs 16 8 + leAt bs 24 4 ≤ memBytes s → trunkState s k.val = 0 →
          let r := loadSlot k (leAt bs 16 8) (leAt bs 24 4) s
          exec .trunkLoad s = .next (mboxAnswer f r.1 (bytesLE 8 (trunkStatVal r.2 k.val).toNat) r.2)) ∧
        (code = 0x0011 → trunkState s k.val = 2 → s.loftLost.contains k.val = false →
          ∀ v place, chooseVariant s k = .inr v → choosePlace s k v = some place →
          exec .trunkLaunch s = .next (mboxAnswer f 0 [v] (place.foldl (fun s c => if domRun s c.val then s
            else domRequest c.val 0 s) (trunkShow k 3 v place.length (s.setTrunk k { t with
              place := place, fresh := List.range place.length, copied := false, written := false, agreed := none }))))) ∧
        (code = 0x0012 → trunkState s k.val = 4 → exec .trunkStop s = .next (mboxAnswer f 0 [] (s.setF o 2 0 5))) ∧
        (code = 0x0012 → trunkState s k.val ≠ 4 → exec .trunkStop s = .next (mboxAnswer f 0x0D [] (s.setF o 23 16 0x0D))) ∧
        (let u := (List.range 64).foldl (fun s g => fbPut (Reg.GATE_CFG + 0x200 * k.val + 8 * g) 0 s) s
         code = 0x0013 → trunkState s k.val = 2 → exec .trunkUnload s = .next (mboxAnswer f 0 []
          (({ u.setTrunk k TrunkSt.empty with loftLost := u.loftLost.erase k.val }.setReg o
            (BitVec.ofNat 64 (u.regF o 23 16 * 2 ^ 16))).setReg (Reg.TRUNK_ID + 0x20 * k.val) 0))))) ∧
    (∀ (k : Idx8) (first : BitVec 32), trunkState s k.val = 3 → (s.trunk k).copied = false →
      ((s.trunk k).place.all fun c => domRun s c.val) = true → (s.trunk k).devices = [] →
      exec (.launchCopyComplete k first) s = .next (launchWrites k (launchCopy k s)) ∧
      ((s.trunk k).fresh = [] →
        launchCopy k s = s.modTrunk k fun t => { t with copied := true, ever := true, parked := [], marks := [], fresh := [] }))

/-! ## The Map Store, the rulebook engine, the links -/

/-- R299 to R314: a gather obtains a context; a fetch returns one whole row, and the last one of a gather ends it; an update
waits for the fetches of the slot it writes, writes the other version of its row and flips its selector, or is counted and skipped; the selector memory's clearing and
reloading. -/
def Obligations.MapStoreResults : Prop :=
  ∀ s : State,
    (∀ (m : Msg) (rest : List Msg) (c : CoreId) (o : Op), domRun s 39 = true → s.map.loading = false → s.map.ctx.length < 8 →
      takeFirst (fun m : Msg => m.kind == .gather && (match gatherOp s m with
        | some (_, o) => !s.map.clearing.contains (fld o.w1 4 0)
        | none => true)) s.net = some (m, rest) → gatherOp s m = some (c, o) →
      exec (.mapGatherStart []) s = .next (pump c (mapTake c o m.slot { s with net := rest }))) ∧
    (∀ (i p sel no : Nat) (k : MapCtx) (fly : List (Nat × Nat × Nat)), s.map.ctx = [k] → i = 0 → k.rest = [] →
      takeFirst (fun f : Nat × Nat × Nat => f.1 == p) k.fly = some ((p, sel, no), fly) →
      let a := mdAddr k.w0 ((k.idx[p]?).getD 0) sel
      let r := memReadN a (mdLines k.w0) s
      let k' := { k with fly := fly, rows := if k.dead then k.rows else sput p r.1 k.rows }
      let u := flipsRetire ((if r.1.any (·.poison) then raise evMapE2e (bump Reg.MAP_POISON_ROWS r.2) else r.2).modMap fun m =>
        { m with ctx := [k'] })
      memHeld s a (mdLines k.w0) = false →
      exec (.mapFetchReturn i p []) s = .next (if !fly.isEmpty then u
        else if k.dead then u.modMap fun m => { m with ctx := [] } else mapFinish k' u)) ∧
    (∀ (base n wait : Nat), updRing s = some (base, n) → domRun s 39 = true → s.map.loading = false → s.map.upd = none →
      let h := s.regF Reg.MAP_UPD_HEAD 15 0
      h ≠ s.regF Reg.MAP_UPD_TAIL 15 0 % n → memHeld s (base + 16 * h - (base + 16 * h) % 64) 1 = false →
      let g := memGet (base + 16 * h) 16 s
      let row := leAt g.1 0 4
      let t := leAt g.1 4 1
      let src := leAt g.1 8 8
      let d := mapDir s (t % 32)
      let ls := mdLines d.1
      let job : UpdJob := ⟨row, t, d.1, d.2, src, false⟩
      let u := g.2.2.modMap fun m => { m with upd := some job }
      let dst := mdAddr d.1 row (1 - mapSel u d.1 d.2 row)
      let x := memReadN src ls u
      let v := (memPutN dst x.1 x.2).modMap fun m =>
        { m with upd := some { job with written := true }, updWait := false, flips := m.flips ++ [m.issued] }
      s.map.clearing.contains t = false →
      (g.2.1 = true ∨ updBad g.2.2 g.1 d = true → exec (.mapUpdate wait []) s =
        .next (raise evMapUpdErr (bump Reg.MAP_UPD_BAD (updAdvance n h g.2.2)))) ∧
      (g.2.1 = false → updBad g.2.2 g.1 d = false →
        (slotBusy u dst = true → exec (.mapUpdate wait []) s =
          .next (bumpN Reg.MAP_UPD_WAIT wait (u.modMap fun m => { m with updWait := true }))) ∧
        (slotBusy u dst = false → memHeld u src ls = false → memHeld u dst ls = false →
          ((x.1.any (·.poison)) = true → exec (.mapUpdate wait []) s =
            .next (raise evMapUpdErr (bump Reg.MAP_UPD_POISON (updAdvance n h x.2)))) ∧
          ((x.1.any (·.poison)) = false → s.map.flips.length < 1024 → exec (.mapUpdate wait []) s =
            .next (flipsRetire (bump Reg.MAP_UPD_CNT (updAdvance n h
              (selPut (mdSel d.2 + row) (mapSel v d.1 d.2 row == 0) v)))))))) ∧
    (∀ (bs : List Nat) (d : Word × Word), updBad s bs d = false ↔
      (leAt bs 0 4 < 2 ^ 29 ∧ leAt bs 4 1 < 32 ∧ leAt bs 5 3 = 0 ∧ leAt bs 8 8 < 2 ^ 40 ∧ bitOf d.1 50 = true ∧
        mdUpd d.1 = true ∧ leAt bs 0 4 < mdRows d.2 ∧ leAt bs 8 8 % 64 = 0 ∧ leAt bs 8 8 + 64 * mdLines d.1 ≤ memBytes s)) ∧
    (∀ v : Half, exec (.mapUpdTailWrite v) s = .next (s.setReg Reg.MAP_UPD_TAIL (BitVec.ofNat 64 (v.toNat % 65536)))) ∧
    (s.map.loading = true → domRun s 39 = true →
      (s.regF Reg.MAP_SEL_MIRROR 39 0 = 0 → exec (.mapSelReload []) s =
        .next (raise evMapSelLost (s.modMap fun m => { m with sel := [], loading := false }))) ∧
      (s.regF Reg.MAP_SEL_MIRROR 39 0 ≠ 0 → exec (.mapSelReload []) s =
        .next ((memReadN (s.regF Reg.MAP_SEL_MIRROR 39 0) 8192 s).2.modMap fun m =>
          { m with sel := selOfLines (memReadN (s.regF Reg.MAP_SEL_MIRROR 39 0) 8192 s).1, loading := false }))) ∧
    (∀ t : BitVec 5, exec (.selClearingEnd t) s =
      .next (s.modMap fun m => { m with clearing := m.clearing.filter (· != t.toNat) }))

/-- R125, R128, R129, R131, R132: the run whose turn it is asks for the credits of its next output, waits for them, or writes its
next tile, its terminal headers or, once it has failed, its fault headers; acknowledged tiles signal their consumer; jobs may be written while no enabled list names them. -/
def Obligations.RulebookResults : Prop :=
  ∀ s : State,
    (∀ r : RbRun, bitOf (s.reg Reg.FRAME_STAT) 3 = false → domRun s 37 = true → rbTurn s = some r →
      let j := rbJob s r.job
      let cons := rbConsumers j r.place
      let term := r.term || r.fault || rbOcc (s.gbuf s.computing) j == 0
      let dst := if term || j.bcast then cons else (cons.drop (r.tile % cons.length)).take 1
      let need := (dst.map (·.2)).filter fun c => !(r.held.any (·.1 == c)) && !(r.asked.any (·.1 == c))
      (rbRunnable s j = false ∨ cons = [] → ∀ wait, exec (.rbTile wait []) s = .next (rbJobDone r s)) ∧
      (rbRunnable s j = true → cons ≠ [] → need ≠ [] → ∀ wait,
        exec (.rbTile wait []) s = .next (rbAsk r j need (rbBegin r j s))) ∧
      (rbRunnable s j = true → cons ≠ [] → need = [] → (dst.all fun e => r.held.any (·.1 == e.2)) = false → ∀ wait,
        exec (.rbTile wait []) s = .next (bumpN Reg.RB_CREDIT_WAIT wait s)) ∧
      (rbRunnable s j = true → cons ≠ [] → (dst.all fun e => r.held.any (·.1 == e.2)) = true → ∀ wait,
        let u := (bumpN Reg.RB_CREDIT_WAIT wait s).modRb fun b => { b with last := r.slot }
        let x := rbTerminal r j 1 0 u
        exec (.rbTile wait []) s = .next (if r.fault then rbFaultStop r j u else if term then rbJobDone x.1 x.2
          else rbTileWrite r j dst u))) ∧
    (∀ c : CoreId, s.rb.tiles = [] → ∃ t, exec (.rbTileSignal c) s = .next t ∧ t.rb.tiles = [] ∧ t.regs = s.regs ∧
      t.net = (s.net.filter fun m => !(m.kind == .writeAck && m.src == .mem && m.dst == .grid)).filter fun m =>
        !(m.kind == .writeAck && m.src == .core c && m.dst == .grid)) ∧
    (∀ (c : CoreId) (x : RbTile), s.rb.tiles = [x] → x.core = c → x.left = 0 → x.mem = 0 → x.hold = [] →
      (∀ m, m ∈ s.net → m.kind ≠ .writeAck) → exec (.rbTileSignal c) s =
        .next { s with rb := { s.rb with tiles := [] }, net := s.net ++
          [{ kind := .signal, src := .grid, dst := .core c, slot := x.slot, idx := x.sem, k := 1, stamp := frameStamp s }] }) ∧
    (∀ (j w : Nat) (v : Word), j < 256 → w < 4 →
      (rbNamed s j = false → exec (.rbJobWrite (Reg.RB_JOB + 0x20 * j + 8 * w) v) s =
        .next (s.setReg (Reg.RB_JOB + 0x20 * j + 8 * w) (v &&& jobMask w))) ∧
      (rbNamed s j = true → exec (.rbJobWrite (Reg.RB_JOB + 0x20 * j + 8 * w) v) s = .next (accessError s)))

/-- R364 to R369: reception of a flit in order, of a bad one and of one out of order; replay; a port that goes down, retrains
and finishes its training as LINK_TOPO places its neighbour; and LINK_TOPO itself. -/
def Obligations.LinkResults : Prop :=
  ∀ (p : Idx4) (s : State),
    (∀ f : Flit, linkState s p = 2 → domRun s (44 + p.val) = true →
      let l := s.link p
      let bad := sendBare p 2 (bump (linkOff Reg.LXL_CRC_ERR p) (s.modLink p fun l => { l with nakSent := true }))
      (f.crcOk = false → exec (.lxlFlitReceive p f) s = .next bad) ∧
      (f.crcOk = true → f.type = 2 → f.credits = [] → exec (.lxlFlitReceive p f) s = .next (linkReplay p f.ack s)) ∧
      (f.crcOk = true → f.type = 1 → f.credits = [] → l.unacked = [] → f.seq % 2 ^ 16 ≠ l.rxNext → l.nakSent = true →
        exec (.lxlFlitReceive p f) s = .next s) ∧
      (f.crcOk = true → f.type = 1 → f.credits = [] → l.unacked = [] → l.queue = [] → f.seq % 2 ^ 16 = l.rxNext →
        f.packets = [] → l.owed < 15 →
        exec (.lxlFlitReceive p f) s = .next (bump (linkOff Reg.LXL_RX_FLITS p) (s.modLink p fun l =>
          { l with rxNext := (l.rxNext + 1) % 2 ^ 16, nakSent := false, owed := l.owed + 1 })))) ∧
    (∀ ack, linkState s p = 2 → (s.link p).unacked = [] → (s.link p).queue = [] → (s.link p).replays < 15 →
      exec (.lxlReplay p ack) s = .next (bump (linkOff Reg.LXL_REPLAY p) (s.modLink p fun l =>
        { l with replays := l.replays + 1 }))) ∧
    (linkState s p = 2 → exec (.lxlDown p) s =
      .next (raise (evLxlDown p.val) (bump (linkOff Reg.LXL_DOWN_CNT p) (linkStop p 1 s)))) ∧
    (linkState s p ≠ 2 → exec (.lxlDown p) s = .next s) ∧
    (exec (.lxlRetrain p) s = .next (linkStop p (if linkOn s p && domRun s (44 + p.val) then 1 else 0) s)) ∧
    (∀ st, (s.link p).unacked = [] → (s.link p).queue = [] →
      linkStop p st s = (s.setLink p LinkPort.fresh).setF (linkOff Reg.LXL_STAT p) 2 0 st) ∧
    (∀ x y port, linkState s p = 1 → domRun s (44 + p.val) = true →
      exec (.lxlTrainingComplete p true x y port) s = .next ((s.setReg (linkOff Reg.LXL_STAT p) (BitVec.ofNat 64
        ((if neighbour s p = (x, y, port) then 2 else 3) + (x % 256) * 2 ^ 3 + (y % 256) * 2 ^ 11))).setLink p LinkPort.fresh) ∧
      exec (.lxlTrainingComplete p false x y port) s = .next (linkStop p 0 s)) ∧
    (∀ v : Half, (∀ q : Idx4, linkState s q = 0) → exec (.linkTopoWrite v) s =
      .next (s.setReg Reg.LINK_TOPO (v.zeroExtend 64))) ∧
    (∀ v : Half, linkState s p ≠ 0 → exec (.linkTopoWrite v) s = .next (accessError s))

/-! ## Power and clocks -/

/-- R373, R374, R376 to R380: a domain's target is taken, queued for admission, held for quiescence, or refused; a transition
ends; a wake is admitted within its rail's budget, its ramp ends, and one that waits too long is counted; the array throttle's
window; telemetry. -/
def Obligations.PowerDomainResults : Prop :=
  ∀ s : State,
    (∀ (d : Fin 48) (v : Half),
      let u := s.setReg (Reg.PWR_DOM_CTRL + 8 * d.val) ((v &&& 0xF).zeroExtend 64)
      let st := domState s d.val
      let t := fld v 1 0
      (domMoving s d.val = true → exec (.pwrDomTargetWrite d v) s = .next u) ∧
      (domMoving s d.val = false → domQueued s d.val = true → t ≠ 0 →
        exec (.pwrDomTargetWrite d v) s = .next (domUnqueue d.val u)) ∧
      (domMoving s d.val = false → domQueued s d.val = false →
        (t = st → exec (.pwrDomTargetWrite d v) s = .next (domShow d.val st false false u)) ∧
        (t ≠ st → t = 0 → exec (.pwrDomTargetWrite d v) s =
          .next (u.modPwr fun p => { p with queue := p.queue ++ [(d.val, s.time.cyc)] })) ∧
        (t ≠ 0 → st = 0 → exec (.pwrDomTargetWrite d v) s = .next (domShow d.val 0 false true u)) ∧
        (t ≠ 0 → st ≠ 0 → t ≠ st → domDirect st t = true →
          exec (.pwrDomTargetWrite d v) s = .next (domBegin d.val t false u)) ∧
        (t ≠ 0 → st ≠ 0 → t ≠ st → domDirect st t = false →
          exec (.pwrDomTargetWrite d v) s = .next (accessError (u.setF (Reg.PWR_DOM_CTRL + 8 * d.val) 1 0 st))))) ∧
    (∀ d : Fin 48, domState s d.val = 0 → domMoving s d.val = false → domTarget s d.val ≠ 0 →
      exec (.domainLeaveRun d) s = .next (if domQuiet s d then domBegin d.val (domTarget s d.val) false s else s)) ∧
    (∀ (d : Fin 48) (t : DomTrans), sget d.val s.pwr.trans = some t →
      (exec (.domainTransitionEnd d) s = .next (domPursue d.val (domEffect d.val t.goal t.start
        (domShow d.val t.goal false false (s.modPwr fun p => { p with trans := sdel d.val p.trans }))))) ∧
      (exec (.wakeRampEnd d) s = .next (s.modPwr fun p =>
        { p with trans := sput d.val { t with ramp := false } p.trans }))) ∧
    (∀ d : Fin 48, sget d.val s.pwr.trans = none →
      exec (.domainTransitionEnd d) s = .next s ∧ exec (.wakeRampEnd d) s = .next s) ∧
    (∀ (r : Idx4) (d x : Nat), railHead s r.val = some (d, x) →
      let need := if domState s d = 1 then ungateQa s d else wakeQa s d
      (staticQa s r.val + need ≤ railBudget s r.val →
        (s.pwr.lastAdmit[r.val] = none ∨ ∃ t, s.pwr.lastAdmit[r.val] = some t ∧ t + 1000 ≤ s.time.cyc) →
        exec (.pwrAdmit r) s = .next (bump Reg.PWR_WAKE_CNT ((domBegin d 0 true (domUnqueue d s)).modPwr fun p =>
          { p with lastAdmit := p.lastAdmit.set r.val (some s.time.cyc) }))) ∧
      (railBudget s r.val < staticQa s r.val + need → exec (.pwrAdmit r) s = .next s)) ∧
    (∀ (d : Fin 48) (w : Nat), wakeWaited s d.val = some w → 0 < s.regF Reg.PWR_WAKE_CFG 15 0 →
      s.regF Reg.PWR_WAKE_CFG 15 0 ≤ w → s.pwr.slow.contains d.val = false →
      exec (.pwrWakeSlow d) s = .next (raise evWakeSlow (bump Reg.PWR_WAKE_SLOW_CNT (s.modPwr fun p =>
        { p with slow := d.val :: p.slow })))) ∧
    (∀ (want : List CoreId) (held : Bool), want ≠ [] → want.Nodup → (∀ c, c ∈ want → inService s c = true) →
      s.actF Reg.PWR_ARRAY 7 0 ≠ 0 → allowFloor s ≤ allowRaw s want.length →
      let a := min (4 * (cclkMhz s : Int)) (max (allowFloor s) (allowRaw s want.length))
      let u := s.modPwr fun p => { p with allow := want.foldl (fun m c => sput c.val a.toNat m) [] }
      exec (.pbaWindow want held) s = .next (if held then bump Reg.PWR_THROTTLE_WIN u else u)) ∧
    (∀ (r : Fin 9) (v : Half), exec (.telemetryUpdate r v) s = .next (s.setReg (Reg.PWR_TELEM + 8 * r.val) (v.zeroExtend 64)))

/-- R375, R382 to R384, R386, R388, R389, R391, R393: the steps of an operating-point change, STANDBY and its wakes, the judgement
of the crystal, references lost and returned, clock settings, and POWER_POLICY. -/
def Obligations.ClockResults : Prop :=
  ∀ s : State,
    (∀ q : OpSeq, s.pwr.seq = some q →
      (avsWaits q = true → exec .avsAck s = .next (setSeq { q with acked := true } s)) ∧
      (q.locked = false → exec .pllLock s = .next (pllLock (pllIdle s) true (setSeq { q with locked := true } s))) ∧
      (let u := seqShow q.target false (s.modPwr fun p => { p with pllB := !p.pllB, seq := some { q with switched := true } })
       q.locked = true → q.switched = false →
         (q.up = false → exec .cclkSwitch s = .next u) ∧
         (q.up = true → q.acked = true → exec .cclkSwitch s = .next (opEnd u)) ∧
         (q.up = true → q.acked = false → exec .cclkSwitch s = .next s)) ∧
      (q.up = false → q.switched = true → q.acked = true → exec .voltageSettleEnd s = .next (opEnd s)) ∧
      (avsWaits q = true → exec .avsTimeout s = .next (raise evAvsErr (bump Reg.PWR_AVS_ERR_CNT
        (seqShow (s.regF Reg.PWR_SEQ_STAT 2 0) true (s.modPwr fun p => { p with seq := none })))))) ∧
    (s.pwr.standby = false → exec .standbyEnter s = .next (pllsLock [0, 1, 2, 3, 6, 7] false
      ((s.setReg Reg.PWR_MODE 2).modPwr fun p => { p with standby := true }))) ∧
    (∀ src : Fin 3, s.pwr.standby = true → bitOf (s.reg Reg.PWR_WAKE_SRC) src.val = true →
      (src.val = 2 → s.regF Reg.PWR_WAKE_TIME 47 0 ≤ s.time.sec) →
      exec (.standbyWake src) s = .next (raise evStandbyWake (pllsLock (standbyPlls s) true
        (s.modPwr fun p => { p with standby := false })))) ∧
    (∀ (f : Nat) (rest : List Nat), s.mbox = f :: rest → leAt (mboxBytes s f) 0 2 = 0x0030 →
      let bs := mboxBytes s f
      let park := s.modPwr fun p => { p with park := leAt bs 10 1 == 1 }
      (f ≠ 0 → exec .powerPolicy s = .next (mboxAnswer f 0xF0 [] s)) ∧
      (f = 0 → 3 ≤ leAt bs 8 1 → leAt bs 8 1 ≠ 0xFF → exec .powerPolicy s = .next (mboxAnswer f 0xF1 [] s)) ∧
      (f = 0 → leAt bs 8 1 = 0xFF → leAt bs 9 1 = 0xFF → leAt bs 12 4 = 0 → exec .powerPolicy s = .next (mboxAnswer f 0
        (bytesLE 4 (s.reg Reg.PWR_MODE).toNat ++ bytesLE 4 (opActive s) ++ bytesLE 4 (railAct s 0).toNat) park))) ∧
    (∀ count : Nat, bitOf (s.reg Reg.CLK_STAT) 0 = false → s.pwr.coast.contains 0 = false →
      let ok := s.regF Reg.CLK_XTAL_WIN 15 0 ≤ count ∧ count ≤ s.regF Reg.CLK_XTAL_WIN 31 16
      (ok → s.pwr.good < 7 → s.pwr.windows + 1 ≠ 256 → exec (.xtalJudgeWindow count) s =
        .next (s.modPwr fun p => { p with windows := p.windows + 1, good := p.good + 1 })) ∧
      (ok → 7 ≤ s.pwr.good → exec (.xtalJudgeWindow count) s = .next (safeGone 3
        (pllsLock (if s.pwr.standby then [4, 5] else [4, 5] ++ standbyPlls s) true
          (((s.modPwr fun p => { p with windows := p.windows + 1, good := p.good + 1 }).setF Reg.CLK_STAT 0 0 1).setF
            Reg.CLK_STAT 1 1 0)))) ∧
      (¬ ok → s.pwr.windows + 1 ≠ 256 → exec (.xtalJudgeWindow count) s = .next (bump Reg.CLK_XTAL_BAD_WIN
        (s.modPwr fun p => { p with windows := p.windows + 1, good := 0 }))) ∧
      (¬ ok → s.pwr.windows + 1 = 256 → exec (.xtalJudgeWindow count) s = .next (safeCause 3 (raise evXtalFail
        ((bump Reg.CLK_XTAL_BAD_WIN (s.modPwr fun p => { p with windows := p.windows + 1, good := 0 })).setF
          Reg.CLK_STAT 1 1 1))))) ∧
    (∀ r : Fin 3, s.pwr.coast.contains r.val = false → exec (.refLost r) s = .next (raise evRefLost (bump Reg.CLK_REF_LOST_CNT
      (refEffect r.val (coastShow ((s.modPwr fun p => { p with
        coast := r.val :: p.coast.erase r.val, back := p.back.erase r.val }).setF Reg.CLK_STAT (2 + r.val) (2 + r.val) 1)))))) ∧
    (s.pwr.coast.contains 0 = true → s.pwr.back.contains 0 = false → exec (.refReturn 0) s =
      .next (raise evRefBack ((s.modPwr fun p => { p with back := 0 :: p.back }).setF Reg.CLK_STAT 0 0 1))) ∧
    (s.pwr.coast.contains 2 = true → s.pwr.back.contains 2 = false → exec (.refReturn 2) s =
      .next (raise evRefBack (s.modPwr fun p => { p with coast := p.coast.erase 2 }))) ∧
    (s.pwr.back = [1] → s.pwr.standby = false → exec .clkRelock s = .next (raise evRelockDone (coastShow
      ((pllLock 7 true s).modPwr fun p => { p with coast := p.coast.filter fun r => !([1].contains r), back := [] })))) ∧
    (s.pwr.back = [0] → s.pwr.standby = false → exec .clkRelock s = .next (raise evRelockDone (coastShow
      ((pllsLock [pllDriving s, 2, 3, 4, 5, 6] true s).modPwr fun p =>
        { p with coast := p.coast.filter fun r => !([0].contains r), back := [] })))) ∧
    (∀ (gclk : Bool) (v : Half),
      let o := if gclk then Reg.CLK_PLL_CFG3 else Reg.CLK_PLL_CFG2
      let hi := if gclk then 40 else 48
      ((∀ d, d < 48 → domState s d = 3 ∧ domMoving s d = false) →
        (16 ≤ fld v 5 0 → fld v 5 0 ≤ hi → exec (.clkPllCfgWrite gclk v) s = .next (s.setReg o (BitVec.ofNat 64 (fld v 5 0)))) ∧
        (fld v 5 0 < 16 → exec (.clkPllCfgWrite gclk v) s = .next (accessError (s.setReg o 16))) ∧
        (hi < fld v 5 0 → exec (.clkPllCfgWrite gclk v) s = .next (accessError (s.setReg o (BitVec.ofNat 64 hi))))) ∧
      (∀ d, d < 48 → domState s d ≠ 3 ∨ domMoving s d = true →
        exec (.clkPllCfgWrite gclk v) s = .next (accessError s))) ∧
    (∀ v : Half, exec (.clkObsCfgWrite v) s = .next (
      if (v &&& 0x3FFFF).zeroExtend 64 = s.reg Reg.CLK_OBS_CFG then s
      else (s.setReg Reg.CLK_OBS_CFG ((v &&& 0x3FFFF).zeroExtend 64)).emit (.pin "CLK_OBS" false)))

/-! ## Test, fencing, boot -/

/-- R395 to R402, R404: the parts of a rotation step, the tests of the core in the slot, the mailbox's rotation commands, the
housekeeping cores, FENCE_REQ, and the copy of the fault log. -/
def Obligations.TestResults : Prop :=
  ∀ s : State,
    (∀ (m : RotMove) (f : Nat), s.test.move = some m → s.time.lastFence = some f → m.copying = false → m.copied = false →
      m.step = frameNum s + 1 → hostsTrunk s m.out = true → domRun s m.inc.val = true → s.test.phase = 0 →
      f + 32 * s.actF Reg.ROT_CFG 31 11 ≤ s.time.cyc →
      exec .rotCopyStart s = .next (s.modTest fun t => { t with move := some { m with copying := true } })) ∧
    (∀ m : RotMove, s.test.move = some m →
      (m.copying = true → exec (.rotCopyComplete []) s = .next ((rotVerify m.out s).modTest fun t =>
        { t with move := some { m with copying := false, copied := true } })) ∧
      (m.copying = false → exec (.rotCopyComplete []) s = .next s) ∧
      (m.copied = true → m.moved = false → rotIdle s m.out = true →
        exec .rotStateTransfer s = .next (s.modTest fun t => { t with move := some { m with moved := true } }))) ∧
    (∀ (c : CoreId) (sig : Half), coreOf (rotCore s) = some c → domRun s c.val = true →
      let o := Reg.ROT_SLICE + 4 * c.val
      let sl := s.regF o 2 0
      let ref := s.reg (Reg.TEST_REF + 4 * sl)
      let r (ok twice : Nat) : State := ((testResult c.val (fun _ => BitVec.ofNat 64
        (sl + ok * 8 + twice * 32 + sig.toNat * 2 ^ 32)) s).setF o 2 0 (sl + 1)).modTest fun t => { t with phase := 3 }
      (s.test.phase = 1 → ref ≠ sig.zeroExtend 64 →
        exec (.lbistSliceEnd sig) s = .next (s.modTest fun t => { t with phase := 2 })) ∧
      (s.test.phase = 1 → ref = sig.zeroExtend 64 → exec (.lbistSliceEnd sig) s = .next (r 1 0)) ∧
      (s.test.phase = 2 → ref = sig.zeroExtend 64 → exec (.lbistSliceEnd sig) s = .next (raise evLbistTransient
        (bump Reg.LBIST_TRANSIENT (logFault evLbistTransient 0 c.val (sl + sig.toNat * 2 ^ 32) (r 1 1))))) ∧
      (s.test.phase = 2 → ref ≠ sig.zeroExtend 64 → exec (.lbistSliceEnd sig) s = .next (orderFence c (raise evLbistFail
        (bump Reg.LBIST_FAIL_CNT (logFault evLbistFail 0 c.val (sl + sig.toNat * 2 ^ 32) (r 0 0))))))) ∧
    (∀ c : CoreId, coreOf (rotCore s) = some c → domRun s c.val = true → s.test.phase = 3 → (s.core c).repairQ = [] →
      s.test.move = none → exec (.marchPassEnd []) s = .next (domRequest c.val 1 ((testResult c.val (fun v => setFld v 4 4 1)
        (coreLoses c [] s)).modTest fun t => { t with phase := 0 }))) ∧
    (∀ (f : Nat) (rest : List Nat), s.mbox = f :: rest →
      let bs := mboxBytes s f
      let code := leAt bs 0 2
      (f ≠ 0 → (code = 0x0020 → exec .rotateNow s = .next (mboxAnswer f 0xF0 [] s)) ∧
        (code = 0x0021 → exec .testCore s = .next (mboxAnswer f 0xF0 [] s))) ∧
      (∀ m, f = 0 → code = 0x0020 → s.test.move = some m →
        exec .rotateNow s = .next (mboxAnswer f 0 (bytesLE 4 m.step.toNat) s)) ∧
      (∀ c, f = 0 → code = 0x0020 → s.test.move = none → rotPick s = some c → inService s c = true → rotPeriod s = 0 →
        exec .rotateNow s = .next (mboxAnswer f 0 (bytesLE 4 (frameNum s + 3).toNat)
          (rotBegin (frameNum s + 3) (frameNum s + 3 + 0x7FFFFFFF) s))) ∧
      (f = 0 → code = 0x0021 → 36 ≤ leAt bs 8 1 → exec .testCore s = .next (mboxAnswer f 0xF1 [] s)) ∧
      (∀ c, f = 0 → code = 0x0021 → coreOf (leAt bs 8 1) = some c → isFenced s c = true →
        exec .testCore s = .next (mboxAnswer f 0xF1 [] s)) ∧
      (∀ c, f = 0 → code = 0x0021 → coreOf (leAt bs 8 1) = some c → isFenced s c = false → c.val ≠ rotCore s →
        s.test.move = none → s.test.reqs.contains c = false → rotPeriod s ≠ 0 →
        exec .testCore s = .next (mboxAnswer f 0 (bytesLE 4 (requestFence s c).toNat) (s.modTest fun t =>
          { t with reqs := t.reqs ++ [c] })))) ∧
    (popcnt 4 (scHealthy s) ≤ 2 → ∀ pass, exec (.scRotation pass) s = .next s) ∧
    (2 < popcnt 4 (scHealthy s) → exec (.scRotation true) s = .next (s.setF Reg.SC_STAT 5 4 (scNext s)) ∧
      exec (.scRotation false) s = .next (scFail (scNext s) (s.setF Reg.SC_STAT 5 4 (scNext s)))) ∧
    (∀ h : Fin 4, (scHealthy s).testBit h.val = false → exec (.scWatchdog h) s = .next s) ∧
    (∀ h : Fin 4, (scHealthy s).testBit h.val = true →
      let m := scHealthy s - 2 ^ h.val
      let u := s.setF Reg.SC_STAT 3 0 m
      exec (.scWatchdog h) s = .next (if popcnt 4 m = 2 then raise evScDegraded u else if popcnt 4 m < 2 then safeCause 0 u
        else u)) ∧
    (∀ (req : Requester) (v : Word),
      (reqFn req = some 0 → exec (.fenceReqWrite req v) s =
        .next (s.setReg Reg.FENCE_REQ ((s.reg Reg.FENCE_REQ ||| v) &&& 0xFFFFFFFFF))) ∧
      (reqFn req ≠ some 0 → exec (.fenceReqWrite req v) s = .next (accessError s))) ∧
    (let h := (s.reg Reg.FAULT_LOG_HEAD).toNat
     s.logCopied ≤ h → h < 2 ^ 32 → h ≤ s.logCopied + 256 → ∃ t, exec .faultLogFlashCopy s = .next t ∧ t.logCopied = h ∧
      t.flash.log = s.flash.log ++ (List.range (h - s.logCopied)).map (fun i => (s.logCopied + i, logWords s (s.logCopied + i))) ∧
      t.regs = s.regs ∧ t.fuse = s.fuse)

/-- R407, R408, R411, R416, R420, R421, R423: reset, the start of the boot ROM and of a host image, measurements, security versions, attestation and debug unlock. -/
def Obligations.BootResults : Prop :=
  ∀ s : State,
    (∀ strap : BitVec 2, ∃ t, exec (.reset strap) s = .next t ∧ t.fuse = s.fuse ∧ t.flash = s.flash ∧
      t.time = State.reset.time ∧ t.cores = State.reset.cores ∧ t.mem = State.reset.mem ∧ t.sec = State.reset.sec ∧
      t.net = State.reset.net ∧ fld (t.reg Reg.SEC_BOOT_STAT) 4 3 = strap.toNat ∧
      (s.fuse.repair = [] → ∀ o, o ≠ Reg.SEC_BOOT_STAT → t.reg o = regReset o)) ∧
    (∀ bad polls, bootState s ≠ 0 ∨ romReady s = false → exec (.bootRomStart bad polls) s = .next s) ∧
    (∀ (bad : BitVec 8) (polls : List Bool), bootState s = 0 → romReady s = true →
      let v := secShow s
      let r := bootSlots (slotOrder v) (setBoot 1 (v.setF Reg.SEC_BOOT_STAT 8 8 (b2n s.flash.slow)))
      (s.regF Reg.SEC_BOOT_STAT 4 3 = 1 → exec (.bootRomStart bad polls) s = .next (setBoot 2 (bootWake 43 v))) ∧
      (∀ f b, s.regF Reg.SEC_BOOT_STAT 4 3 ≠ 1 → r.1 = some (f, b) →
        exec (.bootRomStart bad polls) s = .next (bootAccept f b false bad polls r.2)) ∧
      (s.regF Reg.SEC_BOOT_STAT 4 3 = 2 → r.1 = none →
        exec (.bootRomStart bad polls) s = .next (setBoot 2 (bootWake 43 (raise evBootFallback r.2)))) ∧
      (s.regF Reg.SEC_BOOT_STAT 4 3 ≠ 1 → s.regF Reg.SEC_BOOT_STAT 4 3 ≠ 2 → r.1 = none →
        exec (.bootRomStart bad polls) s = .next (safeCause 6 (setBoot 4 r.2)))) ∧
    (∀ (bad : BitVec 8) (polls : List Bool),
      (bootState s ≠ 2 → exec (.hostImageGo bad polls) s = .next s) ∧
      (∀ f u, bootState s = 2 → fwVerify s.sec.staging s = (some f, u) →
        exec (.hostImageGo bad polls) s = .next (bootAccept f false true bad polls u)) ∧
      (∀ u, bootState s = 2 → fwVerify s.sec.staging s = (none, u) →
        exec (.hostImageGo bad polls) s = .next (raise evBootSlotFail (bump Reg.SEC_BOOT_FAIL_CNT u)))) ∧
    (∀ (req : Requester) (v : Word),
      (req ≠ .sc → exec (.secMeasExt req v) s = .next (accessError s)) ∧
      (req = .sc → bitOf v 0 = true → exec (.secMeasExt req v) s = .next { s with sec := { s.sec with
        meas := s.sec.meas.set 4 (Config.sha384 (digestBytes s.sec.meas[4] ++
          (List.range 6).flatMap fun i => bytesLE 8 (s.reg (Reg.SEC_MEAS_IN + 8 * i)).toNat)) } })) ∧
    (∀ f : FwImage, s.sec.fw = some f → bootState s = 3 → s.test.causes.contains 6 = false → f.svnCommit = true →
      (f.svn ≤ svnOf s.fuse.fwSvn → f.trunkSvnMin ≤ svnOf s.fuse.trunkSvn → exec .svnAdvance s = .next s) ∧
      (svnOf s.fuse.fwSvn < f.svn → f.svn ≤ 64 → f.trunkSvnMin ≤ svnOf s.fuse.trunkSvn →
        bitOf (s.reg Reg.SEC_LOCK) 1 = false → s.fuse.lifecycle = 1 ∨ s.fuse.lifecycle = 3 →
        exec .svnAdvance s = .next (raise evSvnAdvanced (fuseProgram 3 f.svn s)))) ∧
    (∀ (f : Nat) (rest : List Nat), s.mbox = f :: rest → leAt (mboxBytes s f) 0 2 = 0x0040 →
      let bs := mboxBytes s f
      (deviceKeys s = false → exec .attest s = .next (mboxAnswer f 0xF0 [] s)) ∧
      (deviceKeys s = true → attestFits s f (leAt bs 40 8) (leAt bs 48 4) = false →
        exec .attest s = .next (mboxAnswer f 0xF1 [] s)) ∧
      (deviceKeys s = true → attestFits s f (leAt bs 40 8) (leAt bs 48 4) = true →
        exec .attest s = .next (mboxAnswer f 0 (bytesLE 4 14871)
          (memSet (leAt bs 40 8) (attestReport (sub bs 8 32) s) s)))) ∧
    (∃ t, exec .debugChallengeRead s = .next t ∧ t.freeCtr = s.freeCtr + 1 ∧ t.regs = s.regs ∧ t.fuse = s.fuse ∧
      t.sec.chal = some (bytesLE 32 (s.free 61 256).toNat)) ∧
    (∀ cert ed ml,
      let u := if s.fuse.lifecycle = 0 then s else countNoTime 1 s
      (4 ≤ s.sec.fails → exec (.debugUnlock cert ed ml) s = .next s) ∧
      (s.sec.fails < 4 → debugVerifies s cert ed ml = true → exec (.debugUnlock cert ed ml) s =
        .next (raise evDebugUnlock (aliasIssue (measExtend 5 [1] (u.setF Reg.SEC_STAT 23 23 1))))) ∧
      (s.sec.fails < 4 → debugVerifies s cert ed ml = false → exec (.debugUnlock cert ed ml) s =
        .next (raise evDebugFail (bump Reg.SEC_DEBUG_FAIL { u with sec := { u.sec with fails := s.sec.fails + 1 } }))))
end

