-- ==== Sys2Proof/Laws/Kept.lean ====
section
/-! SUPPORT. What no engine of the device touches: the queue of waiting commands and the fuses. `kept` is that part of the
state; each operation has one lemma saying that it keeps it. The fuse programmer alone does not (Laws/Fuses.lean). -/

namespace Sys2Proof.Machine

open Sys2Proof

def kept (s : State) : List Instr × FuseSt := (s.pending, s.fuse)
@[simp] theorem kept_eta (s : State) : (s.pending, s.fuse) = kept s := rfl
@[simp] theorem kept_mk (pending : _) (lastRead : _) (freeCtr : _) (regs : _) (act : _) (latch : _) (net : _) (out : _)
    (fwNotes : _) (pcie : _) (cores : _) (time : _) (flash : _) (fuse : _) (sec : _) (logCopied : _) (ingest : _) (grid : _)
    (cal : _) (rb : _) (map : _) (frames : _) (trunks : _) (pwr : _) (test : _) (hq : _) (mbox : _) (loftLost : _) (links :
    _) (mem : _) (pub : _) (smu : _) : kept (State.mk pending lastRead freeCtr regs act latch net out fwNotes pcie cores time
    flash fuse sec logCopied ingest grid cal rb map frames trunks pwr test hq mbox loftLost links mem pub smu) = (pending,
    fuse) := rfl
@[simp] theorem kept_ite (c : Prop) [Decidable c] (a b : State) : kept (if c then a else b) = if c then kept a else kept b :=
    by split <;> rfl
@[simp] theorem kept_foldl {β : Type} (l : List β) (g : State → β → State) (h : ∀ s x, kept (g s x) = kept s) (s : State) :
    kept (l.foldl g s) = kept s := by
  induction l generalizing s with
  | nil => rfl
  | cons x r ih => rw [List.foldl_cons, ih, h]
@[simp] theorem kept_foldl_snd {α β : Type} (l : List β) (g : α × State → β → α × State)
    (h : ∀ a x, kept (g a x).2 = kept a.2) (a : α × State) : kept (l.foldl g a).2 = kept a.2 := by
  induction l generalizing a with
  | nil => rfl
  | cons x r ih => rw [List.foldl_cons, ih, h]
@[simp] theorem kept_foldl_thd {α γ β : Type} (l : List β) (g : α × γ × State → β → α × γ × State)
    (h : ∀ a x, kept (g a x).2.2 = kept a.2.2) (a : α × γ × State) : kept (l.foldl g a).2.2 = kept a.2.2 := by
  induction l generalizing a with
  | nil => rfl
  | cons x r ih => rw [List.foldl_cons, ih, h]
theorem kept_ite2 {α : Type} (c : Prop) [Decidable c] (a b : α × State) (s : State) (ha : kept a.2 = kept s)
    (hb : kept b.2 = kept s) : kept (if c then a else b).2 = kept s := by
  split
  · exact ha
  · exact hb
theorem kept_elim {α β : Type} (o : Option α) (a : β × State) (f : α → β × State) (s : State) (ha : kept a.2 = kept s)
    (h : ∀ x, kept (f x).2 = kept s) : kept (o.elim a f).2 = kept s := by
  cases o with
  | none => exact ha
  | some x => exact h x
def StartKept (x : Start) (s : State) : Prop :=
  match x with
  | .done t => kept t = kept s
  | .active _ t => kept t = kept s
  | .trap _ _ t => kept t = kept s
  | .hold => True
@[simp] theorem sk_done (t s : State) : StartKept (.done t) s ↔ kept t = kept s := Iff.rfl
@[simp] theorem sk_active (a : Active) (t s : State) : StartKept (.active a t) s ↔ kept t = kept s := Iff.rfl
@[simp] theorem sk_trap (a b : Nat) (t s : State) : StartKept (.trap a b t) s ↔ kept t = kept s := Iff.rfl
@[simp] theorem sk_hold (s : State) : StartKept .hold s := trivial
@[simp] theorem sk_ite (c : Prop) [Decidable c] (a b : Start) (s : State) : StartKept (if c then a else b) s ↔ if c then
    StartKept a s else StartKept b s := by split <;> rfl
def LinkKept (x : LinkSend) (s : State) : Prop :=
  match x with
  | .sent t => kept t = kept s
  | .outside t => kept t = kept s
  | .portDown t => kept t = kept s

end Sys2Proof.Machine
end

