-- ==== Sys2Proof/Laws/KeptOps.lean ====
section
/-! SUPPORT. `kept` (Laws/Kept.lean) over the shared operations over registers, messages, memory, time and links. -/

set_option maxRecDepth 4000
set_option exponentiation.threshold 1024

namespace Sys2Proof.Machine

open Sys2Proof

@[simp] theorem State_drawn_kept (s : State) : kept (State.drawn s) = kept s := by
  rfl

@[simp] theorem State_emit_kept (a0 : Out) (s : State) : kept (State.emit a0 s) = kept s := by
  rfl

@[simp] theorem State_setCore_kept (a0 : CoreId) (a1 : CoreSt) (s : State) : kept (State.setCore a0 a1 s) = kept s := by
  rfl

@[simp] theorem State_modCore_kept (a0 : CoreId) (a1 : CoreSt → CoreSt) (s : State) : kept (State.modCore a0 a1 s) = kept s
    := by
  rfl

@[simp] theorem State_modIngest_kept (a0 : IngestSt → IngestSt) (s : State) : kept (State.modIngest a0 s) = kept s := by
  rfl

@[simp] theorem State_setLink_kept (a0 : Idx4) (a1 : LinkPort) (s : State) : kept (State.setLink a0 a1 s) = kept s := by
  rfl

@[simp] theorem State_modTime_kept (a0 : TimeSt → TimeSt) (s : State) : kept (State.modTime a0 s) = kept s := by
  rfl

@[simp] theorem State_setTrunk_kept (a0 : Idx8) (a1 : TrunkSt) (s : State) : kept (State.setTrunk a0 a1 s) = kept s := by
  rfl

@[simp] theorem State_modTrunk_kept (a0 : Idx8) (a1 : TrunkSt → TrunkSt) (s : State) : kept (State.modTrunk a0 a1 s) = kept s
    := by
  rfl

theorem State_takeMsg_kept (s : State) (a1 : Msg → Bool) (r : Msg × State) (hr : (State.takeMsg s a1) = some r) : kept r.2 =
    kept s := by
  unfold State.takeMsg at hr
  split at hr
  · split at hr
    · cases hr
    · cases hr; rfl
  · cases hr

theorem State_receive_kept (s : State) (a1 : MsgKind) (a2 : Agent) (a3 : Agent) (r : Msg × State) (hr : (State.receive s a1
    a2 a3) = some r) : kept r.2 = kept s := by
  exact State_takeMsg_kept _ _ _ hr

@[simp] theorem State_send_kept (a0 : Msg) (s : State) : kept (State.send a0 s) = kept s := by
  rfl

@[simp] theorem State_setAct_kept (a0 : Nat) (a1 : Word) (s : State) : kept (State.setAct a0 a1 s) = kept s := by
  rfl

@[simp] theorem State_setCaps_kept (a0 : Fin 2) (a1 : List (Nat × Nat)) (s : State) : kept (State.setCaps a0 a1 s) = kept s
    := by
  rfl

@[simp] theorem State_setReg_kept (a0 : Nat) (a1 : Word) (s : State) : kept (State.setReg a0 a1 s) = kept s := by
  rfl

@[simp] theorem State_setF_kept (a0 : Nat) (a1 : Nat) (a2 : Nat) (a3 : Nat) (s : State) : kept (State.setF a0 a1 a2 a3 s) =
    kept s := by
  rfl

@[simp] theorem State_setFrames_kept (a0 : Nat) (a1 : List SlotFrame) (s : State) : kept (State.setFrames a0 a1 s) = kept s
    := by
  unfold State.setFrames; (repeat' split) <;> simp_all

@[simp] theorem State_setPend_kept (a0 : Nat) (s : State) : kept (State.setPend a0 s) = kept s := by
  rfl

@[simp] theorem State_setPin_kept (a0 : Idx4) (a1 : ToutPin) (s : State) : kept (State.setPin a0 a1 s) = kept s := by
  rfl

@[simp] theorem raiseN_kept (a0 : Nat) (a1 : Nat) (s : State) : kept (raiseN a0 a1 s) = kept s := by
  induction a0 generalizing a1 s <;> simp_all [raiseN]

@[simp] theorem raise_kept (a0 : Nat) (s : State) : kept (raise a0 s) = kept s := by
  simp [raise]

@[simp] theorem bumpN_kept (a0 : Nat) (a1 : Nat) (s : State) : kept (bumpN a0 a1 s) = kept s := by
  simp [bumpN]

@[simp] theorem bump_kept (a0 : Nat) (s : State) : kept (bump a0 s) = kept s := by
  simp [bump]

@[simp] theorem linkDrain_kept (a0 : Nat) (a1 : Idx4) (s : State) : kept (linkDrain a0 a1 s) = kept s := by
  induction a0 generalizing s with
  | zero => rfl
  | succ n ih =>
    unfold linkDrain
    dsimp only
    (repeat' split) <;> simp [ih]

@[simp] theorem linkQueue_kept (a0 : Idx4) (a1 : Bool) (a2 : Packet) (s : State) : kept (linkQueue a0 a1 a2 s) = kept s := by
  simp [linkQueue]

theorem linkSend_kept (a0 : Packet) (s : State) : LinkKept (linkSend a0 s) s := by
  unfold linkSend
  (repeat' split) <;> simp [LinkKept]

@[simp] theorem logFault_kept (a0 : Nat) (a1 : Nat) (a2 : Nat) (a3 : Nat) (s : State) : kept (logFault a0 a1 a2 a3 s) = kept
    s := by
  unfold logFault
  extract_lets h w o lost s1 s2
  have h1 : kept s2 = kept s := by simp only [s2, s1, State_setReg_kept]
  split
  · rw [bump_kept, kept_mk, kept_eta, h1]
  · exact h1

@[simp] theorem accessError_kept (s : State) : kept (accessError s) = kept s := by
  simp [accessError]

@[simp] theorem bumpC_kept (a0 : CoreId) (a1 : Nat) (s : State) : kept (bumpC a0 a1 s) = kept s := by
  simp [bumpC]

@[simp] theorem coreTrap_kept (a0 : CoreId) (a1 : Nat) (a2 : Nat) (a3 : Nat) (a4 : Word) (a5 : Nat) (s : State) : kept
    (coreTrap a0 a1 a2 a3 a4 a5 s) = kept s := by
  simp [coreTrap]

@[simp] theorem fbPut_kept (a0 : Nat) (a1 : Word) (s : State) : kept (fbPut a0 a1 s) = kept s := by
  simp [fbPut]

@[simp] theorem ethSetLink_kept (a0 : Idx8) (a1 : Bool) (s : State) : kept (ethSetLink a0 a1 s) = kept s := by
  simp [ethSetLink]

@[simp] theorem repairFail_kept (a0 : CoreId) (a1 : Nat) (s : State) : kept (repairFail a0 a1 s) = kept s := by
  simp [repairFail]

@[simp] theorem queueRow_kept (a0 : CoreId) (a1 : Nat) (s : State) : kept (queueRow a0 a1 s) = kept s := by
  simp [queueRow]

@[simp] theorem loseLoft_kept (a0 : CoreId) (a1 : Nat) (s : State) : kept (loseLoft a0 a1 s) = kept s := by
  unfold loseLoft
  dsimp only
  rw [raise_kept, kept_mk, kept_eta, logFault_kept]

@[simp] theorem loseParked_kept (a0 : CoreId) (a1 : Nat) (a2 : Nat) (s : State) : kept (loseParked a0 a1 a2 s) = kept s := by
  unfold loseParked
  dsimp only
  rw [raise_kept, kept_mk, kept_eta, logFault_kept]

@[simp] theorem uncorrectable_kept (a0 : CoreId) (a1 : Nat) (a2 : Nat) (a3 : BitVec 512) (s : State) : kept (uncorrectable a0
    a1 a2 a3 s) = kept s := by
  unfold uncorrectable
  extract_lets s1 o cm pk s2 s3 s4 s5
  have h4 : kept s4 = kept s := by simp only [s4, s3, s2, s1]; split <;> simp
  have h5 : kept s5 = kept s := by simp only [s5]; clear_value s4 cm pk; (repeat' split) <;> simp [h4]
  simp [h5]

@[simp] theorem corrected_kept (a0 : CoreId) (a1 : Nat) (s : State) : kept (corrected a0 a1 s) = kept s := by
  simp [corrected]

@[simp] theorem spadRead_kept (a0 : CoreId) (a1 : Nat) (a2 : Nat) (s : State) : kept (spadRead a0 a1 a2 s).2.2 = kept s := by
  unfold spadRead
  extract_lets x l u s1 s2
  have h1 : kept s1 = kept s := by simp only [s1]; split <;> simp
  have h2 : kept s2 = kept s := by simp only [s2]; split <;> simp [h1]
  clear_value s2 s1
  (repeat' split) <;> simp [h1, h2]

@[simp] theorem spadWrite_kept (a0 : CoreId) (a1 : Nat) (a2 : DLine) (s : State) : kept (spadWrite a0 a1 a2 s) = kept s := by
  simp [spadWrite]

@[simp] theorem memLine_kept (a0 : Nat) (s : State) : kept (memLine a0 s).2 = kept s := by
  unfold memLine; (repeat' split) <;> simp_all

@[simp] theorem memRead_kept (a0 : Nat) (s : State) : kept (memRead a0 s).2 = kept s := by
  simp [memRead]

@[simp] theorem memStore_kept (a0 : Nat) (a1 : Line) (s : State) : kept (memStore a0 a1 s) = kept s := by
  simp [memStore]

@[simp] theorem memPut_kept (a0 : Nat) (a1 : DLine) (s : State) : kept (memPut a0 a1 s) = kept s := by
  simp [memPut]

@[simp] theorem toutDrive_kept (a0 : Idx4) (s : State) : kept (toutDrive a0 s) = kept s := by
  simp [toutDrive]

@[simp] theorem ethSend_kept (a0 : Nat) (a1 : List Nat) (a2 : Bool) (s : State) : kept (ethSend a0 a1 a2 s) = kept s := by
  simp [ethSend]

@[simp] theorem toutMiss_kept (a0 : Idx4) (a1 : Nat) (s : State) : kept (toutMiss a0 a1 s) = kept s := by
  simp [toutMiss]

@[simp] theorem toutArm_kept (a0 : Idx4) (a1 : Nat) (s : State) : kept (toutArm a0 a1 s) = kept s := by
  simp [toutArm]

@[simp] theorem toutFence_kept (a0 : Bool) (s : State) : kept (toutFence a0 s) = kept s := by
  simp [toutFence]

@[simp] theorem rateWrite_kept (a0 : ℤ) (s : State) : kept (rateWrite a0 s) = kept s := by
  simp [rateWrite]

@[simp] theorem toutAfterStep_kept (a0 : Bool) (s : State) : kept (toutAfterStep a0 s) = kept s := by
  unfold toutAfterStep
  rw [kept_foldl]
  intro s x
  dsimp only
  (repeat' split) <;> simp

@[simp] theorem stepTo_kept (a0 : Nat) (a1 : Nat) (s : State) : kept (stepTo a0 a1 s) = kept s := by
  simp [stepTo]

@[simp] theorem stepRefused_kept (s : State) : kept (stepRefused s) = kept s := by
  simp [stepRefused]

@[simp] theorem stepOffset_kept (s : State) : kept (stepOffset s) = kept s := by
  simp [stepOffset]

@[simp] theorem stepAbsolute_kept (s : State) : kept (stepAbsolute s) = kept s := by
  simp [stepAbsolute]

@[simp] theorem periodWrite_kept (a0 : Nat) (s : State) : kept (periodWrite a0 s) = kept s := by
  simp [periodWrite]

@[simp] theorem toutWrite_kept (a0 : Idx4) (a1 : Nat) (a2 : Word) (s : State) : kept (toutWrite a0 a1 a2 s) = kept s := by
  unfold toutWrite; (repeat' split) <;> simp_all

@[simp] theorem ethCfgWrite_kept (a0 : Idx8) (a1 : Word) (s : State) : kept (ethCfgWrite a0 a1 s) = kept s := by
  simp [ethCfgWrite]

@[simp] theorem memReadN_kept (a0 : Nat) (a1 : Nat) (s : State) : kept (memReadN a0 a1 s).2 = kept s := by
  induction a1 generalizing a0 s <;> simp_all [memReadN]

@[simp] theorem memGet_kept (a0 : Nat) (a1 : Nat) (s : State) : kept (memGet a0 a1 s).2.2 = kept s := by
  simp [memGet]

@[simp] theorem memSetLine_kept (a0 : Nat) (a1 : List Nat) (s : State) : kept (memSetLine a0 a1 s) = kept s := by
  simp [memSetLine]

@[simp] theorem memSetN_kept (a0 : Nat) (a1 : Nat) (a2 : List Nat) (s : State) : kept (memSetN a0 a1 a2 s) = kept s := by
  induction a0 generalizing a1 a2 s with
  | zero => rfl
  | succ n ih =>
    unfold memSetN
    split <;> simp [ih]

@[simp] theorem memSet_kept (a0 : Nat) (a1 : List Nat) (s : State) : kept (memSet a0 a1 s) = kept s := by
  simp [memSet]

@[simp] theorem nowRead_kept (a0 : Requester) (s : State) : kept (nowRead a0 s) = kept s := by
  simp [nowRead]

@[simp] theorem tinCapRead_kept (a0 : Fin 2) (s : State) : kept (tinCapRead a0 s) = kept s := by
  unfold tinCapRead; (repeat' split) <;> simp_all

@[simp] theorem shelfWrite_kept (a0 : CoreId) (a1 : Nat) (a2 : Nat) (a3 : DLine) (s : State) : kept (shelfWrite a0 a1 a2 a3
    s) = kept s := by
  simp [shelfWrite]

@[simp] theorem shelfRead_kept (a0 : CoreId) (a1 : Nat) (a2 : Nat) (a3 : Nat) (s : State) : kept (shelfRead a0 a1 a2 a3
    s).2.2 = kept s := by
  simp [shelfRead]

@[simp] theorem shelfReadN_kept (a0 : CoreId) (a1 : Nat) (a2 : Nat) (a3 : Nat) (a4 : Nat) (s : State) : kept (shelfReadN a0
    a1 a2 a3 a4 s).2.2 = kept s := by
  induction a4 generalizing a0 a1 a2 a3 s <;> simp_all [shelfReadN]

@[simp] theorem memExit_kept (a0 : Nat) (a1 : Nat) (s : State) : kept (memExit a0 a1 s).2.2 = kept s := by
  simp [memExit]

@[simp] theorem wrS_kept (a0 : CoreId) (a1 : Nat) (a2 : Word) (s : State) : kept (wrS a0 a1 a2 s) = kept s := by
  simp [wrS]

@[simp] theorem wrSs_kept (a0 : CoreId) (a1 : List (Nat × Word)) (s : State) : kept (wrSs a0 a1 s) = kept s := by
  simp [wrSs]

@[simp] theorem strike_kept (a0 : List LineErr) (s : State) : kept (strike a0 s) = kept s := by
  simp [strike]

@[simp] theorem ringDrop_kept (a0 : Nat) (a1 : Nat) (s : State) : kept (ringDrop a0 a1 s) = kept s := by
  simp [ringDrop]

@[simp] theorem ringTake_kept (a0 : Nat) (a1 : Nat) (s : State) : kept (ringTake a0 a1 s).2 = kept s := by
  unfold ringTake
  extract_lets i p
  exact kept_ite2 _ _ _ _ (ringDrop_kept _ _ _) rfl

@[simp] theorem wrP_kept (a0 : CoreId) (a1 : Nat) (a2 : Bool) (s : State) : kept (wrP a0 a1 a2 s) = kept s := by
  simp [wrP]

@[simp] theorem shelfWriteN_kept (a0 : CoreId) (a1 : Nat) (a2 : Nat) (a3 : List DLine) (s : State) : kept (shelfWriteN a0 a1
    a2 a3 s) = kept s := by
  fun_induction shelfWriteN <;> simp_all

@[simp] theorem wrV_kept (a0 : CoreId) (a1 : Nat) (a2 : BitVec 2048) (s : State) : kept (wrV a0 a1 a2 s) = kept s := by
  simp [wrV]

@[simp] theorem ringAdvance_kept (a0 : Idx8) (a1 : Nat) (a2 : Nat) (a3 : Nat) (s : State) : kept (ringAdvance a0 a1 a2 a3 s)
    = kept s := by
  simp [ringAdvance]

@[simp] theorem rxDeliver_kept (a0 : Idx8) (a1 : Nat) (a2 : RxFrame) (s : State) : kept (rxDeliver a0 a1 a2 s).2 = kept s :=
    by
  unfold rxDeliver; grind [bump_kept, memGet_kept, memSet_kept, ringAdvance_kept, kept_mk, kept_eta, StartKept, LinkKept]

@[simp] theorem ethReceive_kept (a0 : Idx8) (a1 : List Nat) (a2 : Nat) (a3 : Bool) (s : State) : kept (ethReceive a0 a1 a2 a3
    s) = kept s := by
  unfold ethReceive; (repeat' split) <;> simp_all

theorem txRing_kept (a0 : Idx8) (a1 : Nat) (s : State) (r : State) (hr : (txRing a0 a1 s) = some r) : kept r = kept s := by
  unfold txRing at hr
  split at hr
  · cases hr
  · split at hr
    · cases hr
    · extract_lets d r0 len fl done s1 r2 b st s2 at hr
      have hd : ∀ a b c s, kept (done a b c s) = kept s := by intro a b c s; simp only [done, ringAdvance_kept, memSet_kept]
      have h1 : kept s1 = kept s := by simp only [s1, r0, memGet_kept]
      have h2 : kept s2 = kept s := by simp [s2, r2, h1]
      clear_value s2 s1 done
      split at hr
      · cases hr; rw [hd, h1]
      · split at hr
        · cases hr; rw [hd, bump_kept, h1]
        · cases hr
          split <;> rw [hd, h2]

@[simp] theorem windowRead_kept (a0 : CoreId) (a1 : Nat) (a2 : Nat) (s : State) : kept (windowRead a0 a1 a2 s).2.2 = kept s
    := by
  simp [windowRead]

@[simp] theorem memPutN_kept (a0 : Nat) (a1 : List DLine) (s : State) : kept (memPutN a0 a1 s) = kept s := by
  fun_induction memPutN <;> simp_all

@[simp] theorem toutReplan_kept (a0 : Idx4) (s : State) : kept (toutReplan a0 s) = kept s := by
  simp [toutReplan]

@[simp] theorem timeAdvance_kept (s : State) : kept (timeAdvance s) = kept s := by
  simp [timeAdvance]

@[simp] theorem tinCapture_kept (a0 : Fin 2) (s : State) : kept (tinCapture a0 s) = kept s := by
  simp [tinCapture]

@[simp] theorem toutEdge_kept (a0 : Idx4) (s : State) : kept (toutEdge a0 s) = kept s := by
  unfold toutEdge
  extract_lets q
  split
  · rfl
  · split
    · rfl
    · dsimp only; rw [toutDrive_kept]; split <;> simp

@[simp] theorem toutEnd_kept (a0 : Idx4) (s : State) : kept (toutEnd a0 s) = kept s := by
  unfold toutEnd
  (repeat' split) <;> simp

end Sys2Proof.Machine
end

