-- ==== Sys2Proof/Laws/KeptUnits.lean ====
section
/-! SUPPORT. `kept` (Laws/Kept.lean) over the product array, the vector, sparse and gating units and the tile mover. -/

set_option maxRecDepth 4000
set_option exponentiation.threshold 1024

namespace Sys2Proof.Machine

open Sys2Proof

@[simp] theorem transmit_kept (a0 : Msg) (s : State) : kept (transmit a0 s).2 = kept s := by
  unfold transmit
  split
  · rename_i x y u _
    have := linkSend_kept (packetOf s a0 x y u) s
    split <;> rename_i h <;> rw [h] at this
    · exact this
    · exact this
    · dsimp only; (repeat' split) <;> simpa [LinkKept] using this
  · rfl

theorem transmit1_kept (a0 : Msg) (s r : State) (hr : (transmit a0 s).1 = some r) : kept r = kept s := by
  unfold transmit at hr
  split at hr
  · rename_i x y u _
    have := linkSend_kept (packetOf s a0 x y u) s
    split at hr <;> rename_i h <;> rw [h] at this
    · cases hr; exact this
    · cases hr
    · cases hr; (repeat' split) <;> simpa [LinkKept] using this
  · cases hr; simp

@[simp] theorem post_kept (a0 : Msg) (s : State) : kept (post a0 s) = kept s := by
  simp [post]

@[simp] theorem accStored_kept (a0 : CoreId) (a1 : Nat) (a2 : Nat) (s : State) : kept (accStored a0 a1 a2 s).2 = kept s := by
  unfold accStored; (repeat' split) <;> simp_all

@[simp] theorem modArray_kept (a0 : CoreId) (a1 : ArraySt → ArraySt) (s : State) : kept (modArray a0 a1 s) = kept s := by
  simp [modArray]

@[simp] theorem accPut_kept (a0 : CoreId) (a1 : Nat) (a2 : Nat) (a3 : AccRow) (s : State) : kept (accPut a0 a1 a2 a3 s) =
    kept s := by
  simp [accPut]

@[simp] theorem partFault_kept (a0 : CoreId) (a1 : Nat) (a2 : Nat) (a3 : Nat) (a4 : Nat) (s : State) : kept (partFault a0 a1
    a2 a3 a4 s) = kept s := by
  simp [partFault]

@[simp] theorem accGet_kept (a0 : CoreId) (a1 : Nat) (a2 : Nat) (s : State) : kept (accGet a0 a1 a2 s).2 = kept s := by
  unfold accGet; (repeat' split) <;> simp_all

@[simp] theorem addGateCnt_kept (a0 : CoreId) (a1 : Nat) (a2 : Nat) (a3 : Nat) (s : State) : kept (addGateCnt a0 a1 a2 a3 s)
    = kept s := by
  simp [addGateCnt]

@[simp] theorem readEls_kept (a0 : CoreId) (a1 : Nat) (a2 : Nat) (a3 : Nat) (a4 : Nat) (a5 : Nat) (a6 : Nat) (s : State) :
    kept (readEls a0 a1 a2 a3 a4 a5 a6 s).2.2.2 = kept s := by
  simp [readEls]

@[simp] theorem argRows_kept (a0 : CoreId) (a1 : Op) (a2 : Nat) (a3 : Nat) (a4 : Nat) (a5 : Nat) (a6 : Nat) (s : State) :
    kept (argRows a0 a1 a2 a3 a4 a5 a6 s).2.2 = kept s := by
  induction a5 generalizing a6 s with
  | zero => rfl
  | succ n ih => simp [argRows, ih]

@[simp] theorem bankEcc_kept (a0 : CoreId) (a1 a2 a3 : Nat) (t s : State) : StartKept (bankEcc a0 a1 a2 a3 t) s ↔ kept t =
    kept s := by
  simp [bankEcc]

theorem checkTrap_kept (a0 : CoreId) (s : State) : StartKept (checkTrap a0 s) s := by
  simp [checkTrap]

@[simp] theorem copyLoop_kept (a0 : CoreId) (a1 : Nat) (a2 : Nat) (a3 : Nat) (a4 : Nat) (a5 : Nat) (s : State) : kept
    (copyLoop a0 a1 a2 a3 a4 a5 s).2 = kept s := by
  induction a5 generalizing a2 a4 s with
  | zero => rfl
  | succ n ih =>
    unfold copyLoop
    dsimp only
    split <;> simp [ih]

@[simp] theorem countConv_kept (a0 : CoreId) (a1 : ConvCount) (s : State) : kept (countConv a0 a1 s) = kept s := by
  simp [countConv]

@[simp] theorem placeLine_kept (a0 : Msg) (s : State) : kept (placeLine a0 s).2 = kept s := by
  have hs : ∀ (b : Bool) (m : Msg) (t : State), kept (if b then State.send m t else t) = kept t := by
    intro b m t; cases b <;> simp
  have hq : kept (ringTake a0.slot a0.idx s).2 = kept s := ringTake_kept _ _ _
  unfold placeLine
  generalize ringTake a0.slot a0.idx s = q at *
  obtain ⟨a, t⟩ := q
  split
  · rfl
  · cases a with
    | none => exact hq
    | some a => exact (hs _ _ _).trans hq

@[simp] theorem sendMsgs_kept (a0 : List Msg) (a1 : Nat) (a2 : Active) (s : State) : kept (sendMsgs a0 a1 a2 s).2.2 = kept s
    := by
  induction a0 generalizing a1 a2 s with
  | nil => rfl
  | cons m r ih =>
    unfold sendMsgs
    split
    · rfl
    · extract_lets q
      have hq : kept q.2 = kept s := placeLine_kept _ _
      clear_value q
      split
      · rw [ih]; exact hq
      · extract_lets t
        rename_i m' _
        have h1 := transmit1_kept m' q.2
        have h2 := transmit_kept m' q.2
        split <;> rename_i h
        · rw [ih]; exact (h1 _ h).trans hq
        · exact h2.trans hq

@[simp] theorem sendTodo_kept (a0 : Nat) (a1 : Active) (s : State) : kept (sendTodo a0 a1 s).2.2 = kept s := by
  simp [sendTodo]

theorem startCopy_kept (a0 : CoreId) (a1 : Op) (s : State) : StartKept (startCopy a0 a1 s) s := by
  simp [startCopy]

@[simp] theorem launch_kept (a0 : CoreId) (a1 : Op) (a2 : List (Nat × Word)) (a3 : List Msg) (t s : State) (h : kept t = kept
    s) : StartKept (launch a0 a1 a2 a3 t) s := by
  unfold launch
  extract_lets r
  have hr : kept r.2.2 = kept s := by simp [r, h]
  clear_value r
  (repeat' split) <;> simp [h, hr]

theorem startGet_kept (a0 : CoreId) (a1 : Op) (s : State) : StartKept (startGet a0 a1 s) s := by
  simp [startGet]

@[simp] theorem getxLines_kept (a0 : CoreId) (a1 : Op) (a2 : Nat) (a3 : GetxSt) (s : State) : kept (getxLines a0 a1 a2 a3
    s).2 = kept s := by
  induction a2 generalizing a3 s with
  | zero => rfl
  | succ n ih =>
    unfold getxLines
    dsimp only
    (repeat' split) <;> simp [ih]

@[simp] theorem getxCount_kept (a0 : CoreId) (a1 : GetxSt) (s : State) : kept (getxCount a0 a1 s) = kept s := by
  simp [getxCount]

@[simp] theorem sendEarlier_kept (a0 : CoreId) (a1 : Op) (a2 : List Msg) (s : State) : kept (sendEarlier a0 a1 a2 s) = kept s
    := by
  simp [sendEarlier]

theorem startGetx_kept (a0 : CoreId) (a1 : Op) (s : State) : StartKept (startGetx a0 a1 s) s := by
  unfold startGetx
  dsimp only
  (repeat' split) <;> simp

theorem startPut_kept (a0 : CoreId) (a1 : Op) (s : State) : StartKept (startPut a0 a1 s) s := by
  unfold startPut
  dsimp only
  (repeat' split) <;> simp

theorem startFetch_kept (a0 : CoreId) (a1 : Op) (s : State) : StartKept (startFetch a0 a1 s) s := by
  simp [startFetch]

theorem startStore_kept (a0 : CoreId) (a1 : Op) (s : State) : StartKept (startStore a0 a1 s) s := by
  unfold startStore
  dsimp only
  (repeat' split) <;> simp

theorem startStoreRing_kept (a0 : CoreId) (a1 : Op) (s : State) : StartKept (startStoreRing a0 a1 s) s := by
  unfold startStoreRing
  extract_lets n ring slot t r
  have hr : kept r.2.2 = kept s := by simp [r]
  clear_value r
  (repeat' split) <;> simp [hr]

theorem startGather_kept (a0 : CoreId) (a1 : Op) (s : State) : StartKept (startGather a0 a1 s) s := by
  simp [startGather]

theorem startCreditReq_kept (a0 : CoreId) (a1 : Op) (s : State) : StartKept (startCreditReq a0 a1 s) s := by
  simp [startCreditReq]

@[simp] theorem returnCredits_kept (a0 : CoreId) (a1 : Nat) (a2 : Nat) (s : State) : kept (returnCredits a0 a1 a2 s) = kept s
    := by
  simp [returnCredits]

theorem startCreditRet_kept (a0 : CoreId) (a1 : Op) (s : State) : StartKept (startCreditRet a0 a1 s) s := by
  simp [startCreditRet]

@[simp] theorem unloadSet_kept (a0 : CoreId) (a1 : Nat) (a2 : Nat) (s : State) : kept (unloadSet a0 a1 a2 s) = kept s := by
  simp [unloadSet]

@[simp] theorem installSet_kept (a0 : CoreId) (a1 : Nat) (a2 : Nat) (a3 : WSet) (s : State) : kept (installSet a0 a1 a2 a3 s)
    = kept s := by
  simp [installSet]

@[simp] theorem finishLoad_kept (a0 : CoreId) (a1 : Op) (a2 : Nat) (a3 : Nat) (a4 : WSet) (a5 : Nat) (a6 : Bool) (t s :
    State) (h : kept t = kept s) : StartKept (finishLoad a0 a1 a2 a3 a4 a5 a6 t) s := by
  unfold finishLoad
  dsimp only
  split <;> simp [h]

theorem wloadDense_kept (a0 : CoreId) (a1 : Op) (a2 : Nat) (a3 : Nat) (a4 : Nat) (s : State) : StartKept (wloadDense a0 a1 a2
    a3 a4 s) s := by
  unfold wloadDense
  dsimp only
  split <;> simp

@[simp] theorem readGroups_kept (a0 : CoreId) (a1 : Nat) (a2 : Nat) (a3 : Nat) (a4 : List Nat) (s : State) : kept (readGroups
    a0 a1 a2 a3 a4 s).2 = kept s := by
  induction a4 generalizing a0 a1 a2 a3 s <;> simp_all [readGroups]

theorem wloadGated_kept (a0 : CoreId) (a1 : Op) (a2 : Nat) (a3 : Nat) (a4 : Nat) (s : State) : StartKept (wloadGated a0 a1 a2
    a3 a4 s) s := by
  unfold wloadGated
  dsimp only
  (repeat' split) <;> simp

@[simp] theorem readSlice_kept (a0 : CoreId) (a1 : Nat) (a2 : Nat) (a3 : Nat) (a4 : Nat) (s : State) : kept (readSlice a0 a1
    a2 a3 a4 s).2 = kept s := by
  unfold readSlice; grind [shelfRead_kept, shelfReadN_kept, kept_mk, kept_eta, StartKept, LinkKept]

@[simp] theorem readTiles_kept (a0 : CoreId) (a1 : Nat) (a2 : Nat) (a3 : Nat) (a4 : Nat) (a5 : Nat) (a6 : Nat) (s : State) :
    kept (readTiles a0 a1 a2 a3 a4 a5 a6 s).2 = kept s := by
  induction a5 generalizing a6 s with
  | zero => rfl
  | succ n ih =>
    unfold readTiles
    dsimp only
    split <;> simp [ih]

theorem wloadTransposed_kept (a0 : CoreId) (a1 : Op) (a2 : Nat) (a3 : Nat) (a4 : Nat) (s : State) : StartKept
    (wloadTransposed a0 a1 a2 a3 a4 s) s := by
  unfold wloadTransposed
  dsimp only
  (repeat' split) <;> simp

@[simp] theorem readTile_kept (a0 : CoreId) (a1 : Nat) (a2 : Nat) (a3 : Nat) (a4 : Nat) (s : State) : kept (readTile a0 a1 a2
    a3 a4 s).2 = kept s := by
  unfold readTile; grind [shelfRead_kept, shelfReadN_kept, kept_mk, kept_eta, StartKept, LinkKept]

theorem wloadPacked_kept (a0 : CoreId) (a1 : Op) (a2 : Nat) (a3 : Nat) (a4 : Nat) (a5 : Nat) (s : State) : StartKept
    (wloadPacked a0 a1 a2 a3 a4 a5 s) s := by
  unfold wloadPacked
  dsimp only
  (repeat' split) <;> simp

theorem startWload_kept (a0 : CoreId) (a1 : Op) (s : State) : StartKept (startWload a0 a1 s) s := by
  simp [startWload, wloadDense_kept, wloadGated_kept, wloadTransposed_kept, wloadPacked_kept]

@[simp] theorem endProduct_kept (a0 : CoreId) (a1 : Prod) (a2 a3 : Nat) (r : RunEnd) (s : State) (h : kept r.2.2 = kept s) :
    StartKept (endProduct a0 a1 a2 a3 r) s := by
  unfold endProduct
  extract_lets t
  have h2 : kept t = kept s := by simp only [t]; split <;> simp [h]
  clear_value t
  (repeat' split) <;> simp [h2, checkTrap, modArray]

@[simp] theorem readDense_kept (a0 : CoreId) (a1 : Op) (a2 : Nat) (a3 : Nat) (a4 : Nat) (a5 : Nat) (a6 : Nat) (a7 : Bool) (a8
    : Bool) (s : State) : kept (readDense a0 a1 a2 a3 a4 a5 a6 a7 a8 s).2 = kept s := by
  unfold readDense; (repeat' split) <;> simp_all

@[simp] theorem readDenses_kept (a0 : CoreId) (a1 : Op) (a2 : Nat) (a3 : Nat) (a4 : Nat) (a5 : Nat) (a6 : Bool) (a7 : Bool)
    (a8 : Nat) (a9 : Nat) (s : State) : kept (readDenses a0 a1 a2 a3 a4 a5 a6 a7 a8 a9 s).2 = kept s := by
  induction a8 generalizing a9 s with
  | zero => rfl
  | succ n ih => simp [readDenses, ih]

@[simp] theorem passRow_kept (a0 : CoreId) (a1 : Prod) (a2 : List DRow) (a3 : FVal → FVal) (a4 : FVal → FVal) (a5 : Nat) (a6
    : Bool) (a7 : WSet) (a8 : Nat) (a9 : Bool) (s : State) : kept (passRow a0 a1 a2 a3 a4 a5 a6 a7 a8 a9 s) = kept s := by
  simp [passRow]

@[simp] theorem rowPasses_kept (a0 : CoreId) (a1 : Prod) (a2 : List DRow) (a3 : Nat) (s : State) : kept (rowPasses a0 a1 a2
    a3 s) = kept s := by
  have tw : ∀ (c : Bool) (a b t : State), kept a = kept t → kept b = kept t → kept (if c then a else b) = kept t := by
    intro c a b t ha hb; split <;> assumption
  unfold rowPasses
  extract_lets inP po s1 go s3 s4 re im s5 s6 s7 s8
  have h1 : kept s1 = kept s := tw _ _ _ _ (partFault_kept _ _ _ _ _ _) (tw _ _ _ _ (partFault_kept _ _ _ _ _ _)
    (tw _ _ _ _ (partFault_kept _ _ _ _ _ _) rfl))
  have hg : ∀ x a b d e f g i t, kept (go x a b d e f g i t) = kept t := fun x a b d e f g i t => passRow_kept _ _ _ _ _ _ _ _ _ _ _
  clear_value s1 go
  rw [bumpC_kept]
  simp only [s8]
  split <;> simp only [s3, s4, s5, s6, s7, hg, h1]

@[simp] theorem runRecs_kept (a0 : CoreId) (a1 : Op) (a2 : Prod) (a3 : Nat) (a4 : Nat) (a5 : DLine) (a6 : List Nat) (a7 :
    Nat) (a8 : Bool) (s : State) : kept (runRecs a0 a1 a2 a3 a4 a5 a6 a7 a8 s).2.2.2 = kept s := by
  induction a6 generalizing a7 a8 s with
  | nil => rfl
  | cons j js ih =>
    unfold runRecs
    dsimp only
    (repeat' split) <;> simp [ih]

@[simp] theorem runSegment_kept (a0 : CoreId) (a1 : Op) (a2 : Prod) (a3 : Nat) (a4 : Nat) (a5 : Nat) (a6 : Nat) (a7 : Nat)
    (a8 : Bool) (s : State) : kept (runSegment a0 a1 a2 a3 a4 a5 a6 a7 a8 s).2.2 = kept s := by
  induction a5 generalizing a6 a7 a8 s with
  | zero => rfl
  | succ n ih =>
    unfold runSegment
    extract_lets t l s1 r
    have hl : kept l.2.2 = kept s := shelfRead_kept _ _ _ _ _
    have h1 : kept s1 = kept s := by simp only [s1]; split <;> simp [hl]
    have hr : kept r.2.2.2 = kept s := (runRecs_kept _ _ _ _ _ _ _ _ _ _).trans h1
    clear_value r s1 l t
    split
    · rfl
    · split
      · rfl
      · split
        · exact hr
        · exact (ih _ _ _ _).trans hr

@[simp] theorem runPacked_kept (a0 : CoreId) (a1 : Op) (a2 : Prod) (a3 : Bool) (a4 : Nat) (a5 : Nat) (a6 : List (List Nat ×
    Bool)) (a7 : Nat) (a8 : Bool) (s : State) : kept (runPacked a0 a1 a2 a3 a4 a5 a6 a7 a8 s).2.2 = kept s := by
  induction a6 generalizing a7 a8 s with
  | nil => rfl
  | cons x xs ih =>
    obtain ⟨els, z⟩ := x
    unfold runPacked
    split
    · rw [ih]; simp
    · extract_lets sp q d
      rw [ih, rowPasses_kept]
      simp only [q]; split <;> simp

theorem productTile_kept (a0 : CoreId) (a1 : Op) (a2 : Bool) (a3 : Prod) (s : State) : StartKept (productTile a0 a1 a2 a3 s)
    s := by
  unfold productTile
  dsimp only
  (repeat' split) <;> simp

@[simp] theorem runRows_kept (a0 : CoreId) (a1 : Op) (a2 : Prod) (a3 : Bool) (a4 : Nat) (a5 : Nat) (a6 : Nat) (a7 : Nat) (a8
    : Bool) (s : State) : kept (runRows a0 a1 a2 a3 a4 a5 a6 a7 a8 s).2.2 = kept s := by
  induction a6 generalizing a7 a8 s with
  | zero => rfl
  | succ n ih => simp [runRows, ih]

theorem productRun_kept (a0 : CoreId) (a1 : Op) (a2 : Nat) (a3 : Bool) (a4 : Prod) (s : State) : StartKept (productRun a0 a1
    a2 a3 a4 s) s := by
  unfold productRun
  dsimp only
  (repeat' split) <;> simp [productTile_kept]

theorem startProduct_kept (a0 : CoreId) (a1 : Op) (a2 : Nat) (a3 : Bool) (s : State) : StartKept (startProduct a0 a1 a2 a3 s)
    s := by
  unfold startProduct
  dsimp only
  (repeat' split) <;> simp [productRun_kept]

theorem startMm_kept (a0 : CoreId) (a1 : Op) (s : State) : StartKept (startMm a0 a1 s) s := by
  simp [startMm, startProduct_kept]

theorem startMmg_kept (a0 : CoreId) (a1 : Op) (s : State) : StartKept (startMmg a0 a1 s) s := by
  simp [startMmg, startProduct_kept]

theorem startMms_kept (a0 : CoreId) (a1 : Op) (s : State) : StartKept (startMms a0 a1 s) s := by
  unfold startMms
  have h := startProduct_kept a0 a1 3 (lOptB a1.w0 0) s
  extract_lets b add
  have ha : ∀ t, kept (add t) = kept t := fun t => bumpN_kept _ _ _
  clear_value add
  generalize startProduct a0 a1 3 (lOptB a1.w0 0) s = x at h ⊢
  cases x <;> simp_all

theorem startMmp_kept (a0 : CoreId) (a1 : Op) (s : State) : StartKept (startMmp a0 a1 s) s := by
  simp [startMmp, startProduct_kept]

theorem startAccInit_kept (a0 : CoreId) (a1 : Op) (s : State) : StartKept (startAccInit a0 a1 s) s := by
  unfold startAccInit
  dsimp only
  (repeat' split) <;> simp

@[simp] theorem drainTest_kept (a0 : CoreId) (a1 : Nat) (a2 : Nat) (s : State) : kept (drainTest a0 a1 a2 s).2.2.2 = kept s
    := by
  unfold drainTest; grind [accGet_kept, bumpC_kept, partFault_kept, kept_mk, kept_eta, StartKept, LinkKept]

@[simp] theorem gatedChunks_kept (a0 : CoreId) (a1 : Nat) (a2 : Nat) (a3 : Nat) (a4 : Nat) (a5 : Bool) (a6 : List Nat) (s :
    State) : kept (gatedChunks a0 a1 a2 a3 a4 a5 a6 s).2.2.2 = kept s := by
  induction a6 generalizing s with
  | nil => rfl
  | cons t ts ih =>
    unfold gatedChunks
    extract_lets x v q
    simp only [q, ih, x, drainTest_kept]

@[simp] theorem writePart_kept (a0 : CoreId) (a1 : Nat) (a2 : Nat) (a3 : Nat) (a4 : Nat) (a5 : Nat) (a6 : Nat) (a7 : Bool) (s
    : State) : kept (writePart a0 a1 a2 a3 a4 a5 a6 a7 s).2 = kept s := by
  unfold writePart
  dsimp only
  (repeat' split) <;> simp

@[simp] theorem writeRange_kept (a0 : CoreId) (a1 : Nat) (a2 : Nat) (a3 : Nat → Bool) (a4 : Nat) (a5 : Nat) (a6 : Nat) (a7 :
    Nat) (a8 : Nat) (a9 : Nat) (s : State) : kept (writeRange a0 a1 a2 a3 a4 a5 a6 a7 a8 a9 s).2 = kept s := by
  induction a4 generalizing a5 a6 a7 a8 a9 s with
  | zero => rfl
  | succ n ih =>
    unfold writeRange
    dsimp only
    (repeat' split) <;> simp [ih]

@[simp] theorem gatedRows_kept (a0 : CoreId) (a1 : Op) (a2 : GateMask) (a3 : Nat) (a4 : Nat) (a5 : Nat) (a6 : Nat) (a7 : Nat)
    (a8 : Nat) (a9 : Nat) (a10 : Nat) (s : State) : kept (gatedRows a0 a1 a2 a3 a4 a5 a6 a7 a8 a9 a10 s).2.2 = kept s := by
  induction a9 generalizing a10 s with
  | zero => rfl
  | succ n ih =>
    unfold gatedRows
    extract_lets on bi x row v bad s1 s2 s3 s4 s5 w nb lo y q q2
    have h1 : kept s5 = kept s := by simp only [s5, s4, s3, s2, s1, x, addGateCnt_kept, bumpN_kept, countConv_kept, gatedChunks_kept]
    have hw : kept w.2 = kept s := by simp only [w, writeRange_kept, h1]
    clear_value w s5
    have hy : kept y.2 = kept s := by
      simp only [y]
      split
      · simp only [writeRange_kept, hw]
      · exact hw
    clear_value y
    simp only [q, ih, hy]

@[simp] theorem writeBits_kept (a0 : CoreId) (a1 : Nat) (a2 : Nat) (a3 : Nat) (a4 : Nat) (a5 : Nat → Bool) (s : State) : kept
    (writeBits a0 a1 a2 a3 a4 a5 s) = kept s := by
  simp [writeBits]

theorem drainGated_kept (a0 : CoreId) (a1 : Op) (a2 : Nat) (a3 : Nat) (s : State) : StartKept (drainGated a0 a1 a2 a3 s) s :=
    by
  unfold drainGated
  extract_lets m n r0 bm mode
  split
  · trivial
  · split
    · rfl
    · extract_lets rl nb t eps touched r s2
      split
      · rfl
      · split
        · rfl
        · have h2 : kept s2 = kept s := by
            simp only [s2]
            split <;> simp only [r, writeBits_kept, gatedRows_kept]
          clear_value s2 r
          (repeat' split) <;> simp [h2, checkTrap, modArray]

@[simp] theorem drainRows_kept (a0 : CoreId) (a1 : Nat) (a2 : Nat) (a3 : Bool) (a4 : Nat) (a5 : Nat) (a6 : DrainSt) (s :
    State) : kept (drainRows a0 a1 a2 a3 a4 a5 a6 s).2 = kept s := by
  induction a4 generalizing a5 a6 s with
  | zero => rfl
  | succ n ih =>
    unfold drainRows
    extract_lets t bi isInt v bad
    rw [ih, countConv_kept, drainTest_kept]

theorem drainPlain_kept (a0 : CoreId) (a1 : Op) (a2 : Nat) (a3 : Nat) (s : State) : StartKept (drainPlain a0 a1 a2 a3 s) s :=
    by
  unfold drainPlain
  extract_lets n r0 bm lines t r bad w v s1 s2
  split
  · exact rfl
  · have h2 : kept s2 = kept s := by
      simp only [s2]
      split <;> simp only [s1, v, w, r, writeBits_kept, writeRange_kept, drainRows_kept]
    clear_value s2
    (repeat' split) <;> simp [h2, checkTrap, modArray]

theorem startAccDrain_kept (a0 : CoreId) (a1 : Op) (s : State) : StartKept (startAccDrain a0 a1 s) s := by
  unfold startAccDrain
  dsimp only
  (repeat' split) <;> simp [drainGated_kept, drainPlain_kept]

theorem startPart_kept (a0 : CoreId) (a1 : Op) (s : State) : StartKept (startPart a0 a1 s) s := by
  simp [startPart]

@[simp] theorem putV_kept (a0 : CoreId) (a1 : Nat) (a2 : List (BitVec 32)) (a3 : Bool) (s : State) : kept (putV a0 a1 a2 a3
    s) = kept s := by
  simp [putV]

theorem startVld_kept (a0 : CoreId) (a1 : Op) (s : State) : StartKept (startVld a0 a1 s) s := by
  unfold startVld
  extract_lets f comp e b p sp t r q lanes
  have hq : kept q.2.2.2 = kept s := by simp only [q]; split <;> simp [r]
  clear_value q lanes
  (repeat' split) <;> simp [hq]

theorem startVst_kept (a0 : CoreId) (a1 : Op) (s : State) : StartKept (startVst a0 a1 s) s := by
  simp [startVst]

theorem startValu_kept (a0 : CoreId) (a1 : Op) (s : State) : StartKept (startValu a0 a1 s) s := by
  simp [startValu]

theorem startVfma_kept (a0 : CoreId) (a1 : Op) (s : State) : StartKept (startVfma a0 a1 s) s := by
  simp [startVfma]

theorem startVsf_kept (a0 : CoreId) (a1 : Op) (s : State) : StartKept (startVsf a0 a1 s) s := by
  simp [startVsf]

theorem startVcvt_kept (a0 : CoreId) (a1 : Op) (s : State) : StartKept (startVcvt a0 a1 s) s := by
  unfold startVcvt
  extract_lets f g n nf ng lf lg t r q po vs ws vs2 fl fw v w x
  have hq : kept q.2.2.2 = kept s := by simp only [q]; split <;> simp [r]
  clear_value q v ws
  have hw : kept w.2 = kept s := by simp only [w, writeRange_kept, countConv_kept, hq]
  clear_value w
  have hx : kept x.2 = kept s := by
    simp only [x]
    split
    · simp only [writeRange_kept, hw]
    · exact hw
  clear_value x r t lf lg nf ng n
  (repeat' split)
  · rfl
  · rfl
  · rfl
  · exact hq
  · exact hx
  · exact hx

theorem startVred_kept (a0 : CoreId) (a1 : Op) (s : State) : StartKept (startVred a0 a1 s) s := by
  simp [startVred]

theorem startVbcast_kept (a0 : CoreId) (a1 : Op) (s : State) : StartKept (startVbcast a0 a1 s) s := by
  simp [startVbcast]

theorem startVext_kept (a0 : CoreId) (a1 : Op) (s : State) : StartKept (startVext a0 a1 s) s := by
  simp [startVext]

theorem startArgmax_kept (a0 : CoreId) (a1 : Op) (s : State) : StartKept (startArgmax a0 a1 s) s := by
  simp [startArgmax]

@[simp] theorem scoreRows_kept (a0 : CoreId) (a1 : Op) (a2 : Nat) (a3 : Nat) (a4 : Nat) (a5 : Nat) (a6 : Nat) (a7 : Nat) (s :
    State) : kept (scoreRows a0 a1 a2 a3 a4 a5 a6 a7 s).2.2 = kept s := by
  induction a6 generalizing a7 s with
  | zero => rfl
  | succ n ih => simp [scoreRows, ih]

theorem startPredGate_kept (a0 : CoreId) (a1 : Op) (s : State) : StartKept (startPredGate a0 a1 s) s := by
  simp [startPredGate]

theorem packRef_kept (a0 : CoreId) (a1 : Op) (a2 : Nat) (s : State) : StartKept (packRef a0 a1 a2 s) s := by
  unfold packRef; grind [readTile_kept, shelfReadN_kept, wrS_kept, writeBits_kept, kept_mk, kept_eta, StartKept, LinkKept]

theorem packVar_kept (a0 : CoreId) (a1 : Op) (a2 : Nat) (a3 : Nat) (s : State) : StartKept (packVar a0 a1 a2 a3 s) s := by
  simp [packVar]

theorem startPack_kept (a0 : CoreId) (a1 : Op) (s : State) : StartKept (startPack a0 a1 s) s := by
  simp [startPack, packRef_kept, packVar_kept]

theorem startMatchLoad_kept (a0 : CoreId) (a1 : Op) (s : State) : StartKept (startMatchLoad a0 a1 s) s := by
  simp [startMatchLoad]

@[simp] theorem probeLines_kept (a0 : CoreId) (a1 : Op) (a2 : List CamKey) (a3 : Nat) (a4 : Nat) (a5 : Nat) (a6 : Nat) (a7 :
    Nat) (a8 : ProbeSt) (s : State) : kept (probeLines a0 a1 a2 a3 a4 a5 a6 a7 a8 s).2 = kept s := by
  induction a6 generalizing a7 a8 s with
  | zero => rfl
  | succ n ih =>
    unfold probeLines
    extract_lets r q
    have hr : kept r.2.2 = kept s := shelfRead_kept _ _ _ _ _
    clear_value q r
    (repeat' split)
    · rfl
    · exact hr
    · exact (ih _ _ _).trans hr

@[simp] theorem probeGroup_kept (a0 : CoreId) (a1 : Op) (a2 : List CamKey) (a3 : Nat) (a4 : Nat) (a5 : Nat) (s : State) :
    kept (probeGroup a0 a1 a2 a3 a4 a5 s).2 = kept s := by
  unfold probeGroup
  split <;> simp

@[simp] theorem probeSplit_kept (a0 : CoreId) (a1 : Op) (a2 : CamSt) (a3 : Nat) (a4 : Nat) (a5 : Nat) (a6 : List Nat) (s :
    State) : kept (probeSplit a0 a1 a2 a3 a4 a5 a6 s).2 = kept s := by
  induction a6 generalizing a0 a1 a2 a3 a4 a5 s <;> simp_all [probeSplit]

@[simp] theorem writeRecords_kept (a0 : CoreId) (a1 : Op) (a2 : Nat) (a3 : ProbeSt) (a4 : Bool) (a5 : Option Nat) (s : State)
    : kept (writeRecords a0 a1 a2 a3 a4 a5 s).2 = kept s := by
  simp [writeRecords]

@[simp] theorem writeSplit_kept (a0 : CoreId) (a1 : Op) (a2 : CamSt) (a3 : Nat) (a4 : Option Nat) (a5 : List (Nat × ProbeSt))
    (s : State) : kept (writeSplit a0 a1 a2 a3 a4 a5 s).2 = kept s := by
  induction a5 generalizing a0 a1 a2 a3 a4 s <;> simp_all [writeSplit]

theorem startMatchProbe_kept (a0 : CoreId) (a1 : Op) (s : State) : StartKept (startMatchProbe a0 a1 s) s := by
  simp [startMatchProbe]

end Sys2Proof.Machine
end

