-- ==== Sys2Proof/Laws/KeptHeads.lean ====
section
/-! SUPPORT. `kept` (Laws/Kept.lean) over the head engine, the block engines, the grid and calibration. -/

set_option maxRecDepth 4000
set_option exponentiation.threshold 1024

namespace Sys2Proof.Machine

open Sys2Proof

@[simp] theorem State_modCal_kept (a0 : CalSt → CalSt) (s : State) : kept (State.modCal a0 s) = kept s := by
  rfl

@[simp] theorem State_modGrid_kept (a0 : GridSt → GridSt) (s : State) : kept (State.modGrid a0 s) = kept s := by
  rfl

@[simp] theorem State_setHead_kept (a0 : HeadId) (a1 : HeadSt) (s : State) : kept (State.setHead a0 a1 s) = kept s := by
  rfl

@[simp] theorem State_modHead_kept (a0 : HeadId) (a1 : HeadSt → HeadSt) (s : State) : kept (State.modHead a0 a1 s) = kept s
    := by
  rfl

@[simp] theorem State_modSlot_kept (a0 : HeadId) (a1 : CalSlot → CalSlot) (s : State) : kept (State.modSlot a0 a1 s) = kept s
    := by
  rfl

@[simp] theorem State_setGbuf_kept (a0 : Fin 2) (a1 : GridBuf) (s : State) : kept (State.setGbuf a0 a1 s) = kept s := by
  rfl

@[simp] theorem calClose_kept (s : State) : kept (calClose s) = kept s := by
  simp [calClose]

@[simp] theorem headEnter_kept (a0 : HeadId) (a1 : Nat) (s : State) : kept (headEnter a0 a1 s) = kept s := by
  simp [headEnter]

@[simp] theorem setFails_kept (a0 : HeadId) (a1 : Nat) (s : State) : kept (setFails a0 a1 s) = kept s := by
  simp [setFails]

@[simp] theorem headDown_kept (a0 : HeadId) (s : State) : kept (headDown a0 s) = kept s := by
  simp [headDown]

@[simp] theorem portLink_kept (a0 : Idx8) (a1 : Bool) (s : State) : kept (portLink a0 a1 s) = kept s := by
  simp [portLink]

@[simp] theorem calStop_kept (s : State) : kept (calStop s) = kept s := by
  simp [calStop]

@[simp] theorem gridSwap_kept (a0 : BitVec 32) (s : State) : kept (gridSwap a0 s) = kept s := by
  simp [gridSwap]

@[simp] theorem setMine_kept (a0 : HeadId) (a1 : List Nat) (s : State) : kept (setMine a0 a1 s) = kept s := by
  simp [setMine]

@[simp] theorem calCaptured_kept (s : State) : kept (calCaptured s) = kept s := by
  simp [calCaptured]

@[simp] theorem ctlSend_kept (a0 : HeadId) (a1 : Nat) (a2 : List Nat) (s : State) : kept (ctlSend a0 a1 a2 s) = kept s := by
  simp [ctlSend]

@[simp] theorem configSend_kept (a0 : HeadId) (a1 : Nat) (s : State) : kept (configSend a0 a1 s) = kept s := by
  simp [configSend]

@[simp] theorem gridLoad_kept (s : State) : kept (gridLoad s) = kept s := by
  simp [gridLoad]

@[simp] theorem progWrite_kept (a0 : Idx8) (a1 : Nat) (a2 : Word) (s : State) : kept (progWrite a0 a1 a2 s) = kept s := by
  simp [progWrite]

@[simp] theorem calSoft_kept (a0 : HeadId) (a1 : List Nat) (s : State) : kept (calSoft a0 a1 s) = kept s := by
  simp [calSoft]

@[simp] theorem calSoftWrite_kept (a0 : HeadId) (a1 : Fin 13) (a2 : Half) (s : State) : kept (calSoftWrite a0 a1 a2 s) = kept
    s := by
  simp [calSoftWrite]

@[simp] theorem elevWrite_kept (a0 : HeadId) (a1 : BitVec 8) (a2 : Word) (s : State) : kept (elevWrite a0 a1 a2 s) = kept s
    := by
  simp [elevWrite]

@[simp] theorem calWithdraw_kept (a0 : HeadId) (s : State) : kept (calWithdraw a0 s) = kept s := by
  simp [calWithdraw]

@[simp] theorem calFreeze_kept (s : State) : kept (calFreeze s) = kept s := by
  simp [calFreeze]

@[simp] theorem histClear_kept (a0 : HeadId) (s : State) : kept (histClear a0 s) = kept s := by
  simp [histClear]

@[simp] theorem calUnfreeze_kept (s : State) : kept (calUnfreeze s) = kept s := by
  simp [calUnfreeze]

@[simp] theorem latMaxRead_kept (s : State) : kept (latMaxRead s) = kept s := by
  simp [latMaxRead]

@[simp] theorem badRecord_kept (s : State) : kept (badRecord s) = kept s := by
  simp [badRecord]

@[simp] theorem blkDrop_kept (a0 : Nat) (a1 : HeadId) (s : State) : kept (blkDrop a0 a1 s) = kept s := by
  simp [blkDrop]

@[simp] theorem blockAccept_kept (a0 : HeadId) (a1 : RxFrame) (a2 : ParsedBlock) (s : State) : kept (blockAccept a0 a1 a2 s)
    = kept s := by
  unfold blockAccept; grind [bumpN_kept, bump_kept, State_modHead_kept, kept_mk, kept_eta, StartKept, LinkKept]

@[simp] theorem gridE2e_kept (s : State) : kept (gridE2e s) = kept s := by
  simp [gridE2e]

@[simp] theorem scrubKey_kept (a0 : Fin 2) (a1 : Nat × Nat × Nat) (a2 : Nat) (s : State) : kept (scrubKey a0 a1 a2 s) = kept
    s := by
  unfold scrubKey
  extract_lets
  rw [kept_foldl]
  intro s x; dsimp only; (repeat' split) <;> simp

@[simp] theorem calOffer_kept (a0 : BitVec 128) (a1 : GridPoint) (s : State) : kept (calOffer a0 a1 s) = kept s := by
  simp [calOffer]

@[simp] theorem gridUpdate_kept (a0 : Fin 2) (a1 : Nat) (a2 : BitVec 128) (a3 : Nat × Nat × Nat) (a4 : GridPoint) (s : State)
    : kept (gridUpdate a0 a1 a2 a3 a4 s) = kept s := by
  simp [gridUpdate]

@[simp] theorem propagate_kept (a0 : Fin 2) (a1 : Nat × Nat × Nat) (a2 : Nat) (a3 : Nat) (s : State) : kept (propagate a0 a1
    a2 a3 s) = kept s := by
  induction a2 generalizing a3 s with
  | zero => rfl
  | succ n ih =>
    unfold propagate
    dsimp only
    (repeat' split) <;> simp [ih]

@[simp] theorem gridMarks_kept (a0 : Fin 2) (s : State) : kept (gridMarks a0 s) = kept s := by
  simp [gridMarks]

@[simp] theorem gridPoint_kept (a0 : Fin 2) (a1 : GridPoint) (s : State) : kept (gridPoint a0 a1 s) = kept s := by
  unfold gridPoint
  dsimp only
  split
  · simp
  · split
    · simp
    · rw [gridMarks_kept]
      (repeat' split) <;> simp

@[simp] theorem blockPoints_kept (a0 : GridBlock) (a1 : List Nat) (s : State) : kept (blockPoints a0 a1 s) = kept s := by
  simp [blockPoints]

@[simp] theorem blockTest_kept (a0 : HeadId) (a1 : RxFrame) (a2 : ParsedBlock) (s : State) : kept (blockTest a0 a1 a2 s) =
    kept s := by
  simp [blockTest]

@[simp] theorem strikeGrid_kept (a0 : List GridUpset) (s : State) : kept (strikeGrid a0 s) = kept s := by
  unfold strikeGrid
  rw [kept_foldl]
  intro s x; dsimp only; (repeat' split) <;> simp

@[simp] theorem blockTransform_kept (a0 : Nat) (a1 : List Nat) (a2 : List GridUpset) (s : State) : kept (blockTransform a0 a1
    a2 s) = kept s := by
  unfold blockTransform; (repeat' split) <;> simp_all

@[simp] theorem histDrop_kept (a0 : HeadId) (s : State) : kept (histDrop a0 s) = kept s := by
  simp [histDrop]

@[simp] theorem calPut_kept (a0 : HeadId) (a1 : List Word) (s : State) : kept (calPut a0 a1 s) = kept s := by
  simp [calPut]

@[simp] theorem calAccept_kept (a0 : HeadId) (a1 : CalEst) (s : State) : kept (calAccept a0 a1 s) = kept s := by
  simp [calAccept]

@[simp] theorem calPropose_kept (a0 : HeadId) (s : State) : kept (calPropose a0 s) = kept s := by
  simp [calPropose]

@[simp] theorem calProposal_kept (a0 : HeadId) (s : State) : kept (calProposal a0 s) = kept s := by
  simp [calProposal]

@[simp] theorem calSample_kept (a0 : List GridUpset) (s : State) : kept (calSample a0 s) = kept s := by
  unfold calSample; (repeat' split) <;> simp_all

@[simp] theorem calWrite_kept (a0 : Nat) (a1 : List Word) (s : State) : kept (calWrite a0 a1 s) = kept s := by
  simp [calWrite]

@[simp] theorem headFail_kept (a0 : HeadId) (s : State) : kept (headFail a0 s) = kept s := by
  simp [headFail]

@[simp] theorem chainDone_kept (a0 : HeadId) (s : State) : kept (chainDone a0 s) = kept s := by
  simp [chainDone]

@[simp] theorem ctlDrop_kept (a0 : HeadId) (s : State) : kept (ctlDrop a0 s) = kept s := by
  simp [ctlDrop]

@[simp] theorem ctlTake_kept (a0 : Idx8) (a1 : Nat) (a2 : HeadId → List Nat → State → State) (s : State) (hk : ∀ n l s, kept
    (a2 n l s) = kept s) : kept (ctlTake a0 a1 a2 s) = kept s := by
  unfold ctlTake; (repeat' split) <;> simp_all

@[simp] theorem echoTimeout_kept (a0 : HeadId) (s : State) : kept (echoTimeout a0 s) = kept s := by
  unfold echoTimeout; (repeat' split) <;> simp_all

@[simp] theorem gridReadLine_kept (a0 : Nat) (s : State) : kept (gridReadLine a0 s).2 = kept s := by
  simp [gridReadLine]

@[simp] theorem gridWindowRead_kept (a0 : Agent) (a1 : List GridUpset) (s : State) : kept (gridWindowRead a0 a1 s) = kept s
    := by
  unfold gridWindowRead
  split
  · rfl
  · split
    · rfl
    · rename_i m s1 h
      have hk : kept s1 = kept s := State_receive_kept _ _ _ _ _ h
      simp [hk]

@[simp] theorem handoverDone_kept (s : State) : kept (handoverDone s) = kept s := by
  simp [handoverDone]

@[simp] theorem headReplaced_kept (a0 : HeadId) (a1 : Nat) (s : State) : kept (headReplaced a0 a1 s) = kept s := by
  unfold headReplaced
  extract_lets fl s1 s2 s3
  have h3 : kept s3 = kept s := by simp only [s3, s2, s1, State_modSlot_kept, raise_kept, kept_mk, kept_eta]
  clear_value s3
  split <;> simp only [calSoft_kept, calWrite_kept, State_modHead_kept, h3]

@[simp] theorem lifePut_kept (a0 : Nat) (a1 : Option Nat) (a2 : Nat) (s : State) : kept (lifePut a0 a1 a2 s) = kept s := by
  simp [lifePut]

@[simp] theorem lifeRoom_kept (a0 : HeadId) (s : State) : kept (lifeRoom a0 s) = kept s := by
  unfold lifeRoom; grind [raise_kept, logFault_kept, kept_mk, kept_eta, StartKept, LinkKept]

@[simp] theorem lifeAccount_kept (a0 : HeadId) (a1 : Nat) (s : State) : kept (lifeAccount a0 a1 s) = kept s := by
  unfold lifeAccount; (repeat' split) <;> simp_all

@[simp] theorem headVerified_kept (a0 : HeadId) (s : State) : kept (headVerified a0 s) = kept s := by
  unfold headVerified; grind [lifeAccount_kept, State_modHead_kept, headEnter_kept, setFails_kept, headReplaced_kept, badRecord_kept, configSend_kept, kept_mk, kept_eta, StartKept, LinkKept]

@[simp] theorem healthIn_kept (a0 : HeadId) (a1 : List Nat) (s : State) : kept (healthIn a0 a1 s) = kept s := by
  simp [healthIn]

@[simp] theorem helloIn_kept (a0 : HeadId) (a1 : List Nat) (s : State) : kept (helloIn a0 a1 s) = kept s := by
  simp [helloIn]

@[simp] theorem identIn_kept (a0 : HeadId) (a1 : List Nat) (s : State) : kept (identIn a0 a1 s) = kept s := by
  simp [identIn]

@[simp] theorem identTimeout_kept (a0 : HeadId) (s : State) : kept (identTimeout a0 s) = kept s := by
  simp [identTimeout]

@[simp] theorem lifeEnd_kept (a0 : HeadId) (a1 : Nat) (a2 : Nat) (a3 : Nat) (s : State) : kept (lifeEnd a0 a1 a2 a3 s) = kept
    s := by
  unfold lifeEnd
  dsimp only
  (repeat' split) <;> simp

@[simp] theorem lifeWarn_kept (a0 : HeadId) (a1 : Nat) (a2 : Nat) (a3 : Nat) (s : State) : kept (lifeWarn a0 a1 a2 a3 s) =
    kept s := by
  unfold lifeWarn
  dsimp only
  (repeat' split) <;> simp

@[simp] theorem lifeMismatch_kept (a0 : HeadId) (a1 : Nat) (a2 : Nat) (a3 : Option Nat) (s : State) : kept (lifeMismatch a0
    a1 a2 a3 s) = kept s := by
  unfold lifeMismatch
  dsimp only
  split <;> simp

@[simp] theorem lifeJudge_kept (a0 : HeadId) (s : State) : kept (lifeJudge a0 s) = kept s := by
  unfold lifeJudge
  dsimp only
  (repeat' split) <;> simp

@[simp] theorem lifeIn_kept (a0 : HeadId) (a1 : List Nat) (s : State) : kept (lifeIn a0 a1 s) = kept s := by
  simp [lifeIn]

@[simp] theorem lifeWrite_kept (a0 : HeadId) (a1 : Bool) (s : State) : kept (lifeWrite a0 a1 s) = kept s := by
  unfold lifeWrite; grind [State_modHead_kept, lifePut_kept, kept_mk, kept_eta, StartKept, LinkKept]

@[simp] theorem ontimeTick_kept (s : State) : kept (ontimeTick s) = kept s := by
  unfold ontimeTick
  split
  · rfl
  · extract_lets s1
    rw [kept_foldl]
    · simp [s1]
    · intro s x; split <;> simp

@[simp] theorem pointBlock_kept (a0 : Idx8) (s : State) : kept (pointBlock a0 s) = kept s := by
  unfold pointBlock; grind [State_modIngest_kept, bump_kept, blkDrop_kept, blockTest_kept, kept_mk, kept_eta, StartKept, LinkKept]

@[simp] theorem rateChange_kept (a0 : Idx8) (a1 : Nat) (s : State) : kept (rateChange a0 a1 s) = kept s := by
  unfold rateChange; (repeat' split) <;> simp_all

@[simp] theorem responseIn_kept (a0 : HeadId) (a1 : List Nat) (s : State) : kept (responseIn a0 a1 s) = kept s := by
  unfold responseIn; grind [headVerified_kept, headFail_kept, kept_mk, kept_eta, StartKept, LinkKept]

@[simp] theorem responseTimeout_kept (a0 : HeadId) (s : State) : kept (responseTimeout a0 s) = kept s := by
  simp [responseTimeout]

@[simp] theorem scanSync_kept (a0 : HeadId) (a1 : Nat) (a2 : Nat) (a3 : Nat) (s : State) : kept (scanSync a0 a1 a2 a3 s) =
    kept s := by
  simp [scanSync]

end Sys2Proof.Machine
end

