-- ==== Sys2Proof/Laws/KeptCores.lean ====
section
/-! SUPPORT. `kept` (Laws/Kept.lean) over scatter, select, the scalar path, the issue sequencer and the remote operations. -/

set_option maxRecDepth 4000
set_option exponentiation.threshold 1024

namespace Sys2Proof.Machine

open Sys2Proof

@[simp] theorem frameEntry_kept (a0 : CoreId) (a1 : Bool) (s : State) : kept (frameEntry a0 a1 s) = kept s := by
  simp [frameEntry]

@[simp] theorem sendGateCounts_kept (a0 : CoreId) (s : State) : kept (sendGateCounts a0 s) = kept s := by
  simp [sendGateCounts]

@[simp] theorem restorePool_kept (a0 : CoreId) (a1 : Nat) (s : State) : kept (restorePool a0 a1 s) = kept s := by
  simp [restorePool]

@[simp] theorem seqTrap_kept (a0 : CoreId) (a1 : Nat) (a2 : Nat) (a3 : Word) (s : State) : kept (seqTrap a0 a1 a2 a3 s) =
    kept s := by
  simp [seqTrap]

@[simp] theorem activeTrap_kept (a0 : CoreId) (a1 : Nat) (a2 : Nat) (s : State) : kept (activeTrap a0 a1 a2 s) = kept s := by
  unfold activeTrap; (repeat' split) <;> simp_all

@[simp] theorem addGateStat_kept (a0 : Nat) (a1 : Nat) (a2 : Nat) (a3 : Nat) (s : State) : kept (addGateStat a0 a1 a2 a3 s) =
    kept s := by
  simp [addGateStat]

@[simp] theorem addSignal_kept (a0 : CoreId) (a1 : Nat) (a2 : Nat) (a3 : Nat) (a4 : Nat) (s : State) : kept (addSignal a0 a1
    a2 a3 a4 s).2 = kept s := by
  unfold addSignal; grind [bumpC_kept, State_setCore_kept, kept_mk, kept_eta, StartKept, LinkKept]

@[simp] theorem answered_kept (a0 : CoreId) (a1 : Nat) (s : State) : kept (answered a0 a1 s) = kept s := by
  simp [answered]

@[simp] theorem applySignal_kept (a0 : CoreId) (a1 : Nat) (a2 : Nat) (a3 : Nat) (a4 : Nat) (s : State) : kept (applySignal a0
    a1 a2 a3 a4 s) = kept s := by
  simp [applySignal]

@[simp] theorem applyWrite_kept (a0 : Agent) (a1 : CoreId) (s : State) : kept (applyWrite a0 a1 s) = kept s := by
  unfold applyWrite
  split
  · rfl
  · rename_i m s1 h
    have hk : kept s1 = kept s := State_receive_kept _ _ _ _ _ h
    (repeat' split) <;> simp [hk]

@[simp] theorem complete_kept (a0 : CoreId) (s : State) : kept (complete a0 s) = kept s := by
  simp [complete]

@[simp] theorem pushLoop_kept (a0 : CoreId) (a1 : Nat) (a2 : Nat) (a3 : Nat) (a4 : Nat) (a5 : Word) (s : State) : kept
    (pushLoop a0 a1 a2 a3 a4 a5 s) = kept s := by
  simp [pushLoop]

@[simp] theorem control_kept (a0 : CoreId) (a1 : Mn) (a2 : Word) (s : State) : kept (control a0 a1 a2 s) = kept s := by
  unfold control; grind [State_modCore_kept, seqTrap_kept, pushLoop_kept, kept_mk, kept_eta, StartKept, LinkKept]

@[simp] theorem resumeTodo_kept (a0 : CoreId) (a1 : List Active) (s : State) : kept (resumeTodo a0 a1 s) = kept s := by
  induction a1 generalizing s with
  | nil => rfl
  | cons a r ih =>
    unfold resumeTodo
    dsimp only
    (repeat' split) <;> simp [ih]

theorem startAlu_kept (a0 : CoreId) (a1 : Op) (s : State) : StartKept (startAlu a0 a1 s) s := by
  simp [startAlu]

theorem startAlui_kept (a0 : CoreId) (a1 : Op) (s : State) : StartKept (startAlui a0 a1 s) s := by
  simp [startAlui]

theorem startLi_kept (a0 : CoreId) (a1 : Op) (s : State) : StartKept (startLi a0 a1 s) s := by
  simp [startLi]

theorem startLui_kept (a0 : CoreId) (a1 : Op) (s : State) : StartKept (startLui a0 a1 s) s := by
  simp [startLui]

theorem startCmp_kept (a0 : CoreId) (a1 : Op) (s : State) : StartKept (startCmp a0 a1 s) s := by
  simp [startCmp]

theorem startCmpi_kept (a0 : CoreId) (a1 : Op) (s : State) : StartKept (startCmpi a0 a1 s) s := by
  simp [startCmpi]

theorem startPlog_kept (a0 : CoreId) (a1 : Op) (s : State) : StartKept (startPlog a0 a1 s) s := by
  simp [startPlog]

theorem startLd_kept (a0 : CoreId) (a1 : Op) (s : State) : StartKept (startLd a0 a1 s) s := by
  simp [startLd]

theorem startSt_kept (a0 : CoreId) (a1 : Op) (s : State) : StartKept (startSt a0 a1 s) s := by
  simp [startSt]

theorem startRds_kept (a0 : CoreId) (a1 : Op) (s : State) : StartKept (startRds a0 a1 s) s := by
  unfold startRds
  (repeat' split) <;> simp

theorem startWrs_kept (a0 : CoreId) (a1 : Op) (s : State) : StartKept (startWrs a0 a1 s) s := by
  simp [startWrs]

theorem startCommit_kept (a0 : CoreId) (a1 : Op) (s : State) : StartKept (startCommit a0 a1 s) s := by
  simp [startCommit]

theorem startTrap_kept (a0 : CoreId) (a1 : Op) (s : State) : StartKept (startTrap a0 a1 s) s := by
  simp [startTrap]

theorem startWait_kept (a0 : CoreId) (a1 : Op) (s : State) : StartKept (startWait a0 a1 s) s := by
  simp [startWait]

theorem selfSignal_kept (a0 : CoreId) (a1 : Op) (s : State) : StartKept (selfSignal a0 a1 s) s := by
  simp [selfSignal]

theorem startSig_kept (a0 : CoreId) (a1 : Op) (s : State) : StartKept (startSig a0 a1 s) s := by
  unfold startSig
  split
  · trivial
  · exact selfSignal_kept _ _ _

theorem startSigr_kept (a0 : CoreId) (a1 : Op) (s : State) : StartKept (startSigr a0 a1 s) s := by
  unfold startSigr
  extract_lets k st l x y
  split
  · trivial
  · split
    · have h1 := transmit1_kept { kind := .signal, src := .core a0, dst := .dev x y l, seq := a1.seq, slot := k.slot, idx := iT a1.w0, k := iN a1.w0, stamp := st } s
      have h2 := transmit_kept { kind := .signal, src := .core a0, dst := .dev x y l, seq := a1.seq, slot := k.slot, idx := iT a1.w0, k := iN a1.w0, stamp := st } s
      split <;> rename_i h <;> rw [h] at h1 h2
      · exact h1 _ rfl
      · exact h2
    · (repeat' split) <;> simp [selfSignal_kept]

theorem startNop_kept (a0 : CoreId) (a1 : Op) (s : State) : StartKept (startNop a0 a1 s) s := by
  simp [startNop]

theorem startScaInit_kept (a0 : CoreId) (a1 : Op) (s : State) : StartKept (startScaInit a0 a1 s) s := by
  simp [startScaInit]

@[simp] theorem scaSpill_kept (a0 : CoreId) (a1 : Op) (a2 : List DLine) (a3 : ScaRun) (s : State) : kept (scaSpill a0 a1 a2
    a3 s).2 = kept s := by
  unfold scaSpill
  extract_lets k pos total base t msgs
  split
  · rfl
  · split
    · rfl
    · simp

@[simp] theorem scaPair_kept (a0 : CoreId) (a1 : Op) (a2 : List DLine) (a3 : ScaRun) (s : State) : kept (scaPair a0 a1 a2 a3
    s).2 = kept s := by
  unfold scaPair
  extract_lets sca w key s1 s2 r1 lanes
  split
  · simp
  · split
    · rfl
    · have h2 : kept s2 = kept s := by simp only [s2]; split <;> simp [s1]
      clear_value s2 lanes r1 w sca
      split
      · dsimp only; split <;> simp [h2]
      · split <;> simp [h2]

@[simp] theorem scaPairs_kept (a0 : CoreId) (a1 : Op) (a2 : Nat) (a3 : Nat) (a4 : ScaRun) (s : State) : kept (scaPairs a0 a1
    a2 a3 a4 s).2 = kept s := by
  induction a2 generalizing a3 a4 s with
  | zero => rfl
  | succ n ih =>
    unfold scaPairs
    dsimp only
    (repeat' split) <;> simp [ih]

theorem startScaAdd_kept (a0 : CoreId) (a1 : Op) (s : State) : StartKept (startScaAdd a0 a1 s) s := by
  unfold startScaAdd
  extract_lets sca n t r
  have hr : kept r.2 = kept s := scaPairs_kept _ _ _ _ _ _
  clear_value r
  (repeat' split) <;> simp [hr]

theorem startScaDrain_kept (a0 : CoreId) (a1 : Op) (s : State) : StartKept (startScaDrain a0 a1 s) s := by
  simp [startScaDrain]

theorem startTopk_kept (a0 : CoreId) (a1 : Op) (s : State) : StartKept (startTopk a0 a1 s) s := by
  simp [startTopk]

theorem startMerge_kept (a0 : CoreId) (a1 : Op) (s : State) : StartKept (startMerge a0 a1 s) s := by
  simp [startMerge]

theorem startOp_kept (a0 : CoreId) (a1 : Op) (s : State) : StartKept (startOp a0 a1 s) s := by
  cases h : a1.mn
  · simp only [startOp, h]; exact startAlu_kept _ _ _
  · simp only [startOp, h]; exact startAlui_kept _ _ _
  · simp only [startOp, h]; exact startLi_kept _ _ _
  · simp only [startOp, h]; exact startLui_kept _ _ _
  · simp only [startOp, h]; exact startCmp_kept _ _ _
  · simp only [startOp, h]; exact startCmpi_kept _ _ _
  · simp only [startOp, h]; exact startPlog_kept _ _ _
  · simp only [startOp, h]; exact startLd_kept _ _ _
  · simp only [startOp, h]; exact startSt_kept _ _ _
  · simp only [startOp, h]; exact startRds_kept _ _ _
  · simp only [startOp, h]; exact startWrs_kept _ _ _
  · simp only [startOp, h]; exact rfl
  · simp only [startOp, h]; exact rfl
  · simp only [startOp, h]; exact rfl
  · simp only [startOp, h]; exact rfl
  · simp only [startOp, h]; exact rfl
  · simp only [startOp, h]; exact rfl
  · simp only [startOp, h]; exact rfl
  · simp only [startOp, h]; exact rfl
  · simp only [startOp, h]; exact startCommit_kept _ _ _
  · simp only [startOp, h]; exact startTrap_kept _ _ _
  · simp only [startOp, h]; exact startWait_kept _ _ _
  · simp only [startOp, h]; exact startSig_kept _ _ _
  · simp only [startOp, h]; exact startSigr_kept _ _ _
  · simp only [startOp, h]; exact startNop_kept _ _ _
  · simp only [startOp, h]; exact startCopy_kept _ _ _
  · simp only [startOp, h]; exact startGet_kept _ _ _
  · simp only [startOp, h]; exact startGetx_kept _ _ _
  · simp only [startOp, h]; exact startPut_kept _ _ _
  · simp only [startOp, h]; exact startFetch_kept _ _ _
  · simp only [startOp, h]; exact startStore_kept _ _ _
  · simp only [startOp, h]; exact startStoreRing_kept _ _ _
  · simp only [startOp, h]; exact startGather_kept _ _ _
  · simp only [startOp, h]; exact startCreditReq_kept _ _ _
  · simp only [startOp, h]; exact startCreditRet_kept _ _ _
  · simp only [startOp, h]; exact startWload_kept _ _ _
  · simp only [startOp, h]; exact startMm_kept _ _ _
  · simp only [startOp, h]; exact startMmg_kept _ _ _
  · simp only [startOp, h]; exact startMms_kept _ _ _
  · simp only [startOp, h]; exact startMmp_kept _ _ _
  · simp only [startOp, h]; exact startAccInit_kept _ _ _
  · simp only [startOp, h]; exact startAccDrain_kept _ _ _
  · simp only [startOp, h]; exact startPart_kept _ _ _
  · simp only [startOp, h]; exact startVld_kept _ _ _
  · simp only [startOp, h]; exact startVst_kept _ _ _
  · simp only [startOp, h]; exact startValu_kept _ _ _
  · simp only [startOp, h]; exact startVfma_kept _ _ _
  · simp only [startOp, h]; exact startVsf_kept _ _ _
  · simp only [startOp, h]; exact startVcvt_kept _ _ _
  · simp only [startOp, h]; exact startVred_kept _ _ _
  · simp only [startOp, h]; exact startVbcast_kept _ _ _
  · simp only [startOp, h]; exact startVext_kept _ _ _
  · simp only [startOp, h]; exact startArgmax_kept _ _ _
  · simp only [startOp, h]; exact startPredGate_kept _ _ _
  · simp only [startOp, h]; exact startPack_kept _ _ _
  · simp only [startOp, h]; exact startMatchLoad_kept _ _ _
  · simp only [startOp, h]; exact startMatchProbe_kept _ _ _
  · simp only [startOp, h]; exact startScaInit_kept _ _ _
  · simp only [startOp, h]; exact startScaAdd_kept _ _ _
  · simp only [startOp, h]; exact startScaDrain_kept _ _ _
  · simp only [startOp, h]; exact startTopk_kept _ _ _
  · simp only [startOp, h]; exact startMerge_kept _ _ _

theorem startHead_kept (a0 : CoreId) (a1 : Nat) (s : State) (r : State) (hr : (startHead a0 a1 s) = some r) : kept r = kept s
    := by
  unfold startHead at hr
  extract_lets k at hr
  split at hr
  · cases hr
  · split at hr
    · cases hr
    · split at hr
      · cases hr
      · rename_i o rest _ _
        have h := startOp_kept a0 o s
        extract_lets pop at hr
        have hp : ∀ t, kept (pop t) = kept t := fun t => State_modCore_kept _ _ _
        clear_value pop
        generalize startOp a0 o s = x at h hr
        cases x <;> simp at hr <;> subst hr <;> simp_all

theorem pumpPass_kept (a0 : CoreId) (a1 : List Nat) (s : State) (r : State) (hr : (pumpPass a0 a1 s) = some r) : kept r =
    kept s := by
  induction a1 generalizing s r with
  | nil => cases hr
  | cons q qs ih =>
    unfold pumpPass at hr
    split at hr
    · exact ih _ _ hr
    · rename_i t h
      have h1 := startHead_kept _ _ _ _ h
      cases hr
      cases hp : pumpPass a0 qs t with
      | none => exact h1
      | some u => exact (ih _ _ hp).trans h1

@[simp] theorem pumpN_kept (a0 : CoreId) (a1 : Nat) (s : State) : kept (pumpN a0 a1 s) = kept s := by
  induction a1 generalizing s with
  | zero => rfl
  | succ n ih =>
    unfold pumpN
    split
    · rename_i t h
      rw [ih, pumpPass_kept _ _ _ _ h]
    · rfl

@[simp] theorem pump_kept (a0 : CoreId) (s : State) : kept (pump a0 s) = kept s := by
  simp [pump]

@[simp] theorem settle_kept (a0 : CoreId) (s : State) : kept (settle a0 s) = kept s := by
  simp [settle]

@[simp] theorem takeCreditAns_kept (a0 : CoreId) (a1 : Agent) (a2 : List LineErr) (s : State) : kept (takeCreditAns a0 a1 a2
    s) = kept s := by
  unfold takeCreditAns
  split
  · rfl
  · rename_i m s1 h
    have hk : kept s1 = kept s := State_receive_kept _ _ _ _ _ h
    dsimp only
    (repeat' split) <;> first | simp [hk] | (split <;> simp [hk])

@[simp] theorem fetchAhead_kept (a0 : CoreId) (a1 : Nat) (a2 : Nat) (s : State) : kept (fetchAhead a0 a1 a2 s) = kept s := by
  simp [fetchAhead]

@[simp] theorem fetchWord_kept (a0 : CoreId) (s : State) : kept (fetchWord a0 s).2 = kept s := by
  unfold fetchWord
  extract_lets k sh l t s1 r s2
  have h1 : kept s1 = kept s := by simp only [s1]; split <;> simp
  have h2 : kept s2 = kept s := by simp [s2, r, h1]
  clear_value s2 r s1
  (repeat' split) <;> simp [h2]

@[simp] theorem frameWaitReturn_kept (a0 : CoreId) (a1 : List LineErr) (s : State) : kept (frameWaitReturn a0 a1 s) = kept s
    := by
  unfold frameWaitReturn
  extract_lets s1 ovf s2
  have h1 : kept s1 = kept s := by simp [s1]
  clear_value ovf s1
  split
  · extract_lets s3
    have h3 : kept s3 = kept s := by simp only [s3, s2, wrS_kept, State_modCore_kept, h1]
    clear_value s3
    (repeat' split) <;> simp only [coreTrap_kept, h1, h3]
  · exact h1

@[simp] theorem grantHead_kept (a0 : CoreId) (a1 : Nat) (s : State) : kept (grantHead a0 a1 s) = kept s := by
  unfold grantHead; grind [post_kept, State_modCore_kept, kept_mk, kept_eta, StartKept, LinkKept]

@[simp] theorem issueMnemonic_kept (a0 : CoreId) (a1 : Mn) (a2 : Word) (a3 : Word) (s : State) : kept (issueMnemonic a0 a1 a2
    a3 s) = kept s := by
  simp [issueMnemonic]

@[simp] theorem issueStep_kept (a0 : CoreId) (a1 : List LineErr) (a2 : Option Mn) (s : State) : kept (issueStep a0 a1 a2 s) =
    kept s := by
  unfold issueStep; grind [pump_kept, strike_kept, fetchWord_kept, seqTrap_kept, bumpC_kept, State_modCore_kept, issueMnemonic_kept, kept_mk, kept_eta, StartKept, LinkKept]

@[simp] theorem qwaitRelease_kept (a0 : CoreId) (a1 : List LineErr) (s : State) : kept (qwaitRelease a0 a1 s) = kept s := by
  unfold qwaitRelease; grind [pump_kept, strike_kept, State_modCore_kept, kept_mk, kept_eta, StartKept, LinkKept]

@[simp] theorem refuseWaiting_kept (a0 : CoreId) (a1 : Nat) (a2 : Nat) (s : State) : kept (refuseWaiting a0 a1 a2 s) = kept s
    := by
  unfold refuseWaiting; grind [post_kept, bumpC_kept, State_modCore_kept, kept_mk, kept_eta, StartKept, LinkKept]

@[simp] theorem smuPoison_kept (a0 : Bool) (s : State) : kept (smuPoison a0 s) = kept s := by
  simp [smuPoison]

@[simp] theorem resolveMerge_kept (a0 : CoreId) (a1 : Op) (a2 : List DLine) (s : State) : kept (resolveMerge a0 a1 a2 s).2 =
    kept s := by
  unfold resolveMerge; grind [bump_kept, bumpN_kept, shelfWriteN_kept, smuPoison_kept, kept_mk, kept_eta, StartKept, LinkKept]

@[simp] theorem resolveTopk_kept (a0 : CoreId) (a1 : Op) (a2 : Nat) (a3 : List DLine) (s : State) : kept (resolveTopk a0 a1
    a2 a3 s).2 = kept s := by
  unfold resolveTopk; grind [readEls_kept, bumpN_kept, bump_kept, shelfWriteN_kept, smuPoison_kept, kept_mk, kept_eta, StartKept, LinkKept]

@[simp] theorem serveRead_kept (a0 : Agent) (a1 : CoreId) (a2 : List LineErr) (s : State) : kept (serveRead a0 a1 a2 s) =
    kept s := by
  unfold serveRead
  split
  · rfl
  · rename_i m s1 h
    have hk : kept s1 = kept s := State_receive_kept _ _ _ _ _ h
    dsimp only
    (repeat' split) <;> simp [hk]

@[simp] theorem smuLines_kept (a0 : CoreId) (a1 : Op) (a2 : Nat) (s : State) : kept (smuLines a0 a1 a2
    s).2.2 = kept s := by
  simp [smuLines]

@[simp] theorem takeCreditReq_kept (a0 : Agent) (a1 : CoreId) (s : State) : kept (takeCreditReq a0 a1 s) = kept s := by
  unfold takeCreditReq
  split
  · rfl
  · rename_i m s1 h
    have hk : kept s1 = kept s := State_receive_kept _ _ _ _ _ h
    dsimp only
    (repeat' split) <;> simp [hk]

@[simp] theorem takeGateReport_kept (a0 : CoreId) (a1 : Nat) (s : State) : kept (takeGateReport a0 a1 s) = kept s := by
  induction a1 generalizing s with
  | zero => rfl
  | succ n ih =>
    unfold takeGateReport
    split
    · rfl
    · rename_i m s1 h
      have hk : kept s1 = kept s := State_receive_kept _ _ _ _ _ h
      rw [ih]; simp [hk]

@[simp] theorem takeReadRsp_kept (a0 : Agent) (a1 : CoreId) (a2 : List LineErr) (s : State) : kept (takeReadRsp a0 a1 a2 s) =
    kept s := by
  unfold takeReadRsp
  split
  · rfl
  · rename_i m s1 h
    have hk : kept s1 = kept s := State_receive_kept _ _ _ _ _ h
    dsimp only
    (repeat' split) <;> first | simp [hk] | (split <;> simp [hk])

@[simp] theorem takeSignal_kept (a0 : Agent) (a1 : CoreId) (s : State) : kept (takeSignal a0 a1 s) = kept s := by
  unfold takeSignal
  split
  · rfl
  · rename_i m s1 h
    have hk : kept s1 = kept s := State_receive_kept _ _ _ _ _ h
    simp [hk]

@[simp] theorem takeWriteAck_kept (a0 : Agent) (a1 : CoreId) (a2 : List LineErr) (s : State) : kept (takeWriteAck a0 a1 a2 s)
    = kept s := by
  unfold takeWriteAck
  split
  · rfl
  · rename_i m s1 h
    have hk : kept s1 = kept s := State_receive_kept _ _ _ _ _ h
    dsimp only
    (repeat' split) <;> first | simp [hk] | (split <;> simp [hk])

end Sys2Proof.Machine
end

