-- ==== Sys2Proof/Laws/KeptBlocks.lean ====
section
/-! SUPPORT. `kept` (Laws/Kept.lean) over links, mailboxes, rulebooks, memory, the map store and frames. -/

set_option maxRecDepth 4000
set_option exponentiation.threshold 1024

namespace Sys2Proof.Machine

open Sys2Proof

@[simp] theorem State_modLink_kept (a0 : Idx4) (a1 : LinkPort → LinkPort) (s : State) : kept (State.modLink a0 a1 s) = kept s
    := by
  rfl

@[simp] theorem State_modMap_kept (a0 : MapSt → MapSt) (s : State) : kept (State.modMap a0 s) = kept s := by
  rfl

@[simp] theorem State_modMem_kept (a0 : MemSt → MemSt) (s : State) : kept (State.modMem a0 s) = kept s := by
  rfl

@[simp] theorem State_modRb_kept (a0 : RbSt → RbSt) (s : State) : kept (State.modRb a0 s) = kept s := by
  rfl

theorem sysTake_kept (a0 : MsgKind) (s : State) (r : Msg × State) (hr : (sysTake a0 s) = some r) : kept r.2 = kept s := by
  unfold sysTake at hr
  obtain ⟨x, _, rfl⟩ := Option.map_eq_some_iff.1 hr
  rfl

@[simp] theorem frameEnd_kept (a0 : Nat) (a1 : BitVec 32) (s : State) : kept (frameEnd a0 a1 s) = kept s := by
  simp [frameEnd]

@[simp] theorem loftBegin_kept (a0 : CoreId) (s : State) : kept (loftBegin a0 s) = kept s := by
  simp [loftBegin]

@[simp] theorem abortCore_kept (a0 : CoreId) (s : State) : kept (abortCore a0 s) = kept s := by
  simp [abortCore]

@[simp] theorem restorePools_kept (a0 : Nat) (s : State) : kept (restorePools a0 s) = kept s := by
  simp [restorePools]

@[simp] theorem mapAbort_kept (a0 : Nat) (s : State) : kept (mapAbort a0 s) = kept s := by
  simp [mapAbort]

@[simp] theorem smuAbort_kept (a0 : List CoreId) (s : State) : kept (smuAbort a0 s) = kept s := by
  simp [smuAbort]

@[simp] theorem rbDrop_kept (a0 : Nat) (s : State) : kept (rbDrop a0 s) = kept s := by
  simp [rbDrop]

@[simp] theorem rbStop_kept (a0 : Nat) (s : State) : kept (rbStop a0 s) = kept s := by
  simp [rbStop]

@[simp] theorem ringsClear_kept (a0 : Nat) (s : State) : kept (ringsClear a0 s) = kept s := by
  simp [ringsClear]

@[simp] theorem abortFrame_kept (a0 : Nat) (a1 : BitVec 32) (a2 : Nat) (a3 : Nat) (s : State) : kept (abortFrame a0 a1 a2 a3
    s) = kept s := by
  simp [abortFrame]

@[simp] theorem forward_kept (a0 : Idx4 → Bool) (a1 : Packet) (s : State) : kept (forward a0 a1 s) = kept s := by
  unfold forward; (repeat' split) <;> simp_all

@[simp] theorem sendSys_kept (a0 : Nat) (a1 : Nat) (a2 : Nat) (a3 : Nat) (a4 : Nat) (a5 : BitVec 32) (s : State) : kept
    (sendSys a0 a1 a2 a3 a4 a5 s) = kept s := by
  simp [sendSys]

@[simp] theorem tellDevices_kept (a0 : List (Nat × Nat)) (a1 : Nat) (a2 : Nat) (a3 : Nat) (a4 : BitVec 32) (s : State) : kept
    (tellDevices a0 a1 a2 a3 a4 s) = kept s := by
  simp [tellDevices]

@[simp] theorem recordAbort_kept (a0 : Nat) (a1 : BitVec 32) (a2 : Nat) (a3 : Nat) (s : State) : kept (recordAbort a0 a1 a2
    a3 s) = kept s := by
  unfold recordAbort; (repeat' split) <;> simp_all

@[simp] theorem abortArrive_kept (s : State) : kept (abortArrive s) = kept s := by
  unfold abortArrive
  split
  · rfl
  · rename_i m s1 h
    have hk : kept s1 = kept s := sysTake_kept _ _ _ h
    (repeat' split) <;> simp [hk]

@[simp] theorem sendFences_kept (a0 : BitVec 32) (s : State) : kept (sendFences a0 s) = kept s := by
  simp [sendFences]

@[simp] theorem linkEnter_kept (a0 : Idx4) (a1 : Nat) (s : State) : kept (linkEnter a0 a1 s) = kept s := by
  simp [linkEnter]

@[simp] theorem discardPacket_kept (a0 : Packet) (s : State) : kept (discardPacket a0 s) = kept s := by
  unfold discardPacket; (repeat' split) <;> simp_all

@[simp] theorem linkStop_kept (a0 : Idx4) (a1 : Nat) (s : State) : kept (linkStop a0 a1 s) = kept s := by
  simp [linkStop]

@[simp] theorem mirrorClear_kept (a0 : Nat) (a1 : Nat) (a2 : Nat) (a3 : Nat) (s : State) : kept (mirrorClear a0 a1 a2 a3 s) =
    kept s := by
  induction a3 generalizing a0 a1 a2 s <;> simp_all [mirrorClear]

@[simp] theorem selClear_kept (a0 : Nat) (a1 : Nat) (s : State) : kept (selClear a0 a1 s) = kept s := by
  simp [selClear]

@[simp] theorem mapCaptured_kept (a0 : List (Word × Word)) (s : State) : kept (mapCaptured a0 s) = kept s := by
  simp [mapCaptured]

@[simp] theorem rbFence_kept (a0 : Nat → Option (List CoreId)) (s : State) : kept (rbFence a0 s) = kept s := by
  simp [rbFence]

@[simp] theorem safeShow_kept (s : State) : kept (safeShow s) = kept s := by
  simp [safeShow]

@[simp] theorem safeAbort_kept (a0 : Nat) (a1 : BitVec 32) (s : State) : kept (safeAbort a0 a1 s) = kept s := by
  simp [safeAbort]

@[simp] theorem safeCause_kept (a0 : Nat) (s : State) : kept (safeCause a0 s) = kept s := by
  simp [safeCause]

@[simp] theorem safeLeave_kept (s : State) : kept (safeLeave s) = kept s := by
  simp [safeLeave]

@[simp] theorem safeGone_kept (a0 : Nat) (s : State) : kept (safeGone a0 s) = kept s := by
  simp [safeGone]

@[simp] theorem rbJobWrite_kept (a0 : Nat) (a1 : Word) (s : State) : kept (rbJobWrite a0 a1 s) = kept s := by
  simp [rbJobWrite]

@[simp] theorem mapDirWrite_kept (a0 : Nat) (a1 : Bool) (a2 : Word) (s : State) : kept (mapDirWrite a0 a1 a2 s) = kept s := by
  simp [mapDirWrite]

@[simp] theorem memTrain_kept (s : State) : kept (memTrain s) = kept s := by
  simp [memTrain]

@[simp] theorem memFill_kept (s : State) : kept (memFill s) = kept s := by
  simp [memFill]

@[simp] theorem hostAbort_kept (a0 : Requester) (a1 : Nat) (s : State) : kept (hostAbort a0 a1 s) = kept s := by
  unfold hostAbort; grind [recordAbort_kept, bump_kept, kept_mk, kept_eta, StartKept, LinkKept]

@[simp] theorem mboxWordWrite_kept (a0 : Nat) (a1 : Nat) (a2 : Half) (s : State) : kept (mboxWordWrite a0 a1 a2 s) = kept s
    := by
  simp [mboxWordWrite]

@[simp] theorem mboxGo_kept (a0 : Nat) (a1 : Half) (s : State) : kept (mboxGo a0 a1 s) = kept s := by
  simp [mboxGo]

@[simp] theorem linkTrain_kept (a0 : Idx4) (s : State) : kept (linkTrain a0 s) = kept s := by
  simp [linkTrain]

@[simp] theorem linkCtrlWrite_kept (a0 : Idx4) (a1 : Word) (s : State) : kept (linkCtrlWrite a0 a1 s) = kept s := by
  simp [linkCtrlWrite]

@[simp] theorem topoWrite_kept (a0 : Half) (s : State) : kept (topoWrite a0 s) = kept s := by
  simp [topoWrite]

@[simp] theorem safeRelease_kept (a0 : Requester) (s : State) : kept (safeRelease a0 s) = kept s := by
  simp [safeRelease]

@[simp] theorem memTrained_kept (a0 : BitVec 8) (s : State) : kept (memTrained a0 s) = kept s := by
  unfold memTrained; (repeat' split) <;> simp_all

@[simp] theorem memLog_kept (a0 : Nat) (a1 : Nat) (s : State) : kept (memLog a0 a1 s) = kept s := by
  simp [memLog]

@[simp] theorem poisonStored_kept (a0 : Nat) (s : State) : kept (poisonStored a0 s) = kept s := by
  unfold poisonStored
  split <;> simp

@[simp] theorem memUe_kept (a0 : Nat) (a1 : Nat) (s : State) : kept (memUe a0 a1 s) = kept s := by
  unfold memUe
  simp

@[simp] theorem memStrike_kept (a0 : List MemErr) (s : State) : kept (memStrike a0 s) = kept s := by
  simp [memStrike]

@[simp] theorem putFrame_kept (a0 : Nat) (a1 : SlotFrame) (s : State) : kept (putFrame a0 a1 s) = kept s := by
  simp [putFrame]

@[simp] theorem writeHeader_kept (a0 : Nat) (a1 : Nat) (a2 : SlotFrame) (a3 : Nat) (a4 : Nat) (s : State) : kept (writeHeader
    a0 a1 a2 a3 a4 s) = kept s := by
  simp [writeHeader]

@[simp] theorem pubFree_kept (s : State) : kept (pubFree s) = kept s := by
  simp [pubFree]

@[simp] theorem pubCommit_kept (a0 : Nat) (a1 : SlotFrame) (s : State) : kept (pubCommit a0 a1 s) = kept s := by
  simp [pubCommit]

@[simp] theorem ringsCommit_kept (a0 : Nat) (a1 : SlotFrame) (s : State) : kept (ringsCommit a0 a1 s) = kept s := by
  simp [ringsCommit]

@[simp] theorem roleExchange_kept (a0 : CoreId) (s : State) : kept (roleExchange a0 s) = kept s := by
  simp [roleExchange]

@[simp] theorem commitPoint_kept (a0 : Nat) (a1 : SlotFrame) (s : State) : kept (commitPoint a0 a1 s) = kept s := by
  simp [commitPoint]

@[simp] theorem decide__kept (a0 : Nat) (a1 : SlotFrame) (s : State) : kept (decide_ a0 a1 s) = kept s := by
  simp [decide_]

@[simp] theorem localReady_kept (a0 : Nat) (a1 : SlotFrame) (s : State) : kept (localReady a0 a1 s) = kept s := by
  simp [localReady]

@[simp] theorem commitArrive_kept (a0 : CoreId) (s : State) : kept (commitArrive a0 s) = kept s := by
  unfold commitArrive
  split
  · rfl
  · rename_i m s1 h
    have hk : kept s1 = kept s := State_receive_kept _ _ _ _ _ h
    (repeat' split) <;> simp [hk]

@[simp] theorem rbPut_kept (a0 : RbRun) (s : State) : kept (rbPut a0 s) = kept s := by
  simp [rbPut]

@[simp] theorem rbCredit_kept (a0 : CoreId) (s : State) : kept (rbCredit a0 s) = kept s := by
  unfold rbCredit
  split
  · rfl
  · rename_i m s1 h
    have hk : kept s1 = kept s := State_receive_kept _ _ _ _ _ h
    (repeat' split) <;> simp [hk]

@[simp] theorem deadline_kept (a0 : Nat) (s : State) : kept (deadline a0 s) = kept s := by
  unfold deadline; (repeat' split) <;> simp_all

@[simp] theorem decisionArrive_kept (s : State) : kept (decisionArrive s) = kept s := by
  unfold decisionArrive
  split
  · rfl
  · rename_i m s1 h
    have hk : kept s1 = kept s := sysTake_kept _ _ _ h
    (repeat' split) <;> simp [hk]

@[simp] theorem refusePacket_kept (a0 : Nat) (a1 : Packet) (s : State) : kept (refusePacket a0 a1 s) = kept s := by
  simp [refusePacket]

@[simp] theorem deliverAt_kept (a0 : Packet) (a1 : Nat) (s : State) : kept (deliverAt a0 a1 s) = kept s := by
  have hm : ∀ (l : List (Line × Nat)) (f : Line × Nat → Msg) (t : State), kept (l.foldl (fun t e => t.send (f e)) t) = kept t := by
    intro l f t; rw [kept_foldl]; intro t e; simp
  unfold deliverAt
  generalize regionOf s a1 = g
  extract_lets m
  split
  · cases g with
    | spad =>
      cases coreOf ((a1 - 0x1000000000) / 0x1000000) with
      | none => exact refusePacket_kept _ _ _
      | some c => exact State_send_kept _ _
    | _ => first | exact refusePacket_kept _ _ _ | exact State_send_kept _ _
  · split
    · cases g with
      | lpddr => exact hm _ _ _
      | _ => exact refusePacket_kept _ _ _
    · rfl

@[simp] theorem deliver_kept (a0 : Idx4) (a1 : Packet) (s : State) : kept (deliver a0 a1 s) = kept s := by
  unfold deliver; (repeat' split) <;> simp_all

@[simp] theorem memDeep_kept (a0 : Nat) (s : State) : kept (memDeep a0 s) = kept s := by
  simp [memDeep]

@[simp] theorem flipsRetire_kept (s : State) : kept (flipsRetire s) = kept s := by
  simp [flipsRetire]

@[simp] theorem sendBare_kept (a0 : Idx4) (a1 : Nat) (s : State) : kept (sendBare a0 a1 s) = kept s := by
  simp [sendBare]

@[simp] theorem linkBad_kept (a0 : Idx4) (s : State) : kept (linkBad a0 s) = kept s := by
  simp [linkBad]

@[simp] theorem linkFail_kept (a0 : Idx4) (s : State) : kept (linkFail a0 s) = kept s := by
  simp [linkFail]

@[simp] theorem linkReplay_kept (a0 : Idx4) (a1 : Nat) (s : State) : kept (linkReplay a0 a1 s) = kept s := by
  simp [linkReplay]

@[simp] theorem takePacket_kept (a0 : Idx4) (a1 : Packet) (s : State) : kept (takePacket a0 a1 s) = kept s := by
  unfold takePacket; grind [State_modLink_kept, deliver_kept, linkQueue_kept, discardPacket_kept, kept_mk, kept_eta, StartKept, LinkKept]

@[simp] theorem flitReceive_kept (a0 : Idx4) (a1 : Flit) (s : State) : kept (flitReceive a0 a1 s) = kept s := by
  simp [flitReceive]

@[simp] theorem mboxPut_kept (a0 : Nat) (a1 : List Nat) (s : State) : kept (mboxPut a0 a1 s) = kept s := by
  simp [mboxPut]

@[simp] theorem linkTrained_kept (a0 : Idx4) (a1 : Bool) (a2 : Nat) (a3 : Nat) (a4 : Nat) (s : State) : kept (linkTrained a0
    a1 a2 a3 a4 s) = kept s := by
  simp [linkTrained]

@[simp] theorem loftCopied_kept (a0 : CoreId) (s : State) : kept (loftCopied a0 s) = kept s := by
  simp [loftCopied]

@[simp] theorem mapWrite_kept (a0 : MapCtx) (a1 : Op) (a2 : List (Option Nat)) (a3 : Nat) (a4 : Nat) (s : State) : kept
    (mapWrite a0 a1 a2 a3 a4 s) = kept s := by
  induction a3 generalizing a0 a1 a2 a4 s <;> simp_all [mapWrite]

@[simp] theorem mapFinish_kept (a0 : MapCtx) (s : State) : kept (mapFinish a0 s) = kept s := by
  unfold mapFinish; grind [State_modMap_kept, mapWrite_kept, activeTrap_kept, settle_kept, answered_kept, bump_kept, kept_mk, kept_eta, StartKept, LinkKept]

@[simp] theorem mapIssue_kept (a0 : Nat) (s : State) : kept (mapIssue a0 s) = kept s := by
  fun_induction mapIssue <;> simp_all

@[simp] theorem mapKick_kept (s : State) : kept (mapKick s) = kept s := by
  simp [mapKick]

@[simp] theorem mapReturn_kept (a0 : Nat) (a1 : Nat) (a2 : List MemErr) (s : State) : kept (mapReturn a0 a1 a2 s) = kept s :=
    by
  unfold mapReturn
  split
  · rfl
  · split
    · rfl
    · extract_lets a r k s1 s2 s3
      have h2 : kept s2 = kept s := by simp only [s2, s1]; split <;> simp [r]
      have h3 : kept s3 = kept s := by simp [s3, h2]
      clear_value s3
      (repeat' split) <;> simp [h3]

@[simp] theorem mapWords_kept (a0 : CoreId) (a1 : Nat) (a2 : Nat) (a3 : Nat) (s : State) : kept (mapWords a0 a1 a2 a3
    s).2.2.2 = kept s := by
  simp [mapWords]

@[simp] theorem mapTake_kept (a0 : CoreId) (a1 : Op) (a2 : Nat) (s : State) : kept (mapTake a0 a1 a2 s) = kept s := by
  simp [mapTake]

@[simp] theorem mapStart_kept (a0 : List LineErr) (s : State) : kept (mapStart a0 s) = kept s := by
  unfold mapStart
  split
  · rfl
  · extract_lets ready
    split
    · rfl
    · rename_i m rest _
      extract_lets s1
      have h1 : kept s1 = kept s := by simp [s1]
      clear_value s1
      split <;> simp [h1]

@[simp] theorem updAdvance_kept (a0 : Nat) (a1 : Nat) (s : State) : kept (updAdvance a0 a1 s) = kept s := by
  simp [updAdvance]

@[simp] theorem updStart_kept (a0 : Nat) (a1 : Nat) (a2 : Nat) (s : State) : kept (updStart a0 a1 a2 s) = kept s := by
  simp [updStart]

@[simp] theorem updWrite_kept (a0 : Nat) (a1 : Nat) (a2 : Nat) (a3 : UpdJob) (s : State) : kept (updWrite a0 a1 a2 a3 s) =
    kept s := by
  simp [updWrite]

@[simp] theorem selPut_kept (a0 : Nat) (a1 : Bool) (s : State) : kept (selPut a0 a1 s) = kept s := by
  simp [selPut]

@[simp] theorem updFlip_kept (a0 : Nat) (a1 : Nat) (a2 : UpdJob) (s : State) : kept (updFlip a0 a1 a2 s) = kept s := by
  simp [updFlip]

@[simp] theorem mapUpdate_kept (a0 : Nat) (a1 : List MemErr) (s : State) : kept (mapUpdate a0 a1 s) = kept s := by
  unfold mapUpdate
  split
  · rfl
  · extract_lets h s1 s2 s3
    have h1 : kept s1 = kept s := by simp [s1]
    have h2 : kept s2 = kept s := by simp only [s2]; split <;> simp [h1]
    have h3 : kept s3 = kept s := by simp only [s3]; (repeat' split) <;> simp [h2]
    clear_value s3 s2 s1
    (repeat' split) <;> simp [h3]

@[simp] theorem mboxAnswer_kept (a0 : Nat) (a1 : Nat) (a2 : List Nat) (s : State) : kept (mboxAnswer a0 a1 a2 s) = kept s :=
    by
  unfold mboxAnswer
  dsimp only
  rw [raise_kept, kept_mk, kept_eta, State_setReg_kept, mboxPut_kept]

@[simp] theorem mboxRun_kept (a0 : Nat) (a1 : Nat → List Nat → State → MboxRes) (s : State) (hk : ∀ n l s, kept (a1 n l s).s
    = kept s) : kept (mboxRun a0 a1 s) = kept s := by
  unfold mboxRun; (repeat' split) <;> simp_all

@[simp] theorem mboxUnknown_kept (s : State) : kept (mboxUnknown s) = kept s := by
  unfold mboxUnknown; (repeat' split) <;> simp_all

@[simp] theorem memFilled_kept (s : State) : kept (memFilled s) = kept s := by
  simp [memFilled]

@[simp] theorem memScrub_kept (a0 : Bool) (a1 : Nat) (a2 : Bool) (a3 : Bool) (a4 : Bool) (s : State) : kept (memScrub a0 a1
    a2 a3 a4 s) = kept s := by
  simp [memScrub]

@[simp] theorem memServe_kept (a0 : Agent) (a1 : List MemErr) (s : State) : kept (memServe a0 a1 s) = kept s := by
  unfold memServe
  split
  · rfl
  · rename_i m s1 h
    have hk : kept s1 = kept s := State_receive_kept _ _ _ _ _ h
    (repeat' split) <;> simp [hk]

@[simp] theorem memTake_kept (a0 : Agent) (a1 : Nat) (a2 : Bool) (s : State) : kept (memTake a0 a1 a2 s) = kept s := by
  unfold memTake
  split
  · rfl
  · rename_i m s1 h
    have hk : kept s1 = kept s := State_receive_kept _ _ _ _ _ h
    dsimp only
    (repeat' split) <;> simp [hk]

@[simp] theorem poisonArrive_kept (a0 : Agent) (s : State) : kept (poisonArrive a0 s) = kept s := by
  unfold poisonArrive
  split
  · rfl
  · rename_i m s1 h
    have hk : kept s1 = kept s := State_receive_kept _ _ _ _ _ h
    (repeat' split) <;> simp [hk]

@[simp] theorem rbAcks_kept (a0 : Agent) (s : State) : kept (rbAcks a0 s) = kept s := by
  simp [rbAcks]

@[simp] theorem rbNext_kept (s : State) : kept (rbNext s) = kept s := by
  simp [rbNext]

@[simp] theorem rbAsk_kept (a0 : RbRun) (a1 : RbJob) (a2 : List CoreId) (s : State) : kept (rbAsk a0 a1 a2 s) = kept s := by
  unfold rbAsk
  dsimp only
  rw [rbPut_kept, kept_foldl_snd]
  intro a x; simp

@[simp] theorem rbBegin_kept (a0 : RbRun) (a1 : RbJob) (s : State) : kept (rbBegin a0 a1 s) = kept s := by
  simp [rbBegin]

@[simp] theorem sendAll_kept (a0 : List Msg) (s : State) : kept (sendAll a0 s) = kept s := by
  simp [sendAll]

@[simp] theorem rbDeliver_kept (a0 : RbRun) (a1 : RbJob) (a2 : Nat) (a3 : Nat) (a4 : Nat) (a5 : DLine) (a6 : List DLine) (a7
    : List DLine) (a8 : Nat) (a9 : CoreId) (s : State) : kept (rbDeliver a0 a1 a2 a3 a4 a5 a6 a7 a8 a9 s).2 = kept s := by
  simp [rbDeliver]

@[simp] theorem rbDeliverAll_kept (a0 : RbJob) (a1 : Nat) (a2 : Nat) (a3 : Nat) (a4 : DLine) (a5 : List DLine) (a6 : List
    DLine) (a7 : List (Nat × CoreId)) (a8 : RbRun) (s : State) : kept (rbDeliverAll a0 a1 a2 a3 a4 a5 a6 a7 a8 s).2 = kept s
    := by
  induction a7 generalizing a0 a1 a2 a3 a4 a5 a6 a8 s <;> simp_all [rbDeliverAll]

@[simp] theorem rbTerminal_kept (a0 : RbRun) (a1 : RbJob) (a2 : Nat) (a3 : Nat) (s : State) : kept (rbTerminal a0 a1 a2 a3
    s).2 = kept s := by
  simp [rbTerminal]

@[simp] theorem rbFaultStop_kept (a0 : RbRun) (a1 : RbJob) (s : State) : kept (rbFaultStop a0 a1 s) = kept s := by
  simp [rbFaultStop]

@[simp] theorem rbJobDone_kept (a0 : RbRun) (s : State) : kept (rbJobDone a0 s) = kept s := by
  simp [rbJobDone]

@[simp] theorem rbSignal_kept (a0 : CoreId) (s : State) : kept (rbSignal a0 s) = kept s := by
  simp [rbSignal]

@[simp] theorem rbTileWrite_kept (a0 : RbRun) (a1 : RbJob) (a2 : List (Nat × CoreId)) (s : State) : kept (rbTileWrite a0 a1
    a2 s) = kept s := by
  simp [rbTileWrite]

@[simp] theorem rbStep_kept (a0 : Nat) (a1 : List GridUpset) (s : State) : kept (rbStep a0 a1 s) = kept s := by
  unfold rbStep; (repeat' split) <;> simp_all

@[simp] theorem readyArrive_kept (s : State) : kept (readyArrive s) = kept s := by
  unfold readyArrive
  split
  · rfl
  · rename_i m s1 h
    have hk : kept s1 = kept s := sysTake_kept _ _ _ h
    dsimp only
    (repeat' split) <;> simp [hk]

@[simp] theorem selReload_kept (a0 : List MemErr) (s : State) : kept (selReload a0 s) = kept s := by
  simp [selReload]

@[simp] theorem smuSend_kept (a0 : SmuCtx) (a1 : Op) (a3 : SmuCtx → List SmuCtx → List SmuCtx) (a4 : State →
    State) (hd : ∀ t, kept (a4 t) = kept t) (s : State) : kept (smuSend a0 a1 a3 a4 s) = kept s := by
  unfold smuSend
  extract_lets r
  have hr : kept r.2.2 = kept s := by simp [r]
  clear_value r
  split
  · simp [hd, hr]
  · rw [pump_kept, kept_mk, kept_eta, hr]

@[simp] theorem smuAssign_kept (s : State) : kept (smuAssign s) = kept s := by
  unfold smuAssign
  split
  · rfl
  · split
    · rfl
    · extract_lets s1
      have h1 : kept s1 = kept s := rfl
      clear_value s1
      (repeat' split) <;> simp [h1]

@[simp] theorem smuResolve_kept (a0 : Nat) (a1 : List LineErr) (s : State) : kept (smuResolve a0 a1 s) = kept s := by
  unfold smuResolve
  split
  · rfl
  · extract_lets free s1 ls
    have hf : ∀ s, kept (free s) = kept s := fun s => rfl
    have h1 : kept s1 = kept s := strike_kept _ _
    clear_value free s1
    split
    · rfl
    · split
      · exact hf s
      · extract_lets r
        have hr : kept r.2 = kept s := by simp only [r]; split <;> simp [h1]
        clear_value r
        (repeat' split) <;> simp [hf, hr, smuSend_kept]

@[simp] theorem thermWarn_kept (a0 : ℤ) (s : State) : kept (thermWarn a0 s) = kept s := by
  simp [thermWarn]

@[simp] theorem thermalClear_kept (a0 : ℤ) (s : State) : kept (thermalClear a0 s) = kept s := by
  simp [thermalClear]

@[simp] theorem thermalFault_kept (a0 : ℤ) (s : State) : kept (thermalFault a0 s) = kept s := by
  simp [thermalFault]

@[simp] theorem trapAccount_kept (a0 : CoreId) (a1 : Nat) (s : State) : kept (trapAccount a0 a1 s) = kept s := by
  simp [trapAccount]

@[simp] theorem trapArrive_kept (a0 : Agent) (s : State) : kept (trapArrive a0 s) = kept s := by
  unfold trapArrive
  split
  · rfl
  · rename_i m s1 h
    have hk : kept s1 = kept s := State_receive_kept _ _ _ _ _ h
    dsimp only
    (repeat' split) <;> simp [hk]

end Sys2Proof.Machine
end

