-- ==== Sys2Proof/Laws/KeptPower.lean ====
section
/-! SUPPORT. `kept` (Laws/Kept.lean) over power, clocks, trunks and the in-field test. -/

set_option maxRecDepth 4000
set_option exponentiation.threshold 1024

namespace Sys2Proof.Machine

open Sys2Proof

@[simp] theorem State_modPwr_kept (a0 : PwrSt → PwrSt) (s : State) : kept (State.modPwr a0 s) = kept s := by
  rfl

@[simp] theorem State_modTest_kept (a0 : TestSt → TestSt) (s : State) : kept (State.modTest a0 s) = kept s := by
  rfl

@[simp] theorem placeWrites_kept (a0 : TrunkSt) (a1 : Nat) (a2 : Nat) (a3 : Nat) (a4 : CoreId) (s : State) : kept
    (placeWrites a0 a1 a2 a3 a4 s) = kept s := by
  simp [placeWrites]

@[simp] theorem launchWrites_kept (a0 : Idx8) (s : State) : kept (launchWrites a0 s) = kept s := by
  simp [launchWrites]

@[simp] theorem coreUnplace_kept (a0 : CoreId) (s : State) : kept (coreUnplace a0 s) = kept s := by
  simp [coreUnplace]

@[simp] theorem clearFb_kept (a0 : Nat) (s : State) : kept (clearFb a0 s) = kept s := by
  simp [clearFb]

@[simp] theorem clearEntries_kept (a0 : Nat) (a1 : CoreId) (s : State) : kept (clearEntries a0 a1 s) = kept s := by
  simp [clearEntries]

@[simp] theorem trunkShow_kept (a0 : Idx8) (a1 : Nat) (a2 : Nat) (a3 : Nat) (s : State) : kept (trunkShow a0 a1 a2 a3 s) =
    kept s := by
  simp [trunkShow]

@[simp] theorem unplaceSlot_kept (a0 : Idx8) (s : State) : kept (unplaceSlot a0 s) = kept s := by
  simp [unplaceSlot]

@[simp] theorem trunkStops_kept (s : State) : kept (trunkStops s) = kept s := by
  simp [trunkStops]

@[simp] theorem rotBegin_kept (a0 : BitVec 32) (a1 : BitVec 32) (s : State) : kept (rotBegin a0 a1 s) = kept s := by
  unfold rotBegin; (repeat' split) <;> simp_all

@[simp] theorem domUnqueue_kept (a0 : Nat) (s : State) : kept (domUnqueue a0 s) = kept s := by
  simp [domUnqueue]

@[simp] theorem domShow_kept (a0 : Nat) (a1 : Nat) (a2 : Bool) (a3 : Bool) (s : State) : kept (domShow a0 a1 a2 a3 s) = kept
    s := by
  simp [domShow]

@[simp] theorem agentLeaves_kept (a0 : Nat) (a1 : Nat) (s : State) : kept (agentLeaves a0 a1 s) = kept s := by
  unfold agentLeaves; (repeat' split) <;> simp_all

@[simp] theorem domBegin_kept (a0 : Nat) (a1 : Nat) (a2 : Bool) (s : State) : kept (domBegin a0 a1 a2 s) = kept s := by
  simp [domBegin]

@[simp] theorem domPursue_kept (a0 : Nat) (s : State) : kept (domPursue a0 s) = kept s := by
  simp [domPursue]

@[simp] theorem domWrite_kept (a0 : Nat) (a1 : Half) (s : State) : kept (domWrite a0 a1 s) = kept s := by
  simp [domWrite]

@[simp] theorem domRequest_kept (a0 : Nat) (a1 : Nat) (s : State) : kept (domRequest a0 a1 s) = kept s := by
  simp [domRequest]

@[simp] theorem rotPlan_kept (a0 : BitVec 32) (s : State) : kept (rotPlan a0 s) = kept s := by
  unfold rotPlan; grind [rotBegin_kept, domRequest_kept, kept_mk, kept_eta, StartKept, LinkKept]

@[simp] theorem rotPeers_kept (a0 : CoreId) (a1 : CoreId) (a2 : List CoreId) (s : State) : kept (rotPeers a0 a1 a2 s) = kept
    s := by
  simp [rotPeers]

@[simp] theorem rotPlace_kept (a0 : CoreId) (a1 : CoreId) (s : State) : kept (rotPlace a0 a1 s) = kept s := by
  simp [rotPlace]

@[simp] theorem moveReg_kept (a0 : CoreId) (a1 : CoreId) (a2 : Nat) (s : State) : kept (moveReg a0 a1 a2 s) = kept s := by
  simp [moveReg]

@[simp] theorem rotSwapCore_kept (a0 : CoreId) (a1 : CoreId) (s : State) : kept (rotSwapCore a0 a1 s) = kept s := by
  simp [rotSwapCore]

@[simp] theorem serviceBits_kept (a0 : CoreId) (a1 : Bool) (a2 : Bool) (s : State) : kept (serviceBits a0 a1 a2 s) = kept s
    := by
  simp [serviceBits]

@[simp] theorem enterSlot_kept (a0 : CoreId) (s : State) : kept (enterSlot a0 s) = kept s := by
  simp [enterSlot]

@[simp] theorem rotSwap_kept (a0 : RotMove) (s : State) : kept (rotSwap a0 s) = kept s := by
  simp [rotSwap]

@[simp] theorem rotStep_kept (a0 : BitVec 32) (s : State) : kept (rotStep a0 s) = kept s := by
  unfold rotStep; grind [domRequest_kept, State_modTest_kept, rotSwap_kept, raise_kept, bump_kept, kept_mk, kept_eta, StartKept, LinkKept]

theorem takeSpare_kept (s : State) (r : CoreId × State) (hr : (takeSpare s) = some r) : kept r.2 = kept s := by
  unfold takeSpare at hr
  split at hr <;> simp_all
  obtain ⟨rfl, rfl⟩ := hr
  rfl

@[simp] theorem dropMove_kept (a0 : CoreId) (s : State) : kept (dropMove a0 s) = kept s := by
  unfold dropMove; (repeat' split) <;> simp_all

@[simp] theorem refillSlot_kept (s : State) : kept (refillSlot s).2 = kept s := by
  unfold refillSlot
  dsimp only
  split
  · rename_i h; have hk := takeSpare_kept _ _ h; simp_all
  · (repeat' split) <;> simp

@[simp] theorem fenceFill_kept (a0 : Bool) (a1 : Bool) (a2 : List CoreId) (s : State) : kept (fenceFill a0 a1 a2 s).2 = kept
    s := by
  unfold fenceFill
  split
  · split
    · rename_i h; have hk := takeSpare_kept _ _ h; simp_all
    · rfl
  · split <;> simp

@[simp] theorem fenceMark_kept (a0 : CoreId) (s : State) : kept (fenceMark a0 s) = kept s := by
  unfold fenceMark
  dsimp only
  rw [domRequest_kept, dropMove_kept, State_modTest_kept, kept_mk, kept_eta, raise_kept, logFault_kept, State_setReg_kept, State_setF_kept, serviceBits_kept]

@[simp] theorem fenceAborts_kept (a0 : CoreId) (s : State) : kept (fenceAborts a0 s) = kept s := by
  simp [fenceAborts]

@[simp] theorem fenceCore_kept (a0 : CoreId) (s : State) : kept (fenceCore a0 s).2 = kept s := by
  unfold fenceCore
  rw [fenceFill_kept, fenceMark_kept, fenceAborts_kept]

@[simp] theorem putBoth_kept (a0 : CoreId) (a1 : Word) (a2 : Nat) (a3 : DLine) (s : State) : kept (putBoth a0 a1 a2 a3 s) =
    kept s := by
  simp [putBoth]

@[simp] theorem putMark_kept (a0 : CoreId) (a1 : Nat) (a2 : Bool) (s : State) : kept (putMark a0 a1 a2 s) = kept s := by
  simp [putMark]

@[simp] theorem moveSwap_kept (a0 : CoreId) (a1 : CoreId) (a2 : Nat) (s : State) : kept (moveSwap a0 a1 a2 s) = kept s := by
  simp [moveSwap]

@[simp] theorem rescueLofts_kept (a0 : Idx8) (a1 : Nat) (a2 : CoreId) (a3 : CoreId) (s : State) : kept (rescueLofts a0 a1 a2
    a3 s) = kept s := by
  unfold rescueLofts
  rw [kept_foldl]
  intro s x; dsimp only; split <;> simp

@[simp] theorem replaceSlot_kept (a0 : Idx8) (a1 : List CoreId) (s : State) : kept (replaceSlot a0 a1 s).2 = kept s := by
  unfold replaceSlot
  extract_lets t v gone
  split
  · simp
  · extract_lets swap place s1 s2 src s3
    have h1 : kept s1 = kept s := by simp only [s1]; rw [kept_foldl]; intro s x; rw [rescueLofts_kept]
    have h2 : kept s2 = kept s := by simp only [s2]; rw [kept_foldl, h1]; intro s x; split <;> simp
    have h3 : kept s3 = kept s := by simp only [s3, trunkShow_kept, State_setTrunk_kept, h2]
    clear_value s3
    dsimp only; rw [bump_kept, kept_foldl, h3]; intro s x; split <;> simp

@[simp] theorem trunkRefuse_kept (a0 : Idx8) (a1 : Nat) (a2 : Nat) (s : State) : kept (trunkRefuse a0 a1 a2 s) = kept s := by
  simp [trunkRefuse]

@[simp] theorem launchSlot_kept (a0 : Idx8) (s : State) : kept (launchSlot a0 s).2.2 = kept s := by
  unfold launchSlot; (repeat' split) <;> simp_all

@[simp] theorem trunkReplace_kept (a0 : List CoreId) (s : State) : kept (trunkReplace a0 s) = kept s := by
  simp [trunkReplace]

@[simp] theorem coreFencing_kept (s : State) : kept (coreFencing s) = kept s := by
  unfold coreFencing
  dsimp only
  split <;> simp

@[simp] theorem trunkStarts_kept (a0 : BitVec 32) (s : State) : kept (trunkStarts a0 s) = kept s := by
  simp [trunkStarts]

@[simp] theorem widthCheck_kept (s : State) : kept (widthCheck s) = kept s := by
  simp [widthCheck]

@[simp] theorem trunkAfter_kept (s : State) : kept (trunkAfter s) = kept s := by
  simp [trunkAfter]

@[simp] theorem pllLock_kept (a0 : Nat) (a1 : Bool) (s : State) : kept (pllLock a0 a1 s) = kept s := by
  simp [pllLock]

@[simp] theorem seqShow_kept (a0 : Nat) (a1 : Bool) (s : State) : kept (seqShow a0 a1 s) = kept s := by
  simp [seqShow]

@[simp] theorem opStart_kept (s : State) : kept (opStart s) = kept s := by
  simp [opStart]

@[simp] theorem pllsLock_kept (a0 : List Nat) (a1 : Bool) (s : State) : kept (pllsLock a0 a1 s) = kept s := by
  simp [pllsLock]

@[simp] theorem coastShow_kept (s : State) : kept (coastShow s) = kept s := by
  simp [coastShow]

@[simp] theorem clkRelock_kept (s : State) : kept (clkRelock s) = kept s := by
  simp [clkRelock]

@[simp] theorem pllCfgWrite_kept (a0 : Bool) (a1 : Half) (s : State) : kept (pllCfgWrite a0 a1 s) = kept s := by
  simp [pllCfgWrite]

@[simp] theorem obsWrite_kept (a0 : Half) (s : State) : kept (obsWrite a0 s) = kept s := by
  simp [obsWrite]

@[simp] theorem budgetWrite_kept (a0 : Nat) (a1 : Word) (s : State) : kept (budgetWrite a0 a1 s) = kept s := by
  simp [budgetWrite]

@[simp] theorem modeWrite_kept (a0 : Word) (s : State) : kept (modeWrite a0 s) = kept s := by
  simp [modeWrite]

@[simp] theorem fenceReqWrite_kept (a0 : Requester) (a1 : Word) (s : State) : kept (fenceReqWrite a0 a1 s) = kept s := by
  simp [fenceReqWrite]

@[simp] theorem measExtend_kept (a0 : Fin 8) (a1 : List Nat) (s : State) : kept (measExtend a0 a1 s) = kept s := by
  simp [measExtend]

@[simp] theorem countNoTime_kept (a0 : Nat) (s : State) : kept (countNoTime a0 s) = kept s := by
  simp [countNoTime]

@[simp] theorem getInfo_kept (a0 : Nat) (a1 : List Nat) (s : State) : kept (getInfo a0 a1 s).s = kept s := by
  unfold getInfo
  (repeat' split) <;> simp

@[simp] theorem putJob_kept (a0 : List Nat) (a1 : Nat) (a2 : List Word) (s : State) : kept (putJob a0 a1 a2 s) = kept s := by
  simp [putJob]

@[simp] theorem putList_kept (a0 : Nat) (a1 : List Nat) (s : State) : kept (putList a0 a1 s) = kept s := by
  simp [putList]

@[simp] theorem loadTables_kept (a0 : Nat) (a1 : TrunkImg) (a2 : List (Nat × Nat)) (a3 : List Nat) (s : State) : kept
    (loadTables a0 a1 a2 a3 s) = kept s := by
  simp [loadTables]

@[simp] theorem trunkAccept_kept (a0 : Idx8) (a1 : Nat) (a2 : Nat) (a3 : TrunkImg) (a4 : List (Nat × Nat)) (a5 : List Nat) (s
    : State) : kept (trunkAccept a0 a1 a2 a3 a4 a5 s) = kept s := by
  simp [trunkAccept]

@[simp] theorem loadSlot_kept (a0 : Idx8) (a1 : Nat) (a2 : Nat) (s : State) : kept (loadSlot a0 a1 a2 s).2 = kept s := by
  unfold loadSlot; grind [memGet_kept, countNoTime_kept, trunkRefuse_kept, trunkAccept_kept, kept_mk, kept_eta, StartKept, LinkKept]

@[simp] theorem trunkLoad_kept (a0 : Nat) (a1 : List Nat) (s : State) : kept (trunkLoad a0 a1 s).s = kept s := by
  unfold trunkLoad
  split
  · rfl
  · extract_lets ad n r
    have hr : kept r.2 = kept s := loadSlot_kept _ _ _ _
    clear_value r
    split
    · rfl
    · split
      · exact trunkRefuse_kept _ _ _ _
      · exact hr

@[simp] theorem trunkLaunch_kept (a0 : Nat) (a1 : List Nat) (s : State) : kept (trunkLaunch a0 a1 s).s = kept s := by
  unfold trunkLaunch
  (repeat' split) <;> simp

@[simp] theorem trunkStop_kept (a0 : Nat) (a1 : List Nat) (s : State) : kept (trunkStop a0 a1 s).s = kept s := by
  unfold trunkStop
  (repeat' split) <;> simp

@[simp] theorem unloadSlot_kept (a0 : Idx8) (s : State) : kept (unloadSlot a0 s) = kept s := by
  simp [unloadSlot]

@[simp] theorem trunkUnload_kept (a0 : Nat) (a1 : List Nat) (s : State) : kept (trunkUnload a0 a1 s).s = kept s := by
  unfold trunkUnload
  (repeat' split) <;> simp

@[simp] theorem trunkQuery_kept (a0 : Nat) (a1 : List Nat) (s : State) : kept (trunkQuery a0 a1 s).s = kept s := by
  unfold trunkQuery
  extract_lets k
  split <;> rfl

@[simp] theorem rotateNow_kept (a0 : Nat) (a1 : List Nat) (s : State) : kept (rotateNow a0 a1 s).s = kept s := by
  unfold rotateNow
  (repeat' split) <;> simp

@[simp] theorem testCore_kept (a0 : Nat) (a1 : List Nat) (s : State) : kept (testCore a0 a1 s).s = kept s := by
  unfold testCore
  (repeat' split) <;> simp

@[simp] theorem powerPolicy_kept (a0 : Nat) (a1 : List Nat) (s : State) : kept (powerPolicy a0 a1 s).s = kept s := by
  have tw : ∀ (c : Prop) [Decidable c] (a b t : State), kept a = kept t → kept b = kept t → kept (if c then a else b) = kept t := by
    intro c _ a b t ha hb; split <;> assumption
  unfold powerPolicy
  extract_lets mode op park qa s1 s2 s3 b s4
  have h1 : kept s1 = kept s := tw _ _ _ _ rfl (modeWrite_kept _ _)
  have h2 : kept s2 = kept s := tw _ _ _ _ h1 ((fbPut_kept _ _ _).trans h1)
  have h3 : kept s3 = kept s := (State_modPwr_kept _ _).trans h2
  have h4 : kept s4 = kept s := tw _ _ _ _ h3 ((budgetWrite_kept _ _ _).trans h3)
  clear_value s4
  split
  · rfl
  · split
    · rfl
    · exact h4

@[simp] theorem linkEnable_kept (a0 : Nat) (a1 : List Nat) (s : State) : kept (linkEnable a0 a1 s).s = kept s := by
  unfold linkEnable
  extract_lets m s1
  have h1 : kept s1 = kept s := by simp only [s1]; rw [kept_foldl]; intro s x; split <;> simp
  clear_value s1
  split
  · rfl
  · split
    · rfl
    · exact h1

@[simp] theorem admitRail_kept (a0 : Idx4) (s : State) : kept (admitRail a0 s) = kept s := by
  unfold admitRail; (repeat' split) <;> simp_all

@[simp] theorem applyRepair_kept (a0 : CoreId) (a1 : Nat) (s : State) : kept (applyRepair a0 a1 s) = kept s := by
  simp [applyRepair]

@[simp] theorem setSeq_kept (a0 : OpSeq) (s : State) : kept (setSeq a0 s) = kept s := by
  simp [setSeq]

@[simp] theorem avsAck_kept (s : State) : kept (avsAck s) = kept s := by
  unfold avsAck; (repeat' split) <;> simp_all

@[simp] theorem avsTimeout_kept (s : State) : kept (avsTimeout s) = kept s := by
  unfold avsTimeout; (repeat' split) <;> simp_all

@[simp] theorem opEnd_kept (s : State) : kept (opEnd s) = kept s := by
  simp [opEnd]

@[simp] theorem cclkSwitch_kept (s : State) : kept (cclkSwitch s) = kept s := by
  unfold cclkSwitch; (repeat' split) <;> simp_all

@[simp] theorem copyImage_kept (a0 : TrunkSt) (a1 : Nat) (a2 : Nat) (a3 : CoreId) (a4 : Nat) (a5 : Word) (s : State) : kept
    (copyImage a0 a1 a2 a3 a4 a5 s) = kept s := by
  unfold copyImage
  dsimp only
  rw [kept_foldl]
  · simp
  · intro s x; (repeat' split) <;> simp

@[simp] theorem moveLoft_kept (a0 : CoreId) (a1 : CoreId) (a2 : Word) (s : State) : kept (moveLoft a0 a1 a2 s) = kept s := by
  simp [moveLoft]

@[simp] theorem copyShelf_kept (a0 : TrunkSt) (a1 : Nat) (a2 : Nat) (a3 : CoreId) (a4 : Nat) (a5 : Word) (s : State) : kept
    (copyShelf a0 a1 a2 a3 a4 a5 s) = kept s := by
  unfold copyShelf; (repeat' split) <;> simp_all

@[simp] theorem coreFresh_kept (a0 : CoreId) (s : State) : kept (coreFresh a0 s) = kept s := by
  simp [coreFresh]

@[simp] theorem coreLoses_kept (a0 : CoreId) (a1 : List Nat) (s : State) : kept (coreLoses a0 a1 s) = kept s := by
  simp [coreLoses]

@[simp] theorem domEffect_kept (a0 : Nat) (a1 : Nat) (a2 : Nat) (s : State) : kept (domEffect a0 a1 a2 s) = kept s := by
  unfold domEffect; (repeat' split) <;> simp_all

@[simp] theorem domEnd_kept (a0 : Nat) (s : State) : kept (domEnd a0 s) = kept s := by
  unfold domEnd; (repeat' split) <;> simp_all

@[simp] theorem domLeave_kept (a0 : DomId) (s : State) : kept (domLeave a0 s) = kept s := by
  simp [domLeave]

@[simp] theorem launchCopy_kept (a0 : Idx8) (s : State) : kept (launchCopy a0 s) = kept s := by
  unfold launchCopy
  dsimp only
  rw [State_modTrunk_kept, kept_foldl]
  intro s x; split
  · rfl
  · rw [State_modCore_kept, kept_foldl]
    intro s x; simp

@[simp] theorem launchComplete_kept (a0 : Idx8) (a1 : BitVec 32) (s : State) : kept (launchComplete a0 a1 s) = kept s := by
  simp [launchComplete]

@[simp] theorem testResult_kept (a0 : Nat) (a1 : Word → Word) (s : State) : kept (testResult a0 a1 s) = kept s := by
  simp [testResult]

@[simp] theorem orderFence_kept (a0 : CoreId) (s : State) : kept (orderFence a0 s) = kept s := by
  simp [orderFence]

@[simp] theorem lbistEnd_kept (a0 : Half) (s : State) : kept (lbistEnd a0 s) = kept s := by
  unfold lbistEnd; (repeat' split) <;> simp_all

@[simp] theorem logFlush_kept (s : State) : kept (logFlush s) = kept s := by
  simp [logFlush]

@[simp] theorem marchBad_kept (a0 : CoreId) (a1 : Nat) (s : State) : kept (marchBad a0 a1 s) = kept s := by
  simp [marchBad]

@[simp] theorem marchEnd_kept (a0 : List Nat) (s : State) : kept (marchEnd a0 s) = kept s := by
  unfold marchEnd; (repeat' split) <;> simp_all

@[simp] theorem pbaWindow_kept (a0 : List CoreId) (a1 : Bool) (s : State) : kept (pbaWindow a0 a1 s) = kept s := by
  simp [pbaWindow]

@[simp] theorem pllLocked_kept (s : State) : kept (pllLocked s) = kept s := by
  unfold pllLocked; (repeat' split) <;> simp_all

@[simp] theorem rampEnd_kept (a0 : Nat) (s : State) : kept (rampEnd a0 s) = kept s := by
  unfold rampEnd; (repeat' split) <;> simp_all

@[simp] theorem servoLeave_kept (s : State) : kept (servoLeave s) = kept s := by
  simp [servoLeave]

@[simp] theorem refEffect_kept (a0 : Nat) (s : State) : kept (refEffect a0 s) = kept s := by
  unfold refEffect
  split
  · simp
  · rw [pllLock_kept, kept_mk, kept_eta]
  · dsimp only
    rw [kept_foldl, kept_foldl]
    · intro s x; simp
    · intro s x; simp

@[simp] theorem refLost_kept (a0 : Nat) (s : State) : kept (refLost a0 s) = kept s := by
  simp [refLost]

@[simp] theorem refReturn_kept (a0 : Nat) (s : State) : kept (refReturn a0 s) = kept s := by
  simp [refReturn]

@[simp] theorem rotVerify_kept (a0 : CoreId) (s : State) : kept (rotVerify a0 s) = kept s := by
  unfold rotVerify
  rw [kept_foldl]
  intro s p
  dsimp only
  (repeat' split) <;> simp

@[simp] theorem rotCopyComplete_kept (a0 : List LineErr) (s : State) : kept (rotCopyComplete a0 s) = kept s := by
  unfold rotCopyComplete
  dsimp only
  (repeat' split) <;> simp

@[simp] theorem rotCopyStart_kept (s : State) : kept (rotCopyStart s) = kept s := by
  unfold rotCopyStart
  split
  · dsimp only; split <;> simp
  · rfl

@[simp] theorem rotTransfer_kept (s : State) : kept (rotTransfer s) = kept s := by
  unfold rotTransfer
  split
  · split <;> simp
  · rfl

@[simp] theorem scFail_kept (a0 : Nat) (s : State) : kept (scFail a0 s) = kept s := by
  simp [scFail]

@[simp] theorem scRotation_kept (a0 : Bool) (s : State) : kept (scRotation a0 s) = kept s := by
  simp [scRotation]

@[simp] theorem settleEnd_kept (s : State) : kept (settleEnd s) = kept s := by
  unfold settleEnd
  (repeat' split) <;> simp

@[simp] theorem standbyWake_kept (a0 : Fin 3) (s : State) : kept (standbyWake a0 s) = kept s := by
  simp [standbyWake]

@[simp] theorem wakeSlow_kept (a0 : Nat) (s : State) : kept (wakeSlow a0 s) = kept s := by
  unfold wakeSlow
  dsimp only
  split
  · rfl
  · split <;> simp

@[simp] theorem xtalWindow_kept (a0 : Nat) (s : State) : kept (xtalWindow a0 s) = kept s := by
  simp [xtalWindow]

end Sys2Proof.Machine
end

