-- ==== Sys2Proof/Laws/KeptFence.lean ====
section
/-! SUPPORT. `kept` (Laws/Kept.lean) over the capture, the fence, the host queues and publishing. -/

set_option maxRecDepth 4000
set_option exponentiation.threshold 1024

namespace Sys2Proof.Machine

open Sys2Proof

@[simp] theorem State_modHq_kept (a0 : HqSt → HqSt) (s : State) : kept (State.modHq a0 s) = kept s := by
  rfl

@[simp] theorem frameEnable_kept (s : State) : kept (frameEnable s) = kept s := by
  simp [frameEnable]

@[simp] theorem guardEnd_kept (s : State) : kept (guardEnd s) = kept s := by
  simp [guardEnd]

@[simp] theorem frameDisable_kept (s : State) : kept (frameDisable s) = kept s := by
  simp [frameDisable]

@[simp] theorem fenceMarks_kept (s : State) : kept (fenceMarks s) = kept s := by
  simp [fenceMarks]

@[simp] theorem fenceLost_kept (s : State) : kept (fenceLost s) = kept s := by
  simp [fenceLost]

@[simp] theorem fenceInstant_kept (a0 : BitVec 32) (a1 : Bool) (s : State) : kept (fenceInstant a0 a1 s) = kept s := by
  simp [fenceInstant]

@[simp] theorem captureHdr_kept (a0 : Store Word) (s : State) : kept (captureHdr a0 s) = kept s := by
  simp [captureHdr]

@[simp] theorem captureSrc_kept (s : State) : kept (captureSrc s) = kept s := by
  simp [captureSrc]

@[simp] theorem captureOp_kept (s : State) : kept (captureOp s) = kept s := by
  simp [captureOp]

@[simp] theorem captureQueue_kept (a0 : Word) (a1 : Word) (s : State) : kept (captureQueue a0 a1 s) = kept s := by
  simp [captureQueue]

@[simp] theorem captureRings_kept (s : State) : kept (captureRings s) = kept s := by
  simp [captureRings]

@[simp] theorem captureCellar_kept (a0 : Nat) (s : State) : kept (captureCellar a0 s) = kept s := by
  simp [captureCellar]

@[simp] theorem captureRegs_kept (s : State) : kept (captureRegs s) = kept s := by
  simp [captureRegs]

@[simp] theorem capturePools_kept (s : State) : kept (capturePools s) = kept s := by
  simp [capturePools]

@[simp] theorem gateClear_kept (a0 : Nat) (s : State) : kept (gateClear a0 s) = kept s := by
  simp [gateClear]

@[simp] theorem fenceStarts_kept (a0 : BitVec 32) (s : State) : kept (fenceStarts a0 s) = kept s := by
  simp [fenceStarts]

@[simp] theorem gateDecide_kept (a0 : Bool) (s : State) : kept (gateDecide a0 s) = kept s := by
  simp [gateDecide]

@[simp] theorem fenceHeads_kept (s : State) : kept (fenceHeads s) = kept s := by
  simp [fenceHeads]

@[simp] theorem syncMode_kept (a0 : Idx4) (s : State) : kept (syncMode a0 s) = kept s := by
  simp [syncMode]

@[simp] theorem syncCapture_kept (s : State) : kept (syncCapture s) = kept s := by
  unfold syncCapture
  dsimp only
  rw [kept_foldl, kept_foldl]
  · intro s x; split <;> simp
  · intro s x; split <;> simp

@[simp] theorem headCaptured_kept (a0 : HeadId) (a1 : Word) (s : State) : kept (headCaptured a0 a1 s) = kept s := by
  simp [headCaptured]

@[simp] theorem headsCaptured_kept (a0 : List Word) (s : State) : kept (headsCaptured a0 s) = kept s := by
  simp [headsCaptured]

@[simp] theorem beginFrames_kept (a0 : BitVec 32) (s : State) : kept (beginFrames a0 s) = kept s := by
  simp [beginFrames]

@[simp] theorem fenceTimer_kept (s : State) : kept (fenceTimer s) = kept s := by
  simp [fenceTimer]

@[simp] theorem fencePark_kept (s : State) : kept (fencePark s) = kept s := by
  simp [fencePark]

@[simp] theorem fence_kept (a0 : BitVec 32) (a1 : Bool) (s : State) : kept (fence a0 a1 s) = kept s := by
  simp [fence]

@[simp] theorem sourceEvent_kept (s : State) : kept (sourceEvent s) = kept s := by
  simp [sourceEvent]

@[simp] theorem swFence_kept (s : State) : kept (swFence s) = kept s := by
  simp [swFence]

@[simp] theorem captureAll_kept (s : State) : kept (captureAll s) = kept s := by
  simp [captureAll]

@[simp] theorem loadFb_kept (s : State) : kept (loadFb s) = kept s := by
  simp [loadFb]

@[simp] theorem guardStart_kept (s : State) : kept (guardStart s) = kept s := by
  unfold guardStart; (repeat' split) <;> simp_all

@[simp] theorem guardJudge_kept (s : State) : kept (guardJudge s) = kept s := by
  simp [guardJudge]

@[simp] theorem hqFinish_kept (a0 : HqDesc) (a1 : Nat) (a2 : Nat) (s : State) : kept (hqFinish a0 a1 a2 s) = kept s := by
  simp [hqFinish]

@[simp] theorem hqStop_kept (a0 : Nat) (s : State) : kept (hqStop a0 s) = kept s := by
  simp [hqStop]

@[simp] theorem hqDisable_kept (a0 : Nat) (s : State) : kept (hqDisable a0 s) = kept s := by
  simp [hqDisable]

@[simp] theorem hqDoorbell_kept (a0 : Nat) (a1 : Half) (s : State) : kept (hqDoorbell a0 a1 s) = kept s := by
  simp [hqDoorbell]

@[simp] theorem shelfPend_kept (a0 : Requester) (a1 : CoreId) (a2 : Nat) (a3 : Word) (s : State) : kept (shelfPend a0 a1 a2
    a3 s) = kept s := by
  unfold shelfPend; (repeat' split) <;> simp_all

@[simp] theorem stageAccess_kept (a0 : Nat) (a1 : Nat) (a2 : Bool) (a3 : List Nat) (s : State) : kept (stageAccess a0 a1 a2
    a3 s) = kept s := by
  simp [stageAccess]

@[simp] theorem bar2Write_kept (a0 : Nat) (a1 : List Nat) (a2 : Bool) (s : State) : kept (bar2Write a0 a1 a2 s) = kept s := by
  simp [bar2Write]

@[simp] theorem bar2Read_kept (a0 : Nat) (a1 : Nat) (s : State) : kept (bar2Read a0 a1 s) = kept s := by
  simp [bar2Read]

@[simp] theorem bar2Access_kept (a0 : Nat) (a1 : Nat) (a2 : Bool) (a3 : List Nat) (a4 : Bool) (a5 : List MemErr) (s : State)
    : kept (bar2Access a0 a1 a2 a3 a4 a5 s) = kept s := by
  simp [bar2Access]

@[simp] theorem putDesc_kept (a0 : HqDesc) (s : State) : kept (putDesc a0 s) = kept s := by
  simp [putDesc]

@[simp] theorem hqPut_kept (r : HqDesc × State) : kept (hqPut r) = kept r.2 := by
  exact putDesc_kept _ _

@[simp] theorem hqAskAt_kept (a0 : CoreId × Nat) (a1 : Nat) (a2 : HqDesc) (s : State) : kept (hqAskAt a0 a1 a2 s).2 = kept s
    := by
  induction a1 generalizing a2 s with
  | zero => rfl
  | succ n ih =>
    unfold hqAskAt
    split
    · rfl
    · exact (ih _ _).trans ((State_send_kept _ _).trans (State_modHq_kept _ _))

@[simp] theorem hqAsk_kept (a0 : Nat) (a1 : HqDesc) (s : State) : kept (hqAsk a0 a1 s).2 = kept s := by
  exact kept_elim _ _ _ _ rfl fun x => hqAskAt_kept _ _ _ _

@[simp] theorem hqTagFail_kept (a0 : Nat) (s : State) : kept (hqTagFail a0 s) = kept s := by
  simp [hqTagFail]

@[simp] theorem hqSendAt_kept (a0 a1 : Nat) (a : HqDesc × State) (x : CoreId × Nat) : kept (hqSendAt a0 a1 a x).2 = kept a.2
    := by
  unfold hqSendAt
  dsimp only
  rw [State_send_kept, hqTagFail_kept]

@[simp] theorem hqSendLine_kept (a0 a1 : Nat) (a : HqDesc × State) : kept (hqSendLine a0 a1 a).2 = kept a.2 := by
  exact kept_elim _ _ _ _ rfl fun x => hqSendAt_kept _ _ _ _

@[simp] theorem hqSendRun_kept (a0 : Msg) (a1 : HqDesc) (s : State) : kept (hqSendRun a0 a1 s).2 = kept s := by
  have h : ∀ n st (a : HqDesc × State), kept ((List.range n).foldl (fun a _ => hqSendLine st a.1.sent a) a).2 = kept a.2 := by
    intro n st a
    generalize List.range n = l
    induction l generalizing a with
    | nil => rfl
    | cons x r ih => rw [List.foldl_cons, ih, hqSendLine_kept]
  exact h _ _ _

@[simp] theorem hqTaken_kept (a0 : Msg) (a1 : Nat) (a2 : HqDesc) (s : State) : kept (hqTaken a0 a1 a2 s) = kept s := by
  unfold hqTaken
  split
  · exact putDesc_kept _ _
  · split
    · exact (hqPut_kept _).trans (hqAsk_kept _ _ _)
    · exact (hqPut_kept _).trans ((hqAsk_kept _ _ _).trans (hqSendRun_kept _ _ _))

@[simp] theorem hqAnswer_kept (a0 : Msg) (a1 : HqDesc) (s : State) : kept (hqAnswer a0 a1 s) = kept s := by
  exact hqTaken_kept _ _ _ _

@[simp] theorem hqGrant_kept (a0 : CoreId) (s : State) : kept (hqGrant a0 s) = kept s := by
  unfold hqGrant
  split
  · rfl
  · rename_i m s1 h
    have hk : kept s1 = kept s := State_receive_kept _ _ _ _ _ h
    (repeat' split) <;> simp [hk]

@[simp] theorem creditReceive_kept (a0 : CoreId) (a1 : Agent) (a2 : List LineErr) (s : State) : kept (creditReceive a0 a1 a2
    s) = kept s := by
  unfold creditReceive; (repeat' split) <;> simp_all

@[simp] theorem modServo_kept (a0 : ServoSt → ServoSt) (s : State) : kept (modServo a0 s) = kept s := by
  simp [modServo]

@[simp] theorem ptpSend_kept (a0 : Idx8) (a1 : Nat) (a2 : Nat) (a3 : Nat) (a4 : Nat) (s : State) : kept (ptpSend a0 a1 a2 a3
    a4 s) = kept s := by
  simp [ptpSend]

@[simp] theorem delayAsk_kept (a0 : Idx8) (a1 : Bool) (s : State) : kept (delayAsk a0 a1 s) = kept s := by
  simp [delayAsk]

@[simp] theorem delaySet_kept (a0 : Idx8) (a1 : ℤ) (s : State) : kept (delaySet a0 a1 s) = kept s := by
  simp [delaySet]

@[simp] theorem pubAdvance_kept (a0 : Nat) (a1 : Nat) (a2 : Nat) (a3 : Bool) (s : State) : kept (pubAdvance a0 a1 a2 a3 s) =
    kept s := by
  unfold pubAdvance; (repeat' split) <;> simp_all

@[simp] theorem pubLines_kept (a0 : Nat) (a1 : Nat) (s : State) : kept (pubLines a0 a1 s).2.2 = kept s := by
  induction a1 generalizing a0 s <;> simp_all [pubLines]

theorem pubSend_kept (a0 : Nat) (s : State) (r : State) (hr : (pubSend a0 s) = some r) : kept r = kept s := by
  unfold pubSend at hr
  split at hr
  · cases hr
  · split at hr
    · cases hr
    · split at hr
      · cases hr
      · extract_lets n last p next r0 s1 m vid b at hr
        have hd : ∀ s, kept (next s) = kept s := by intro s; simp only [next, pubAdvance_kept]
        have h1 : kept s1 = kept s := by simp only [s1, r0, bumpN_kept, pubLines_kept]
        clear_value s1 next
        split at hr
        · cases hr; simp [hd]
        · split at hr <;> cases hr <;> simp [hd, h1]

@[simp] theorem ethTransmit_kept (a0 : Idx8) (s : State) : kept (ethTransmit a0 s) = kept s := by
  unfold ethTransmit
  split
  · rfl
  · split
    · rename_i h; exact txRing_kept _ _ _ _ h
    · split
      · rename_i h
        obtain ⟨q, _, h⟩ := List.exists_of_findSome?_eq_some h
        split at h
        · exact pubSend_kept _ _ _ h
        · cases h
      · cases h : txRing a0 3 s with
        | none => rfl
        | some r => exact txRing_kept _ _ _ _ h

theorem takeFence_kept (a0 : Idx4) (s : State) (r : Msg × State) (hr : (takeFence a0 s) = some r) : kept r.2 = kept s := by
  unfold takeFence at hr
  obtain ⟨x, _, rfl⟩ := Option.map_eq_some_iff.1 hr
  rfl

@[simp] theorem fenceFlit_kept (a0 : Idx4) (s : State) : kept (fenceFlit a0 s) = kept s := by
  unfold fenceFlit
  split
  · rfl
  · rename_i m s1 h
    have hk : kept s1 = kept s := takeFence_kept _ _ _ h
    (repeat' split) <;> simp [hk]

@[simp] theorem fenceMissing_kept (s : State) : kept (fenceMissing s) = kept s := by
  simp [fenceMissing]

@[simp] theorem flrTrunks_kept (a0 : Nat) (s : State) : kept (flrTrunks a0 s) = kept s := by
  unfold flrTrunks
  split
  · rfl
  · rw [kept_foldl]
    intro s q; split <;> simp

@[simp] theorem flrClear_kept (a0 : Nat) (s : State) : kept (flrClear a0 s) = kept s := by
  unfold flrClear
  dsimp only
  rw [kept_mk, kept_eta, State_setReg_kept, mboxPut_kept]

@[simp] theorem flr_kept (a0 : Nat) (s : State) : kept (flr a0 s) = kept s := by
  unfold flr
  rw [flrTrunks_kept, flrClear_kept, kept_foldl]
  intro s q; split <;> simp

@[simp] theorem hqH2d_kept (a0 : HqDesc) (s : State) : kept (hqH2d a0 s).2 = kept s := by
  unfold hqH2d
  rw [kept_foldl_snd]
  intro a x; simp

@[simp] theorem hqRead_kept (a0 : Nat) (s : State) : kept (hqRead a0 s).2 = kept s := by
  unfold hqRead; (repeat' split) <;> simp_all

@[simp] theorem hqD2h_kept (a0 : HqDesc) (s : State) : kept (hqD2h a0 s).2 = kept s := by
  unfold hqD2h
  extract_lets r
  have h : kept r.2.2 = kept s := by
    simp only [r]
    rw [kept_foldl_thd]
    intro a x; dsimp only; split <;> simp
  split <;> simp [h]

theorem hqH2s_kept (a0 : HqDesc) (s : State) (r : HqDesc × State) (hr : (hqH2s a0 s) = some r) : kept r.2 = kept s := by
  unfold hqH2s at hr
  extract_lets acks bad s1 at hr
  split at hr
  · cases hr
  · cases hr; simp [s1]

theorem hqTransfer_kept (a0 : HqDesc) (a1 : List MemErr) (a2 : List LineErr) (s : State) (r : HqDesc × State) (hr :
    (hqTransfer a0 a1 a2 s) = some r) : kept r.2 = kept s := by
  unfold hqTransfer at hr
  split at hr
  · cases hr; rfl
  · split at hr
    · split at hr
      · cases hr
      · cases hr; simp
    · split at hr
      · cases hr
      · cases hr; simp
    · rw [hqH2s_kept _ _ _ hr, strike_kept]
    · cases hr; rfl

@[simp] theorem hqComplete_kept (a0 : Nat) (a1 : List MemErr) (a2 : List LineErr) (s : State) : kept (hqComplete a0 a1 a2 s)
    = kept s := by
  unfold hqComplete
  split
  · rfl
  · split
    · rfl
    · split
      · rfl
      · rename_i h
        have hk := hqTransfer_kept _ _ _ _ _ h
        simpa using hk

@[simp] theorem hqStart_kept (a0 : Nat) (a1 : List Nat) (a2 : List HostLine) (a3 : Option Nat) (s : State) : kept (hqStart a0
    a1 a2 a3 s) = kept s := by
  simp [hqStart]

@[simp] theorem servoEnter_kept (a0 : Nat) (s : State) : kept (servoEnter a0 s) = kept s := by
  simp [servoEnter]

@[simp] theorem servoFree_kept (a0 : Idx8) (s : State) : kept (servoFree a0 s) = kept s := by
  simp [servoFree]

@[simp] theorem servoShow_kept (a0 : Nat) (a1 : ℤ) (s : State) : kept (servoShow a0 a1 s) = kept s := by
  simp [servoShow]

@[simp] theorem servoFirst_kept (a0 : ℤ) (a1 : Nat) (a2 : Nat) (s : State) : kept (servoFirst a0 a1 a2 s) = kept s := by
  simp [servoFirst]

@[simp] theorem servoRate_kept (a0 : ℤ) (a1 : Nat) (a2 : Nat) (s : State) : kept (servoRate a0 a1 a2 s) = kept s := by
  unfold servoRate; (repeat' split) <;> simp_all

@[simp] theorem servoOffset_kept (a0 : Nat) (a1 : Nat) (a2 : Nat) (s : State) : kept (servoOffset a0 a1 a2 s) = kept s := by
  simp [servoOffset]

@[simp] theorem ptpSlave_kept (a0 : Idx8) (a1 : Bool) (a2 : Nat) (a3 : Nat) (a4 : Nat) (a5 : List Nat) (s : State) : kept
    (ptpSlave a0 a1 a2 a3 a4 a5 s) = kept s := by
  unfold ptpSlave; grind [modServo_kept, delayAsk_kept, servoOffset_kept, delaySet_kept, kept_mk, kept_eta, StartKept, LinkKept]

@[simp] theorem ptpPeer_kept (a0 : Idx8) (a1 : Nat) (a2 : Nat) (a3 : RxFrame) (a4 : List Nat) (s : State) : kept (ptpPeer a0
    a1 a2 a3 a4 s) = kept s := by
  unfold ptpPeer; grind [ptpSend_kept, modServo_kept, delaySet_kept, kept_mk, kept_eta, StartKept, LinkKept]

@[simp] theorem ptpHandle_kept (a0 : Idx8) (a1 : Bool) (a2 : Bool) (a3 : RxFrame) (s : State) : kept (ptpHandle a0 a1 a2 a3
    s) = kept s := by
  unfold ptpHandle
  extract_lets m sq type s1 s2
  have h1 : kept s1 = kept s := by simp only [s1]; split <;> simp
  have h2 : kept s2 = kept s := by simp only [s2]; (repeat' split) <;> simp [h1]
  clear_value s2
  split <;> simp [h2]

@[simp] theorem ptpMessage_kept (a0 : Idx8) (a1 : Bool) (a2 : Bool) (s : State) : kept (ptpMessage a0 a1 a2 s) = kept s := by
  unfold ptpMessage; (repeat' split) <;> simp_all

@[simp] theorem ptpSync_kept (a0 : Idx8) (s : State) : kept (ptpSync a0 s) = kept s := by
  simp [ptpSync]

@[simp] theorem publish_kept (a0 : Nat) (s : State) : kept (publish a0 s) = kept s := by
  unfold publish
  split
  · rfl
  · split
    · rfl
    · cases h : pubSend a0 s with
      | none => rfl
      | some r => exact pubSend_kept _ _ _ h

@[simp] theorem rawWrite_kept (a0 : Agent) (a1 : CoreId) (a2 : Nat) (a3 : BitVec 512) (s : State) : kept (rawWrite a0 a1 a2
    a3 s) = kept s := by
  unfold rawWrite; grind [seqTrap_kept, shelfWrite_kept, State_modCore_kept, kept_mk, kept_eta, StartKept, LinkKept]

@[simp] theorem servoHoldover_kept (s : State) : kept (servoHoldover s) = kept s := by
  simp [servoHoldover]

@[simp] theorem timeInEdge_kept (a0 : Fin 2) (a1 : Bool) (s : State) : kept (timeInEdge a0 a1 s) = kept s := by
  simp [timeInEdge]

@[simp] theorem timerExpire_kept (s : State) : kept (timerExpire s) = kept s := by
  unfold timerExpire
  (repeat' split) <;> simp

end Sys2Proof.Machine
end

