-- ==== Sys2Proof/Laws/KeptBus.lean ====
section
/-! SUPPORT. `kept` (Laws/Kept.lean) over the register bus and boot. -/

set_option maxRecDepth 4000
set_option exponentiation.threshold 1024

namespace Sys2Proof.Machine

open Sys2Proof

@[simp] theorem clearCounters_kept (a0 : Piece) (a1 : Word) (s : State) : kept (clearCounters a0 a1 s) = kept s := by
  unfold clearCounters; (repeat' split) <;> simp_all

@[simp] theorem frameCtrlWrite_kept (a0 : Word) (s : State) : kept (frameCtrlWrite a0 s) = kept s := by
  simp [frameCtrlWrite]

@[simp] theorem plainWrite_kept (a0 : Piece) (a1 : Word) (s : State) : kept (plainWrite a0 a1 s) = kept s := by
  unfold plainWrite; (repeat' split) <;> simp_all

@[simp] theorem writeSys_kept (a0 : Piece) (a1 : Word) (s : State) : kept (writeSys a0 a1 s) = kept s := by
  simp [writeSys]

@[simp] theorem writePwr_kept (a0 : Piece) (a1 : Word) (s : State) : kept (writePwr a0 a1 s) = kept s := by
  simp [writePwr]

@[simp] theorem writeTime_kept (a0 : Piece) (a1 : Word) (s : State) : kept (writeTime a0 a1 s) = kept s := by
  simp [writeTime]

@[simp] theorem ringCfgWrite_kept (a0 : Nat) (a1 : Bool) (a2 : Word) (s : State) : kept (ringCfgWrite a0 a1 a2 s) = kept s :=
    by
  simp [ringCfgWrite]

@[simp] theorem writePorts_kept (a0 : Piece) (a1 : Word) (s : State) : kept (writePorts a0 a1 s) = kept s := by
  simp [writePorts]

@[simp] theorem voxelWrite_kept (a0 : Word) (s : State) : kept (voxelWrite a0 s) = kept s := by
  simp [voxelWrite]

@[simp] theorem calCtrlWrite_kept (a0 : Word) (s : State) : kept (calCtrlWrite a0 s) = kept s := by
  simp [calCtrlWrite]

@[simp] theorem writeGrid_kept (a0 : Piece) (a1 : Word) (s : State) : kept (writeGrid a0 a1 s) = kept s := by
  simp [writeGrid]

@[simp] theorem writeMem_kept (a0 : Piece) (a1 : Word) (s : State) : kept (writeMem a0 a1 s) = kept s := by
  simp [writeMem]

@[simp] theorem hqCfgWrite_kept (a0 : Nat) (a1 : Word) (s : State) : kept (hqCfgWrite a0 a1 s) = kept s := by
  simp [hqCfgWrite]

@[simp] theorem writeHost_kept (a0 : Requester) (a1 : Piece) (a2 : Word) (s : State) : kept (writeHost a0 a1 a2 s) = kept s
    := by
  simp [writeHost]

@[simp] theorem fenceClearWrite_kept (a0 : Piece) (a1 : Word) (s : State) : kept (fenceClearWrite a0 a1 s) = kept s := by
  simp [fenceClearWrite]

@[simp] theorem safeCfgWrite_kept (a0 : Word) (s : State) : kept (safeCfgWrite a0 s) = kept s := by
  simp [safeCfgWrite]

@[simp] theorem writeTest_kept (a0 : Requester) (a1 : Piece) (a2 : Word) (s : State) : kept (writeTest a0 a1 a2 s) = kept s
    := by
  simp [writeTest]

@[simp] theorem secShow_kept (s : State) : kept (secShow s) = kept s := by
  simp [secShow]

@[simp] theorem fuseCmd_kept (a0 : Requester) (a1 : Word) (a2 : Bool) (s : State) (hq : a0 ≠ .sc) : kept (fuseCmd a0 a1 a2 s)
    = kept s := by
  unfold fuseCmd
  simp [hq]

@[simp] theorem measExt_kept (a0 : Word) (s : State) : kept (measExt a0 s) = kept s := by
  simp [measExt]

@[simp] theorem writeSec_kept (a0 : Requester) (a1 : Piece) (a2 : Word) (s : State) (hq : a0 ≠ .sc) : kept (writeSec a0 a1 a2
    s) = kept s := by
  unfold writeSec
  dsimp only
  (repeat' split) <;> simp [hq]

@[simp] theorem writeCore_kept (a0 : Requester) (a1 : CoreId) (a2 : Piece) (a3 : Word) (s : State) : kept (writeCore a0 a1 a2
    a3 s) = kept s := by
  simp [writeCore]

@[simp] theorem writePiece_kept (a0 : Requester) (a1 : Piece) (a2 : Word) (s : State) (hq : a0 ≠ .sc) : kept (writePiece a0
    a1 a2 s) = kept s := by
  unfold writePiece
  (repeat' split) <;> simp [hq]

@[simp] theorem busWrite_kept (a0 : Requester) (a1 : Nat) (a2 : Width) (a3 : Word) (s : State) (hq : a0 ≠ .sc) : kept
    (busWrite a0 a1 a2 a3 s) = kept s := by
  unfold busWrite
  split
  · simp
  · rw [kept_foldl]
    intro s x; split <;> simp [hq]

@[simp] theorem fwVerify_kept (a0 : List Nat) (s : State) : kept (fwVerify a0 s).2 = kept s := by
  unfold fwVerify
  split
  · rfl
  · dsimp only
    split
    · rfl
    · rw [countNoTime_kept]

@[simp] theorem loadRefs_kept (a0 : FwFile) (s : State) : kept (loadRefs a0 s) = kept s := by
  simp [loadRefs]

@[simp] theorem aliasIssue_kept (s : State) : kept (aliasIssue s) = kept s := by
  simp [aliasIssue]

@[simp] theorem measureBoot_kept (a0 : FwFile) (s : State) : kept (measureBoot a0 s) = kept s := by
  simp [measureBoot]

@[simp] theorem bootWake_kept (a0 : Nat) (s : State) : kept (bootWake a0 s) = kept s := by
  simp [bootWake]

@[simp] theorem bootService_kept (s : State) : kept (bootService s) = kept s := by
  simp [bootService]

@[simp] theorem cfgCopy_kept (a0 : Nat) (a1 : Nat) (a2 : Nat) (s : State) : kept (cfgCopy a0 a1 a2 s) = kept s := by
  simp [cfgCopy]

@[simp] theorem attest_kept (a0 : Nat) (a1 : List Nat) (s : State) : kept (attest a0 a1 s).s = kept s := by
  unfold attest
  (repeat' split) <;> simp

@[simp] theorem mboxCommand_kept (a0 : Nat) (a1 : List Nat) (s : State) : kept (mboxCommand a0 a1 s).s = kept s := by
  unfold mboxCommand
  (repeat' split) <;> simp

@[simp] theorem readNow_kept (a0 : Requester) (a1 : Piece) (s : State) : kept (readNow a0 a1 s).2 = kept s := by
  unfold readNow; (repeat' split) <;> simp_all

@[simp] theorem timedCount_kept (a0 : Piece) (s : State) : kept (timedCount a0 s) = kept s := by
  simp [timedCount]

@[simp] theorem readCount_kept (a0 : Requester) (a1 : Piece) (s : State) : kept (readCount a0 a1 s).2 = kept s := by
  unfold readCount
  extract_lets mine s1 v rest
  have h1 : kept s1 = kept s := by simp only [s1]; split <;> simp
  clear_value s1 mine rest v
  (repeat' split) <;> simp [h1]

@[simp] theorem readPiece_kept (a0 : Requester) (a1 : Piece) (s : State) : kept (readPiece a0 a1 s).2 = kept s := by
  unfold readPiece; grind [readNow_kept, tinCapRead_kept, latMaxRead_kept, readCount_kept, kept_mk, kept_eta, StartKept, LinkKept]

@[simp] theorem busReadVal_kept (a0 : Requester) (a1 : Nat) (a2 : Width) (s : State) : kept (busReadVal a0 a1 a2 s).2 = kept
    s := by
  unfold busReadVal
  split
  · simp
  · rw [kept_foldl_snd]
    intro a x; dsimp only; split <;> simp

@[simp] theorem cfgApply_kept (a0 : Nat) (a1 : List (List Nat)) (a2 : List Bool) (s : State) : kept (cfgApply a0 a1 a2 s).2 =
    kept s := by
  induction a0 generalizing a1 a2 s with
  | zero => rfl
  | succ n ih =>
    unfold cfgApply
    cases a1 with
    | nil => rfl
    | cons e es =>
      dsimp only
      (repeat' split) <;> simp [ih]

@[simp] theorem firmwareStart_kept (a0 : BitVec 8) (a1 : List Bool) (s : State) : kept (firmwareStart a0 a1 s) = kept s := by
  simp [firmwareStart]

@[simp] theorem setBoot_kept (a0 : Nat) (s : State) : kept (setBoot a0 s) = kept s := by
  simp [setBoot]

@[simp] theorem bootAccept_kept (a0 : FwFile) (a1 : Bool) (a2 : Bool) (a3 : BitVec 8) (a4 : List Bool) (s : State) : kept
    (bootAccept a0 a1 a2 a3 a4 s) = kept s := by
  simp [bootAccept]

@[simp] theorem bootFail_kept (s : State) : kept (bootFail s) = kept s := by
  simp [bootFail]

@[simp] theorem hostGo_kept (a0 : BitVec 8) (a1 : List Bool) (s : State) : kept (hostGo a0 a1 s) = kept s := by
  unfold hostGo; grind [fwVerify_kept, bootAccept_kept, bootFail_kept, kept_mk, kept_eta, StartKept, LinkKept]

@[simp] theorem accessWrite_kept (a0 : Requester) (a1 : Nat) (a2 : Width) (a3 : Word) (s : State) (hq : a0 ≠ .sc) : kept
    (accessWrite a0 a1 a2 a3 s) = kept s := by
  unfold accessWrite
  extract_lets go s1
  have h1 : kept s1 = kept s := busWrite_kept _ _ _ _ _ hq
  clear_value s1
  split <;> simp [h1]

@[simp] theorem busRead_kept (a0 : Requester) (a1 : Nat) (a2 : Width) (s : State) : kept (busRead a0 a1 a2 s) = kept s := by
  simp [busRead]

@[simp] theorem addrAccess_kept (a0 : Requester) (a1 : Nat) (a2 : Width) (a3 : Bool) (a4 : Word) (s : State) (hq : a0 ≠ .sc)
    : kept (addrAccess a0 a1 a2 a3 a4 s) = kept s := by
  unfold addrAccess; (repeat' split) <;> simp [hq]

theorem bootNext_kept (b : Bool) (next : State → Option (FwFile × Bool) × State) (h : ∀ s, kept (next s).2 = kept s) (r :
    Option FwFile × State) : kept (bootNext b next r).2 = kept r.2 := by
  unfold bootNext
  split
  · rfl
  · rw [h, bootFail_kept]

@[simp] theorem hostWait_kept (s : State) : kept (hostWait s) = kept s := by
  simp [hostWait]

@[simp] theorem bootSlots_kept (a0 : List Bool) (s : State) : kept (bootSlots a0 s).2 = kept s := by
  induction a0 generalizing s with
  | nil => rfl
  | cons b bs ih =>
    exact (bootNext_kept b _ ih _).trans (fwVerify_kept _ s)

@[simp] theorem bootRom_kept (a0 : BitVec 8) (a1 : List Bool) (s : State) : kept (bootRom a0 a1 s) = kept s := by
  unfold bootRom; grind [secShow_kept, hostWait_kept, setBoot_kept, State_setF_kept, bootSlots_kept, bootAccept_kept, raise_kept, safeCause_kept, kept_mk, kept_eta, StartKept, LinkKept]

@[simp] theorem debugChallenge_kept (s : State) : kept (debugChallenge s) = kept s := by
  simp [debugChallenge]

@[simp] theorem debugUnlock_kept (a0 : List Nat) (a1 : List Nat) (a2 : List Nat) (s : State) : kept (debugUnlock a0 a1 a2 s)
    = kept s := by
  simp [debugUnlock]

@[simp] theorem fusedRepairs_kept (s : State) : kept (fusedRepairs s) = kept s := by
  simp [fusedRepairs]

@[simp] theorem deviceReset_kept (a0 : BitVec 2) (s : State) : kept (deviceReset a0 s) = kept s := by
  simp [deviceReset]

end Sys2Proof.Machine
end

