-- ==== Sys2Proof/Laws/Fuses.lean ====
section
/-! SUPPORT. The fuse programmer, the one operation that changes fuses: what it may do, and the same of every command that can
reach it. -/

set_option maxRecDepth 4000

namespace Sys2Proof.Machine

open Sys2Proof Sys2Proof.Safety

/-- The waiting commands are the same, fuse bits only rise, and the fuses stay in a state that programming can reach. -/
def FuseGo (s t : State) : Prop :=
  t.pending = s.pending ∧ FuseRise s.fuse t.fuse ∧ (FuseOk s.fuse → FuseOk t.fuse)

theorem FuseRise_refl (f : FuseSt) : FuseRise f f := by simp [FuseRise]

theorem FuseRise_trans {f g h : FuseSt} (a : FuseRise f g) (b : FuseRise g h) : FuseRise f h := by
  obtain ⟨a1, a2, a3, a4, a5, a6, a7⟩ := a
  obtain ⟨b1, b2, b3, b4, b5, b6, b7⟩ := b
  refine ⟨?_, ?_, ?_, ?_, b5.trans a5, b6.trans a6, b7.trans a7⟩
  · rw [← a1, BitVec.and_assoc, b1]
  · rw [← a2, BitVec.and_assoc, b2]
  · rw [← a3, BitVec.and_assoc, b3]
  · rw [← a4, BitVec.and_assoc, b4]

theorem FuseGo_refl (s : State) : FuseGo s s := ⟨rfl, FuseRise_refl _, id⟩

theorem FuseGo_trans {s t u : State} (a : FuseGo s t) (b : FuseGo t u) : FuseGo s u :=
  ⟨b.1.trans a.1, FuseRise_trans a.2.1 b.2.1, fun h => b.2.2 (a.2.2 h)⟩

theorem FuseGo_of_kept {s t : State} (h : kept t = kept s) : FuseGo s t := by
  have h1 : t.pending = s.pending := congrArg Prod.fst h
  have h2 : t.fuse = s.fuse := congrArg Prod.snd h
  exact ⟨h1, by rw [h2]; exact FuseRise_refl _, by rw [h2]; exact id⟩

theorem FuseGo_foldl {β : Type} (l : List β) (g : State → β → State) (h : ∀ s x, FuseGo s (g s x)) (s : State) :
    FuseGo s (l.foldl g s) := by
  induction l generalizing s with
  | nil => exact FuseGo_refl s
  | cons x r ih => exact FuseGo_trans (h s x) (ih _)

theorem thermometer_thermo (n : Nat) (h : n ≤ 64) : thermometer (thermo n) := by
  have all : ∀ m : Fin 65, thermometer (thermo m.val) := by decide +kernel
  exact all ⟨n, by omega⟩

theorem thermometer_or {x y : BitVec 64} (hx : thermometer x) (hy : thermometer y) : thermometer (x ||| y) := by
  have e : ∀ {z : BitVec 64}, thermometer z → ∀ i, z.getLsbD (1 + i) = true → z.getLsbD i = true := by
    intro z h i hi
    have := congrArg (fun v => BitVec.getLsbD v i) h
    simp only [BitVec.getLsbD_and, BitVec.getLsbD_ushiftRight, hi, Bool.true_and] at this
    exact this
  apply BitVec.eq_of_getLsbD_eq
  intro i _
  simp only [BitVec.getLsbD_and, BitVec.getLsbD_ushiftRight, BitVec.getLsbD_or]
  cases h1 : x.getLsbD (1 + i) <;> cases h2 : y.getLsbD (1 + i)
  · simp
  · simp [e hy i h2]
  · simp [e hx i h1]
  · simp [e hx i h1]

theorem and_or_self {n : Nat} (x y : BitVec n) : x &&& (x ||| y) = x := by
  apply BitVec.eq_of_getLsbD_eq
  intro i _
  simp only [BitVec.getLsbD_and, BitVec.getLsbD_or]
  cases x.getLsbD i <;> rfl

/-- Programming one field, where the life cycle permits it and no counter passes its 64 bits. -/
theorem fuseProgram_go (field value : Nat) (s : State) (hp : fusePermits s field value = true)
    (hl : fuseLowers s field value = false) : FuseGo s (fuseProgram field value s) := by
  have k : ∀ t : State, (secShow t).pending = t.pending ∧ (secShow t).fuse = t.fuse := fun t =>
    ⟨congrArg Prod.fst (secShow_kept t), congrArg Prod.snd (secShow_kept t)⟩
  have ne : ∀ x : BitVec 384, x ||| 1 ≠ 0 := by
    intro x h
    have := congrArg (fun v => BitVec.getLsbD v 0) h
    simp at this
  simp only [fusePermits, fuseLowers] at hp hl
  unfold fuseProgram
  refine ⟨?_, ?_, ?_⟩
  · rw [(k _).1]; split <;> rfl
  · rw [(k _).2]
    split
    · simp only [State.drawn, FuseRise]
      refine ⟨by rw [BitVec.or_assoc]; exact and_or_self _ _, ?_, by simp, by simp, trivial, trivial, trivial⟩
      split
      · rename_i h; rw [h]; decide
      · simp
    · simp only [FuseRise]
      (repeat' split) <;> simp [and_or_self]
  · rw [(k _).2]
    rintro ⟨a, b, c, d⟩
    split
    · rename_i h1
      simp only [h1, if_true] at hp
      simp only [State.drawn]
      refine ⟨?_, b, c, fun _ => ne _⟩
      split
      · simp
      · exact a
    · rename_i h1
      simp only [h1, if_false] at hp hl ⊢
      split
      · rename_i h2
        simp only [h2, if_true] at hp
        have v : value = 1 ∧ s.fuse.lifecycle = 0 ∨ value = 7 ∧ (s.fuse.lifecycle = 1 ∨ s.fuse.lifecycle = 3) := by
          rcases a with a | a | a | a <;> rw [a] at hp <;> simp_all
        rcases v with ⟨rfl, v⟩ | ⟨rfl, v | v⟩ <;> simp only [v] <;> exact ⟨by simp, b, c, by simp⟩
      · rename_i h2
        simp only [h2, if_false] at hp hl ⊢
        split
        · rename_i h3
          simp only [h3, if_true, Bool.or_eq_false_iff, decide_eq_false_iff_not] at hl
          exact ⟨a, thermometer_or b (thermometer_thermo _ (by omega)), c, d⟩
        · rename_i h3
          simp only [h3, if_false, Bool.or_eq_false_iff, decide_eq_false_iff_not] at hl
          exact ⟨a, b, thermometer_or c (thermometer_thermo _ (by omega)), d⟩

theorem fuseCmd_go (req : Requester) (v : Word) (fail : Bool) (s : State) : FuseGo s (fuseCmd req v fail s) := by
  unfold fuseCmd
  simp only
  split
  · exact FuseGo_of_kept (by simp)
  · split
    · exact FuseGo_of_kept (by simp)
    · rename_i h
      simp only [Bool.or_eq_true, not_or, Bool.not_eq_true, Bool.not_eq_false'] at h
      exact fuseProgram_go _ _ s h.1.1.2 h.1.2

theorem writeSec_go (req : Requester) (p : Piece) (v : Word) (s : State) : FuseGo s (writeSec req p v s) := by
  by_cases hq : req = .sc
  · unfold writeSec
    simp only
    repeat' split
    all_goals first | exact fuseCmd_go _ _ _ _ | exact FuseGo_of_kept (by simp)
  · exact FuseGo_of_kept (writeSec_kept _ _ _ _ hq)

theorem writePiece_go (req : Requester) (p : Piece) (v : Word) (s : State) : FuseGo s (writePiece req p v s) := by
  unfold writePiece
  repeat' split
  all_goals first | exact writeSec_go _ _ _ _ | exact FuseGo_of_kept (by simp)

theorem busWrite_go (req : Requester) (o : Nat) (w : Width) (v : Word) (s : State) : FuseGo s (busWrite req o w v s) := by
  unfold busWrite
  split
  · exact FuseGo_of_kept (by simp)
  · apply FuseGo_foldl
    intro s x
    split
    · exact FuseGo_of_kept (by simp)
    · exact writePiece_go _ _ _ _

theorem accessWrite_go (req : Requester) (o : Nat) (w : Width) (v : Word) (s : State) : FuseGo s (accessWrite req o w v s) := by
  unfold accessWrite
  extract_lets go s1
  split
  · exact FuseGo_trans (busWrite_go _ _ _ _ _) (FuseGo_of_kept (hostGo_kept _ _ _))
  · exact busWrite_go _ _ _ _ _

theorem addrAccess_go (req : Requester) (addr : Nat) (w : Width) (wr : Bool) (v : Word) (s : State) :
    FuseGo s (addrAccess req addr w wr v s) := by
  by_cases hq : req = .sc
  · unfold addrAccess
    repeat' split
    all_goals first | exact accessWrite_go _ _ _ _ _ | exact FuseGo_of_kept (by simp)
  · exact FuseGo_of_kept (addrAccess_kept _ _ _ _ _ _ hq)

theorem svnRaise_go (field value old : Nat) (s : State) : FuseGo s (svnRaise field value old s) := by
  unfold svnRaise
  split
  · exact FuseGo_refl s
  · simp only
    split
    · exact fuseCmd_go _ _ _ _
    · exact FuseGo_trans (fuseCmd_go _ _ _ _) (FuseGo_of_kept (raise_kept _ _))

theorem svnAdvance_go (s : State) : FuseGo s (svnAdvance s) := by
  unfold svnAdvance
  repeat' split
  · exact FuseGo_refl s
  · exact FuseGo_refl s
  · exact FuseGo_trans (svnRaise_go _ _ _ _) (svnRaise_go _ _ _ _)

end Sys2Proof.Machine
end

