-- ==== Sys2Proof/Laws/Store.lean ====
section
/-! SUPPORT. Stores: a read after a write, writes apart, and the canonical form (keys strictly rising), which every operation
keeps. -/

namespace Sys2Proof.Machine

open Sys2Proof

@[simp] theorem sget_nil {α : Type} (k : Nat) : sget k ([] : Store α) = none := rfl

theorem sget_sput {α : Type} (j k : Nat) (v : α) (m : Store α) :
    sget j (sput k v m) = if j = k then some v else sget j m := by
  induction m with
  | nil => simp [sput, sget]
  | cons e r ih =>
    obtain ⟨k', v'⟩ := e
    simp only [sput]
    split
    · simp [sget]
    · split
      · rename_i h; subst h; simp only [sget]; split <;> rfl
      · rename_i h
        simp only [sget, ih]
        by_cases hj : j = k'
        · have : j ≠ k := by rintro rfl; exact h hj
          simp [hj]
          intro hk; exact absurd hk (fun e => h e.symm)
        · simp [hj]

theorem sget_sdel {α : Type} (j k : Nat) (m : Store α) : sget j (sdel k m) = if j = k then none else sget j m := by
  induction m with
  | nil => simp [sdel, sget]
  | cons e r ih =>
    obtain ⟨k', v'⟩ := e
    simp only [sdel]
    split
    · rename_i h; subst h
      rw [ih]
      split
      · rfl
      · rename_i hj; simp [sget, hj]
    · rename_i h
      simp only [sget, ih]
      by_cases hj : j = k'
      · have : j ≠ k := by rintro rfl; exact h hj
        simp [hj]
        intro hk; exact absurd hk (fun e => h e.symm)
      · simp [hj]

@[simp] theorem sget_sput_self {α : Type} (k : Nat) (v : α) (m : Store α) : sget k (sput k v m) = some v := by
  simp [sget_sput]

@[simp] theorem sget_sdel_self {α : Type} (k : Nat) (m : Store α) : sget k (sdel k m) = none := by simp [sget_sdel]

theorem sget_sput_ne {α : Type} {j k : Nat} (v : α) (m : Store α) (h : j ≠ k) : sget j (sput k v m) = sget j m := by
  simp [sget_sput, h]

theorem sget_sdel_ne {α : Type} {j k : Nat} (m : Store α) (h : j ≠ k) : sget j (sdel k m) = sget j m := by
  simp [sget_sdel, h]

/-- Every key of a store is above `b`. -/
def keysAbove {α : Type} (b : Nat) (m : Store α) : Prop := ∀ e ∈ m, b < e.1

theorem storeWf_cons {α : Type} (k : Nat) (v : α) (r : Store α) :
    storeWf ((k, v) :: r) = true ↔ keysAbove k r ∧ storeWf r = true := by
  induction r generalizing k v with
  | nil => simp [storeWf, keysAbove]
  | cons e r ih =>
    obtain ⟨k', v'⟩ := e
    simp only [storeWf, Bool.and_eq_true, decide_eq_true_eq]
    constructor
    · rintro ⟨h, hr⟩
      refine ⟨?_, hr⟩
      intro x hx
      rcases List.mem_cons.mp hx with rfl | hx
      · exact h
      · exact Nat.lt_trans h (((ih k' v').mp hr).1 x hx)
    · rintro ⟨h, hr⟩
      exact ⟨h (k', v') (by simp), hr⟩

theorem keysAbove_sput {α : Type} {b k : Nat} {v : α} {m : Store α} (hk : b < k) (h : keysAbove b m) :
    keysAbove b (sput k v m) := by
  induction m with
  | nil => intro e he; simp [sput] at he; subst he; exact hk
  | cons e r ih =>
    obtain ⟨k', v'⟩ := e
    have h1 : b < k' := h (k', v') (by simp)
    have h2 : keysAbove b r := fun x hx => h x (by simp [hx])
    simp only [sput]
    intro x hx
    split at hx
    · rcases List.mem_cons.mp hx with rfl | hx
      · exact hk
      · exact h x hx
    · split at hx
      · rcases List.mem_cons.mp hx with rfl | hx
        · exact hk
        · exact h2 x hx
      · rcases List.mem_cons.mp hx with rfl | hx
        · exact h1
        · exact ih h2 x hx

/-- A write keeps the canonical form. -/
theorem storeWf_sput {α : Type} (k : Nat) (v : α) (m : Store α) (h : storeWf m = true) : storeWf (sput k v m) = true := by
  induction m with
  | nil => rfl
  | cons e r ih =>
    obtain ⟨k', v'⟩ := e
    obtain ⟨ha, hr⟩ := (storeWf_cons k' v' r).mp h
    simp only [sput]
    split
    · rename_i hk
      refine (storeWf_cons k v _).mpr ⟨?_, h⟩
      intro x hx
      rcases List.mem_cons.mp hx with rfl | hx
      · exact hk
      · exact Nat.lt_trans hk (ha x hx)
    · split
      · rename_i hk; subst hk; exact (storeWf_cons k v r).mpr ⟨ha, hr⟩
      · exact (storeWf_cons k' v' _).mpr ⟨keysAbove_sput (by omega) ha, ih hr⟩

theorem sdel_sub {α : Type} (k : Nat) (m : Store α) : ∀ e ∈ sdel k m, e ∈ m := by
  induction m with
  | nil => simp [sdel]
  | cons e r ih =>
    obtain ⟨k', v'⟩ := e
    simp only [sdel]
    intro x hx
    split at hx
    · exact List.mem_cons_of_mem _ (ih x hx)
    · rcases List.mem_cons.mp hx with rfl | hx
      · simp
      · exact List.mem_cons_of_mem _ (ih x hx)

/-- A removal keeps the canonical form. -/
theorem storeWf_sdel {α : Type} (k : Nat) (m : Store α) (h : storeWf m = true) : storeWf (sdel k m) = true := by
  induction m with
  | nil => rfl
  | cons e r ih =>
    obtain ⟨k', v'⟩ := e
    obtain ⟨ha, hr⟩ := (storeWf_cons k' v' r).mp h
    simp only [sdel]
    split
    · exact ih hr
    · exact (storeWf_cons k' v' _).mpr ⟨fun x hx => ha x (sdel_sub k r x hx), ih hr⟩

end Sys2Proof.Machine
end

