-- ==== Sys2Proof/Laws/State.lean ====
section
/-! SUPPORT. What each update of the state leaves of every field, and what a read gives after it. -/

set_option maxRecDepth 4000

namespace Sys2Proof.Machine

open Sys2Proof

/-! ## setReg -/

@[simp] theorem setReg_pending (o : Nat) (v : Word) (s : State) : (s.setReg o v).pending = s.pending := by rfl

@[simp] theorem setReg_lastRead (o : Nat) (v : Word) (s : State) : (s.setReg o v).lastRead = s.lastRead := by rfl

@[simp] theorem setReg_freeCtr (o : Nat) (v : Word) (s : State) : (s.setReg o v).freeCtr = s.freeCtr := by rfl

@[simp] theorem setReg_act (o : Nat) (v : Word) (s : State) : (s.setReg o v).act = s.act := by rfl

@[simp] theorem setReg_latch (o : Nat) (v : Word) (s : State) : (s.setReg o v).latch = s.latch := by rfl

@[simp] theorem setReg_net (o : Nat) (v : Word) (s : State) : (s.setReg o v).net = s.net := by rfl

@[simp] theorem setReg_out (o : Nat) (v : Word) (s : State) : (s.setReg o v).out = s.out := by rfl

@[simp] theorem setReg_fwNotes (o : Nat) (v : Word) (s : State) : (s.setReg o v).fwNotes = s.fwNotes := by rfl

@[simp] theorem setReg_pcie (o : Nat) (v : Word) (s : State) : (s.setReg o v).pcie = s.pcie := by rfl

@[simp] theorem setReg_cores (o : Nat) (v : Word) (s : State) : (s.setReg o v).cores = s.cores := by rfl

@[simp] theorem setReg_time (o : Nat) (v : Word) (s : State) : (s.setReg o v).time = s.time := by rfl

@[simp] theorem setReg_flash (o : Nat) (v : Word) (s : State) : (s.setReg o v).flash = s.flash := by rfl

@[simp] theorem setReg_fuse (o : Nat) (v : Word) (s : State) : (s.setReg o v).fuse = s.fuse := by rfl

@[simp] theorem setReg_sec (o : Nat) (v : Word) (s : State) : (s.setReg o v).sec = s.sec := by rfl

@[simp] theorem setReg_logCopied (o : Nat) (v : Word) (s : State) : (s.setReg o v).logCopied = s.logCopied := by rfl

@[simp] theorem setReg_ingest (o : Nat) (v : Word) (s : State) : (s.setReg o v).ingest = s.ingest := by rfl

@[simp] theorem setReg_grid (o : Nat) (v : Word) (s : State) : (s.setReg o v).grid = s.grid := by rfl

@[simp] theorem setReg_cal (o : Nat) (v : Word) (s : State) : (s.setReg o v).cal = s.cal := by rfl

@[simp] theorem setReg_rb (o : Nat) (v : Word) (s : State) : (s.setReg o v).rb = s.rb := by rfl

@[simp] theorem setReg_map (o : Nat) (v : Word) (s : State) : (s.setReg o v).map = s.map := by rfl

@[simp] theorem setReg_frames (o : Nat) (v : Word) (s : State) : (s.setReg o v).frames = s.frames := by rfl

@[simp] theorem setReg_trunks (o : Nat) (v : Word) (s : State) : (s.setReg o v).trunks = s.trunks := by rfl

@[simp] theorem setReg_pwr (o : Nat) (v : Word) (s : State) : (s.setReg o v).pwr = s.pwr := by rfl

@[simp] theorem setReg_test (o : Nat) (v : Word) (s : State) : (s.setReg o v).test = s.test := by rfl

@[simp] theorem setReg_hq (o : Nat) (v : Word) (s : State) : (s.setReg o v).hq = s.hq := by rfl

@[simp] theorem setReg_mbox (o : Nat) (v : Word) (s : State) : (s.setReg o v).mbox = s.mbox := by rfl

@[simp] theorem setReg_loftLost (o : Nat) (v : Word) (s : State) : (s.setReg o v).loftLost = s.loftLost := by rfl

@[simp] theorem setReg_links (o : Nat) (v : Word) (s : State) : (s.setReg o v).links = s.links := by rfl

@[simp] theorem setReg_mem (o : Nat) (v : Word) (s : State) : (s.setReg o v).mem = s.mem := by rfl

@[simp] theorem setReg_pub (o : Nat) (v : Word) (s : State) : (s.setReg o v).pub = s.pub := by rfl

@[simp] theorem setReg_smu (o : Nat) (v : Word) (s : State) : (s.setReg o v).smu = s.smu := by rfl

/-! ## setAct -/

@[simp] theorem setAct_pending (o : Nat) (v : Word) (s : State) : (s.setAct o v).pending = s.pending := by rfl

@[simp] theorem setAct_lastRead (o : Nat) (v : Word) (s : State) : (s.setAct o v).lastRead = s.lastRead := by rfl

@[simp] theorem setAct_freeCtr (o : Nat) (v : Word) (s : State) : (s.setAct o v).freeCtr = s.freeCtr := by rfl

@[simp] theorem setAct_regs (o : Nat) (v : Word) (s : State) : (s.setAct o v).regs = s.regs := by rfl

@[simp] theorem setAct_latch (o : Nat) (v : Word) (s : State) : (s.setAct o v).latch = s.latch := by rfl

@[simp] theorem setAct_net (o : Nat) (v : Word) (s : State) : (s.setAct o v).net = s.net := by rfl

@[simp] theorem setAct_out (o : Nat) (v : Word) (s : State) : (s.setAct o v).out = s.out := by rfl

@[simp] theorem setAct_fwNotes (o : Nat) (v : Word) (s : State) : (s.setAct o v).fwNotes = s.fwNotes := by rfl

@[simp] theorem setAct_pcie (o : Nat) (v : Word) (s : State) : (s.setAct o v).pcie = s.pcie := by rfl

@[simp] theorem setAct_cores (o : Nat) (v : Word) (s : State) : (s.setAct o v).cores = s.cores := by rfl

@[simp] theorem setAct_time (o : Nat) (v : Word) (s : State) : (s.setAct o v).time = s.time := by rfl

@[simp] theorem setAct_flash (o : Nat) (v : Word) (s : State) : (s.setAct o v).flash = s.flash := by rfl

@[simp] theorem setAct_fuse (o : Nat) (v : Word) (s : State) : (s.setAct o v).fuse = s.fuse := by rfl

@[simp] theorem setAct_sec (o : Nat) (v : Word) (s : State) : (s.setAct o v).sec = s.sec := by rfl

@[simp] theorem setAct_logCopied (o : Nat) (v : Word) (s : State) : (s.setAct o v).logCopied = s.logCopied := by rfl

@[simp] theorem setAct_ingest (o : Nat) (v : Word) (s : State) : (s.setAct o v).ingest = s.ingest := by rfl

@[simp] theorem setAct_grid (o : Nat) (v : Word) (s : State) : (s.setAct o v).grid = s.grid := by rfl

@[simp] theorem setAct_cal (o : Nat) (v : Word) (s : State) : (s.setAct o v).cal = s.cal := by rfl

@[simp] theorem setAct_rb (o : Nat) (v : Word) (s : State) : (s.setAct o v).rb = s.rb := by rfl

@[simp] theorem setAct_map (o : Nat) (v : Word) (s : State) : (s.setAct o v).map = s.map := by rfl

@[simp] theorem setAct_frames (o : Nat) (v : Word) (s : State) : (s.setAct o v).frames = s.frames := by rfl

@[simp] theorem setAct_trunks (o : Nat) (v : Word) (s : State) : (s.setAct o v).trunks = s.trunks := by rfl

@[simp] theorem setAct_pwr (o : Nat) (v : Word) (s : State) : (s.setAct o v).pwr = s.pwr := by rfl

@[simp] theorem setAct_test (o : Nat) (v : Word) (s : State) : (s.setAct o v).test = s.test := by rfl

@[simp] theorem setAct_hq (o : Nat) (v : Word) (s : State) : (s.setAct o v).hq = s.hq := by rfl

@[simp] theorem setAct_mbox (o : Nat) (v : Word) (s : State) : (s.setAct o v).mbox = s.mbox := by rfl

@[simp] theorem setAct_loftLost (o : Nat) (v : Word) (s : State) : (s.setAct o v).loftLost = s.loftLost := by rfl

@[simp] theorem setAct_links (o : Nat) (v : Word) (s : State) : (s.setAct o v).links = s.links := by rfl

@[simp] theorem setAct_mem (o : Nat) (v : Word) (s : State) : (s.setAct o v).mem = s.mem := by rfl

@[simp] theorem setAct_pub (o : Nat) (v : Word) (s : State) : (s.setAct o v).pub = s.pub := by rfl

@[simp] theorem setAct_smu (o : Nat) (v : Word) (s : State) : (s.setAct o v).smu = s.smu := by rfl

/-! ## setCore -/

@[simp] theorem setCore_pending (c : CoreId) (k : CoreSt) (s : State) : (s.setCore c k).pending = s.pending := by rfl

@[simp] theorem setCore_lastRead (c : CoreId) (k : CoreSt) (s : State) : (s.setCore c k).lastRead = s.lastRead := by rfl

@[simp] theorem setCore_freeCtr (c : CoreId) (k : CoreSt) (s : State) : (s.setCore c k).freeCtr = s.freeCtr := by rfl

@[simp] theorem setCore_regs (c : CoreId) (k : CoreSt) (s : State) : (s.setCore c k).regs = s.regs := by rfl

@[simp] theorem setCore_act (c : CoreId) (k : CoreSt) (s : State) : (s.setCore c k).act = s.act := by rfl

@[simp] theorem setCore_latch (c : CoreId) (k : CoreSt) (s : State) : (s.setCore c k).latch = s.latch := by rfl

@[simp] theorem setCore_net (c : CoreId) (k : CoreSt) (s : State) : (s.setCore c k).net = s.net := by rfl

@[simp] theorem setCore_out (c : CoreId) (k : CoreSt) (s : State) : (s.setCore c k).out = s.out := by rfl

@[simp] theorem setCore_fwNotes (c : CoreId) (k : CoreSt) (s : State) : (s.setCore c k).fwNotes = s.fwNotes := by rfl

@[simp] theorem setCore_pcie (c : CoreId) (k : CoreSt) (s : State) : (s.setCore c k).pcie = s.pcie := by rfl

@[simp] theorem setCore_time (c : CoreId) (k : CoreSt) (s : State) : (s.setCore c k).time = s.time := by rfl

@[simp] theorem setCore_flash (c : CoreId) (k : CoreSt) (s : State) : (s.setCore c k).flash = s.flash := by rfl

@[simp] theorem setCore_fuse (c : CoreId) (k : CoreSt) (s : State) : (s.setCore c k).fuse = s.fuse := by rfl

@[simp] theorem setCore_sec (c : CoreId) (k : CoreSt) (s : State) : (s.setCore c k).sec = s.sec := by rfl

@[simp] theorem setCore_logCopied (c : CoreId) (k : CoreSt) (s : State) : (s.setCore c k).logCopied = s.logCopied := by rfl

@[simp] theorem setCore_ingest (c : CoreId) (k : CoreSt) (s : State) : (s.setCore c k).ingest = s.ingest := by rfl

@[simp] theorem setCore_grid (c : CoreId) (k : CoreSt) (s : State) : (s.setCore c k).grid = s.grid := by rfl

@[simp] theorem setCore_cal (c : CoreId) (k : CoreSt) (s : State) : (s.setCore c k).cal = s.cal := by rfl

@[simp] theorem setCore_rb (c : CoreId) (k : CoreSt) (s : State) : (s.setCore c k).rb = s.rb := by rfl

@[simp] theorem setCore_map (c : CoreId) (k : CoreSt) (s : State) : (s.setCore c k).map = s.map := by rfl

@[simp] theorem setCore_frames (c : CoreId) (k : CoreSt) (s : State) : (s.setCore c k).frames = s.frames := by rfl

@[simp] theorem setCore_trunks (c : CoreId) (k : CoreSt) (s : State) : (s.setCore c k).trunks = s.trunks := by rfl

@[simp] theorem setCore_pwr (c : CoreId) (k : CoreSt) (s : State) : (s.setCore c k).pwr = s.pwr := by rfl

@[simp] theorem setCore_test (c : CoreId) (k : CoreSt) (s : State) : (s.setCore c k).test = s.test := by rfl

@[simp] theorem setCore_hq (c : CoreId) (k : CoreSt) (s : State) : (s.setCore c k).hq = s.hq := by rfl

@[simp] theorem setCore_mbox (c : CoreId) (k : CoreSt) (s : State) : (s.setCore c k).mbox = s.mbox := by rfl

@[simp] theorem setCore_loftLost (c : CoreId) (k : CoreSt) (s : State) : (s.setCore c k).loftLost = s.loftLost := by rfl

@[simp] theorem setCore_links (c : CoreId) (k : CoreSt) (s : State) : (s.setCore c k).links = s.links := by rfl

@[simp] theorem setCore_mem (c : CoreId) (k : CoreSt) (s : State) : (s.setCore c k).mem = s.mem := by rfl

@[simp] theorem setCore_pub (c : CoreId) (k : CoreSt) (s : State) : (s.setCore c k).pub = s.pub := by rfl

@[simp] theorem setCore_smu (c : CoreId) (k : CoreSt) (s : State) : (s.setCore c k).smu = s.smu := by rfl

/-! ## modCore -/

@[simp] theorem modCore_pending (c : CoreId) (f : CoreSt → CoreSt) (s : State) : (s.modCore c f).pending = s.pending := by rfl

@[simp] theorem modCore_lastRead (c : CoreId) (f : CoreSt → CoreSt) (s : State) : (s.modCore c f).lastRead = s.lastRead := by rfl

@[simp] theorem modCore_freeCtr (c : CoreId) (f : CoreSt → CoreSt) (s : State) : (s.modCore c f).freeCtr = s.freeCtr := by rfl

@[simp] theorem modCore_regs (c : CoreId) (f : CoreSt → CoreSt) (s : State) : (s.modCore c f).regs = s.regs := by rfl

@[simp] theorem modCore_act (c : CoreId) (f : CoreSt → CoreSt) (s : State) : (s.modCore c f).act = s.act := by rfl

@[simp] theorem modCore_latch (c : CoreId) (f : CoreSt → CoreSt) (s : State) : (s.modCore c f).latch = s.latch := by rfl

@[simp] theorem modCore_net (c : CoreId) (f : CoreSt → CoreSt) (s : State) : (s.modCore c f).net = s.net := by rfl

@[simp] theorem modCore_out (c : CoreId) (f : CoreSt → CoreSt) (s : State) : (s.modCore c f).out = s.out := by rfl

@[simp] theorem modCore_fwNotes (c : CoreId) (f : CoreSt → CoreSt) (s : State) : (s.modCore c f).fwNotes = s.fwNotes := by rfl

@[simp] theorem modCore_pcie (c : CoreId) (f : CoreSt → CoreSt) (s : State) : (s.modCore c f).pcie = s.pcie := by rfl

@[simp] theorem modCore_time (c : CoreId) (f : CoreSt → CoreSt) (s : State) : (s.modCore c f).time = s.time := by rfl

@[simp] theorem modCore_flash (c : CoreId) (f : CoreSt → CoreSt) (s : State) : (s.modCore c f).flash = s.flash := by rfl

@[simp] theorem modCore_fuse (c : CoreId) (f : CoreSt → CoreSt) (s : State) : (s.modCore c f).fuse = s.fuse := by rfl

@[simp] theorem modCore_sec (c : CoreId) (f : CoreSt → CoreSt) (s : State) : (s.modCore c f).sec = s.sec := by rfl

@[simp] theorem modCore_logCopied (c : CoreId) (f : CoreSt → CoreSt) (s : State) : (s.modCore c f).logCopied = s.logCopied := by rfl

@[simp] theorem modCore_ingest (c : CoreId) (f : CoreSt → CoreSt) (s : State) : (s.modCore c f).ingest = s.ingest := by rfl

@[simp] theorem modCore_grid (c : CoreId) (f : CoreSt → CoreSt) (s : State) : (s.modCore c f).grid = s.grid := by rfl

@[simp] theorem modCore_cal (c : CoreId) (f : CoreSt → CoreSt) (s : State) : (s.modCore c f).cal = s.cal := by rfl

@[simp] theorem modCore_rb (c : CoreId) (f : CoreSt → CoreSt) (s : State) : (s.modCore c f).rb = s.rb := by rfl

@[simp] theorem modCore_map (c : CoreId) (f : CoreSt → CoreSt) (s : State) : (s.modCore c f).map = s.map := by rfl

@[simp] theorem modCore_frames (c : CoreId) (f : CoreSt → CoreSt) (s : State) : (s.modCore c f).frames = s.frames := by rfl

@[simp] theorem modCore_trunks (c : CoreId) (f : CoreSt → CoreSt) (s : State) : (s.modCore c f).trunks = s.trunks := by rfl

@[simp] theorem modCore_pwr (c : CoreId) (f : CoreSt → CoreSt) (s : State) : (s.modCore c f).pwr = s.pwr := by rfl

@[simp] theorem modCore_test (c : CoreId) (f : CoreSt → CoreSt) (s : State) : (s.modCore c f).test = s.test := by rfl

@[simp] theorem modCore_hq (c : CoreId) (f : CoreSt → CoreSt) (s : State) : (s.modCore c f).hq = s.hq := by rfl

@[simp] theorem modCore_mbox (c : CoreId) (f : CoreSt → CoreSt) (s : State) : (s.modCore c f).mbox = s.mbox := by rfl

@[simp] theorem modCore_loftLost (c : CoreId) (f : CoreSt → CoreSt) (s : State) : (s.modCore c f).loftLost = s.loftLost := by rfl

@[simp] theorem modCore_links (c : CoreId) (f : CoreSt → CoreSt) (s : State) : (s.modCore c f).links = s.links := by rfl

@[simp] theorem modCore_mem (c : CoreId) (f : CoreSt → CoreSt) (s : State) : (s.modCore c f).mem = s.mem := by rfl

@[simp] theorem modCore_pub (c : CoreId) (f : CoreSt → CoreSt) (s : State) : (s.modCore c f).pub = s.pub := by rfl

@[simp] theorem modCore_smu (c : CoreId) (f : CoreSt → CoreSt) (s : State) : (s.modCore c f).smu = s.smu := by rfl

/-! ## send -/

@[simp] theorem send_pending (m : Msg) (s : State) : (s.send m).pending = s.pending := by rfl

@[simp] theorem send_lastRead (m : Msg) (s : State) : (s.send m).lastRead = s.lastRead := by rfl

@[simp] theorem send_freeCtr (m : Msg) (s : State) : (s.send m).freeCtr = s.freeCtr := by rfl

@[simp] theorem send_regs (m : Msg) (s : State) : (s.send m).regs = s.regs := by rfl

@[simp] theorem send_act (m : Msg) (s : State) : (s.send m).act = s.act := by rfl

@[simp] theorem send_latch (m : Msg) (s : State) : (s.send m).latch = s.latch := by rfl

@[simp] theorem send_out (m : Msg) (s : State) : (s.send m).out = s.out := by rfl

@[simp] theorem send_fwNotes (m : Msg) (s : State) : (s.send m).fwNotes = s.fwNotes := by rfl

@[simp] theorem send_pcie (m : Msg) (s : State) : (s.send m).pcie = s.pcie := by rfl

@[simp] theorem send_cores (m : Msg) (s : State) : (s.send m).cores = s.cores := by rfl

@[simp] theorem send_time (m : Msg) (s : State) : (s.send m).time = s.time := by rfl

@[simp] theorem send_flash (m : Msg) (s : State) : (s.send m).flash = s.flash := by rfl

@[simp] theorem send_fuse (m : Msg) (s : State) : (s.send m).fuse = s.fuse := by rfl

@[simp] theorem send_sec (m : Msg) (s : State) : (s.send m).sec = s.sec := by rfl

@[simp] theorem send_logCopied (m : Msg) (s : State) : (s.send m).logCopied = s.logCopied := by rfl

@[simp] theorem send_ingest (m : Msg) (s : State) : (s.send m).ingest = s.ingest := by rfl

@[simp] theorem send_grid (m : Msg) (s : State) : (s.send m).grid = s.grid := by rfl

@[simp] theorem send_cal (m : Msg) (s : State) : (s.send m).cal = s.cal := by rfl

@[simp] theorem send_rb (m : Msg) (s : State) : (s.send m).rb = s.rb := by rfl

@[simp] theorem send_map (m : Msg) (s : State) : (s.send m).map = s.map := by rfl

@[simp] theorem send_frames (m : Msg) (s : State) : (s.send m).frames = s.frames := by rfl

@[simp] theorem send_trunks (m : Msg) (s : State) : (s.send m).trunks = s.trunks := by rfl

@[simp] theorem send_pwr (m : Msg) (s : State) : (s.send m).pwr = s.pwr := by rfl

@[simp] theorem send_test (m : Msg) (s : State) : (s.send m).test = s.test := by rfl

@[simp] theorem send_hq (m : Msg) (s : State) : (s.send m).hq = s.hq := by rfl

@[simp] theorem send_mbox (m : Msg) (s : State) : (s.send m).mbox = s.mbox := by rfl

@[simp] theorem send_loftLost (m : Msg) (s : State) : (s.send m).loftLost = s.loftLost := by rfl

@[simp] theorem send_links (m : Msg) (s : State) : (s.send m).links = s.links := by rfl

@[simp] theorem send_mem (m : Msg) (s : State) : (s.send m).mem = s.mem := by rfl

@[simp] theorem send_pub (m : Msg) (s : State) : (s.send m).pub = s.pub := by rfl

@[simp] theorem send_smu (m : Msg) (s : State) : (s.send m).smu = s.smu := by rfl

/-! ## emit -/

@[simp] theorem emit_pending (o : Out) (s : State) : (s.emit o).pending = s.pending := by rfl

@[simp] theorem emit_lastRead (o : Out) (s : State) : (s.emit o).lastRead = s.lastRead := by rfl

@[simp] theorem emit_freeCtr (o : Out) (s : State) : (s.emit o).freeCtr = s.freeCtr := by rfl

@[simp] theorem emit_regs (o : Out) (s : State) : (s.emit o).regs = s.regs := by rfl

@[simp] theorem emit_act (o : Out) (s : State) : (s.emit o).act = s.act := by rfl

@[simp] theorem emit_latch (o : Out) (s : State) : (s.emit o).latch = s.latch := by rfl

@[simp] theorem emit_net (o : Out) (s : State) : (s.emit o).net = s.net := by rfl

@[simp] theorem emit_fwNotes (o : Out) (s : State) : (s.emit o).fwNotes = s.fwNotes := by rfl

@[simp] theorem emit_pcie (o : Out) (s : State) : (s.emit o).pcie = s.pcie := by rfl

@[simp] theorem emit_cores (o : Out) (s : State) : (s.emit o).cores = s.cores := by rfl

@[simp] theorem emit_time (o : Out) (s : State) : (s.emit o).time = s.time := by rfl

@[simp] theorem emit_flash (o : Out) (s : State) : (s.emit o).flash = s.flash := by rfl

@[simp] theorem emit_fuse (o : Out) (s : State) : (s.emit o).fuse = s.fuse := by rfl

@[simp] theorem emit_sec (o : Out) (s : State) : (s.emit o).sec = s.sec := by rfl

@[simp] theorem emit_logCopied (o : Out) (s : State) : (s.emit o).logCopied = s.logCopied := by rfl

@[simp] theorem emit_ingest (o : Out) (s : State) : (s.emit o).ingest = s.ingest := by rfl

@[simp] theorem emit_grid (o : Out) (s : State) : (s.emit o).grid = s.grid := by rfl

@[simp] theorem emit_cal (o : Out) (s : State) : (s.emit o).cal = s.cal := by rfl

@[simp] theorem emit_rb (o : Out) (s : State) : (s.emit o).rb = s.rb := by rfl

@[simp] theorem emit_map (o : Out) (s : State) : (s.emit o).map = s.map := by rfl

@[simp] theorem emit_frames (o : Out) (s : State) : (s.emit o).frames = s.frames := by rfl

@[simp] theorem emit_trunks (o : Out) (s : State) : (s.emit o).trunks = s.trunks := by rfl

@[simp] theorem emit_pwr (o : Out) (s : State) : (s.emit o).pwr = s.pwr := by rfl

@[simp] theorem emit_test (o : Out) (s : State) : (s.emit o).test = s.test := by rfl

@[simp] theorem emit_hq (o : Out) (s : State) : (s.emit o).hq = s.hq := by rfl

@[simp] theorem emit_mbox (o : Out) (s : State) : (s.emit o).mbox = s.mbox := by rfl

@[simp] theorem emit_loftLost (o : Out) (s : State) : (s.emit o).loftLost = s.loftLost := by rfl

@[simp] theorem emit_links (o : Out) (s : State) : (s.emit o).links = s.links := by rfl

@[simp] theorem emit_mem (o : Out) (s : State) : (s.emit o).mem = s.mem := by rfl

@[simp] theorem emit_pub (o : Out) (s : State) : (s.emit o).pub = s.pub := by rfl

@[simp] theorem emit_smu (o : Out) (s : State) : (s.emit o).smu = s.smu := by rfl

/-! ## drawn -/

@[simp] theorem drawn_pending (s : State) : (s.drawn).pending = s.pending := by rfl

@[simp] theorem drawn_lastRead (s : State) : (s.drawn).lastRead = s.lastRead := by rfl

@[simp] theorem drawn_regs (s : State) : (s.drawn).regs = s.regs := by rfl

@[simp] theorem drawn_act (s : State) : (s.drawn).act = s.act := by rfl

@[simp] theorem drawn_latch (s : State) : (s.drawn).latch = s.latch := by rfl

@[simp] theorem drawn_net (s : State) : (s.drawn).net = s.net := by rfl

@[simp] theorem drawn_out (s : State) : (s.drawn).out = s.out := by rfl

@[simp] theorem drawn_fwNotes (s : State) : (s.drawn).fwNotes = s.fwNotes := by rfl

@[simp] theorem drawn_pcie (s : State) : (s.drawn).pcie = s.pcie := by rfl

@[simp] theorem drawn_cores (s : State) : (s.drawn).cores = s.cores := by rfl

@[simp] theorem drawn_time (s : State) : (s.drawn).time = s.time := by rfl

@[simp] theorem drawn_flash (s : State) : (s.drawn).flash = s.flash := by rfl

@[simp] theorem drawn_fuse (s : State) : (s.drawn).fuse = s.fuse := by rfl

@[simp] theorem drawn_sec (s : State) : (s.drawn).sec = s.sec := by rfl

@[simp] theorem drawn_logCopied (s : State) : (s.drawn).logCopied = s.logCopied := by rfl

@[simp] theorem drawn_ingest (s : State) : (s.drawn).ingest = s.ingest := by rfl

@[simp] theorem drawn_grid (s : State) : (s.drawn).grid = s.grid := by rfl

@[simp] theorem drawn_cal (s : State) : (s.drawn).cal = s.cal := by rfl

@[simp] theorem drawn_rb (s : State) : (s.drawn).rb = s.rb := by rfl

@[simp] theorem drawn_map (s : State) : (s.drawn).map = s.map := by rfl

@[simp] theorem drawn_frames (s : State) : (s.drawn).frames = s.frames := by rfl

@[simp] theorem drawn_trunks (s : State) : (s.drawn).trunks = s.trunks := by rfl

@[simp] theorem drawn_pwr (s : State) : (s.drawn).pwr = s.pwr := by rfl

@[simp] theorem drawn_test (s : State) : (s.drawn).test = s.test := by rfl

@[simp] theorem drawn_hq (s : State) : (s.drawn).hq = s.hq := by rfl

@[simp] theorem drawn_mbox (s : State) : (s.drawn).mbox = s.mbox := by rfl

@[simp] theorem drawn_loftLost (s : State) : (s.drawn).loftLost = s.loftLost := by rfl

@[simp] theorem drawn_links (s : State) : (s.drawn).links = s.links := by rfl

@[simp] theorem drawn_mem (s : State) : (s.drawn).mem = s.mem := by rfl

@[simp] theorem drawn_pub (s : State) : (s.drawn).pub = s.pub := by rfl

@[simp] theorem drawn_smu (s : State) : (s.drawn).smu = s.smu := by rfl

/-! ## Choices -/

@[simp] theorem ite_pending (c : Prop) [Decidable c] (a b : State) : (if c then a else b).pending = if c then a.pending else b.pending := by
  split <;> rfl

@[simp] theorem ite_lastRead (c : Prop) [Decidable c] (a b : State) : (if c then a else b).lastRead = if c then a.lastRead else b.lastRead := by
  split <;> rfl

@[simp] theorem ite_freeCtr (c : Prop) [Decidable c] (a b : State) : (if c then a else b).freeCtr = if c then a.freeCtr else b.freeCtr := by
  split <;> rfl

@[simp] theorem ite_regs (c : Prop) [Decidable c] (a b : State) : (if c then a else b).regs = if c then a.regs else b.regs := by
  split <;> rfl

@[simp] theorem ite_act (c : Prop) [Decidable c] (a b : State) : (if c then a else b).act = if c then a.act else b.act := by
  split <;> rfl

@[simp] theorem ite_latch (c : Prop) [Decidable c] (a b : State) : (if c then a else b).latch = if c then a.latch else b.latch := by
  split <;> rfl

@[simp] theorem ite_net (c : Prop) [Decidable c] (a b : State) : (if c then a else b).net = if c then a.net else b.net := by
  split <;> rfl

@[simp] theorem ite_out (c : Prop) [Decidable c] (a b : State) : (if c then a else b).out = if c then a.out else b.out := by
  split <;> rfl

@[simp] theorem ite_fwNotes (c : Prop) [Decidable c] (a b : State) : (if c then a else b).fwNotes = if c then a.fwNotes else b.fwNotes := by
  split <;> rfl

@[simp] theorem ite_pcie (c : Prop) [Decidable c] (a b : State) : (if c then a else b).pcie = if c then a.pcie else b.pcie := by
  split <;> rfl

@[simp] theorem ite_cores (c : Prop) [Decidable c] (a b : State) : (if c then a else b).cores = if c then a.cores else b.cores := by
  split <;> rfl

@[simp] theorem ite_time (c : Prop) [Decidable c] (a b : State) : (if c then a else b).time = if c then a.time else b.time := by
  split <;> rfl

@[simp] theorem ite_flash (c : Prop) [Decidable c] (a b : State) : (if c then a else b).flash = if c then a.flash else b.flash := by
  split <;> rfl

@[simp] theorem ite_fuse (c : Prop) [Decidable c] (a b : State) : (if c then a else b).fuse = if c then a.fuse else b.fuse := by
  split <;> rfl

@[simp] theorem ite_sec (c : Prop) [Decidable c] (a b : State) : (if c then a else b).sec = if c then a.sec else b.sec := by
  split <;> rfl

@[simp] theorem ite_logCopied (c : Prop) [Decidable c] (a b : State) : (if c then a else b).logCopied = if c then a.logCopied else b.logCopied := by
  split <;> rfl

@[simp] theorem ite_ingest (c : Prop) [Decidable c] (a b : State) : (if c then a else b).ingest = if c then a.ingest else b.ingest := by
  split <;> rfl

@[simp] theorem ite_grid (c : Prop) [Decidable c] (a b : State) : (if c then a else b).grid = if c then a.grid else b.grid := by
  split <;> rfl

@[simp] theorem ite_cal (c : Prop) [Decidable c] (a b : State) : (if c then a else b).cal = if c then a.cal else b.cal := by
  split <;> rfl

@[simp] theorem ite_rb (c : Prop) [Decidable c] (a b : State) : (if c then a else b).rb = if c then a.rb else b.rb := by
  split <;> rfl

@[simp] theorem ite_map (c : Prop) [Decidable c] (a b : State) : (if c then a else b).map = if c then a.map else b.map := by
  split <;> rfl

@[simp] theorem ite_frames (c : Prop) [Decidable c] (a b : State) : (if c then a else b).frames = if c then a.frames else b.frames := by
  split <;> rfl

@[simp] theorem ite_trunks (c : Prop) [Decidable c] (a b : State) : (if c then a else b).trunks = if c then a.trunks else b.trunks := by
  split <;> rfl

@[simp] theorem ite_pwr (c : Prop) [Decidable c] (a b : State) : (if c then a else b).pwr = if c then a.pwr else b.pwr := by
  split <;> rfl

@[simp] theorem ite_test (c : Prop) [Decidable c] (a b : State) : (if c then a else b).test = if c then a.test else b.test := by
  split <;> rfl

@[simp] theorem ite_hq (c : Prop) [Decidable c] (a b : State) : (if c then a else b).hq = if c then a.hq else b.hq := by
  split <;> rfl

@[simp] theorem ite_mbox (c : Prop) [Decidable c] (a b : State) : (if c then a else b).mbox = if c then a.mbox else b.mbox := by
  split <;> rfl

@[simp] theorem ite_loftLost (c : Prop) [Decidable c] (a b : State) : (if c then a else b).loftLost = if c then a.loftLost else b.loftLost := by
  split <;> rfl

@[simp] theorem ite_links (c : Prop) [Decidable c] (a b : State) : (if c then a else b).links = if c then a.links else b.links := by
  split <;> rfl

@[simp] theorem ite_mem (c : Prop) [Decidable c] (a b : State) : (if c then a else b).mem = if c then a.mem else b.mem := by
  split <;> rfl

@[simp] theorem ite_pub (c : Prop) [Decidable c] (a b : State) : (if c then a else b).pub = if c then a.pub else b.pub := by
  split <;> rfl

@[simp] theorem ite_smu (c : Prop) [Decidable c] (a b : State) : (if c then a else b).smu = if c then a.smu else b.smu := by
  split <;> rfl

/-! ## Reading back -/

theorem reg_setReg (o p : Nat) (v : Word) (s : State) : (s.setReg o v).reg p = if p = o then v else s.reg p := by
  unfold State.reg State.setReg
  by_cases h : v = regReset o
  · by_cases hp : p = o
    · subst hp; simp [h]
    · simp [h, hp, sget_sdel]
  · by_cases hp : p = o
    · subst hp; simp [h]
    · simp [h, hp, sget_sput]

@[simp] theorem reg_setReg_self (o : Nat) (v : Word) (s : State) : (s.setReg o v).reg o = v := by simp [reg_setReg]

theorem reg_setReg_ne {o p : Nat} (v : Word) (s : State) (h : p ≠ o) : (s.setReg o v).reg p = s.reg p := by simp [reg_setReg, h]

theorem actReg_setAct (o p : Nat) (v : Word) (s : State) : (s.setAct o v).actReg p = if p = o then v else s.actReg p := by
  unfold State.actReg State.setAct
  by_cases h : v = regReset o
  · by_cases hp : p = o
    · subst hp; simp [h]
    · simp [h, hp, sget_sdel]
  · by_cases hp : p = o
    · subst hp; simp [h]
    · simp [h, hp, sget_sput]

@[simp] theorem reg_setAct (o p : Nat) (v : Word) (s : State) : (s.setAct o v).reg p = s.reg p := by rfl

@[simp] theorem actReg_setReg (o p : Nat) (v : Word) (s : State) : (s.setReg o v).actReg p = s.actReg p := by rfl

@[simp] theorem reg_setCore (c : CoreId) (k : CoreSt) (o : Nat) (s : State) : (s.setCore c k).reg o = s.reg o := by rfl

@[simp] theorem reg_modCore (c : CoreId) (f : CoreSt → CoreSt) (o : Nat) (s : State) : (s.modCore c f).reg o = s.reg o := by
  rfl

@[simp] theorem actReg_setCore (c : CoreId) (k : CoreSt) (o : Nat) (s : State) : (s.setCore c k).actReg o = s.actReg o := by
  rfl

@[simp] theorem actReg_modCore (c : CoreId) (f : CoreSt → CoreSt) (o : Nat) (s : State) :
    (s.modCore c f).actReg o = s.actReg o := by rfl

@[simp] theorem reg_send (m : Msg) (o : Nat) (s : State) : (s.send m).reg o = s.reg o := by rfl

@[simp] theorem reg_emit (m : Out) (o : Nat) (s : State) : (s.emit m).reg o = s.reg o := by rfl

@[simp] theorem reg_drawn (o : Nat) (s : State) : s.drawn.reg o = s.reg o := by rfl

@[simp] theorem actReg_send (m : Msg) (o : Nat) (s : State) : (s.send m).actReg o = s.actReg o := by rfl

@[simp] theorem actReg_emit (m : Out) (o : Nat) (s : State) : (s.emit m).actReg o = s.actReg o := by rfl

@[simp] theorem actReg_drawn (o : Nat) (s : State) : s.drawn.actReg o = s.actReg o := by rfl

@[simp] theorem core_setCore (s : State) (c : CoreId) (k : CoreSt) : (s.setCore c k).core c = k := by
  simp [State.core, State.setCore]

@[simp] theorem core_modCore (s : State) (c : CoreId) (f : CoreSt → CoreSt) : (s.modCore c f).core c = f (s.core c) := by
  simp [State.modCore]

theorem core_setCore_ne (s : State) {c d : CoreId} (k : CoreSt) (h : d ≠ c) : (s.setCore c k).core d = s.core d := by
  have : ¬ c.val = d.val := fun e => h (Fin.ext e.symm)
  simp [State.core, State.setCore, this]

theorem core_modCore_ne (s : State) {c d : CoreId} (f : CoreSt → CoreSt) (h : d ≠ c) : (s.modCore c f).core d = s.core d :=
  core_setCore_ne s _ h

@[simp] theorem core_setReg (o : Nat) (v : Word) (s : State) (d : CoreId) : (s.setReg o v).core d = s.core d := by rfl

@[simp] theorem core_setAct (o : Nat) (v : Word) (s : State) (d : CoreId) : (s.setAct o v).core d = s.core d := by rfl

@[simp] theorem core_send (m : Msg) (s : State) (d : CoreId) : (s.send m).core d = s.core d := by rfl

@[simp] theorem core_emit (o : Out) (s : State) (d : CoreId) : (s.emit o).core d = s.core d := by rfl

@[simp] theorem core_drawn (s : State) (d : CoreId) : s.drawn.core d = s.core d := by rfl

@[simp] theorem core_ite (c : Prop) [Decidable c] (a b : State) (d : CoreId) :
    (if c then a else b).core d = if c then a.core d else b.core d := by split <;> rfl

@[simp] theorem reg_ite (c : Prop) [Decidable c] (a b : State) (o : Nat) :
    (if c then a else b).reg o = if c then a.reg o else b.reg o := by split <;> rfl

@[simp] theorem actReg_ite (c : Prop) [Decidable c] (a b : State) (o : Nat) :
    (if c then a else b).actReg o = if c then a.actReg o else b.actReg o := by split <;> rfl

@[simp] theorem core_mk (pending : _) (lastRead : _) (freeCtr : _) (regs : _) (act : _) (latch : _) (net : _) (out : _)
    (fwNotes : _) (pcie : _) (cores : _) (time : _) (flash : _) (fuse : _) (sec : _) (logCopied : _) (ingest : _) (grid
    : _) (cal : _) (rb : _) (map : _) (frames : _) (trunks : _) (pwr : _) (test : _) (hq : _) (mbox : _) (loftLost : _)
    (links : _) (mem : _) (pub : _) (smu : _) (d : CoreId) : State.core (State.mk pending lastRead freeCtr regs act
    latch net out fwNotes pcie cores time flash fuse sec logCopied ingest grid cal rb map frames trunks pwr test hq mbox
    loftLost links mem pub smu) d = cores[d.val] := by rfl

@[simp] theorem reg_mk (pending : _) (lastRead : _) (freeCtr : _) (regs : _) (act : _) (latch : _) (net : _) (out : _)
    (fwNotes : _) (pcie : _) (cores : _) (time : _) (flash : _) (fuse : _) (sec : _) (logCopied : _) (ingest : _) (grid
    : _) (cal : _) (rb : _) (map : _) (frames : _) (trunks : _) (pwr : _) (test : _) (hq : _) (mbox : _) (loftLost : _)
    (links : _) (mem : _) (pub : _) (smu : _) (x : Nat) : State.reg (State.mk pending lastRead freeCtr regs act latch
    net out fwNotes pcie cores time flash fuse sec logCopied ingest grid cal rb map frames trunks pwr test hq mbox
    loftLost links mem pub smu) x = (sget x regs).getD (regReset x) := by rfl

@[simp] theorem actReg_mk (pending : _) (lastRead : _) (freeCtr : _) (regs : _) (act : _) (latch : _) (net : _) (out :
    _) (fwNotes : _) (pcie : _) (cores : _) (time : _) (flash : _) (fuse : _) (sec : _) (logCopied : _) (ingest : _)
    (grid : _) (cal : _) (rb : _) (map : _) (frames : _) (trunks : _) (pwr : _) (test : _) (hq : _) (mbox : _) (loftLost
    : _) (links : _) (mem : _) (pub : _) (smu : _) (x : Nat) : State.actReg (State.mk pending lastRead freeCtr regs act
    latch net out fwNotes pcie cores time flash fuse sec logCopied ingest grid cal rb map frames trunks pwr test hq mbox
    loftLost links mem pub smu) x = (sget x act).getD (regReset x) := by rfl

@[simp] theorem core_eta (s : State) (d : CoreId) : s.cores[d.val] = s.core d := by rfl

@[simp] theorem reg_eta (s : State) (o : Nat) : (sget o s.regs).getD (regReset o) = s.reg o := by rfl

@[simp] theorem actReg_eta (s : State) (o : Nat) : (sget o s.act).getD (regReset o) = s.actReg o := by rfl

end Sys2Proof.Machine
end

