-- ==== Sys2Proof/Laws/Ops.lean ====
section
/-! SUPPORT. The shared operations that report something: raising an event, counting, the fault log and a core's trap. One lemma
for each field that they leave alone. -/

set_option maxRecDepth 4000

namespace Sys2Proof.Machine

open Sys2Proof

@[simp] theorem setPend_pending (e : Nat) (s : State) : (s.setPend e).pending = s.pending := by rfl

@[simp] theorem raiseN_pending (n e : Nat) (s : State) : (raiseN n e s).pending = s.pending := by
  induction n generalizing e s with
  | zero => rfl
  | succ n ih => simp [raiseN, ih]

@[simp] theorem raise_pending (e : Nat) (s : State) : (raise e s).pending = s.pending := raiseN_pending 2 e s

@[simp] theorem bumpN_pending (o n : Nat) (s : State) : (bumpN o n s).pending = s.pending := by
  simp [bumpN]

@[simp] theorem bump_pending (o : Nat) (s : State) : (bump o s).pending = s.pending := bumpN_pending o 1 s

@[simp] theorem bumpC_pending (c : CoreId) (o : Nat) (s : State) : (bumpC c o s).pending = s.pending := bump_pending _ s

@[simp] theorem setPend_lastRead (e : Nat) (s : State) : (s.setPend e).lastRead = s.lastRead := by rfl

@[simp] theorem raiseN_lastRead (n e : Nat) (s : State) : (raiseN n e s).lastRead = s.lastRead := by
  induction n generalizing e s with
  | zero => rfl
  | succ n ih => simp [raiseN, ih]

@[simp] theorem raise_lastRead (e : Nat) (s : State) : (raise e s).lastRead = s.lastRead := raiseN_lastRead 2 e s

@[simp] theorem bumpN_lastRead (o n : Nat) (s : State) : (bumpN o n s).lastRead = s.lastRead := by
  simp [bumpN]

@[simp] theorem bump_lastRead (o : Nat) (s : State) : (bump o s).lastRead = s.lastRead := bumpN_lastRead o 1 s

@[simp] theorem bumpC_lastRead (c : CoreId) (o : Nat) (s : State) : (bumpC c o s).lastRead = s.lastRead := bump_lastRead _ s

@[simp] theorem setPend_freeCtr (e : Nat) (s : State) : (s.setPend e).freeCtr = s.freeCtr := by rfl

@[simp] theorem raiseN_freeCtr (n e : Nat) (s : State) : (raiseN n e s).freeCtr = s.freeCtr := by
  induction n generalizing e s with
  | zero => rfl
  | succ n ih => simp [raiseN, ih]

@[simp] theorem raise_freeCtr (e : Nat) (s : State) : (raise e s).freeCtr = s.freeCtr := raiseN_freeCtr 2 e s

@[simp] theorem bumpN_freeCtr (o n : Nat) (s : State) : (bumpN o n s).freeCtr = s.freeCtr := by
  simp [bumpN]

@[simp] theorem bump_freeCtr (o : Nat) (s : State) : (bump o s).freeCtr = s.freeCtr := bumpN_freeCtr o 1 s

@[simp] theorem bumpC_freeCtr (c : CoreId) (o : Nat) (s : State) : (bumpC c o s).freeCtr = s.freeCtr := bump_freeCtr _ s

@[simp] theorem setPend_act (e : Nat) (s : State) : (s.setPend e).act = s.act := by rfl

@[simp] theorem raiseN_act (n e : Nat) (s : State) : (raiseN n e s).act = s.act := by
  induction n generalizing e s with
  | zero => rfl
  | succ n ih => simp [raiseN, ih]

@[simp] theorem raise_act (e : Nat) (s : State) : (raise e s).act = s.act := raiseN_act 2 e s

@[simp] theorem bumpN_act (o n : Nat) (s : State) : (bumpN o n s).act = s.act := by
  simp [bumpN]

@[simp] theorem bump_act (o : Nat) (s : State) : (bump o s).act = s.act := bumpN_act o 1 s

@[simp] theorem bumpC_act (c : CoreId) (o : Nat) (s : State) : (bumpC c o s).act = s.act := bump_act _ s

@[simp] theorem setPend_latch (e : Nat) (s : State) : (s.setPend e).latch = s.latch := by rfl

@[simp] theorem raiseN_latch (n e : Nat) (s : State) : (raiseN n e s).latch = s.latch := by
  induction n generalizing e s with
  | zero => rfl
  | succ n ih => simp [raiseN, ih]

@[simp] theorem raise_latch (e : Nat) (s : State) : (raise e s).latch = s.latch := raiseN_latch 2 e s

@[simp] theorem bumpN_latch (o n : Nat) (s : State) : (bumpN o n s).latch = s.latch := by
  simp [bumpN]

@[simp] theorem bump_latch (o : Nat) (s : State) : (bump o s).latch = s.latch := bumpN_latch o 1 s

@[simp] theorem bumpC_latch (c : CoreId) (o : Nat) (s : State) : (bumpC c o s).latch = s.latch := bump_latch _ s

@[simp] theorem setPend_net (e : Nat) (s : State) : (s.setPend e).net = s.net := by rfl

@[simp] theorem raiseN_net (n e : Nat) (s : State) : (raiseN n e s).net = s.net := by
  induction n generalizing e s with
  | zero => rfl
  | succ n ih => simp [raiseN, ih]

@[simp] theorem raise_net (e : Nat) (s : State) : (raise e s).net = s.net := raiseN_net 2 e s

@[simp] theorem bumpN_net (o n : Nat) (s : State) : (bumpN o n s).net = s.net := by
  simp [bumpN]

@[simp] theorem bump_net (o : Nat) (s : State) : (bump o s).net = s.net := bumpN_net o 1 s

@[simp] theorem bumpC_net (c : CoreId) (o : Nat) (s : State) : (bumpC c o s).net = s.net := bump_net _ s

@[simp] theorem setPend_cores (e : Nat) (s : State) : (s.setPend e).cores = s.cores := by rfl

@[simp] theorem raiseN_cores (n e : Nat) (s : State) : (raiseN n e s).cores = s.cores := by
  induction n generalizing e s with
  | zero => rfl
  | succ n ih => simp [raiseN, ih]

@[simp] theorem raise_cores (e : Nat) (s : State) : (raise e s).cores = s.cores := raiseN_cores 2 e s

@[simp] theorem bumpN_cores (o n : Nat) (s : State) : (bumpN o n s).cores = s.cores := by
  simp [bumpN]

@[simp] theorem bump_cores (o : Nat) (s : State) : (bump o s).cores = s.cores := bumpN_cores o 1 s

@[simp] theorem bumpC_cores (c : CoreId) (o : Nat) (s : State) : (bumpC c o s).cores = s.cores := bump_cores _ s

@[simp] theorem setPend_time (e : Nat) (s : State) : (s.setPend e).time = s.time := by rfl

@[simp] theorem raiseN_time (n e : Nat) (s : State) : (raiseN n e s).time = s.time := by
  induction n generalizing e s with
  | zero => rfl
  | succ n ih => simp [raiseN, ih]

@[simp] theorem raise_time (e : Nat) (s : State) : (raise e s).time = s.time := raiseN_time 2 e s

@[simp] theorem bumpN_time (o n : Nat) (s : State) : (bumpN o n s).time = s.time := by
  simp [bumpN]

@[simp] theorem bump_time (o : Nat) (s : State) : (bump o s).time = s.time := bumpN_time o 1 s

@[simp] theorem bumpC_time (c : CoreId) (o : Nat) (s : State) : (bumpC c o s).time = s.time := bump_time _ s

@[simp] theorem setPend_flash (e : Nat) (s : State) : (s.setPend e).flash = s.flash := by rfl

@[simp] theorem raiseN_flash (n e : Nat) (s : State) : (raiseN n e s).flash = s.flash := by
  induction n generalizing e s with
  | zero => rfl
  | succ n ih => simp [raiseN, ih]

@[simp] theorem raise_flash (e : Nat) (s : State) : (raise e s).flash = s.flash := raiseN_flash 2 e s

@[simp] theorem bumpN_flash (o n : Nat) (s : State) : (bumpN o n s).flash = s.flash := by
  simp [bumpN]

@[simp] theorem bump_flash (o : Nat) (s : State) : (bump o s).flash = s.flash := bumpN_flash o 1 s

@[simp] theorem bumpC_flash (c : CoreId) (o : Nat) (s : State) : (bumpC c o s).flash = s.flash := bump_flash _ s

@[simp] theorem setPend_fuse (e : Nat) (s : State) : (s.setPend e).fuse = s.fuse := by rfl

@[simp] theorem raiseN_fuse (n e : Nat) (s : State) : (raiseN n e s).fuse = s.fuse := by
  induction n generalizing e s with
  | zero => rfl
  | succ n ih => simp [raiseN, ih]

@[simp] theorem raise_fuse (e : Nat) (s : State) : (raise e s).fuse = s.fuse := raiseN_fuse 2 e s

@[simp] theorem bumpN_fuse (o n : Nat) (s : State) : (bumpN o n s).fuse = s.fuse := by
  simp [bumpN]

@[simp] theorem bump_fuse (o : Nat) (s : State) : (bump o s).fuse = s.fuse := bumpN_fuse o 1 s

@[simp] theorem bumpC_fuse (c : CoreId) (o : Nat) (s : State) : (bumpC c o s).fuse = s.fuse := bump_fuse _ s

@[simp] theorem setPend_sec (e : Nat) (s : State) : (s.setPend e).sec = s.sec := by rfl

@[simp] theorem raiseN_sec (n e : Nat) (s : State) : (raiseN n e s).sec = s.sec := by
  induction n generalizing e s with
  | zero => rfl
  | succ n ih => simp [raiseN, ih]

@[simp] theorem raise_sec (e : Nat) (s : State) : (raise e s).sec = s.sec := raiseN_sec 2 e s

@[simp] theorem bumpN_sec (o n : Nat) (s : State) : (bumpN o n s).sec = s.sec := by
  simp [bumpN]

@[simp] theorem bump_sec (o : Nat) (s : State) : (bump o s).sec = s.sec := bumpN_sec o 1 s

@[simp] theorem bumpC_sec (c : CoreId) (o : Nat) (s : State) : (bumpC c o s).sec = s.sec := bump_sec _ s

@[simp] theorem setPend_logCopied (e : Nat) (s : State) : (s.setPend e).logCopied = s.logCopied := by rfl

@[simp] theorem raiseN_logCopied (n e : Nat) (s : State) : (raiseN n e s).logCopied = s.logCopied := by
  induction n generalizing e s with
  | zero => rfl
  | succ n ih => simp [raiseN, ih]

@[simp] theorem raise_logCopied (e : Nat) (s : State) : (raise e s).logCopied = s.logCopied := raiseN_logCopied 2 e s

@[simp] theorem bumpN_logCopied (o n : Nat) (s : State) : (bumpN o n s).logCopied = s.logCopied := by
  simp [bumpN]

@[simp] theorem bump_logCopied (o : Nat) (s : State) : (bump o s).logCopied = s.logCopied := bumpN_logCopied o 1 s

@[simp] theorem bumpC_logCopied (c : CoreId) (o : Nat) (s : State) : (bumpC c o s).logCopied = s.logCopied := bump_logCopied _ s

@[simp] theorem setPend_ingest (e : Nat) (s : State) : (s.setPend e).ingest = s.ingest := by rfl

@[simp] theorem raiseN_ingest (n e : Nat) (s : State) : (raiseN n e s).ingest = s.ingest := by
  induction n generalizing e s with
  | zero => rfl
  | succ n ih => simp [raiseN, ih]

@[simp] theorem raise_ingest (e : Nat) (s : State) : (raise e s).ingest = s.ingest := raiseN_ingest 2 e s

@[simp] theorem bumpN_ingest (o n : Nat) (s : State) : (bumpN o n s).ingest = s.ingest := by
  simp [bumpN]

@[simp] theorem bump_ingest (o : Nat) (s : State) : (bump o s).ingest = s.ingest := bumpN_ingest o 1 s

@[simp] theorem bumpC_ingest (c : CoreId) (o : Nat) (s : State) : (bumpC c o s).ingest = s.ingest := bump_ingest _ s

@[simp] theorem setPend_grid (e : Nat) (s : State) : (s.setPend e).grid = s.grid := by rfl

@[simp] theorem raiseN_grid (n e : Nat) (s : State) : (raiseN n e s).grid = s.grid := by
  induction n generalizing e s with
  | zero => rfl
  | succ n ih => simp [raiseN, ih]

@[simp] theorem raise_grid (e : Nat) (s : State) : (raise e s).grid = s.grid := raiseN_grid 2 e s

@[simp] theorem bumpN_grid (o n : Nat) (s : State) : (bumpN o n s).grid = s.grid := by
  simp [bumpN]

@[simp] theorem bump_grid (o : Nat) (s : State) : (bump o s).grid = s.grid := bumpN_grid o 1 s

@[simp] theorem bumpC_grid (c : CoreId) (o : Nat) (s : State) : (bumpC c o s).grid = s.grid := bump_grid _ s

@[simp] theorem setPend_cal (e : Nat) (s : State) : (s.setPend e).cal = s.cal := by rfl

@[simp] theorem raiseN_cal (n e : Nat) (s : State) : (raiseN n e s).cal = s.cal := by
  induction n generalizing e s with
  | zero => rfl
  | succ n ih => simp [raiseN, ih]

@[simp] theorem raise_cal (e : Nat) (s : State) : (raise e s).cal = s.cal := raiseN_cal 2 e s

@[simp] theorem bumpN_cal (o n : Nat) (s : State) : (bumpN o n s).cal = s.cal := by
  simp [bumpN]

@[simp] theorem bump_cal (o : Nat) (s : State) : (bump o s).cal = s.cal := bumpN_cal o 1 s

@[simp] theorem bumpC_cal (c : CoreId) (o : Nat) (s : State) : (bumpC c o s).cal = s.cal := bump_cal _ s

@[simp] theorem setPend_rb (e : Nat) (s : State) : (s.setPend e).rb = s.rb := by rfl

@[simp] theorem raiseN_rb (n e : Nat) (s : State) : (raiseN n e s).rb = s.rb := by
  induction n generalizing e s with
  | zero => rfl
  | succ n ih => simp [raiseN, ih]

@[simp] theorem raise_rb (e : Nat) (s : State) : (raise e s).rb = s.rb := raiseN_rb 2 e s

@[simp] theorem bumpN_rb (o n : Nat) (s : State) : (bumpN o n s).rb = s.rb := by
  simp [bumpN]

@[simp] theorem bump_rb (o : Nat) (s : State) : (bump o s).rb = s.rb := bumpN_rb o 1 s

@[simp] theorem bumpC_rb (c : CoreId) (o : Nat) (s : State) : (bumpC c o s).rb = s.rb := bump_rb _ s

@[simp] theorem setPend_map (e : Nat) (s : State) : (s.setPend e).map = s.map := by rfl

@[simp] theorem raiseN_map (n e : Nat) (s : State) : (raiseN n e s).map = s.map := by
  induction n generalizing e s with
  | zero => rfl
  | succ n ih => simp [raiseN, ih]

@[simp] theorem raise_map (e : Nat) (s : State) : (raise e s).map = s.map := raiseN_map 2 e s

@[simp] theorem bumpN_map (o n : Nat) (s : State) : (bumpN o n s).map = s.map := by
  simp [bumpN]

@[simp] theorem bump_map (o : Nat) (s : State) : (bump o s).map = s.map := bumpN_map o 1 s

@[simp] theorem bumpC_map (c : CoreId) (o : Nat) (s : State) : (bumpC c o s).map = s.map := bump_map _ s

@[simp] theorem setPend_frames (e : Nat) (s : State) : (s.setPend e).frames = s.frames := by rfl

@[simp] theorem raiseN_frames (n e : Nat) (s : State) : (raiseN n e s).frames = s.frames := by
  induction n generalizing e s with
  | zero => rfl
  | succ n ih => simp [raiseN, ih]

@[simp] theorem raise_frames (e : Nat) (s : State) : (raise e s).frames = s.frames := raiseN_frames 2 e s

@[simp] theorem bumpN_frames (o n : Nat) (s : State) : (bumpN o n s).frames = s.frames := by
  simp [bumpN]

@[simp] theorem bump_frames (o : Nat) (s : State) : (bump o s).frames = s.frames := bumpN_frames o 1 s

@[simp] theorem bumpC_frames (c : CoreId) (o : Nat) (s : State) : (bumpC c o s).frames = s.frames := bump_frames _ s

@[simp] theorem setPend_trunks (e : Nat) (s : State) : (s.setPend e).trunks = s.trunks := by rfl

@[simp] theorem raiseN_trunks (n e : Nat) (s : State) : (raiseN n e s).trunks = s.trunks := by
  induction n generalizing e s with
  | zero => rfl
  | succ n ih => simp [raiseN, ih]

@[simp] theorem raise_trunks (e : Nat) (s : State) : (raise e s).trunks = s.trunks := raiseN_trunks 2 e s

@[simp] theorem bumpN_trunks (o n : Nat) (s : State) : (bumpN o n s).trunks = s.trunks := by
  simp [bumpN]

@[simp] theorem bump_trunks (o : Nat) (s : State) : (bump o s).trunks = s.trunks := bumpN_trunks o 1 s

@[simp] theorem bumpC_trunks (c : CoreId) (o : Nat) (s : State) : (bumpC c o s).trunks = s.trunks := bump_trunks _ s

@[simp] theorem setPend_pwr (e : Nat) (s : State) : (s.setPend e).pwr = s.pwr := by rfl

@[simp] theorem raiseN_pwr (n e : Nat) (s : State) : (raiseN n e s).pwr = s.pwr := by
  induction n generalizing e s with
  | zero => rfl
  | succ n ih => simp [raiseN, ih]

@[simp] theorem raise_pwr (e : Nat) (s : State) : (raise e s).pwr = s.pwr := raiseN_pwr 2 e s

@[simp] theorem bumpN_pwr (o n : Nat) (s : State) : (bumpN o n s).pwr = s.pwr := by
  simp [bumpN]

@[simp] theorem bump_pwr (o : Nat) (s : State) : (bump o s).pwr = s.pwr := bumpN_pwr o 1 s

@[simp] theorem bumpC_pwr (c : CoreId) (o : Nat) (s : State) : (bumpC c o s).pwr = s.pwr := bump_pwr _ s

@[simp] theorem setPend_test (e : Nat) (s : State) : (s.setPend e).test = s.test := by rfl

@[simp] theorem raiseN_test (n e : Nat) (s : State) : (raiseN n e s).test = s.test := by
  induction n generalizing e s with
  | zero => rfl
  | succ n ih => simp [raiseN, ih]

@[simp] theorem raise_test (e : Nat) (s : State) : (raise e s).test = s.test := raiseN_test 2 e s

@[simp] theorem bumpN_test (o n : Nat) (s : State) : (bumpN o n s).test = s.test := by
  simp [bumpN]

@[simp] theorem bump_test (o : Nat) (s : State) : (bump o s).test = s.test := bumpN_test o 1 s

@[simp] theorem bumpC_test (c : CoreId) (o : Nat) (s : State) : (bumpC c o s).test = s.test := bump_test _ s

@[simp] theorem setPend_hq (e : Nat) (s : State) : (s.setPend e).hq = s.hq := by rfl

@[simp] theorem raiseN_hq (n e : Nat) (s : State) : (raiseN n e s).hq = s.hq := by
  induction n generalizing e s with
  | zero => rfl
  | succ n ih => simp [raiseN, ih]

@[simp] theorem raise_hq (e : Nat) (s : State) : (raise e s).hq = s.hq := raiseN_hq 2 e s

@[simp] theorem bumpN_hq (o n : Nat) (s : State) : (bumpN o n s).hq = s.hq := by
  simp [bumpN]

@[simp] theorem bump_hq (o : Nat) (s : State) : (bump o s).hq = s.hq := bumpN_hq o 1 s

@[simp] theorem bumpC_hq (c : CoreId) (o : Nat) (s : State) : (bumpC c o s).hq = s.hq := bump_hq _ s

@[simp] theorem setPend_mbox (e : Nat) (s : State) : (s.setPend e).mbox = s.mbox := by rfl

@[simp] theorem raiseN_mbox (n e : Nat) (s : State) : (raiseN n e s).mbox = s.mbox := by
  induction n generalizing e s with
  | zero => rfl
  | succ n ih => simp [raiseN, ih]

@[simp] theorem raise_mbox (e : Nat) (s : State) : (raise e s).mbox = s.mbox := raiseN_mbox 2 e s

@[simp] theorem bumpN_mbox (o n : Nat) (s : State) : (bumpN o n s).mbox = s.mbox := by
  simp [bumpN]

@[simp] theorem bump_mbox (o : Nat) (s : State) : (bump o s).mbox = s.mbox := bumpN_mbox o 1 s

@[simp] theorem bumpC_mbox (c : CoreId) (o : Nat) (s : State) : (bumpC c o s).mbox = s.mbox := bump_mbox _ s

@[simp] theorem setPend_loftLost (e : Nat) (s : State) : (s.setPend e).loftLost = s.loftLost := by rfl

@[simp] theorem raiseN_loftLost (n e : Nat) (s : State) : (raiseN n e s).loftLost = s.loftLost := by
  induction n generalizing e s with
  | zero => rfl
  | succ n ih => simp [raiseN, ih]

@[simp] theorem raise_loftLost (e : Nat) (s : State) : (raise e s).loftLost = s.loftLost := raiseN_loftLost 2 e s

@[simp] theorem bumpN_loftLost (o n : Nat) (s : State) : (bumpN o n s).loftLost = s.loftLost := by
  simp [bumpN]

@[simp] theorem bump_loftLost (o : Nat) (s : State) : (bump o s).loftLost = s.loftLost := bumpN_loftLost o 1 s

@[simp] theorem bumpC_loftLost (c : CoreId) (o : Nat) (s : State) : (bumpC c o s).loftLost = s.loftLost := bump_loftLost _ s

@[simp] theorem setPend_links (e : Nat) (s : State) : (s.setPend e).links = s.links := by rfl

@[simp] theorem raiseN_links (n e : Nat) (s : State) : (raiseN n e s).links = s.links := by
  induction n generalizing e s with
  | zero => rfl
  | succ n ih => simp [raiseN, ih]

@[simp] theorem raise_links (e : Nat) (s : State) : (raise e s).links = s.links := raiseN_links 2 e s

@[simp] theorem bumpN_links (o n : Nat) (s : State) : (bumpN o n s).links = s.links := by
  simp [bumpN]

@[simp] theorem bump_links (o : Nat) (s : State) : (bump o s).links = s.links := bumpN_links o 1 s

@[simp] theorem bumpC_links (c : CoreId) (o : Nat) (s : State) : (bumpC c o s).links = s.links := bump_links _ s

@[simp] theorem setPend_mem (e : Nat) (s : State) : (s.setPend e).mem = s.mem := by rfl

@[simp] theorem raiseN_mem (n e : Nat) (s : State) : (raiseN n e s).mem = s.mem := by
  induction n generalizing e s with
  | zero => rfl
  | succ n ih => simp [raiseN, ih]

@[simp] theorem raise_mem (e : Nat) (s : State) : (raise e s).mem = s.mem := raiseN_mem 2 e s

@[simp] theorem bumpN_mem (o n : Nat) (s : State) : (bumpN o n s).mem = s.mem := by
  simp [bumpN]

@[simp] theorem bump_mem (o : Nat) (s : State) : (bump o s).mem = s.mem := bumpN_mem o 1 s

@[simp] theorem bumpC_mem (c : CoreId) (o : Nat) (s : State) : (bumpC c o s).mem = s.mem := bump_mem _ s

@[simp] theorem setPend_pub (e : Nat) (s : State) : (s.setPend e).pub = s.pub := by rfl

@[simp] theorem raiseN_pub (n e : Nat) (s : State) : (raiseN n e s).pub = s.pub := by
  induction n generalizing e s with
  | zero => rfl
  | succ n ih => simp [raiseN, ih]

@[simp] theorem raise_pub (e : Nat) (s : State) : (raise e s).pub = s.pub := raiseN_pub 2 e s

@[simp] theorem bumpN_pub (o n : Nat) (s : State) : (bumpN o n s).pub = s.pub := by
  simp [bumpN]

@[simp] theorem bump_pub (o : Nat) (s : State) : (bump o s).pub = s.pub := bumpN_pub o 1 s

@[simp] theorem bumpC_pub (c : CoreId) (o : Nat) (s : State) : (bumpC c o s).pub = s.pub := bump_pub _ s

@[simp] theorem setPend_smu (e : Nat) (s : State) : (s.setPend e).smu = s.smu := by rfl

@[simp] theorem raiseN_smu (n e : Nat) (s : State) : (raiseN n e s).smu = s.smu := by
  induction n generalizing e s with
  | zero => rfl
  | succ n ih => simp [raiseN, ih]

@[simp] theorem raise_smu (e : Nat) (s : State) : (raise e s).smu = s.smu := raiseN_smu 2 e s

@[simp] theorem bumpN_smu (o n : Nat) (s : State) : (bumpN o n s).smu = s.smu := by
  simp [bumpN]

@[simp] theorem bump_smu (o : Nat) (s : State) : (bump o s).smu = s.smu := bumpN_smu o 1 s

@[simp] theorem bumpC_smu (c : CoreId) (o : Nat) (s : State) : (bumpC c o s).smu = s.smu := bump_smu _ s

@[simp] theorem setPend_core (e : Nat) (s : State) (d : CoreId) : (s.setPend e).core d = s.core d := by rfl

@[simp] theorem raiseN_core (n e : Nat) (s : State) (d : CoreId) : (raiseN n e s).core d = s.core d := by
  induction n generalizing e s with
  | zero => rfl
  | succ n ih => simp [raiseN, ih]

@[simp] theorem raise_core (e : Nat) (s : State) (d : CoreId) : (raise e s).core d = s.core d := raiseN_core 2 e s d

@[simp] theorem bumpN_core (o n : Nat) (s : State) (d : CoreId) : (bumpN o n s).core d = s.core d := by simp [bumpN]

@[simp] theorem bump_core (o : Nat) (s : State) (d : CoreId) : (bump o s).core d = s.core d := bumpN_core o 1 s d

@[simp] theorem bumpC_core (c d : CoreId) (o : Nat) (s : State) : (bumpC c o s).core d = s.core d := bump_core _ s d

@[simp] theorem setPend_actReg (e : Nat) (s : State) (o : Nat) : (s.setPend e).actReg o = s.actReg o := by rfl

@[simp] theorem raiseN_actReg (n e : Nat) (s : State) (o : Nat) : (raiseN n e s).actReg o = s.actReg o := by
  induction n generalizing e s with
  | zero => rfl
  | succ n ih => simp [raiseN, ih]

@[simp] theorem raise_actReg (e : Nat) (s : State) (o : Nat) : (raise e s).actReg o = s.actReg o := raiseN_actReg 2 e s o

@[simp] theorem bumpN_actReg (p n : Nat) (s : State) (o : Nat) : (bumpN p n s).actReg o = s.actReg o := by simp [bumpN]

@[simp] theorem bump_actReg (p : Nat) (s : State) (o : Nat) : (bump p s).actReg o = s.actReg o := bumpN_actReg p 1 s o

@[simp] theorem bumpC_actReg (c : CoreId) (p : Nat) (s : State) (o : Nat) : (bumpC c p s).actReg o = s.actReg o :=
  bump_actReg _ s o

/-- A counter short of saturation counts; nothing else changes. -/
theorem bumpN_reg {o n : Nat} {s : State} (h : cntSaturates (s.reg o) n = false) (p : Nat) :
    (bumpN o n s).reg p = if p = o ∧ n ≠ 0 then cntAdd (s.reg o) n else s.reg p := by
  unfold bumpN
  by_cases hn : n = 0
  · simp [hn]
  · simp [hn, h, reg_setReg]

theorem bump_reg {o : Nat} {s : State} (h : cntSaturates (s.reg o) 1 = false) (p : Nat) :
    (bump o s).reg p = if p = o then cntAdd (s.reg o) 1 else s.reg p := by
  simp [bump, bumpN_reg h]

theorem bumpC_reg {c : CoreId} {o : Nat} {s : State} (h : cntSaturates (s.reg (coreOff o c)) 1 = false) (p : Nat) :
    (bumpC c o s).reg p = if p = coreOff o c then cntAdd (s.reg (coreOff o c)) 1 else s.reg p := bump_reg h p

@[simp] theorem logFault_core (ev code inst info : Nat) (s : State) (d : CoreId) :
    (logFault ev code inst info s).core d = s.core d := by
  simp [logFault]

@[simp] theorem logFault_actReg (ev code inst info : Nat) (s : State) (o : Nat) :
    (logFault ev code inst info s).actReg o = s.actReg o := by
  simp [logFault]

/-- A trap leaves everything of the core but its issue state. -/
@[simp] theorem coreTrap_core (c : CoreId) (code q pc : Nat) (w : Word) (arg : Nat) (s : State) :
    (coreTrap c code q pc w arg s).core c = { s.core c with issue := .trapped } := by
  simp [coreTrap]

theorem coreTrap_core_ne {c d : CoreId} (code q pc : Nat) (w : Word) (arg : Nat) (s : State) (h : d ≠ c) :
    (coreTrap c code q pc w arg s).core d = s.core d := by
  simp [coreTrap, core_modCore_ne _ _ h]

@[simp] theorem coreTrap_actReg (c : CoreId) (code q pc : Nat) (w : Word) (arg : Nat) (s : State) (o : Nat) :
    (coreTrap c code q pc w arg s).actReg o = s.actReg o := by
  simp [coreTrap]

end Sys2Proof.Machine
end

