-- ==== Sys2Proof/Laws/Queues.lean ====
section
/-! SUPPORT. No unit touches the instruction queues: `qs` is what all cores' queues hold, and each operation that an instruction
can come to keeps it. Only issue, and the removal of an instruction that has started, change a queue. -/

set_option maxRecDepth 4000
set_option exponentiation.threshold 1024

namespace Sys2Proof.Machine

open Sys2Proof

/-- What the cores' queues hold. -/
def qs (s : State) : Vector (Vector (List Op) 6) 36 := s.cores.map fun k => k.queues

@[simp] theorem qs_eta (s : State) : (s.cores.map fun k => k.queues) = qs s := by rfl

@[simp] theorem qs_mk (pending : _) (lastRead : _) (freeCtr : _) (regs : _) (act : _) (latch : _) (net : _) (out : _)
    (fwNotes : _) (pcie : _) (cores : _) (time : _) (flash : _) (fuse : _) (sec : _) (logCopied : _) (ingest : _) (grid : _)
    (cal : _) (rb : _) (map : _) (frames : _) (trunks : _) (pwr : _) (test : _) (hq : _) (mbox : _) (loftLost : _) (links :
    _) (mem : _) (pub : _) (smu : _) : qs (State.mk pending lastRead freeCtr regs act latch net out fwNotes pcie cores time
    flash fuse sec logCopied ingest grid cal rb map frames trunks pwr test hq mbox loftLost links mem pub smu) = cores.map
    fun k => k.queues := by rfl

theorem qs_core {s t : State} (h : qs t = qs s) (c : CoreId) : (t.core c).queues = (s.core c).queues := by
  have e : ∀ u : State, (qs u)[c.val] = (u.core c).queues := fun u => by simp only [qs, Vector.getElem_map]; rfl
  rw [← e, ← e, h]

theorem qs_setCore {c : CoreId} {k : CoreSt} {s : State} (h : k.queues = (s.core c).queues) : qs (s.setCore c k) = qs s := by
  have e : (s.cores.map fun k => k.queues)[c.val] = k.queues := by rw [Vector.getElem_map, h]; rfl
  simp only [qs, State.setCore, Vector.map_set]
  rw [← e]
  exact Vector.set_getElem_self _

@[simp] theorem qs_modCore {c : CoreId} {f : CoreSt → CoreSt} {s : State} (h : ∀ k, (f k).queues = k.queues) :
    qs (s.modCore c f) = qs s := qs_setCore (h _)

@[simp] theorem queues_ite (p : Prop) [Decidable p] (a b : CoreSt) :
    (if p then a else b).queues = if p then a.queues else b.queues := by split <;> rfl

@[simp] theorem queues_dite (p : Prop) [Decidable p] (a : p → CoreSt) (b : ¬p → CoreSt) :
    (if h : p then a h else b h).queues = if h : p then (a h).queues else (b h).queues := by split <;> rfl

@[simp] theorem setSem_queues (k : CoreSt) (t : Nat) (v : Sem) : (setSem k t v).queues = k.queues := by
  unfold setSem; split <;> rfl

@[simp] theorem setPool_queues (k : CoreSt) (p : Nat) (v : Pool) : (setPool k p v).queues = k.queues := by
  unfold setPool; split <;> rfl

@[simp] theorem ledgerTake_queues (k : CoreSt) (v : Word) (r : Bool) (p n : Nat) : (ledgerTake k v r p n).queues = k.queues
    := by
  unfold ledgerTake; split <;> rfl

@[simp] theorem qs_ite (c : Prop) [Decidable c] (a b : State) : qs (if c then a else b) = if c then qs a else qs b := by
    split <;> rfl

@[simp] theorem qs_foldl {β : Type} (l : List β) (g : State → β → State) (h : ∀ s x, qs (g s x) = qs s) (s : State) :
    qs (l.foldl g s) = qs s := by
  induction l generalizing s with
  | nil => rfl
  | cons x r ih => rw [List.foldl_cons, ih, h]

@[simp] theorem qs_foldl_snd {α β : Type} (l : List β) (g : α × State → β → α × State)
    (h : ∀ a x, qs (g a x).2 = qs a.2) (a : α × State) : qs (l.foldl g a).2 = qs a.2 := by
  induction l generalizing a with
  | nil => rfl
  | cons x r ih => rw [List.foldl_cons, ih, h]

@[simp] theorem qs_foldl_thd {α γ β : Type} (l : List β) (g : α × γ × State → β → α × γ × State)
    (h : ∀ a x, qs (g a x).2.2 = qs a.2.2) (a : α × γ × State) : qs (l.foldl g a).2.2 = qs a.2.2 := by
  induction l generalizing a with
  | nil => rfl
  | cons x r ih => rw [List.foldl_cons, ih, h]

theorem qs_ite2 {α : Type} (c : Prop) [Decidable c] (a b : α × State) (s : State) (ha : qs a.2 = qs s)
    (hb : qs b.2 = qs s) : qs (if c then a else b).2 = qs s := by
  split
  · exact ha
  · exact hb

theorem qs_elim {α β : Type} (o : Option α) (a : β × State) (f : α → β × State) (s : State) (ha : qs a.2 = qs s)
    (h : ∀ x, qs (f x).2 = qs s) : qs (o.elim a f).2 = qs s := by
  cases o with
  | none => exact ha
  | some x => exact h x
def StartQs (x : Start) (s : State) : Prop :=
  match x with
  | .done t => qs t = qs s
  | .active _ t => qs t = qs s
  | .trap _ _ t => qs t = qs s
  | .hold => True

@[simp] theorem sq_done (t s : State) : StartQs (.done t) s ↔ qs t = qs s := Iff.rfl

@[simp] theorem sq_active (a : Active) (t s : State) : StartQs (.active a t) s ↔ qs t = qs s := Iff.rfl

@[simp] theorem sq_trap (a b : Nat) (t s : State) : StartQs (.trap a b t) s ↔ qs t = qs s := Iff.rfl

@[simp] theorem sq_hold (s : State) : StartQs .hold s := trivial

@[simp] theorem sq_ite (c : Prop) [Decidable c] (a b : Start) (s : State) : StartQs (if c then a else b) s ↔ if c then
    StartQs a s else StartQs b s := by split <;> rfl
def LinkQs (x : LinkSend) (s : State) : Prop :=
  match x with
  | .sent t => qs t = qs s
  | .outside t => qs t = qs s
  | .portDown t => qs t = qs s

@[simp] theorem State_drawn_qs (s : State) : qs (State.drawn s) = qs s := by
  rfl

@[simp] theorem State_emit_qs (a0 : Out) (s : State) : qs (State.emit a0 s) = qs s := by
  rfl

@[simp] theorem State_setLink_qs (a0 : Idx4) (a1 : LinkPort) (s : State) : qs (State.setLink a0 a1 s) = qs s := by
  rfl

@[simp] theorem State_send_qs (a0 : Msg) (s : State) : qs (State.send a0 s) = qs s := by
  rfl

@[simp] theorem State_setAct_qs (a0 : Nat) (a1 : Word) (s : State) : qs (State.setAct a0 a1 s) = qs s := by
  rfl

@[simp] theorem State_setReg_qs (a0 : Nat) (a1 : Word) (s : State) : qs (State.setReg a0 a1 s) = qs s := by
  rfl

@[simp] theorem State_setF_qs (a0 : Nat) (a1 : Nat) (a2 : Nat) (a3 : Nat) (s : State) : qs (State.setF a0 a1 a2 a3 s) = qs s
    := by
  rfl

@[simp] theorem State_setPend_qs (a0 : Nat) (s : State) : qs (State.setPend a0 s) = qs s := by
  rfl

@[simp] theorem sendGateCounts_qs (a0 : CoreId) (s : State) : qs (sendGateCounts a0 s) = qs s := by
  simp [sendGateCounts]

@[simp] theorem raiseN_qs (a0 : Nat) (a1 : Nat) (s : State) : qs (raiseN a0 a1 s) = qs s := by
  induction a0 generalizing a1 s with
  | zero => rfl
  | succ n ih =>
    simp only [raiseN]
    (repeat' split) <;> simp [ih]

@[simp] theorem raise_qs (a0 : Nat) (s : State) : qs (raise a0 s) = qs s := by
  simp [raise]

@[simp] theorem bumpN_qs (a0 : Nat) (a1 : Nat) (s : State) : qs (bumpN a0 a1 s) = qs s := by
  simp [bumpN]

@[simp] theorem bump_qs (a0 : Nat) (s : State) : qs (bump a0 s) = qs s := by
  simp [bump]

@[simp] theorem linkDrain_qs (a0 : Nat) (a1 : Idx4) (s : State) : qs (linkDrain a0 a1 s) = qs s := by
  induction a0 generalizing s with
  | zero => rfl
  | succ n ih =>
    unfold linkDrain
    dsimp only
    (repeat' split) <;> simp [ih]

@[simp] theorem linkQueue_qs (a0 : Idx4) (a1 : Bool) (a2 : Packet) (s : State) : qs (linkQueue a0 a1 a2 s) = qs s := by
  simp [linkQueue]

theorem linkSend_qs (a0 : Packet) (s : State) : LinkQs (linkSend a0 s) s := by
  unfold linkSend
  (repeat' split) <;> simp [LinkQs]

@[simp] theorem transmit_qs (a0 : Msg) (s : State) : qs (transmit a0 s).2 = qs s := by
  unfold transmit
  split
  · rename_i x y u _
    have := linkSend_qs (packetOf s a0 x y u) s
    split <;> rename_i h <;> rw [h] at this
    · exact this
    · exact this
    · dsimp only; (repeat' split) <;> simpa [LinkQs] using this
  · rfl

theorem transmit1_qs (a0 : Msg) (s r : State) (hr : (transmit a0 s).1 = some r) : qs r = qs s := by
  unfold transmit at hr
  split at hr
  · rename_i x y u _
    have := linkSend_qs (packetOf s a0 x y u) s
    split at hr <;> rename_i h <;> rw [h] at this
    · cases hr; exact this
    · cases hr
    · cases hr; (repeat' split) <;> simpa [LinkQs] using this
  · cases hr; simp

@[simp] theorem logFault_qs (a0 : Nat) (a1 : Nat) (a2 : Nat) (a3 : Nat) (s : State) : qs (logFault a0 a1 a2 a3 s) = qs s := by
  unfold logFault
  extract_lets h w o lost s1 s2
  have h1 : qs s2 = qs s := by simp only [s2, s1, State_setReg_qs]
  split
  · rw [bump_qs, qs_mk, qs_eta, h1]
  · exact h1

@[simp] theorem accStored_qs (a0 : CoreId) (a1 : Nat) (a2 : Nat) (s : State) : qs (accStored a0 a1 a2 s).2 = qs s := by
  unfold accStored; (repeat' split) <;> simp_all

@[simp] theorem modArray_qs (a0 : CoreId) (a1 : ArraySt → ArraySt) (s : State) : qs (modArray a0 a1 s) = qs s := by
  simp [modArray]

@[simp] theorem accPut_qs (a0 : CoreId) (a1 : Nat) (a2 : Nat) (a3 : AccRow) (s : State) : qs (accPut a0 a1 a2 a3 s) = qs s :=
    by
  simp [accPut]

@[simp] theorem partFault_qs (a0 : CoreId) (a1 : Nat) (a2 : Nat) (a3 : Nat) (a4 : Nat) (s : State) : qs (partFault a0 a1 a2
    a3 a4 s) = qs s := by
  simp [partFault]

@[simp] theorem accGet_qs (a0 : CoreId) (a1 : Nat) (a2 : Nat) (s : State) : qs (accGet a0 a1 a2 s).2 = qs s := by
  unfold accGet; (repeat' split) <;> simp_all

@[simp] theorem bumpC_qs (a0 : CoreId) (a1 : Nat) (s : State) : qs (bumpC a0 a1 s) = qs s := by
  simp [bumpC]

@[simp] theorem repairFail_qs (a0 : CoreId) (a1 : Nat) (s : State) : qs (repairFail a0 a1 s) = qs s := by
  simp [repairFail]

@[simp] theorem queueRow_qs (a0 : CoreId) (a1 : Nat) (s : State) : qs (queueRow a0 a1 s) = qs s := by
  simp [queueRow]

@[simp] theorem loseLoft_qs (a0 : CoreId) (a1 : Nat) (s : State) : qs (loseLoft a0 a1 s) = qs s := by
  unfold loseLoft
  dsimp only
  rw [raise_qs, qs_mk, qs_eta, logFault_qs]

@[simp] theorem loseParked_qs (a0 : CoreId) (a1 : Nat) (a2 : Nat) (s : State) : qs (loseParked a0 a1 a2 s) = qs s := by
  unfold loseParked
  dsimp only
  rw [raise_qs, qs_mk, qs_eta, logFault_qs]

@[simp] theorem uncorrectable_qs (a0 : CoreId) (a1 : Nat) (a2 : Nat) (a3 : BitVec 512) (s : State) : qs (uncorrectable a0 a1
    a2 a3 s) = qs s := by
  unfold uncorrectable
  extract_lets s1 o cm pk s2 s3 s4 s5
  have h4 : qs s4 = qs s := by simp only [s4, s3, s2, s1]; split <;> simp
  have h5 : qs s5 = qs s := by simp only [s5]; clear_value s4 cm pk; (repeat' split) <;> simp [h4]
  simp [h5]

@[simp] theorem corrected_qs (a0 : CoreId) (a1 : Nat) (s : State) : qs (corrected a0 a1 s) = qs s := by
  simp [corrected]

@[simp] theorem spadRead_qs (a0 : CoreId) (a1 : Nat) (a2 : Nat) (s : State) : qs (spadRead a0 a1 a2 s).2.2 = qs s := by
  unfold spadRead
  extract_lets x l u s1 s2
  have h1 : qs s1 = qs s := by simp only [s1]; split <;> simp
  have h2 : qs s2 = qs s := by simp only [s2]; split <;> simp [h1]
  clear_value s2 s1
  (repeat' split) <;> simp [h1, h2]

@[simp] theorem spadWrite_qs (a0 : CoreId) (a1 : Nat) (a2 : DLine) (s : State) : qs (spadWrite a0 a1 a2 s) = qs s := by
  simp [spadWrite]

@[simp] theorem memLine_qs (a0 : Nat) (s : State) : qs (memLine a0 s).2 = qs s := by
  unfold memLine; (repeat' split) <;> simp_all

@[simp] theorem memRead_qs (a0 : Nat) (s : State) : qs (memRead a0 s).2 = qs s := by
  simp [memRead]

@[simp] theorem addGateCnt_qs (a0 : CoreId) (a1 : Nat) (a2 : Nat) (a3 : Nat) (s : State) : qs (addGateCnt a0 a1 a2 a3 s) = qs
    s := by
  simp [addGateCnt]

@[simp] theorem addSignal_qs (a0 : CoreId) (a1 : Nat) (a2 : Nat) (a3 : Nat) (a4 : Nat) (s : State) : qs (addSignal a0 a1 a2
    a3 a4 s).2 = qs s := by
  unfold addSignal
  dsimp only
  (repeat' split) <;> first
    | simp; done
    | exact qs_setCore (setSem_queues _ _ _)
    | (rw [coreTrap_qs]; exact qs_setCore (setSem_queues _ _ _))

@[simp] theorem shelfWrite_qs (a0 : CoreId) (a1 : Nat) (a2 : Nat) (a3 : DLine) (s : State) : qs (shelfWrite a0 a1 a2 a3 s) =
    qs s := by
  simp [shelfWrite]

@[simp] theorem shelfRead_qs (a0 : CoreId) (a1 : Nat) (a2 : Nat) (a3 : Nat) (s : State) : qs (shelfRead a0 a1 a2 a3 s).2.2 =
    qs s := by
  simp [shelfRead]

@[simp] theorem shelfReadN_qs (a0 : CoreId) (a1 : Nat) (a2 : Nat) (a3 : Nat) (a4 : Nat) (s : State) : qs (shelfReadN a0 a1 a2
    a3 a4 s).2.2 = qs s := by
  induction a4 generalizing a0 a1 a2 a3 s <;> simp_all [shelfReadN]

@[simp] theorem readEls_qs (a0 : CoreId) (a1 : Nat) (a2 : Nat) (a3 : Nat) (a4 : Nat) (a5 : Nat) (a6 : Nat) (s : State) : qs
    (readEls a0 a1 a2 a3 a4 a5 a6 s).2.2.2 = qs s := by
  simp [readEls]

@[simp] theorem argRows_qs (a0 : CoreId) (a1 : Op) (a2 : Nat) (a3 : Nat) (a4 : Nat) (a5 : Nat) (a6 : Nat) (s : State) : qs
    (argRows a0 a1 a2 a3 a4 a5 a6 s).2.2 = qs s := by
  induction a5 generalizing a6 s with
  | zero => rfl
  | succ n ih => simp [argRows, ih]

@[simp] theorem bankEcc_qs (a0 : CoreId) (a1 a2 a3 : Nat) (t s : State) : StartQs (bankEcc a0 a1 a2 a3 t) s ↔ qs t = qs s :=
    by
  simp [bankEcc]

theorem checkTrap_qs (a0 : CoreId) (s : State) : StartQs (checkTrap a0 s) s := by
  simp [checkTrap]

@[simp] theorem wrS_qs (a0 : CoreId) (a1 : Nat) (a2 : Word) (s : State) : qs (wrS a0 a1 a2 s) = qs s := by
  simp [wrS]

@[simp] theorem wrSs_qs (a0 : CoreId) (a1 : List (Nat × Word)) (s : State) : qs (wrSs a0 a1 s) = qs s := by
  simp [wrSs]

@[simp] theorem copyLoop_qs (a0 : CoreId) (a1 : Nat) (a2 : Nat) (a3 : Nat) (a4 : Nat) (a5 : Nat) (s : State) : qs (copyLoop
    a0 a1 a2 a3 a4 a5 s).2 = qs s := by
  induction a5 generalizing a2 a4 s with
  | zero => rfl
  | succ n ih =>
    unfold copyLoop
    dsimp only
    split <;> simp [ih]

@[simp] theorem countConv_qs (a0 : CoreId) (a1 : ConvCount) (s : State) : qs (countConv a0 a1 s) = qs s := by
  simp [countConv]

@[simp] theorem ringDrop_qs (a0 : Nat) (a1 : Nat) (s : State) : qs (ringDrop a0 a1 s) = qs s := by
  simp [ringDrop]

@[simp] theorem ringTake_qs (a0 : Nat) (a1 : Nat) (s : State) : qs (ringTake a0 a1 s).2 = qs s := by
  unfold ringTake
  extract_lets i p
  exact qs_ite2 _ _ _ _ (ringDrop_qs _ _ _) rfl

@[simp] theorem placeLine_qs (a0 : Msg) (s : State) : qs (placeLine a0 s).2 = qs s := by
  have hs : ∀ (b : Bool) (m : Msg) (t : State), qs (if b then State.send m t else t) = qs t := by
    intro b m t; cases b <;> simp
  have hq : qs (ringTake a0.slot a0.idx s).2 = qs s := ringTake_qs _ _ _
  unfold placeLine
  generalize ringTake a0.slot a0.idx s = q at *
  obtain ⟨a, t⟩ := q
  split
  · rfl
  · cases a with
    | none => exact hq
    | some a => exact (hs _ _ _).trans hq

@[simp] theorem sendMsgs_qs (a0 : List Msg) (a1 : Nat) (a2 : Active) (s : State) : qs (sendMsgs a0 a1 a2 s).2.2 = qs s := by
  induction a0 generalizing a1 a2 s with
  | nil => rfl
  | cons m r ih =>
    unfold sendMsgs
    split
    · rfl
    · extract_lets q
      have hq : qs q.2 = qs s := placeLine_qs _ _
      clear_value q
      split
      · rw [ih]; exact hq
      · extract_lets t
        rename_i m' _
        have h1 := transmit1_qs m' q.2
        have h2 := transmit_qs m' q.2
        split <;> rename_i h
        · rw [ih]; exact (h1 _ h).trans hq
        · exact h2.trans hq

@[simp] theorem sendTodo_qs (a0 : Nat) (a1 : Active) (s : State) : qs (sendTodo a0 a1 s).2.2 = qs s := by
  simp [sendTodo]

theorem startAlu_qs (a0 : CoreId) (a1 : Op) (s : State) : StartQs (startAlu a0 a1 s) s := by
  simp [startAlu]

theorem startAlui_qs (a0 : CoreId) (a1 : Op) (s : State) : StartQs (startAlui a0 a1 s) s := by
  simp [startAlui]

theorem startLi_qs (a0 : CoreId) (a1 : Op) (s : State) : StartQs (startLi a0 a1 s) s := by
  simp [startLi]

theorem startLui_qs (a0 : CoreId) (a1 : Op) (s : State) : StartQs (startLui a0 a1 s) s := by
  simp [startLui]

@[simp] theorem wrP_qs (a0 : CoreId) (a1 : Nat) (a2 : Bool) (s : State) : qs (wrP a0 a1 a2 s) = qs s := by
  simp [wrP]

theorem startCmp_qs (a0 : CoreId) (a1 : Op) (s : State) : StartQs (startCmp a0 a1 s) s := by
  simp [startCmp]

theorem startCmpi_qs (a0 : CoreId) (a1 : Op) (s : State) : StartQs (startCmpi a0 a1 s) s := by
  simp [startCmpi]

theorem startPlog_qs (a0 : CoreId) (a1 : Op) (s : State) : StartQs (startPlog a0 a1 s) s := by
  simp [startPlog]

theorem startLd_qs (a0 : CoreId) (a1 : Op) (s : State) : StartQs (startLd a0 a1 s) s := by
  simp [startLd]

theorem startSt_qs (a0 : CoreId) (a1 : Op) (s : State) : StartQs (startSt a0 a1 s) s := by
  simp [startSt]

theorem startRds_qs (a0 : CoreId) (a1 : Op) (s : State) : StartQs (startRds a0 a1 s) s := by
  unfold startRds
  (repeat' split) <;> simp

theorem startWrs_qs (a0 : CoreId) (a1 : Op) (s : State) : StartQs (startWrs a0 a1 s) s := by
  simp [startWrs]

theorem startCommit_qs (a0 : CoreId) (a1 : Op) (s : State) : StartQs (startCommit a0 a1 s) s := by
  simp [startCommit]

theorem startTrap_qs (a0 : CoreId) (a1 : Op) (s : State) : StartQs (startTrap a0 a1 s) s := by
  simp [startTrap]

theorem startWait_qs (a0 : CoreId) (a1 : Op) (s : State) : StartQs (startWait a0 a1 s) s := by
  unfold startWait
  dsimp only
  split
  · trivial
  · exact qs_modCore fun k => setSem_queues k _ _

theorem selfSignal_qs (a0 : CoreId) (a1 : Op) (s : State) : StartQs (selfSignal a0 a1 s) s := by
  simp [selfSignal]

theorem startSig_qs (a0 : CoreId) (a1 : Op) (s : State) : StartQs (startSig a0 a1 s) s := by
  unfold startSig
  split
  · trivial
  · exact selfSignal_qs _ _ _

theorem startSigr_qs (a0 : CoreId) (a1 : Op) (s : State) : StartQs (startSigr a0 a1 s) s := by
  unfold startSigr
  extract_lets k st l x y
  split
  · trivial
  · split
    · have h1 := transmit1_qs { kind := .signal, src := .core a0, dst := .dev x y l, seq := a1.seq, slot := k.slot, idx := iT a1.w0, k := iN a1.w0, stamp := st } s
      have h2 := transmit_qs { kind := .signal, src := .core a0, dst := .dev x y l, seq := a1.seq, slot := k.slot, idx := iT a1.w0, k := iN a1.w0, stamp := st } s
      split <;> rename_i h <;> rw [h] at h1 h2
      · exact h1 _ rfl
      · exact h2
    · (repeat' split) <;> simp [selfSignal_qs]

theorem startNop_qs (a0 : CoreId) (a1 : Op) (s : State) : StartQs (startNop a0 a1 s) s := by
  simp [startNop]

theorem startCopy_qs (a0 : CoreId) (a1 : Op) (s : State) : StartQs (startCopy a0 a1 s) s := by
  simp [startCopy]

@[simp] theorem launch_qs (a0 : CoreId) (a1 : Op) (a2 : List (Nat × Word)) (a3 : List Msg) (t s : State) (h : qs t = qs s) :
    StartQs (launch a0 a1 a2 a3 t) s := by
  unfold launch
  extract_lets r
  have hr : qs r.2.2 = qs s := by simp [r, h]
  clear_value r
  (repeat' split) <;> simp [h, hr]

theorem startGet_qs (a0 : CoreId) (a1 : Op) (s : State) : StartQs (startGet a0 a1 s) s := by
  simp [startGet]

@[simp] theorem getxLines_qs (a0 : CoreId) (a1 : Op) (a2 : Nat) (a3 : GetxSt) (s : State) : qs (getxLines a0 a1 a2 a3 s).2 =
    qs s := by
  induction a2 generalizing a3 s with
  | zero => rfl
  | succ n ih =>
    unfold getxLines
    dsimp only
    (repeat' split) <;> simp [ih]

@[simp] theorem getxCount_qs (a0 : CoreId) (a1 : GetxSt) (s : State) : qs (getxCount a0 a1 s) = qs s := by
  simp [getxCount]

@[simp] theorem sendEarlier_qs (a0 : CoreId) (a1 : Op) (a2 : List Msg) (s : State) : qs (sendEarlier a0 a1 a2 s) = qs s := by
  simp [sendEarlier]

theorem startGetx_qs (a0 : CoreId) (a1 : Op) (s : State) : StartQs (startGetx a0 a1 s) s := by
  unfold startGetx
  dsimp only
  (repeat' split) <;> simp

theorem startPut_qs (a0 : CoreId) (a1 : Op) (s : State) : StartQs (startPut a0 a1 s) s := by
  unfold startPut
  dsimp only
  have e : ∀ r p n, qs (s.modCore a0 fun k => ledgerTake k a1.d r p n) = qs s := fun r p n => qs_modCore fun k => ledgerTake_queues k _ _ _ _
  (repeat' split) <;> simp [e]

theorem startFetch_qs (a0 : CoreId) (a1 : Op) (s : State) : StartQs (startFetch a0 a1 s) s := by
  simp [startFetch]

theorem startStore_qs (a0 : CoreId) (a1 : Op) (s : State) : StartQs (startStore a0 a1 s) s := by
  unfold startStore
  dsimp only
  (repeat' split) <;> simp

theorem startStoreRing_qs (a0 : CoreId) (a1 : Op) (s : State) : StartQs (startStoreRing a0 a1 s) s := by
  unfold startStoreRing
  extract_lets n ring slot t r
  have hr : qs r.2.2 = qs s := by simp [r]
  clear_value r
  (repeat' split) <;> simp [hr]

theorem startGather_qs (a0 : CoreId) (a1 : Op) (s : State) : StartQs (startGather a0 a1 s) s := by
  simp [startGather]

theorem startCreditReq_qs (a0 : CoreId) (a1 : Op) (s : State) : StartQs (startCreditReq a0 a1 s) s := by
  simp [startCreditReq]

@[simp] theorem returnCredits_qs (a0 : CoreId) (a1 : Nat) (a2 : Nat) (s : State) : qs (returnCredits a0 a1 a2 s) = qs s := by
  unfold returnCredits
  dsimp only
  split
  · rw [bumpC_qs]; exact qs_modCore fun k => setPool_queues k _ _
  · exact qs_modCore fun k => setPool_queues k _ _

theorem startCreditRet_qs (a0 : CoreId) (a1 : Op) (s : State) : StartQs (startCreditRet a0 a1 s) s := by
  simp [startCreditRet]

@[simp] theorem unloadSet_qs (a0 : CoreId) (a1 : Nat) (a2 : Nat) (s : State) : qs (unloadSet a0 a1 a2 s) = qs s := by
  simp [unloadSet]

@[simp] theorem installSet_qs (a0 : CoreId) (a1 : Nat) (a2 : Nat) (a3 : WSet) (s : State) : qs (installSet a0 a1 a2 a3 s) =
    qs s := by
  simp [installSet]

@[simp] theorem finishLoad_qs (a0 : CoreId) (a1 : Op) (a2 : Nat) (a3 : Nat) (a4 : WSet) (a5 : Nat) (a6 : Bool) (t s : State)
    (h : qs t = qs s) : StartQs (finishLoad a0 a1 a2 a3 a4 a5 a6 t) s := by
  unfold finishLoad
  dsimp only
  split <;> simp [h]

theorem wloadDense_qs (a0 : CoreId) (a1 : Op) (a2 : Nat) (a3 : Nat) (a4 : Nat) (s : State) : StartQs (wloadDense a0 a1 a2 a3
    a4 s) s := by
  unfold wloadDense
  dsimp only
  split <;> simp

@[simp] theorem readGroups_qs (a0 : CoreId) (a1 : Nat) (a2 : Nat) (a3 : Nat) (a4 : List Nat) (s : State) : qs (readGroups a0
    a1 a2 a3 a4 s).2 = qs s := by
  induction a4 generalizing a0 a1 a2 a3 s <;> simp_all [readGroups]

theorem wloadGated_qs (a0 : CoreId) (a1 : Op) (a2 : Nat) (a3 : Nat) (a4 : Nat) (s : State) : StartQs (wloadGated a0 a1 a2 a3
    a4 s) s := by
  unfold wloadGated
  dsimp only
  (repeat' split) <;> simp

@[simp] theorem readSlice_qs (a0 : CoreId) (a1 : Nat) (a2 : Nat) (a3 : Nat) (a4 : Nat) (s : State) : qs (readSlice a0 a1 a2
    a3 a4 s).2 = qs s := by
  unfold readSlice; grind [shelfRead_qs, shelfReadN_qs, qs_mk, qs_eta, StartQs, LinkQs]

@[simp] theorem readTiles_qs (a0 : CoreId) (a1 : Nat) (a2 : Nat) (a3 : Nat) (a4 : Nat) (a5 : Nat) (a6 : Nat) (s : State) : qs
    (readTiles a0 a1 a2 a3 a4 a5 a6 s).2 = qs s := by
  induction a5 generalizing a6 s with
  | zero => rfl
  | succ n ih =>
    unfold readTiles
    dsimp only
    split <;> simp [ih]

theorem wloadTransposed_qs (a0 : CoreId) (a1 : Op) (a2 : Nat) (a3 : Nat) (a4 : Nat) (s : State) : StartQs (wloadTransposed a0
    a1 a2 a3 a4 s) s := by
  unfold wloadTransposed
  dsimp only
  (repeat' split) <;> simp

@[simp] theorem readTile_qs (a0 : CoreId) (a1 : Nat) (a2 : Nat) (a3 : Nat) (a4 : Nat) (s : State) : qs (readTile a0 a1 a2 a3
    a4 s).2 = qs s := by
  unfold readTile; grind [shelfRead_qs, shelfReadN_qs, qs_mk, qs_eta, StartQs, LinkQs]

theorem wloadPacked_qs (a0 : CoreId) (a1 : Op) (a2 : Nat) (a3 : Nat) (a4 : Nat) (a5 : Nat) (s : State) : StartQs (wloadPacked
    a0 a1 a2 a3 a4 a5 s) s := by
  unfold wloadPacked
  dsimp only
  (repeat' split) <;> simp

theorem startWload_qs (a0 : CoreId) (a1 : Op) (s : State) : StartQs (startWload a0 a1 s) s := by
  simp [startWload, wloadDense_qs, wloadGated_qs, wloadTransposed_qs, wloadPacked_qs]

@[simp] theorem endProduct_qs (a0 : CoreId) (a1 : Prod) (a2 a3 : Nat) (r : RunEnd) (s : State) (h : qs r.2.2 = qs s) :
    StartQs (endProduct a0 a1 a2 a3 r) s := by
  unfold endProduct
  extract_lets t
  have h2 : qs t = qs s := by simp only [t]; split <;> simp [h]
  clear_value t
  (repeat' split) <;> simp [h2, checkTrap, modArray]

@[simp] theorem readDense_qs (a0 : CoreId) (a1 : Op) (a2 : Nat) (a3 : Nat) (a4 : Nat) (a5 : Nat) (a6 : Nat) (a7 : Bool) (a8 :
    Bool) (s : State) : qs (readDense a0 a1 a2 a3 a4 a5 a6 a7 a8 s).2 = qs s := by
  unfold readDense; (repeat' split) <;> simp_all

@[simp] theorem readDenses_qs (a0 : CoreId) (a1 : Op) (a2 : Nat) (a3 : Nat) (a4 : Nat) (a5 : Nat) (a6 : Bool) (a7 : Bool) (a8
    : Nat) (a9 : Nat) (s : State) : qs (readDenses a0 a1 a2 a3 a4 a5 a6 a7 a8 a9 s).2 = qs s := by
  induction a8 generalizing a9 s with
  | zero => rfl
  | succ n ih => simp [readDenses, ih]

@[simp] theorem passRow_qs (a0 : CoreId) (a1 : Prod) (a2 : List DRow) (a3 : FVal → FVal) (a4 : FVal → FVal) (a5 : Nat) (a6 :
    Bool) (a7 : WSet) (a8 : Nat) (a9 : Bool) (s : State) : qs (passRow a0 a1 a2 a3 a4 a5 a6 a7 a8 a9 s) = qs s := by
  simp [passRow]

@[simp] theorem rowPasses_qs (a0 : CoreId) (a1 : Prod) (a2 : List DRow) (a3 : Nat) (s : State) : qs (rowPasses a0 a1 a2 a3 s)
    = qs s := by
  have tw : ∀ (c : Bool) (a b t : State), qs a = qs t → qs b = qs t → qs (if c then a else b) = qs t := by
    intro c a b t ha hb; split <;> assumption
  unfold rowPasses
  extract_lets inP po s1 go s3 s4 re im s5 s6 s7 s8
  have h1 : qs s1 = qs s := tw _ _ _ _ (partFault_qs _ _ _ _ _ _) (tw _ _ _ _ (partFault_qs _ _ _ _ _ _)
    (tw _ _ _ _ (partFault_qs _ _ _ _ _ _) rfl))
  have hg : ∀ x a b d e f g i t, qs (go x a b d e f g i t) = qs t := fun x a b d e f g i t => passRow_qs _ _ _ _ _ _ _ _ _ _ _
  clear_value s1 go
  rw [bumpC_qs]
  simp only [s8]
  split <;> simp only [s3, s4, s5, s6, s7, hg, h1]

@[simp] theorem runRecs_qs (a0 : CoreId) (a1 : Op) (a2 : Prod) (a3 : Nat) (a4 : Nat) (a5 : DLine) (a6 : List Nat) (a7 : Nat)
    (a8 : Bool) (s : State) : qs (runRecs a0 a1 a2 a3 a4 a5 a6 a7 a8 s).2.2.2 = qs s := by
  induction a6 generalizing a7 a8 s with
  | nil => rfl
  | cons j js ih =>
    unfold runRecs
    dsimp only
    (repeat' split) <;> simp [ih]

@[simp] theorem runSegment_qs (a0 : CoreId) (a1 : Op) (a2 : Prod) (a3 : Nat) (a4 : Nat) (a5 : Nat) (a6 : Nat) (a7 : Nat) (a8
    : Bool) (s : State) : qs (runSegment a0 a1 a2 a3 a4 a5 a6 a7 a8 s).2.2 = qs s := by
  induction a5 generalizing a6 a7 a8 s with
  | zero => rfl
  | succ n ih =>
    unfold runSegment
    extract_lets t l s1 r
    have hl : qs l.2.2 = qs s := shelfRead_qs _ _ _ _ _
    have h1 : qs s1 = qs s := by simp only [s1]; split <;> simp [hl]
    have hr : qs r.2.2.2 = qs s := (runRecs_qs _ _ _ _ _ _ _ _ _ _).trans h1
    clear_value r s1 l t
    split
    · rfl
    · split
      · rfl
      · split
        · exact hr
        · exact (ih _ _ _ _).trans hr

@[simp] theorem runPacked_qs (a0 : CoreId) (a1 : Op) (a2 : Prod) (a3 : Bool) (a4 : Nat) (a5 : Nat) (a6 : List (List Nat ×
    Bool)) (a7 : Nat) (a8 : Bool) (s : State) : qs (runPacked a0 a1 a2 a3 a4 a5 a6 a7 a8 s).2.2 = qs s := by
  induction a6 generalizing a7 a8 s with
  | nil => rfl
  | cons x xs ih =>
    obtain ⟨els, z⟩ := x
    unfold runPacked
    split
    · rw [ih]; simp
    · extract_lets sp q d
      rw [ih, rowPasses_qs]
      simp only [q]; split <;> simp

theorem productTile_qs (a0 : CoreId) (a1 : Op) (a2 : Bool) (a3 : Prod) (s : State) : StartQs (productTile a0 a1 a2 a3 s) s :=
    by
  unfold productTile
  dsimp only
  (repeat' split) <;> simp

@[simp] theorem runRows_qs (a0 : CoreId) (a1 : Op) (a2 : Prod) (a3 : Bool) (a4 : Nat) (a5 : Nat) (a6 : Nat) (a7 : Nat) (a8 :
    Bool) (s : State) : qs (runRows a0 a1 a2 a3 a4 a5 a6 a7 a8 s).2.2 = qs s := by
  induction a6 generalizing a7 a8 s with
  | zero => rfl
  | succ n ih => simp [runRows, ih]

theorem productRun_qs (a0 : CoreId) (a1 : Op) (a2 : Nat) (a3 : Bool) (a4 : Prod) (s : State) : StartQs (productRun a0 a1 a2
    a3 a4 s) s := by
  unfold productRun
  dsimp only
  (repeat' split) <;> simp [productTile_qs]

theorem startProduct_qs (a0 : CoreId) (a1 : Op) (a2 : Nat) (a3 : Bool) (s : State) : StartQs (startProduct a0 a1 a2 a3 s) s
    := by
  unfold startProduct
  dsimp only
  (repeat' split) <;> simp [productRun_qs]

theorem startMm_qs (a0 : CoreId) (a1 : Op) (s : State) : StartQs (startMm a0 a1 s) s := by
  simp [startMm, startProduct_qs]

theorem startMmg_qs (a0 : CoreId) (a1 : Op) (s : State) : StartQs (startMmg a0 a1 s) s := by
  simp [startMmg, startProduct_qs]

theorem startMms_qs (a0 : CoreId) (a1 : Op) (s : State) : StartQs (startMms a0 a1 s) s := by
  unfold startMms
  have h := startProduct_qs a0 a1 3 (lOptB a1.w0 0) s
  extract_lets b add
  have ha : ∀ t, qs (add t) = qs t := fun t => bumpN_qs _ _ _
  clear_value add
  generalize startProduct a0 a1 3 (lOptB a1.w0 0) s = x at h ⊢
  cases x <;> simp_all

theorem startMmp_qs (a0 : CoreId) (a1 : Op) (s : State) : StartQs (startMmp a0 a1 s) s := by
  simp [startMmp, startProduct_qs]

theorem startAccInit_qs (a0 : CoreId) (a1 : Op) (s : State) : StartQs (startAccInit a0 a1 s) s := by
  unfold startAccInit
  dsimp only
  (repeat' split) <;> simp

@[simp] theorem drainTest_qs (a0 : CoreId) (a1 : Nat) (a2 : Nat) (s : State) : qs (drainTest a0 a1 a2 s).2.2.2 = qs s := by
  unfold drainTest; grind [accGet_qs, bumpC_qs, partFault_qs, qs_mk, qs_eta, StartQs, LinkQs]

@[simp] theorem gatedChunks_qs (a0 : CoreId) (a1 : Nat) (a2 : Nat) (a3 : Nat) (a4 : Nat) (a5 : Bool) (a6 : List Nat) (s :
    State) : qs (gatedChunks a0 a1 a2 a3 a4 a5 a6 s).2.2.2 = qs s := by
  induction a6 generalizing s with
  | nil => rfl
  | cons t ts ih =>
    unfold gatedChunks
    extract_lets x v q
    simp only [q, ih, x, drainTest_qs]

@[simp] theorem writePart_qs (a0 : CoreId) (a1 : Nat) (a2 : Nat) (a3 : Nat) (a4 : Nat) (a5 : Nat) (a6 : Nat) (a7 : Bool) (s :
    State) : qs (writePart a0 a1 a2 a3 a4 a5 a6 a7 s).2 = qs s := by
  unfold writePart
  dsimp only
  (repeat' split) <;> simp

@[simp] theorem writeRange_qs (a0 : CoreId) (a1 : Nat) (a2 : Nat) (a3 : Nat → Bool) (a4 : Nat) (a5 : Nat) (a6 : Nat) (a7 :
    Nat) (a8 : Nat) (a9 : Nat) (s : State) : qs (writeRange a0 a1 a2 a3 a4 a5 a6 a7 a8 a9 s).2 = qs s := by
  induction a4 generalizing a5 a6 a7 a8 a9 s with
  | zero => rfl
  | succ n ih =>
    unfold writeRange
    dsimp only
    (repeat' split) <;> simp [ih]

@[simp] theorem gatedRows_qs (a0 : CoreId) (a1 : Op) (a2 : GateMask) (a3 : Nat) (a4 : Nat) (a5 : Nat) (a6 : Nat) (a7 : Nat)
    (a8 : Nat) (a9 : Nat) (a10 : Nat) (s : State) : qs (gatedRows a0 a1 a2 a3 a4 a5 a6 a7 a8 a9 a10 s).2.2 = qs s := by
  induction a9 generalizing a10 s with
  | zero => rfl
  | succ n ih =>
    unfold gatedRows
    extract_lets on bi x row v bad s1 s2 s3 s4 s5 w nb lo y q q2
    have h1 : qs s5 = qs s := by simp only [s5, s4, s3, s2, s1, x, addGateCnt_qs, bumpN_qs, countConv_qs, gatedChunks_qs]
    have hw : qs w.2 = qs s := by simp only [w, writeRange_qs, h1]
    clear_value w s5
    have hy : qs y.2 = qs s := by
      simp only [y]
      split
      · simp only [writeRange_qs, hw]
      · exact hw
    clear_value y
    simp only [q, ih, hy]

@[simp] theorem shelfWriteN_qs (a0 : CoreId) (a1 : Nat) (a2 : Nat) (a3 : List DLine) (s : State) : qs (shelfWriteN a0 a1 a2
    a3 s) = qs s := by
  fun_induction shelfWriteN <;> simp_all

@[simp] theorem writeBits_qs (a0 : CoreId) (a1 : Nat) (a2 : Nat) (a3 : Nat) (a4 : Nat) (a5 : Nat → Bool) (s : State) : qs
    (writeBits a0 a1 a2 a3 a4 a5 s) = qs s := by
  simp [writeBits]

theorem drainGated_qs (a0 : CoreId) (a1 : Op) (a2 : Nat) (a3 : Nat) (s : State) : StartQs (drainGated a0 a1 a2 a3 s) s := by
  unfold drainGated
  extract_lets m n r0 bm mode
  split
  · trivial
  · split
    · rfl
    · extract_lets rl nb t eps touched r s2
      split
      · rfl
      · split
        · rfl
        · have h2 : qs s2 = qs s := by
            simp only [s2]
            split <;> simp only [r, writeBits_qs, gatedRows_qs]
          clear_value s2 r
          (repeat' split) <;> simp [h2, checkTrap, modArray]

@[simp] theorem drainRows_qs (a0 : CoreId) (a1 : Nat) (a2 : Nat) (a3 : Bool) (a4 : Nat) (a5 : Nat) (a6 : DrainSt) (s : State)
    : qs (drainRows a0 a1 a2 a3 a4 a5 a6 s).2 = qs s := by
  induction a4 generalizing a5 a6 s with
  | zero => rfl
  | succ n ih =>
    unfold drainRows
    extract_lets t bi isInt v bad
    rw [ih, countConv_qs, drainTest_qs]

theorem drainPlain_qs (a0 : CoreId) (a1 : Op) (a2 : Nat) (a3 : Nat) (s : State) : StartQs (drainPlain a0 a1 a2 a3 s) s := by
  unfold drainPlain
  extract_lets n r0 bm lines t r bad w v s1 s2
  split
  · exact rfl
  · have h2 : qs s2 = qs s := by
      simp only [s2]
      split <;> simp only [s1, v, w, r, writeBits_qs, writeRange_qs, drainRows_qs]
    clear_value s2
    (repeat' split) <;> simp [h2, checkTrap, modArray]

theorem startAccDrain_qs (a0 : CoreId) (a1 : Op) (s : State) : StartQs (startAccDrain a0 a1 s) s := by
  unfold startAccDrain
  dsimp only
  (repeat' split) <;> simp [drainGated_qs, drainPlain_qs]

theorem startPart_qs (a0 : CoreId) (a1 : Op) (s : State) : StartQs (startPart a0 a1 s) s := by
  simp [startPart]

@[simp] theorem wrV_qs (a0 : CoreId) (a1 : Nat) (a2 : BitVec 2048) (s : State) : qs (wrV a0 a1 a2 s) = qs s := by
  simp [wrV]

@[simp] theorem putV_qs (a0 : CoreId) (a1 : Nat) (a2 : List (BitVec 32)) (a3 : Bool) (s : State) : qs (putV a0 a1 a2 a3 s) =
    qs s := by
  simp [putV]

theorem startVld_qs (a0 : CoreId) (a1 : Op) (s : State) : StartQs (startVld a0 a1 s) s := by
  unfold startVld
  extract_lets f comp e b p sp t r q lanes
  have hq : qs q.2.2.2 = qs s := by simp only [q]; split <;> simp [r]
  clear_value q lanes
  (repeat' split) <;> simp [hq]

theorem startVst_qs (a0 : CoreId) (a1 : Op) (s : State) : StartQs (startVst a0 a1 s) s := by
  simp [startVst]

theorem startValu_qs (a0 : CoreId) (a1 : Op) (s : State) : StartQs (startValu a0 a1 s) s := by
  simp [startValu]

theorem startVfma_qs (a0 : CoreId) (a1 : Op) (s : State) : StartQs (startVfma a0 a1 s) s := by
  simp [startVfma]

theorem startVsf_qs (a0 : CoreId) (a1 : Op) (s : State) : StartQs (startVsf a0 a1 s) s := by
  simp [startVsf]

theorem startVcvt_qs (a0 : CoreId) (a1 : Op) (s : State) : StartQs (startVcvt a0 a1 s) s := by
  unfold startVcvt
  extract_lets f g n nf ng lf lg t r q po vs ws vs2 fl fw v w x
  have hq : qs q.2.2.2 = qs s := by simp only [q]; split <;> simp [r]
  clear_value q v ws
  have hw : qs w.2 = qs s := by simp only [w, writeRange_qs, countConv_qs, hq]
  clear_value w
  have hx : qs x.2 = qs s := by
    simp only [x]
    split
    · simp only [writeRange_qs, hw]
    · exact hw
  clear_value x r t lf lg nf ng n
  (repeat' split)
  · rfl
  · rfl
  · rfl
  · exact hq
  · exact hx
  · exact hx

theorem startVred_qs (a0 : CoreId) (a1 : Op) (s : State) : StartQs (startVred a0 a1 s) s := by
  simp [startVred]

theorem startVbcast_qs (a0 : CoreId) (a1 : Op) (s : State) : StartQs (startVbcast a0 a1 s) s := by
  simp [startVbcast]

theorem startVext_qs (a0 : CoreId) (a1 : Op) (s : State) : StartQs (startVext a0 a1 s) s := by
  simp [startVext]

theorem startArgmax_qs (a0 : CoreId) (a1 : Op) (s : State) : StartQs (startArgmax a0 a1 s) s := by
  simp [startArgmax]

@[simp] theorem scoreRows_qs (a0 : CoreId) (a1 : Op) (a2 : Nat) (a3 : Nat) (a4 : Nat) (a5 : Nat) (a6 : Nat) (a7 : Nat) (s :
    State) : qs (scoreRows a0 a1 a2 a3 a4 a5 a6 a7 s).2.2 = qs s := by
  induction a6 generalizing a7 s with
  | zero => rfl
  | succ n ih => simp [scoreRows, ih]

theorem startPredGate_qs (a0 : CoreId) (a1 : Op) (s : State) : StartQs (startPredGate a0 a1 s) s := by
  simp [startPredGate]

theorem packRef_qs (a0 : CoreId) (a1 : Op) (a2 : Nat) (s : State) : StartQs (packRef a0 a1 a2 s) s := by
  unfold packRef; grind [readTile_qs, shelfReadN_qs, wrS_qs, writeBits_qs, qs_mk, qs_eta, StartQs, LinkQs]

theorem packVar_qs (a0 : CoreId) (a1 : Op) (a2 : Nat) (a3 : Nat) (s : State) : StartQs (packVar a0 a1 a2 a3 s) s := by
  simp [packVar]

theorem startPack_qs (a0 : CoreId) (a1 : Op) (s : State) : StartQs (startPack a0 a1 s) s := by
  simp [startPack, packRef_qs, packVar_qs]

theorem startMatchLoad_qs (a0 : CoreId) (a1 : Op) (s : State) : StartQs (startMatchLoad a0 a1 s) s := by
  simp [startMatchLoad]

@[simp] theorem probeLines_qs (a0 : CoreId) (a1 : Op) (a2 : List CamKey) (a3 : Nat) (a4 : Nat) (a5 : Nat) (a6 : Nat) (a7 :
    Nat) (a8 : ProbeSt) (s : State) : qs (probeLines a0 a1 a2 a3 a4 a5 a6 a7 a8 s).2 = qs s := by
  induction a6 generalizing a7 a8 s with
  | zero => rfl
  | succ n ih =>
    unfold probeLines
    extract_lets r q
    have hr : qs r.2.2 = qs s := shelfRead_qs _ _ _ _ _
    clear_value q r
    (repeat' split)
    · rfl
    · exact hr
    · exact (ih _ _ _).trans hr

@[simp] theorem probeGroup_qs (a0 : CoreId) (a1 : Op) (a2 : List CamKey) (a3 : Nat) (a4 : Nat) (a5 : Nat) (s : State) : qs
    (probeGroup a0 a1 a2 a3 a4 a5 s).2 = qs s := by
  unfold probeGroup
  split <;> simp

@[simp] theorem probeSplit_qs (a0 : CoreId) (a1 : Op) (a2 : CamSt) (a3 : Nat) (a4 : Nat) (a5 : Nat) (a6 : List Nat) (s :
    State) : qs (probeSplit a0 a1 a2 a3 a4 a5 a6 s).2 = qs s := by
  induction a6 generalizing a0 a1 a2 a3 a4 a5 s <;> simp_all [probeSplit]

@[simp] theorem writeRecords_qs (a0 : CoreId) (a1 : Op) (a2 : Nat) (a3 : ProbeSt) (a4 : Bool) (a5 : Option Nat) (s : State) :
    qs (writeRecords a0 a1 a2 a3 a4 a5 s).2 = qs s := by
  simp [writeRecords]

@[simp] theorem writeSplit_qs (a0 : CoreId) (a1 : Op) (a2 : CamSt) (a3 : Nat) (a4 : Option Nat) (a5 : List (Nat × ProbeSt))
    (s : State) : qs (writeSplit a0 a1 a2 a3 a4 a5 s).2 = qs s := by
  induction a5 generalizing a0 a1 a2 a3 a4 s <;> simp_all [writeSplit]

theorem startMatchProbe_qs (a0 : CoreId) (a1 : Op) (s : State) : StartQs (startMatchProbe a0 a1 s) s := by
  simp [startMatchProbe]

theorem startScaInit_qs (a0 : CoreId) (a1 : Op) (s : State) : StartQs (startScaInit a0 a1 s) s := by
  simp [startScaInit]

@[simp] theorem scaSpill_qs (a0 : CoreId) (a1 : Op) (a2 : List DLine) (a3 : ScaRun) (s : State) : qs (scaSpill a0 a1 a2 a3
    s).2 = qs s := by
  unfold scaSpill
  extract_lets k pos total base t msgs
  split
  · rfl
  · split
    · rfl
    · simp

@[simp] theorem scaPair_qs (a0 : CoreId) (a1 : Op) (a2 : List DLine) (a3 : ScaRun) (s : State) : qs (scaPair a0 a1 a2 a3 s).2
    = qs s := by
  unfold scaPair
  extract_lets sca w key s1 s2 r1 lanes
  split
  · simp
  · split
    · rfl
    · have h2 : qs s2 = qs s := by simp only [s2]; split <;> simp [s1]
      clear_value s2 lanes r1 w sca
      split
      · dsimp only; split <;> simp [h2]
      · split <;> simp [h2]

@[simp] theorem scaPairs_qs (a0 : CoreId) (a1 : Op) (a2 : Nat) (a3 : Nat) (a4 : ScaRun) (s : State) : qs (scaPairs a0 a1 a2
    a3 a4 s).2 = qs s := by
  induction a2 generalizing a3 a4 s with
  | zero => rfl
  | succ n ih =>
    unfold scaPairs
    dsimp only
    (repeat' split) <;> simp [ih]

theorem startScaAdd_qs (a0 : CoreId) (a1 : Op) (s : State) : StartQs (startScaAdd a0 a1 s) s := by
  unfold startScaAdd
  extract_lets sca n t r
  have hr : qs r.2 = qs s := scaPairs_qs _ _ _ _ _ _
  clear_value r
  (repeat' split) <;> simp [hr]

theorem startScaDrain_qs (a0 : CoreId) (a1 : Op) (s : State) : StartQs (startScaDrain a0 a1 s) s := by
  simp [startScaDrain]

theorem startTopk_qs (a0 : CoreId) (a1 : Op) (s : State) : StartQs (startTopk a0 a1 s) s := by
  simp [startTopk]

theorem startMerge_qs (a0 : CoreId) (a1 : Op) (s : State) : StartQs (startMerge a0 a1 s) s := by
  simp [startMerge]

theorem startOp_qs (a0 : CoreId) (a1 : Op) (s : State) : StartQs (startOp a0 a1 s) s := by
  cases h : a1.mn
  · simp only [startOp, h]; exact startAlu_qs _ _ _
  · simp only [startOp, h]; exact startAlui_qs _ _ _
  · simp only [startOp, h]; exact startLi_qs _ _ _
  · simp only [startOp, h]; exact startLui_qs _ _ _
  · simp only [startOp, h]; exact startCmp_qs _ _ _
  · simp only [startOp, h]; exact startCmpi_qs _ _ _
  · simp only [startOp, h]; exact startPlog_qs _ _ _
  · simp only [startOp, h]; exact startLd_qs _ _ _
  · simp only [startOp, h]; exact startSt_qs _ _ _
  · simp only [startOp, h]; exact startRds_qs _ _ _
  · simp only [startOp, h]; exact startWrs_qs _ _ _
  · simp only [startOp, h]; exact rfl
  · simp only [startOp, h]; exact rfl
  · simp only [startOp, h]; exact rfl
  · simp only [startOp, h]; exact rfl
  · simp only [startOp, h]; exact rfl
  · simp only [startOp, h]; exact rfl
  · simp only [startOp, h]; exact rfl
  · simp only [startOp, h]; exact rfl
  · simp only [startOp, h]; exact startCommit_qs _ _ _
  · simp only [startOp, h]; exact startTrap_qs _ _ _
  · simp only [startOp, h]; exact startWait_qs _ _ _
  · simp only [startOp, h]; exact startSig_qs _ _ _
  · simp only [startOp, h]; exact startSigr_qs _ _ _
  · simp only [startOp, h]; exact startNop_qs _ _ _
  · simp only [startOp, h]; exact startCopy_qs _ _ _
  · simp only [startOp, h]; exact startGet_qs _ _ _
  · simp only [startOp, h]; exact startGetx_qs _ _ _
  · simp only [startOp, h]; exact startPut_qs _ _ _
  · simp only [startOp, h]; exact startFetch_qs _ _ _
  · simp only [startOp, h]; exact startStore_qs _ _ _
  · simp only [startOp, h]; exact startStoreRing_qs _ _ _
  · simp only [startOp, h]; exact startGather_qs _ _ _
  · simp only [startOp, h]; exact startCreditReq_qs _ _ _
  · simp only [startOp, h]; exact startCreditRet_qs _ _ _
  · simp only [startOp, h]; exact startWload_qs _ _ _
  · simp only [startOp, h]; exact startMm_qs _ _ _
  · simp only [startOp, h]; exact startMmg_qs _ _ _
  · simp only [startOp, h]; exact startMms_qs _ _ _
  · simp only [startOp, h]; exact startMmp_qs _ _ _
  · simp only [startOp, h]; exact startAccInit_qs _ _ _
  · simp only [startOp, h]; exact startAccDrain_qs _ _ _
  · simp only [startOp, h]; exact startPart_qs _ _ _
  · simp only [startOp, h]; exact startVld_qs _ _ _
  · simp only [startOp, h]; exact startVst_qs _ _ _
  · simp only [startOp, h]; exact startValu_qs _ _ _
  · simp only [startOp, h]; exact startVfma_qs _ _ _
  · simp only [startOp, h]; exact startVsf_qs _ _ _
  · simp only [startOp, h]; exact startVcvt_qs _ _ _
  · simp only [startOp, h]; exact startVred_qs _ _ _
  · simp only [startOp, h]; exact startVbcast_qs _ _ _
  · simp only [startOp, h]; exact startVext_qs _ _ _
  · simp only [startOp, h]; exact startArgmax_qs _ _ _
  · simp only [startOp, h]; exact startPredGate_qs _ _ _
  · simp only [startOp, h]; exact startPack_qs _ _ _
  · simp only [startOp, h]; exact startMatchLoad_qs _ _ _
  · simp only [startOp, h]; exact startMatchProbe_qs _ _ _
  · simp only [startOp, h]; exact startScaInit_qs _ _ _
  · simp only [startOp, h]; exact startScaAdd_qs _ _ _
  · simp only [startOp, h]; exact startScaDrain_qs _ _ _
  · simp only [startOp, h]; exact startTopk_qs _ _ _
  · simp only [startOp, h]; exact startMerge_qs _ _ _

end Sys2Proof.Machine
end

