-- ==== Sys2Proof/Laws/Issue.lean ====
section
/-! SUPPORT. The sequencer on a core that nothing holds up: an instruction alone in its queue starts at once, and what its unit
answers is what the issue comes to. -/

set_option maxRecDepth 4000

namespace Sys2Proof.Machine

open Sys2Proof Sys2Proof.Safety

/-- No queue of the core holds an instruction. -/
def idleQueues (k : CoreSt) : Prop := k.queues = Vector.replicate 6 []

theorem queueOf_idle {k : CoreSt} (h : idleQueues k) (q : Nat) : queueOf k q = [] := by
  unfold queueOf
  split
  · simp [idleQueues] at h; simp [h]
  · rfl

theorem startHead_idle {c : CoreId} {s : State} (h : idleQueues (s.core c)) (q : Nat) : startHead c q s = none := by
  simp [startHead, queueOf_idle h]

theorem pumpPass_idle {c : CoreId} {s : State} (h : idleQueues (s.core c)) (l : List Nat) : pumpPass c l s = none := by
  induction l with
  | nil => rfl
  | cons q l ih => rw [pumpPass, startHead_idle h, ih]

theorem pumpN_idle {c : CoreId} {s : State} (h : idleQueues (s.core c)) (n : Nat) : pumpN c n s = s := by
  cases n with
  | zero => rfl
  | succ n => rw [pumpN, pumpPass_idle h]

theorem issuedOp_mn (c : CoreId) (m : Mn) (w w1 : Word) (s : State) : (issuedOp c m w w1 s).mn = m := by
  simp only [issuedOp, capture]; (repeat' split) <;> rfl

theorem issuedOp_pc (c : CoreId) (m : Mn) (w w1 : Word) (s : State) : (issuedOp c m w w1 s).pc = (s.core c).pc := by
  simp only [issuedOp, capture]; (repeat' split) <;> rfl

theorem issuedOp_seq (c : CoreId) (m : Mn) (w w1 : Word) (s : State) : (issuedOp c m w w1 s).seq = (s.core c).nextSeq := by
  simp only [issuedOp, capture]; (repeat' split) <;> rfl

theorem issuedOp_w0 (c : CoreId) (m : Mn) (w w1 : Word) (s : State) : (issuedOp c m w w1 s).w0 = w := by
  simp only [issuedOp, capture]; (repeat' split) <;> rfl

theorem issuedOp_w1 (c : CoreId) (m : Mn) (w w1 : Word) (s : State) : (issuedOp c m w w1 s).w1 = w1 := by
  simp only [issuedOp, capture]; (repeat' split) <;> rfl

theorem issuedOp_q (c : CoreId) (m : Mn) (w w1 : Word) (s : State) : (issuedOp c m w w1 s).q = iQ w := by
  simp only [issuedOp, capture]; (repeat' split) <;> rfl

/-- Core `c` right after an issue. -/
theorem issued_core {c : CoreId} {m : Mn} {w w1 : Word} {s : State} :
    (issued c m w w1 s).core c = advance ((s.core c).pc + if iLong w then 2 else 1)
      (setQueue { setPending m w (s.core c) with
        nextSeq := (s.core c).nextSeq + 1,
        committed := if m = .commit && (s.core c).committed.isNone then some (s.core c).nextSeq else (s.core c).committed }
        (iQ w) [issuedOp c m w w1 s]) := by
  simp [issued, issuedOp_pc, issuedOp_seq, setPending]

theorem decodeHead_queue {w : Word} {m : Mn} (h : decodeHead w = some m) : iQ w < 6 := by
  have all : ∀ e ∈ opTable, e.q < 6 := by decide
  unfold decodeHead at h
  cases hf : opTable.find? (fun e => e.q == iQ w && e.op == iOp w && e.l == iLong w) with
  | none =>
    simp only [hf, Option.map_none] at h
    split at h
    · simp_all; omega
    · cases h
  | some e =>
    have he := List.find?_some hf
    have hm := all e (List.mem_of_find?_eq_some hf)
    simp only [Bool.and_eq_true, beq_iff_eq] at he
    omega

/-- The instructions of two words. -/
def longMns : List Mn :=
  [.copy, .get, .getx, .put, .fetch, .store, .storeRing, .gather, .wload, .mm, .mmg, .mms, .mmp, .accInit, .accDrain, .vld,
   .vst, .vcvt, .argmax, .predGate, .pack, .matchLoad, .matchProbe, .scaAdd, .scaDrain, .topk, .merge]

theorem decodeHead_long {w : Word} {m : Mn} (h : decodeHead w = some m) : iLong w = decide (m ∈ longMns) := by
  have all : ∀ e ∈ opTable, e.l = decide (e.m ∈ longMns) := by decide
  unfold decodeHead at h
  cases hf : opTable.find? (fun e => e.q == iQ w && e.op == iOp w && e.l == iLong w) with
  | none =>
    simp only [hf, Option.map_none] at h
    split at h
    · rename_i hc
      have hl : iLong w = false := by simp at hc; exact hc.2
      rw [hl]
      unfold commonOp at h
      (repeat' split at h) <;> cases h <;> rfl
    · cases h
  | some e =>
    have he := List.find?_some hf
    have hm := all e (List.mem_of_find?_eq_some hf)
    simp only [Bool.and_eq_true, beq_iff_eq] at he
    rw [← he.2, hm]
    simp only [hf, Option.map_some] at h
    split at h <;> rename_i hx
    all_goals first
      | (injection hx with hx; split at h <;> cases h <;> rw [hx] <;> rfl)
      | (injection hx with hx; cases h; rw [hx])
      | cases hx

theorem issueMn_decode {k : CoreSt} {w w1 : Word} {m : Mn} (h : issueMn k w w1 = some m) : decodeHead w = some m := by
  unfold issueMn at h
  split at h
  · cases h
  · rename_i m' hd
    split at h
    · cases h
    · split at h
      · rw [hd]; exact h
      · cases h

theorem ready_long {c : CoreId} {m : Mn} {w w1 : Word} {s : State} (h : Ready c m w w1 s) : iLong w = decide (m ∈ longMns) :=
  decodeHead_long (issueMn_decode h.2.2.2.2.2.2.2.2.1)

theorem issueMn_queue {k : CoreSt} {w w1 : Word} {m : Mn} (h : issueMn k w w1 = some m) : iQ w < 6 := by
  unfold issueMn at h
  split at h
  · cases h
  · rename_i m' hd
    exact decodeHead_queue hd

theorem queueOf_setQueue {k : CoreSt} {q : Nat} (hq : q < 6) (l : List Op) (i : Nat) :
    queueOf (setQueue k q l) i = if i = q then l else queueOf k i := by
  unfold queueOf setQueue
  simp only [hq, dif_pos]
  by_cases hi : i < 6
  · simp only [hi, dif_pos]
    by_cases h : i = q
    · simp [h]
    · have : q ≠ i := fun e => h e.symm
      simp [this, h]
  · have : i ≠ q := by omega
    simp [hi, this]

theorem resolved_core (c : CoreId) (m : Mn) (w : Word) (s : State) :
    (resolved c m w s).core c = setPending m w (s.core c) := by simp [resolved]

theorem modCore_congr {c : CoreId} {f g : CoreSt → CoreSt} {s : State} (h : f (s.core c) = g (s.core c)) :
    s.modCore c f = s.modCore c g := by
  simp [State.modCore, h]

theorem modCore_modCore (c : CoreId) (f g : CoreSt → CoreSt) (s : State) :
    (s.modCore c f).modCore c g = s.modCore c fun k => g (f k) := by
  unfold State.modCore
  rw [core_setCore]
  simp [State.setCore]

theorem strike_nil (s : State) : strike [] s = s := rfl

/-- The operands of an instruction of one word, SIGR apart. -/
theorem ready_short {c : CoreId} {m : Mn} {w w1 : Word} {s : State} (h : Ready c m w w1 s) (hm : m ∉ longMns) (hs : m ≠ .sigr) :
    issuedOp c m w w1 s =
      { mn := m, q := iQ w, pc := (s.core c).pc, seq := (s.core c).nextSeq, w0 := w, w1 := w1, a := rdS (s.core c) (iA w),
        b := rdS (s.core c) (iB w), c := 0, n := 0, d := rdS (s.core c) (iD w), x := 0, pa := rdP (s.core c) (iA w),
        pb := rdP (s.core c) (iB w) } := by
  have := ready_long h
  simp only [issuedOp, capture, hs, if_false, this, hm]
  rfl

@[simp] theorem wrS_queues (c : CoreId) (d : Nat) (v : Word) (s : State) :
    ((wrS c d v s).core c).queues = (s.core c).queues := by
  simp only [wrS, core_modCore]; split <;> rfl

@[simp] theorem wrP_queues (c : CoreId) (d : Nat) (v : Bool) (s : State) :
    ((wrP c d v s).core c).queues = (s.core c).queues := by
  simp only [wrP, core_modCore]

/-- A state in which core `c` has one instruction, in queue `q`, and nothing started. -/
def oneOp (c : CoreId) (q : Nat) (o : Op) (s : State) : Prop :=
  ∃ hq : q < 6, (s.core c).queues = (Vector.replicate 6 []).set q [o] hq ∧ (s.core c).active = [] ∧
    (s.core c).issue ≠ .trapped

theorem issued_oneOp {c : CoreId} {m : Mn} {w w1 : Word} {s : State} (h : Ready c m w w1 s) :
    oneOp c (iQ w) (issuedOp c m w w1 s) (issued c m w w1 s) := by
  obtain ⟨hi, _, hq, ha, _, _, _, _, hm, _, _⟩ := h
  have hw := issueMn_queue hm
  refine ⟨hw, ?_, ?_, ?_⟩
  · rw [issued_core]; simp [advance, setQueue, hw, setPending, hq]
  · rw [issued_core]; simp [advance, setQueue, hw, setPending, ha]
  · rw [issued_core]; simp [advance, setQueue, hw, setPending, hi]

theorem startHead_other {c : CoreId} {q : Nat} {o : Op} {s : State} (h : oneOp c q o s) {i : Nat} (hi : i ≠ q) :
    startHead c i s = none := by
  obtain ⟨hq, hqs, _, _⟩ := h
  have : queueOf (s.core c) i = [] := by
    unfold queueOf
    split
    · rename_i h6
      have : q ≠ i := fun e => hi e.symm
      simp [hqs, this]
    · rfl
  simp [startHead, this]

/-- A pass over the heads where the one instruction starts and leaves the queues empty. -/
theorem pumpPass_one {c : CoreId} {q : Nat} {o : Op} {s t : State} (h : oneOp c q o s) (hs : startHead c q s = some t)
    (ht : idleQueues (t.core c)) (l : List Nat) : pumpPass c l s = if q ∈ l then some t else none := by
  induction l with
  | nil => rfl
  | cons i l ih =>
    by_cases hi : i = q
    · subst hi; simp [pumpPass, hs, pumpPass_idle ht]
    · have : q ≠ i := fun e => hi e.symm
      simp [pumpPass, startHead_other h hi, ih, this]

/-- A pass over the heads where the one instruction does not start. -/
theorem pumpPass_held {c : CoreId} {q : Nat} {o : Op} {s : State} (h : oneOp c q o s) (hs : startHead c q s = none)
    (l : List Nat) : pumpPass c l s = none := by
  induction l with
  | nil => rfl
  | cons i l ih =>
    by_cases hi : i = q
    · subst hi; simp [pumpPass, hs, ih]
    · simp [pumpPass, startHead_other h hi, ih]

/-- The queues of a core with one instruction run to what its start comes to. -/
theorem pump_one {c : CoreId} {q : Nat} {o : Op} {s t : State} (h : oneOp c q o s) (hs : startHead c q s = some t)
    (ht : idleQueues (t.core c)) : pump c s = t := by
  rw [pump, pumpN, pumpPass_one h hs ht, if_pos (List.mem_range.mpr h.1)]
  exact pumpN_idle ht _

theorem pump_held {c : CoreId} {q : Nat} {o : Op} {s : State} (h : oneOp c q o s) (hs : startHead c q s = none) : pump c s = s := by
  rw [pump, pumpN, pumpPass_held h hs]

theorem startHead_one {c : CoreId} {q : Nat} {o : Op} {s : State} (h : oneOp c q o s) :
    startHead c q s = match startOp c o s with
      | .hold => none
      | .done s' => some (s'.modCore c fun k => setQueue k q [])
      | .active a s' => some ((s'.modCore c fun k => setQueue k q []).modCore c fun k => { k with active := k.active ++ [a] })
      | .trap code arg s' => some (coreTrap c code q o.pc o.w0 arg (s'.modCore c fun k => setQueue k q [])) := by
  obtain ⟨hq, hqs, ha, hi⟩ := h
  have h1 : queueOf (s.core c) q = [o] := by simp [queueOf, hq, hqs]
  have h2 : unitFree s c q = true := by simp [unitFree, ha]
  have h3 : isTrapped (s.core c) = false := by simpa [isTrapped] using hi
  simp only [startHead, h1, h2, h3]
  rfl

theorem issueStep_ready {c : CoreId} {m : Mn} {w w1 : Word} {s : State} (h : Ready c m w w1 s) (hc : isControl m = false) :
    issueStep c [] (some m) s = pump c (issued c m w w1 s) := by
  obtain ⟨hi, hd, hq, ha, hs, hp, hf, hw, hm, hn, hr⟩ := h
  have hp0 : pump c (strike [] s) = s := pumpN_idle hq 97
  simp only [issueStep, hp0, hi, hd, hw, hm, hf, hn, hp]
  have hl : ∀ k : CoreSt, k.queues = (s.core c).queues → queueOf k (iQ w) = [] := fun k hk => queueOf_idle (hk.trans hq) _
  simp only [issueMnemonic, hr, depStall, hs, hp, hc, hl _ rfl]
  simp only [issued]
  simp [State.modCore, issuedOp, hl, setPending]

/-- An instruction that its unit completes at once. -/
theorem issue_done {c : CoreId} {m : Mn} {w w1 : Word} {s t : State} (h : Ready c m w w1 s) (hc : isControl m = false)
    (hs : startOp c (issuedOp c m w w1 s) (issued c m w w1 s) = .done t)
    (hq : (t.core c).queues = ((issued c m w w1 s).core c).queues) :
    issueStep c [] (some m) s = retire c w t := by
  have ho := issued_oneOp h
  rw [issueStep_ready h hc]
  refine pump_one ho ((startHead_one ho).trans (by rw [hs]; rfl)) ?_
  obtain ⟨h6, hqs, _, _⟩ := ho
  simp [idleQueues, setQueue, h6, hq, hqs, retire]

/-- An instruction that its unit has started and that waits for something. -/
theorem issue_active {c : CoreId} {m : Mn} {w w1 : Word} {s t : State} {a : Active} (h : Ready c m w w1 s)
    (hc : isControl m = false) (hs : startOp c (issuedOp c m w w1 s) (issued c m w w1 s) = .active a t)
    (hq : (t.core c).queues = ((issued c m w w1 s).core c).queues) :
    issueStep c [] (some m) s = started c w a t := by
  have ho := issued_oneOp h
  rw [issueStep_ready h hc]
  refine pump_one ho ((startHead_one ho).trans (by rw [hs]; rfl)) ?_
  obtain ⟨h6, hqs, _, _⟩ := ho
  simp [idleQueues, setQueue, h6, hq, hqs, started, retire]

/-- An instruction that its unit leaves at the head of its queue. -/
theorem issue_hold {c : CoreId} {m : Mn} {w w1 : Word} {s : State} (h : Ready c m w w1 s)
    (hc : isControl m = false) (hs : startOp c (issuedOp c m w w1 s) (issued c m w w1 s) = .hold) :
    issueStep c [] (some m) s = issued c m w w1 s := by
  have ho := issued_oneOp h
  rw [issueStep_ready h hc]
  exact pump_held ho (by rw [startHead_one ho, hs])

/-- An instruction that traps its core. -/
theorem issue_trap {c : CoreId} {m : Mn} {w w1 : Word} {s t : State} {code arg : Nat} (h : Ready c m w w1 s)
    (hc : isControl m = false) (hs : startOp c (issuedOp c m w w1 s) (issued c m w w1 s) = .trap code arg t)
    (hq : (t.core c).queues = ((issued c m w w1 s).core c).queues) :
    issueStep c [] (some m) s = trappedAt c code arg (s.core c).pc w t := by
  have ho := issued_oneOp h
  rw [issueStep_ready h hc]
  refine pump_one ho ((startHead_one ho).trans (by rw [hs]; simp only [issuedOp_pc, issuedOp_w0]; rfl)) ?_
  obtain ⟨h6, hqs, _, _⟩ := ho
  rw [idleQueues, trappedAt, coreTrap_core]
  simp [retire, setQueue, h6, hq, hqs]

/-- An instruction that the sequencer resolves itself. -/
theorem issue_control {c : CoreId} {m : Mn} {w w1 : Word} {s : State} (h : Ready c m w w1 s) (hc : isControl m = true) :
    issueStep c [] (some m) s = control c m w (resolved c m w s) := by
  obtain ⟨hi, hd, hq, ha, hs, hp, hf, hw, hm, hn, hr⟩ := h
  have hp0 : pump c (strike [] s) = s := pumpN_idle hq 97
  simp only [issueStep, hp0, hi, hd, hw, hm, hf, hn, hp]
  have hl : queueOf (s.core c) (iQ w) = [] := queueOf_idle hq _
  simp [issueMnemonic, hr, depStall, hs, hp, hc, hl, resolved]

/-! ## What an issue leaves alone -/

@[simp] theorem issued_issue (c : CoreId) (m : Mn) (w w1 : Word) (s : State) :
    ((issued c m w w1 s).core c).issue = (s.core c).issue := by
  rw [issued_core]; simp only [advance, setQueue, setPending]; split <;> rfl

@[simp] theorem issued_slot (c : CoreId) (m : Mn) (w w1 : Word) (s : State) :
    ((issued c m w w1 s).core c).slot = (s.core c).slot := by
  rw [issued_core]; simp only [advance, setQueue, setPending]; split <;> rfl

@[simp] theorem issued_logical (c : CoreId) (m : Mn) (w w1 : Word) (s : State) :
    ((issued c m w w1 s).core c).logical = (s.core c).logical := by
  rw [issued_core]; simp only [advance, setQueue, setPending]; split <;> rfl

@[simp] theorem issued_s (c : CoreId) (m : Mn) (w w1 : Word) (s : State) :
    ((issued c m w w1 s).core c).s = (s.core c).s := by
  rw [issued_core]; simp only [advance, setQueue, setPending]; split <;> rfl

@[simp] theorem issued_p (c : CoreId) (m : Mn) (w w1 : Word) (s : State) :
    ((issued c m w w1 s).core c).p = (s.core c).p := by
  rw [issued_core]; simp only [advance, setQueue, setPending]; split <;> rfl

@[simp] theorem issued_v (c : CoreId) (m : Mn) (w w1 : Word) (s : State) :
    ((issued c m w w1 s).core c).v = (s.core c).v := by
  rw [issued_core]; simp only [advance, setQueue, setPending]; split <;> rfl

@[simp] theorem issued_vp (c : CoreId) (m : Mn) (w w1 : Word) (s : State) :
    ((issued c m w w1 s).core c).vp = (s.core c).vp := by
  rw [issued_core]; simp only [advance, setQueue, setPending]; split <;> rfl

@[simp] theorem issued_rets (c : CoreId) (m : Mn) (w w1 : Word) (s : State) :
    ((issued c m w w1 s).core c).rets = (s.core c).rets := by
  rw [issued_core]; simp only [advance, setQueue, setPending]; split <;> rfl

@[simp] theorem issued_cur (c : CoreId) (m : Mn) (w w1 : Word) (s : State) :
    ((issued c m w w1 s).core c).cur = (s.core c).cur := by
  rw [issued_core]; simp only [advance, setQueue, setPending]; split <;> rfl

@[simp] theorem issued_capFrame (c : CoreId) (m : Mn) (w w1 : Word) (s : State) :
    ((issued c m w w1 s).core c).capFrame = (s.core c).capFrame := by
  rw [issued_core]; simp only [advance, setQueue, setPending]; split <;> rfl

@[simp] theorem issued_captured (c : CoreId) (m : Mn) (w w1 : Word) (s : State) :
    ((issued c m w w1 s).core c).captured = (s.core c).captured := by
  rw [issued_core]; simp only [advance, setQueue, setPending]; split <;> rfl

@[simp] theorem issued_fwDone (c : CoreId) (m : Mn) (w w1 : Word) (s : State) :
    ((issued c m w w1 s).core c).fwDone = (s.core c).fwDone := by
  rw [issued_core]; simp only [advance, setQueue, setPending]; split <;> rfl

@[simp] theorem issued_sems (c : CoreId) (m : Mn) (w w1 : Word) (s : State) :
    ((issued c m w w1 s).core c).sems = (s.core c).sems := by
  rw [issued_core]; simp only [advance, setQueue, setPending]; split <;> rfl

@[simp] theorem issued_active (c : CoreId) (m : Mn) (w w1 : Word) (s : State) :
    ((issued c m w w1 s).core c).active = (s.core c).active := by
  rw [issued_core]; simp only [advance, setQueue, setPending]; split <;> rfl

@[simp] theorem issued_ledger (c : CoreId) (m : Mn) (w w1 : Word) (s : State) :
    ((issued c m w w1 s).core c).ledger = (s.core c).ledger := by
  rw [issued_core]; simp only [advance, setQueue, setPending]; split <;> rfl

@[simp] theorem issued_pools (c : CoreId) (m : Mn) (w w1 : Word) (s : State) :
    ((issued c m w w1 s).core c).pools = (s.core c).pools := by
  rw [issued_core]; simp only [advance, setQueue, setPending]; split <;> rfl

@[simp] theorem issued_spad (c : CoreId) (m : Mn) (w w1 : Word) (s : State) :
    ((issued c m w w1 s).core c).spad = (s.core c).spad := by
  rw [issued_core]; simp only [advance, setQueue, setPending]; split <;> rfl

@[simp] theorem issued_upsets (c : CoreId) (m : Mn) (w w1 : Word) (s : State) :
    ((issued c m w w1 s).core c).upsets = (s.core c).upsets := by
  rw [issued_core]; simp only [advance, setQueue, setPending]; split <;> rfl

@[simp] theorem issued_ceRows (c : CoreId) (m : Mn) (w w1 : Word) (s : State) :
    ((issued c m w w1 s).core c).ceRows = (s.core c).ceRows := by
  rw [issued_core]; simp only [advance, setQueue, setPending]; split <;> rfl

@[simp] theorem issued_repairQ (c : CoreId) (m : Mn) (w w1 : Word) (s : State) :
    ((issued c m w w1 s).core c).repairQ = (s.core c).repairQ := by
  rw [issued_core]; simp only [advance, setQueue, setPending]; split <;> rfl

@[simp] theorem issued_swap (c : CoreId) (m : Mn) (w w1 : Word) (s : State) :
    ((issued c m w w1 s).core c).swap = (s.core c).swap := by
  rw [issued_core]; simp only [advance, setQueue, setPending]; split <;> rfl

@[simp] theorem issued_dirty (c : CoreId) (m : Mn) (w w1 : Word) (s : State) :
    ((issued c m w w1 s).core c).dirty = (s.core c).dirty := by
  rw [issued_core]; simp only [advance, setQueue, setPending]; split <;> rfl

@[simp] theorem issued_loftCopy (c : CoreId) (m : Mn) (w w1 : Word) (s : State) :
    ((issued c m w w1 s).core c).loftCopy = (s.core c).loftCopy := by
  rw [issued_core]; simp only [advance, setQueue, setPending]; split <;> rfl

@[simp] theorem issued_faultHdr (c : CoreId) (m : Mn) (w w1 : Word) (s : State) :
    ((issued c m w w1 s).core c).faultHdr = (s.core c).faultHdr := by
  rw [issued_core]; simp only [advance, setQueue, setPending]; split <;> rfl

@[simp] theorem issued_array (c : CoreId) (m : Mn) (w w1 : Word) (s : State) :
    ((issued c m w w1 s).core c).array = (s.core c).array := by
  rw [issued_core]; simp only [advance, setQueue, setPending]; split <;> rfl

@[simp] theorem issued_cam (c : CoreId) (m : Mn) (w w1 : Word) (s : State) :
    ((issued c m w w1 s).core c).cam = (s.core c).cam := by
  rw [issued_core]; simp only [advance, setQueue, setPending]; split <;> rfl

@[simp] theorem issued_gm (c : CoreId) (m : Mn) (w w1 : Word) (s : State) :
    ((issued c m w w1 s).core c).gm = (s.core c).gm := by
  rw [issued_core]; simp only [advance, setQueue, setPending]; split <;> rfl

@[simp] theorem issued_rot (c : CoreId) (m : Mn) (w w1 : Word) (s : State) :
    ((issued c m w w1 s).core c).rot = (s.core c).rot := by
  rw [issued_core]; simp only [advance, setQueue, setPending]; split <;> rfl

@[simp] theorem issued_gateCnt (c : CoreId) (m : Mn) (w w1 : Word) (s : State) :
    ((issued c m w w1 s).core c).gateCnt = (s.core c).gateCnt := by
  rw [issued_core]; simp only [advance, setQueue, setPending]; split <;> rfl

@[simp] theorem issued_sca (c : CoreId) (m : Mn) (w w1 : Word) (s : State) :
    ((issued c m w w1 s).core c).sca = (s.core c).sca := by
  rw [issued_core]; simp only [advance, setQueue, setPending]; split <;> rfl

theorem issued_committed {m : Mn} (hm : m ≠ .commit) (c : CoreId) (w w1 : Word) (s : State) :
    ((issued c m w w1 s).core c).committed = (s.core c).committed := by
  rw [issued_core]; simp only [advance, setQueue, setPending]; split <;> simp [hm]

@[simp] theorem issued_actReg (c : CoreId) (m : Mn) (w w1 : Word) (s : State) (o : Nat) :
    (issued c m w w1 s).actReg o = s.actReg o := by
  simp [issued]

@[simp] theorem issued_mem (c : CoreId) (m : Mn) (w w1 : Word) (s : State) : (issued c m w w1 s).mem = s.mem := by
  simp [issued]

theorem issued_core_ne {c d : CoreId} (m : Mn) (w w1 : Word) (s : State) (h : d ≠ c) :
    (issued c m w w1 s).core d = s.core d := by
  simp [issued, core_modCore_ne _ _ h]

@[simp] theorem issued_shelfEnt (c d : CoreId) (m : Mn) (w w1 : Word) (s : State) (i : Nat) :
    shelfEnt (issued c m w w1 s) d i = shelfEnt s d i := issued_actReg c m w w1 s _

@[simp] theorem issued_workSecond (c : CoreId) (m : Mn) (w w1 : Word) (s : State) (i : Nat) :
    workSecond (issued c m w w1 s) c i = workSecond s c i := by
  simp [workSecond]

@[simp] theorem issued_localCheck (c : CoreId) (m : Mn) (w w1 : Word) (s : State) (i j n : Nat) :
    localCheck (issued c m w w1 s) c i j n = localCheck s c i j n := by
  simp [localCheck, shelfCheck]

@[simp] theorem issued_lineFaulty (c : CoreId) (m : Mn) (w w1 : Word) (s : State) (p : Nat) :
    lineFaulty (issued c m w w1 s) c p = lineFaulty s c p := by
  simp [lineFaulty]

@[simp] theorem issued_readsFault (c : CoreId) (m : Mn) (w w1 : Word) (s : State) (i j n : Nat) :
    readsFault (issued c m w w1 s) c i j n = readsFault s c i j n := by
  simp [readsFault]

@[simp] theorem issued_runCheck (c : CoreId) (m : Mn) (w w1 : Word) (s : State) (i j n : Nat) :
    runCheck (issued c m w w1 s) c i j n = runCheck s c i j n := by
  simp [runCheck]

theorem issued_writeCheck {m : Mn} (hm : m ≠ .commit) (c : CoreId) (w w1 : Word) (s : State) (q i j n : Nat) :
    writeCheck (issued c m w w1 s) c q i j n = writeCheck s c q i j n := by
  simp [writeCheck, issued_committed hm]

/-- A good line reads as it stands. -/
theorem shelfRead_good {c : CoreId} {i j : Nat} {l : Line} {s : State} (h : GoodLine c i j l s) (port : Nat) :
    shelfRead c i j port s = (⟨l.data, false⟩, false, s) := by
  obtain ⟨h1, h2, h3, h4⟩ := h
  unfold shelfRead spadRead
  have h5 : ¬l.tag = 0#16 := h3
  rw [h1, h2]
  simp [h4, h5]

theorem GoodLine_issued {c : CoreId} {i j : Nat} {l : Line} {s : State} (h : GoodLine c i j l s) (m : Mn) (w w1 : Word) :
    GoodLine c i j l (issued c m w w1 s) := by
  simpa [GoodLine] using h

@[simp] theorem shelfWrite_queues (c : CoreId) (i j : Nat) (d : DLine) (s : State) :
    ((shelfWrite c i j d s).core c).queues = (s.core c).queues := by
  unfold shelfWrite
  simp only [core_ite, core_modCore, core_send, spadWrite]
  (repeat' split) <;> rfl

/-! ## The commands of a core's program -/

/-- A queue instruction that nothing holds up comes to what its unit answers. -/
theorem exec_ran {c : CoreId} {m : Mn} {w w1 : Word} {s : State} {i : Instr} (h : Ready c m w w1 s)
    (hi : exec i s = .next (issueStep c [] (some m) s)) (hc : isControl m = false) :
    exec i s = .next (ran c (s.core c).pc w (issued c m w w1 s)
      (startOp c (issuedOp c m w w1 s) (issued c m w w1 s))) := by
  rw [hi]
  have hq := startOp_qs c (issuedOp c m w w1 s) (issued c m w w1 s)
  cases hs : startOp c (issuedOp c m w w1 s) (issued c m w w1 s) with
  | done t => rw [hs] at hq; rw [issue_done h hc hs (qs_core hq c)]; rfl
  | active a t => rw [hs] at hq; rw [issue_active h hc hs (qs_core hq c)]; rfl
  | trap code arg t => rw [hs] at hq; rw [issue_trap h hc hs (qs_core hq c)]; rfl
  | hold => rw [issue_hold h hc hs]; rfl

theorem exec_control {c : CoreId} {m : Mn} {w w1 : Word} {s : State} {i : Instr} (h : Ready c m w w1 s)
    (hi : exec i s = .next (issueStep c [] (some m) s)) (hc : isControl m = true) :
    exec i s = .next (control c m w (resolved c m w s)) := by
  rw [hi, issue_control h hc]

end Sys2Proof.Machine
end

