-- ==== Sys2Proof/Laws/Memory.lean ====
section
/-! SUPPORT. The canonical form of external memory and of the scratchpads: every operation over them keeps it, and a line reads
as it was written. -/

namespace Sys2Proof.Machine

open Sys2Proof

theorem keysAbove_filter {α : Type} {b : Nat} {m : Store α} (p : Nat × α → Bool) (h : keysAbove b m) :
    keysAbove b (m.filter p) := fun e he => h e (List.mem_of_mem_filter he)

/-- Losing lines keeps the canonical form. -/
theorem storeWf_filter {α : Type} (p : Nat × α → Bool) (m : Store α) (h : storeWf m = true) : storeWf (m.filter p) = true := by
  induction m with
  | nil => rfl
  | cons e r ih =>
    obtain ⟨k, v⟩ := e
    obtain ⟨ha, hr⟩ := (storeWf_cons k v r).mp h
    rw [List.filter_cons]
    split
    · exact (storeWf_cons k v _).mpr ⟨keysAbove_filter p ha, ih hr⟩
    · exact ih hr

/-- Changing what the lines hold keeps the canonical form. -/
theorem storeWf_map {α β : Type} (f : Nat × α → β) (m : Store α) (h : storeWf m = true) :
    storeWf (m.map fun e => (e.1, f e)) = true := by
  induction m with
  | nil => rfl
  | cons e r ih =>
    obtain ⟨k, v⟩ := e
    obtain ⟨ha, hr⟩ := (storeWf_cons k v r).mp h
    refine (storeWf_cons k _ _).mpr ⟨?_, ih hr⟩
    intro x hx
    obtain ⟨y, hy, rfl⟩ := List.mem_map.mp hx
    exact ha y hy

theorem memWf_iff (s : State) : Memory.wf s = true ↔ storeWf s.mem.lines = true ∧ ∀ c, storeWf (s.core c).spad = true := by
  simp only [Memory.wf, Bool.and_eq_true, List.all_eq_true]
  refine and_congr_right fun _ => ⟨fun h c => h c ?_, fun h c _ => h c⟩
  simp [allCores]

theorem memWf_reset : Memory.wf State.reset = true := by
  refine (memWf_iff _).mpr ⟨rfl, fun c => ?_⟩
  simp [State.reset, State.core, CoreSt.reset, storeWf]

/-- What leaves memory and cores alone keeps the form. -/
theorem memWf_congr {s t : State} (hm : t.mem.lines = s.mem.lines) (hc : ∀ c, (t.core c).spad = (s.core c).spad)
    (h : Memory.wf s = true) : Memory.wf t = true := by
  rw [memWf_iff] at h ⊢
  exact ⟨hm ▸ h.1, fun c => (hc c) ▸ h.2 c⟩

/-! ## External memory -/

theorem memWf_memStore (a : Nat) (l : Line) (s : State) (h : Memory.wf s = true) : Memory.wf (memStore a l s) = true := by
  rw [memWf_iff] at h
  unfold memStore
  generalize tagFails (saltAddr a) l = b
  cases b
  · exact (memWf_iff _).mpr ⟨storeWf_sput _ _ _ h.1, h.2⟩
  · refine (memWf_iff _).mpr ⟨?_, fun c => ?_⟩
    · simp only [if_true, raise_mem, bump_mem]; exact storeWf_sput _ _ _ h.1
    · simp only [if_true, raise_core, bump_core]; exact h.2 c

theorem memWf_memPut (a : Nat) (d : DLine) (s : State) (h : Memory.wf s = true) : Memory.wf (memPut a d s) = true :=
  memWf_memStore _ _ _ h

theorem memWf_memPutN (a : Nat) (ds : List DLine) (s : State) (h : Memory.wf s = true) : Memory.wf (memPutN a ds s) = true := by
  induction ds generalizing a s with
  | nil => exact h
  | cons d r ih => exact ih _ _ (memWf_memPut a d s h)

theorem memWf_drawn (s : State) (h : Memory.wf s = true) : Memory.wf s.drawn = true :=
  memWf_congr rfl (fun _ => rfl) h

theorem memWf_memRead (a : Nat) (s : State) (h : Memory.wf s = true) : Memory.wf (memRead a s).2 = true := by
  unfold memRead memLine
  split
  · exact h
  · exact memWf_drawn s h

theorem memWf_memReadN (a n : Nat) (s : State) (h : Memory.wf s = true) : Memory.wf (memReadN a n s).2 = true := by
  induction n generalizing a s with
  | zero => exact h
  | succ n ih => exact ih _ _ (memWf_memRead a s h)

theorem memWf_memSetLine (a : Nat) (bs : List Nat) (s : State) (h : Memory.wf s = true) :
    Memory.wf (memSetLine a bs s) = true := by
  unfold memSetLine
  split
  · exact memWf_memPut _ _ _ h
  · exact memWf_memPut _ _ _ (memWf_memRead _ _ h)

theorem memWf_memSet (a : Nat) (bs : List Nat) (s : State) (h : Memory.wf s = true) : Memory.wf (memSet a bs s) = true := by
  unfold memSet
  generalize bs.length / 64 + 2 = k
  induction k generalizing a bs s with
  | zero => exact h
  | succ k ih =>
    unfold memSetN
    split
    · exact h
    · exact ih _ _ _ (memWf_memSetLine _ _ _ h)

theorem memWf_poisonStored (a : Nat) (s : State) (h : Memory.wf s = true) : Memory.wf (poisonStored a s) = true := by
  unfold poisonStored
  split
  · rw [memWf_iff] at h ⊢
    exact ⟨storeWf_sput _ _ _ h.1, h.2⟩
  · exact h

theorem memWf_memDeep (d : Nat) (s : State) (h : Memory.wf s = true) : Memory.wf (memDeep d s) = true := by
  unfold memDeep
  split
  · exact h
  · rw [memWf_iff] at h ⊢
    exact ⟨storeWf_filter _ _ h.1, h.2⟩

theorem memWf_memTrained (bad : BitVec 8) (s : State) (h : Memory.wf s = true) : Memory.wf (memTrained bad s) = true := by
  rw [memWf_iff] at h
  unfold memTrained
  split
  · exact (memWf_iff _).mpr h
  · simp only
    split
    · refine (memWf_iff _).mpr ⟨?_, fun c => ?_⟩
      · simp only [raise_mem]; exact h.1
      · simp only [raise_core]; exact h.2 c
    · refine (memWf_iff _).mpr ⟨?_, fun c => h.2 c⟩
      show storeWf (if _ then s.mem.lines else []) = true
      repeat' split
      all_goals first | exact h.1 | rfl

/-! ## Scratchpads -/

/-- An update of one core's lines keeps the form when the new lines have it. -/
theorem memWf_modCore (c : CoreId) (f : CoreSt → CoreSt) (s : State) (hf : storeWf (f (s.core c)).spad = true)
    (h : Memory.wf s = true) : Memory.wf (s.modCore c f) = true := by
  rw [memWf_iff] at h ⊢
  refine ⟨by simpa using h.1, fun d => ?_⟩
  by_cases hd : d = c
  · subst hd; simpa using hf
  · rw [core_modCore_ne _ _ hd]; exact h.2 d

theorem memWf_spadWrite (c : CoreId) (p : Nat) (d : DLine) (s : State) (h : Memory.wf s = true) :
    Memory.wf (spadWrite c p d s) = true :=
  memWf_modCore _ _ _ (storeWf_sput _ _ _ (((memWf_iff s).mp h).2 c)) h

theorem memWf_raise (e : Nat) (s : State) (h : Memory.wf s = true) : Memory.wf (raise e s) = true :=
  memWf_congr (by simp) (fun c => by simp) h

theorem memWf_bumpC (c : CoreId) (o : Nat) (s : State) (h : Memory.wf s = true) : Memory.wf (bumpC c o s) = true :=
  memWf_congr (by simp) (fun c => by simp) h

theorem memWf_repairFail (c : CoreId) (b : Nat) (s : State) (h : Memory.wf s = true) : Memory.wf (repairFail c b s) = true :=
  memWf_raise _ _ (memWf_congr (s := s) rfl (fun _ => rfl) h)

theorem memWf_queueRow (c : CoreId) (p : Nat) (s : State) (h : Memory.wf s = true) : Memory.wf (queueRow c p s) = true := by
  unfold queueRow
  simp only
  split
  · exact h
  · split
    · exact memWf_repairFail _ _ _ h
    · refine memWf_congr (s := s.modCore c fun k => { k with repairQ := k.repairQ ++ [p / 8] }) rfl (fun _ => rfl) ?_
      exact memWf_modCore _ _ _ (((memWf_iff s).mp h).2 c) h

theorem memWf_setReg (o : Nat) (v : Word) (s : State) (h : Memory.wf s = true) : Memory.wf (s.setReg o v) = true :=
  memWf_congr rfl (fun _ => rfl) h

theorem memWf_logFault (e k i d : Nat) (s : State) (h : Memory.wf s = true) : Memory.wf (logFault e k i d s) = true :=
  memWf_congr (by simp [logFault]) (fun c => by simp) h

theorem memWf_loftLost (l : List Nat) (s : State) (h : Memory.wf s = true) : Memory.wf { s with loftLost := l } = true :=
  memWf_congr (s := s) rfl (fun _ => rfl) h

theorem memWf_loseLoft (c : CoreId) (i : Nat) (s : State) (h : Memory.wf s = true) : Memory.wf (loseLoft c i s) = true := by
  unfold loseLoft
  exact memWf_raise _ _ (memWf_loftLost _ _ (memWf_logFault _ _ _ _ _ h))

theorem memWf_loseParked (c : CoreId) (k i : Nat) (s : State) (h : Memory.wf s = true) : Memory.wf (loseParked c k i s) = true := by
  unfold loseParked
  exact memWf_raise _ _ (memWf_loftLost _ _ (memWf_logFault _ _ _ _ _ h))

theorem memWf_poisonLine (c : CoreId) (p : Nat) (d : BitVec 512) (s : State) (h : Memory.wf s = true) :
    Memory.wf (s.modCore c fun k => { k with spad := sput p ⟨d, 0⟩ k.spad, upsets := sdel p k.upsets }) = true :=
  memWf_modCore _ _ _ (storeWf_sput _ _ _ (((memWf_iff s).mp h).2 c)) h

theorem memWf_ite {b : Bool} {s t : State} (hs : Memory.wf s = true) (ht : Memory.wf t = true) :
    Memory.wf (if b = true then s else t) = true := by split <;> assumption

theorem memWf_uncorrectable (c : CoreId) (p port : Nat) (d : BitVec 512) (s : State) (h : Memory.wf s = true) :
    Memory.wf (uncorrectable c p port d s) = true := by
  have h0 := memWf_bumpC c Reg.SPAD_UE_CNT s h
  refine memWf_poisonLine c p d _ ?_
  have h1 (b : Bool) (o : Nat) (v : Word) := memWf_queueRow c p _ (memWf_raise (evCore c 1) _
    (memWf_ite (b := b) h0 (memWf_setReg o v _ h0)))
  generalize committedAt (bumpC c Reg.SPAD_UE_CNT s) c p = cm
  generalize parkedCommitted (bumpC c Reg.SPAD_UE_CNT s) c p = pk
  cases cm with
  | some i => exact memWf_loseLoft c i _ (h1 _ _ _)
  | none => cases pk with
    | none => exact h1 _ _ _
    | some e => exact memWf_loseParked c _ _ _ (h1 _ _ _)

theorem memWf_corrected (c : CoreId) (p : Nat) (s : State) (h : Memory.wf s = true) : Memory.wf (corrected c p s) = true := by
  unfold corrected
  have h1 := memWf_modCore c (fun k => { k with
    ceRows := sput (p / 8) ((sget (p / 8) ((bumpC c Reg.SPAD_CE_CNT s).core c).ceRows).getD 0 + 1) k.ceRows,
    upsets := sdel p k.upsets }) _ (((memWf_iff _).mp (memWf_bumpC c Reg.SPAD_CE_CNT s h)).2 c) (memWf_bumpC _ _ _ h)
  simp only
  split
  · exact memWf_queueRow _ _ _ h1
  · exact h1

theorem memWf_spadRead (c : CoreId) (p port : Nat) (s : State) (h : Memory.wf s = true) :
    Memory.wf (spadRead c p port s).2.2 = true := by
  unfold spadRead
  extract_lets x l u s1 s2
  have h1 : Memory.wf s1 = true := memWf_ite (memWf_drawn s h) h
  have h2 : Memory.wf s2 = true := memWf_ite (memWf_corrected _ _ _ h1) h1
  clear_value s1 s2
  split
  · exact memWf_uncorrectable _ _ _ _ _ h1
  · split
    · exact h2
    · split
      · exact h2
      · exact memWf_uncorrectable _ _ _ _ _ h2

theorem memWf_shelfRead (c : CoreId) (i j port : Nat) (s : State) (h : Memory.wf s = true) :
    Memory.wf (shelfRead c i j port s).2.2 = true := memWf_spadRead _ _ _ _ h

theorem memWf_shelfWrite (c : CoreId) (i j : Nat) (d : DLine) (s : State) (h : Memory.wf s = true) :
    Memory.wf (shelfWrite c i j d s) = true := by
  unfold shelfWrite
  have h1 := memWf_spadWrite c (physOf (shelfEnt s c i) (workSecond s c i) j) d s h
  simp only
  generalize hu : (if ((spadWrite c _ d s).core c).faultHdr.contains (i % 64, j) = true then _ else spadWrite c _ d s) = u
  have h2 : Memory.wf u = true := by
    rw [← hu]
    split
    · exact memWf_modCore _ _ _ (((memWf_iff _).mp h1).2 c) h1
    · exact h1
  split
  · refine memWf_modCore _ _ _ (((memWf_iff _).mp ?_).2 c) ?_ <;>
    · split
      · exact memWf_congr (s := u) rfl (fun _ => rfl) h2
      · exact h2
  · exact h2

theorem memWf_shelfReadN (c : CoreId) (i j port n : Nat) (s : State) (h : Memory.wf s = true) :
    Memory.wf (shelfReadN c i j port n s).2.2 = true := by
  induction n generalizing j s with
  | zero => exact h
  | succ n ih => exact ih _ _ (memWf_shelfRead _ _ _ _ _ h)

theorem memWf_shelfWriteN (c : CoreId) (i j : Nat) (ds : List DLine) (s : State) (h : Memory.wf s = true) :
    Memory.wf (shelfWriteN c i j ds s) = true := by
  induction ds generalizing j s with
  | nil => exact h
  | cons d r ih => exact ih _ _ (memWf_shelfWrite _ _ _ _ _ h)

/-- What one step of a test rotation carries over keeps the form. -/
theorem storeWf_rotLines (out inc : CoreId) (s : State) (h : Memory.wf s = true) : storeWf (rotLines out inc s) = true :=
  storeWf_map _ _ (((memWf_iff s).mp h).2 out)

end Sys2Proof.Machine
end

