-- ==== Sys2Proof/WellFormed.lean ====
section
/-! DEFINITION. Which commands the outside world can form: the ranges of their operands. A command outside them stands for
nothing the spec describes; the meanings are total on it all the same. -/

namespace Sys2Proof

/-- An offset inside BAR0 (Table 1.7, R349): 64 MiB. -/
def inRegs (o : Nat) : Bool := decide (o < 0x4000000)

/-- Every element is a byte. -/
def bytesOk (b : List Nat) : Bool := b.all fun x => decide (x < 256)

/-- A storage error strikes one of the 131,072 lines of a scratchpad (R151). -/
def errOk (e : LineErr) : Bool :=
  match e.spot with
  | .line p => decide (p < 131072)
  | .acc r => decide (r < 2048)
  | .weight set k n _ => decide (set < 8) && decide (k < 1024) && decide (n < 64)
  | .sent j => decide (j < 2 ^ 20)

/-- A line of external memory lies at a multiple of 64 below 2^40 (R20). -/
def memErrOk (e : MemErr) : Bool := decide (e.addr < 2 ^ 40) && e.addr % 64 == 0

/-- An upset names one of the two grid buffers (R98). -/
def upsetOk (u : GridUpset) : Bool := decide (u.buf < 2)

/-- An agent of another device has 8-bit coordinates (R369). -/
def stopOk (a : Agent) : Bool :=
  match a with
  | .dev x y _ => decide (x < 256) && decide (y < 256)
  | .core _ => true
  | .mem => true
  | .grid => true
  | .map => true
  | .smu => true
  | .sys => true
  | .hq => true

/-- A flit (Table 19.11): one of four types, 16-bit sequence numbers, credits of eight link VCs. -/
def flitOk (f : Flit) : Bool :=
  decide (f.type < 4) && decide (f.seq < 65536) && decide (f.ack < 65536) && f.credits.all fun e => decide (e.1 < 8)

/-- Is a command one that the outside world can form? -/
def Instr.wf (i : Instr) : Bool :=
  match i with
  | .registerWrite _ off _ _ => inRegs off
  | .unoccupiedAccess _ addr _ _ _ => decide (addr < 2 ^ 40)
  | .counterReadLow _ off => inRegs off
  | .counterClear _ off _ => inRegs off
  | .fbRegisterWrite _ off _ _ => inRegs off
  | .frameTimerExpire => true
  | .timeInEdge _ _ => true
  | .swFence => true
  | .fenceFlitReceive _ => true
  | .fenceMissing => true
  | .guardStart => true
  | .frameEnable => true
  | .frameDisable => true
  | .loadFb => true
  | .gridHandoverComplete => true
  | .commit _ errs => errs.all errOk
  | .commitPoint _ => true
  | .loftCopyComplete _ => true
  | .deadlineExpire _ => true
  | .trapReportArrive src => stopOk src
  | .poisonReport src => stopOk src
  | .abortFlitReceive => true
  | .ethLinkChange _ _ => true
  | .usxgmiiRateChange _ mbps => decide (mbps ≤ 10000)
  | .ethFrameReceive _ b _ _ => bytesOk b
  | .ethRingTailWrite _ _ _ => true
  | .ethTransmit _ => true
  | .hello _ => true
  | .ident _ => true
  | .response _ => true
  | .identTimeout _ => true
  | .responseTimeout _ => true
  | .configEcho _ => true
  | .configEchoTimeout _ => true
  | .health _ => true
  | .life _ => true
  | .scanSync _ _ period sweep => decide (period < 2 ^ 32) && decide (sweep < 16)
  | .pointBlock _ => true
  | .parseProgWrite _ w _ => decide (w < 32)
  | .headOntimeTick => true
  | .lifeRecordWrite _ _ => true
  | .publish d => decide (d < 4)
  | .timeAdvance => true
  | .timeRateWrite _ => true
  | .timeStepAbsolute => true
  | .timeStepOffset => true
  | .timeNowRead _ => true
  | .ptpMessage _ _ _ => true
  | .servoHoldover => true
  | .toutEdge _ => true
  | .toutPulseEnd _ => true
  | .toutCfgWrite _ which _ => decide (which < 4)
  | .tinCapRead _ => true
  | .gridBlockTransform _ _ us => us.all upsetOk
  | .gridWindowRead _ us => us.all upsetOk
  | .gridElevWrite _ _ _ => true
  | .gridLatMaxRead => true
  | .rbTile _ us => us.all upsetOk
  | .rbTileSignal _ => true
  | .rbJobWrite o _ => inRegs o
  | .calSample us => us.all upsetOk
  | .calProposal _ => true
  | .calSoftwareWrite _ _ _ => true
  | .calFreeze => true
  | .calUnfreeze => true
  | .calDisable => true
  | .shelfWrite _ _ _ _ => true
  | .rawWindowWrite src _ line _ => decide (line < 131072) && stopOk src
  | .remoteReadServe src _ errs => stopOk src && errs.all errOk
  | .remoteWriteApply src _ => stopOk src
  | .remoteReadResponse src _ errs => stopOk src && errs.all errOk
  | .writeAckReceive src _ errs => stopOk src && errs.all errOk
  | .creditRequestReceive src _ => stopOk src
  | .creditGrant _ pool => decide (1 ≤ pool) && decide (pool < 16)
  | .creditTimeout _ pool _ => decide (1 ≤ pool) && decide (pool < 16)
  | .creditGrantReceive _ dst errs => stopOk dst && errs.all errOk
  | .wload _ errs => errs.all errOk
  | .mm _ errs => errs.all errOk
  | .mmg _ errs => errs.all errOk
  | .mms _ errs => errs.all errOk
  | .mmp _ errs => errs.all errOk
  | .accInit _ errs => errs.all errOk
  | .accDrain _ errs => errs.all errOk
  | .part _ errs => errs.all errOk
  | .pack _ errs => errs.all errOk
  | .matchLoad _ errs => errs.all errOk
  | .matchProbe _ errs => errs.all errOk
  | .predGate _ errs => errs.all errOk
  | .gateReport _ => true
  | .scaInit _ errs => errs.all errOk
  | .scaAdd _ errs => errs.all errOk
  | .scaDrain _ errs => errs.all errOk
  | .alu _ errs => errs.all errOk
  | .alui _ errs => errs.all errOk
  | .li _ errs => errs.all errOk
  | .lui _ errs => errs.all errOk
  | .cmp _ errs => errs.all errOk
  | .cmpi _ errs => errs.all errOk
  | .plog _ errs => errs.all errOk
  | .ld _ errs => errs.all errOk
  | .st _ errs => errs.all errOk
  | .rds _ errs => errs.all errOk
  | .wrs _ errs => errs.all errOk
  | .br _ errs => errs.all errOk
  | .brr _ errs => errs.all errOk
  | .call _ errs => errs.all errOk
  | .ret _ errs => errs.all errOk
  | .loop _ errs => errs.all errOk
  | .loopi _ errs => errs.all errOk
  | .qwait _ errs => errs.all errOk
  | .qwaitRelease _ errs => errs.all errOk
  | .frameWait _ errs => errs.all errOk
  | .frameWaitReturn _ errs => errs.all errOk
  | .trap _ errs => errs.all errOk
  | .wait _ errs => errs.all errOk
  | .waitRelease _ errs => errs.all errOk
  | .sig _ errs => errs.all errOk
  | .sigr _ errs => errs.all errOk
  | .signalReceive src _ => stopOk src
  | .nop _ errs => errs.all errOk
  | .copy _ errs => errs.all errOk
  | .get _ errs => errs.all errOk
  | .getx _ errs => errs.all errOk
  | .put _ errs => errs.all errOk
  | .fetch _ errs => errs.all errOk
  | .store _ errs => errs.all errOk
  | .storeRing _ errs => errs.all errOk
  | .gather _ errs => errs.all errOk
  | .creditReq _ errs => errs.all errOk
  | .creditRet _ errs => errs.all errOk
  | .valu _ errs => errs.all errOk
  | .vfma _ errs => errs.all errOk
  | .vsf _ errs => errs.all errOk
  | .vred _ errs => errs.all errOk
  | .vbcast _ errs => errs.all errOk
  | .vext _ errs => errs.all errOk
  | .vld _ errs => errs.all errOk
  | .vst _ errs => errs.all errOk
  | .vcvt _ errs => errs.all errOk
  | .argmax _ errs => errs.all errOk
  | .topk _ errs => errs.all errOk
  | .merge _ errs => errs.all errOk
  | .smuContextAssign => true
  | .smuResolve ctx errs => decide (ctx < 64) && errs.all errOk
  | .mapGatherStart errs => errs.all errOk
  | .mapFetchReturn ctx _ es => decide (ctx < 8) && es.all memErrOk
  | .mapUpdate _ es => es.all memErrOk
  | .mapUpdTailWrite _ => true
  | .mapSelReload es => es.all memErrOk
  | .getInfo => true
  | .trunkLoad => true
  | .trunkLaunch => true
  | .launchCopyComplete _ _ => true
  | .trunkStop => true
  | .trunkUnload => true
  | .trunkQuery => true
  | .mboxUnknown => true
  | .memTrain => true
  | .memTrainComplete _ => true
  | .memFill => true
  | .memFillComplete => true
  | .memRead src es => stopOk src && es.all memErrOk
  | .memWrite src _ _ => stopOk src
  | .memScrub _ _ _ _ _ => true
  | .bar2Access _ _ _ data _ es => bytesOk data && es.all memErrOk
  | .hqDoorbell _ _ => true
  | .hqDescriptorStart _ desc _ _ => bytesOk desc && desc.length == 64
  | .hqDescriptorComplete _ es errs => es.all memErrOk && errs.all errOk
  | .hqDisable _ => true
  | .functionLevelReset _ => true
  | .pcieLinkDown => true
  | .pciePerst _ => true
  | .hostAbort _ _ => true
  | .lxlFlitReceive _ f => flitOk f
  | .lxlReplay _ ack => decide (ack < 65536)
  | .lxlDown _ => true
  | .lxlTrainingComplete _ _ x y port => decide (x < 256) && decide (y < 256) && decide (port < 4)
  | .lxlRetrain _ => true
  | .linkTopoWrite _ => true
  | .linkEnable => true
  | .commitReady => true
  | .commitDecision => true
  | .pwrDomTargetWrite _ _ => true
  | .pwrAdmit _ => true
  | .domainLeaveRun _ => true
  | .domainTransitionEnd _ => true
  | .wakeRampEnd _ => true
  | .pwrWakeSlow _ => true
  | .pbaWindow _ _ => true
  | .avsAck => true
  | .pllLock => true
  | .cclkSwitch => true
  | .avsTimeout => true
  | .standbyEnter => true
  | .standbyWake _ => true
  | .powerPolicy => true
  | .telemetryUpdate _ _ => true
  | .xtalJudgeWindow _ => true
  | .refLost _ => true
  | .refReturn _ => true
  | .clkRelock => true
  | .clkPllCfgWrite _ _ => true
  | .clkObsCfgWrite _ => true
  | .rotCopyStart => true
  | .rotCopyComplete errs => errs.all errOk
  | .rotStateTransfer => true
  | .lbistSliceEnd _ => true
  | .marchPassEnd bad => bad.all fun r => decide (r < 131072)
  | .rotateNow => true
  | .testCore => true
  | .scRotation _ => true
  | .scWatchdog _ => true
  | .fenceReqWrite _ _ => true
  | .thermalFault _ => true
  | .thermWarn _ => true
  | .thermtrip => true
  | .safeEnter _ => true
  | .safeRelease _ => true
  | .faultLogFlashCopy => true
  | .reset _ => true
  | .bootRomStart _ _ => true
  | .hostImageGo _ _ => true
  | .secFuseCmd _ _ _ => true
  | .secMeasExt _ _ => true
  | .svnAdvance => true
  | .attest => true
  | .debugChallengeRead => true
  | .debugUnlock cert ed ml => bytesOk cert && bytesOk ed && bytesOk ml
  | .pcieLinkUp => true
  | .voltageSettleEnd => true
  | .thermalClear _ => true
  | .selClearingEnd _ => true
  | .illegalOp _ errs => errs.all errOk
  | .ptpSyncTransmit _ => true

end Sys2Proof
end

