-- ==== Sys2Proof/Tests/Slice0.lean ====
section
/-! SUPPORT. The modeller's own tests: ill-formed commands are refused, the spec's worked examples come
out, and the hypotheses of every statement are met. -/

namespace Sys2Proof.Tests

-- One theorem after another: each waits for the kernel, and a thread for each would exhaust the memory.
set_option Elab.async false

open Sys2Proof Sys2Proof.Machine Sys2Proof.Safety

/-! ## Small states -/

/-- A line at its place in core 0's scratchpad. -/
def put (p : Nat) (d : BitVec 512) : Nat × Line := (p, sealLine (saltSpad 0 p) ⟨d, false⟩)

/-- An instruction in words 0 and 1 of a line. -/
def code (w w1 : Word) : BitVec 512 := BitVec.ofNat 512 (w.toNat + 2 ^ 64 * w1.toNat)

/-- A core whose scalar registers hold the values listed, and zero. -/
def rk (l : List (Nat × Word)) : CoreSt :=
  { CoreSt.reset with
    s := Vector.ofFn fun i => ((l.find? fun e => e.1 == i.val).map (·.2)).getD 0 }

/-- `k` running at word 0 of its code shelf, which holds `w` and `w1`. -/
def ready (k : CoreSt) (w w1 : Word) : CoreSt :=
  { k with
    issue := .running, slot := 0, pc := 0, fwDone := true, upsets := [], swap := 0, ahead := [], faultHdr := [], spad := put 0 (code w w1) :: k.spad }

/-- Core 0 in RUN as `ready k w w1`; its shelf 0 holds the code, shelf 1 is `e`; the external memory has `g` GiB; `x` and `y`
are further active values and registers. -/
def atx (g : Nat) (e : Word) (x y : List (Nat × Word)) (k : CoreSt) (w w1 : Word) : State :=
  { State.reset with
    regs := (Reg.PWR_DOM_STAT, 0) :: y
    act := (coreOff Reg.CORE_ENTRY 0, 0) :: (coreOff Reg.SHELF 0, 0x80000001) :: (coreOff (Reg.SHELF + 8) 0, e) :: x
    mem := { State.reset.mem with capGib := g }
    cores := State.reset.cores.set 0 (ready k w w1) }

/-- The same where shelf 1 has 32 lines from line 64 and belongs to pool 1. -/
abbrev at0 (k : CoreSt) (w w1 : Word) : State := atx 0 0x2001000100001 [] [] k w w1

/-- The machine right after reset with core 0 as `k`. -/
def c0 (k : CoreSt) : State := { State.reset with cores := State.reset.cores.set 0 k }

/-- The machine right after reset with the registers listed. -/
def sr (l : List (Nat × Word)) : State := { State.reset with regs := l }

/-- The same with active values. -/
def sa (l a : List (Nat × Word)) : State := { State.reset with
  regs := l
  act := a }

/-- The time base after `cyc` cycles, `last` fence, the frame timer at `due`. -/
def tm (cyc : Nat) (last due : Option Nat) : TimeSt := { TimeSt.reset with
  cyc := cyc
  lastFence := last
  due := due }

/-- A received frame with these bytes, of port 0, at time zero. -/
def rx (cls : Nat) (b : List Nat) : RxFrame := ⟨0, cls, b, 0, 0, 0⟩

/-- A line of external memory at an address. -/
def ln (a : Nat) (d : BitVec 512) : Nat × Line := (a / 64, sealLine (saltAddr a) ⟨d, false⟩)

/-- What the parser makes of a native block. -/
def parsed (n : HeadId) (m : List Nat) : ParsedBlock :=
  match parseNative n m.length m with
  | .inr b => b
  | .inl _ => ⟨none, 0, [], 0, [], false⟩

/-- A grid with a point in each of five voxels around one place. -/
def fivePoints : State :=
  [(1600, 0, 0), (-1600, 0, 0), (0, 1600, 0), (0, -1600, 0), (1600, 1600, 0)].foldl
    (fun s p => gridPoint State.reset.grid.filling ⟨0, 0, p, 0⟩ s) State.reset

/-- The state after a command. -/
def after (i : Instr) (s : State) : State :=
  match exec i s with
  | .next t => t
  | .fault _ => s
  | .refused _ => s

theorem test_shelves : (shelfEnt (at0 CoreSt.reset 0 0) 0 0 = 0x80000001) ∧ seLen 0x80000001 = 1 ∧
    (shelfEnt (at0 CoreSt.reset 0 0) 0 1 = 0x2001000100001) ∧ seLen 0x2001000100001 = 32 ∧ seBase 0x2001000100001 = 64 ∧
    sePool 0x2001000100001 = 1 := by decide +kernel

set_option exponentiation.threshold 600 in
theorem code_words (w w1 : Word) : word64 (code w w1) 0 = w ∧ word64 (code w w1) 1 = w1 := by
  constructor <;> apply BitVec.eq_of_toNat_eq <;>
    simp [word64, code, BitVec.extractLsb'_toNat] <;> omega

theorem atx_core (g : Nat) (e : Word) (x y : List (Nat × Word)) (k : CoreSt) (w w1 : Word) :
    (atx g e x y k w w1).core 0 = ready k w w1 := by
  simp [atx, State.core]

theorem tag_ok (salt : Nat) (d : BitVec 512) : (sealLine salt ⟨d, false⟩).tag ≠ 0 ∧ tagGood salt (sealLine salt ⟨d, false⟩) = true := by
  simp only [sealLine, tagGood, tagOf]
  constructor
  · simp only [Bool.false_eq_true, if_false]
    split
    · decide
    · assumption
  · simp

theorem atx_fetch (g : Nat) (e : Word) (x y : List (Nat × Word)) (k : CoreSt) (w w1 : Word) :
    fetchWord 0 (atx g e x y k w w1) = (⟨0, w, w1⟩, atx g e x y k w w1) := by
  have h0 : fld ((atx g e x y k w w1).actReg (coreOff Reg.CORE_ENTRY 0)) 25 20 = 0 := by
    show fld ((at0 CoreSt.reset 0 0).actReg (coreOff Reg.CORE_ENTRY 0)) 25 20 = 0
    decide +kernel
  have hc (j : Nat) : runCheck (atx g e x y k w w1) 0 0 j 1 = runCheck (at0 CoreSt.reset 0 0) 0 0 j 1 := by
    unfold runCheck localCheck readsFault shelfCheck
    rw [atx_core, atx_core]; rfl
  have h1 : runCheck (atx g e x y k w w1) 0 0 0 1 = 0 := by rw [hc]; decide +kernel
  have ha (j : Nat) (h : runCheck (at0 CoreSt.reset 0 0) 0 0 j 1 ≠ 0) :
      fetchAhead 0 0 j (atx g e x y k w w1) = atx g e x y k w w1 := by
    unfold fetchAhead
    rw [hc, if_pos (by simp only [ne_eq, h, not_false_eq_true, decide_true, Bool.true_or])]
  have h1a := ha 1 (by decide +kernel)
  have h2a := ha 2 (by decide +kernel)
  have h2 : physOf (shelfEnt (atx g e x y k w w1) 0 0) (workSecond (atx g e x y k w w1) 0 0) 0 = 0 := by
    have : workSecond (atx g e x y k w w1) 0 0 = false := by
      show (seLoft (shelfEnt (at0 CoreSt.reset 0 0) 0 0) == 2 && _) = false
      rw [show (seLoft (shelfEnt (at0 CoreSt.reset 0 0) 0 0) == 2) = false by decide +kernel]; rfl
    rw [this]
    show physOf (shelfEnt (at0 CoreSt.reset 0 0) 0 0) false 0 = 0
    decide +kernel
  have hr : shelfRead 0 0 0 0 (atx g e x y k w w1) = (⟨code w w1, false⟩, false, atx g e x y k w w1) := by
    have ht := tag_ok (saltSpad 0 0) (code w w1)
    rw [shelfRead, h2, spadRead]
    rw [atx_core]
    simp [ready, put, sget, sealLine] at ht ⊢
    simp [ht]
  unfold fetchWord
  simp only [h0]
  rw [atx_core]
  simp only [ready, Nat.zero_div, Nat.zero_mod, h1, List.isEmpty_nil, if_true, hr, h1a, h2a]
  simp [code_words]

theorem ready_atx (g : Nat) (e : Word) (x y : List (Nat × Word)) (k : CoreSt) (m : Mn) (w w1 : Word)
    (h : k.queues = Vector.replicate 6 [] ∧ k.active = [] ∧ k.pendS = 0 ∧ k.pendP = 0 ∧
      issueMn (ready k w w1) w w1 = some m ∧ (rdP (ready k w w1) (iPr w) == iPn w) = false ∧ pairRange m w = false) :
    Ready 0 m w w1 (atx g e x y k w w1) := by
  obtain ⟨hq, ha, hs, hp, hi, hr, hx⟩ := h
  refine ⟨?_, ?_, ?_, ?_, ?_, ?_, ?_, atx_fetch g e x y k w w1, ?_, ?_, hx⟩ <;>
    first | (rw [atx_core]; assumption) | skip
  · rw [atx_core]; rfl
  · show domRun (at0 CoreSt.reset 0 0) 0 = true
    decide +kernel
  · rw [atx_core]; rfl

theorem pump_at0 (k : CoreSt) (w w1 : Word) (h : k.queues = Vector.replicate 6 []) : pump 0 (at0 k w w1) = at0 k w w1 :=
  pumpN_idle (by unfold idleQueues; rw [atx_core]; exact h) _

/-! ## Ill-formed commands are refused, one for each check -/

theorem test_wf_reset_write : (Instr.registerWrite .pf 0x3FFFFFC .w32 0).wf = true := by decide
theorem test_wf_register : (Instr.registerWrite .pf 0x4000000 .w32 0).wf = false := by decide
theorem test_wf_counter_read : (Instr.counterReadLow .pf 0x4000000).wf = false := by decide
theorem test_wf_address : (Instr.unoccupiedAccess .sc (2 ^ 40) .w32 false 0).wf = false := by decide
theorem test_wf_bytes : (Instr.debugUnlock [256] [] []).wf = false := by decide
theorem test_wf_line_error : (Instr.alu ⟨0, by decide⟩ [⟨⟨0, by decide⟩, .line 131072, true⟩]).wf = false := by decide
theorem test_wf_acc_error : (Instr.alu ⟨0, by decide⟩ [⟨⟨0, by decide⟩, .acc 2048, true⟩]).wf = false := by decide
theorem test_wf_weight_error : (Instr.alu ⟨0, by decide⟩ [⟨⟨0, by decide⟩, .weight 0 0 64 1, true⟩]).wf = false := by decide
theorem test_wf_memory_error_line : (Instr.memRead .mem [⟨32, false, 0, false, true, false⟩]).wf = false := by decide
theorem test_wf_memory_error_space : (Instr.memRead .mem [⟨2 ^ 40, false, 0, false, true, false⟩]).wf = false := by decide
theorem test_wf_upset : (Instr.calSample [⟨2, false, 0⟩]).wf = false := by decide
theorem test_wf_agent : (Instr.memWrite (.dev 256 0 0) 0 false).wf = false := by decide
theorem test_wf_rate : (Instr.usxgmiiRateChange ⟨0, by decide⟩ 10001).wf = false := by decide
theorem test_wf_sweep : (Instr.scanSync ⟨0, by decide⟩ 0 5 16).wf = false := by decide
theorem test_wf_period : (Instr.scanSync ⟨0, by decide⟩ 0 (2 ^ 32) 1).wf = false := by decide
theorem test_wf_parse_word : (Instr.parseProgWrite ⟨0, by decide⟩ 32 0).wf = false := by decide
theorem test_wf_publish : (Instr.publish 4).wf = false := by decide
theorem test_wf_tout : (Instr.toutCfgWrite ⟨0, by decide⟩ 4 0).wf = false := by decide
theorem test_wf_raw_window : (Instr.rawWindowWrite .mem ⟨0, by decide⟩ 131072 0).wf = false := by decide
theorem test_wf_pool_low : (Instr.creditGrant ⟨0, by decide⟩ 0).wf = false := by decide
theorem test_wf_pool_high : (Instr.creditTimeout ⟨0, by decide⟩ 16 0).wf = false := by decide
theorem test_wf_context : (Instr.smuResolve 64 []).wf = false := by decide
theorem test_wf_fetch : (Instr.mapFetchReturn 8 0 []).wf = false := by decide
theorem test_wf_descriptor : (Instr.hqDescriptorStart ⟨0, by decide⟩ [] [] none).wf = false := by decide
theorem test_wf_flit_type : (Instr.lxlFlitReceive ⟨0, by decide⟩ ⟨true, 4, 0, 0, [], []⟩).wf = false := by decide
theorem test_wf_flit_seq : (Instr.lxlFlitReceive ⟨0, by decide⟩ ⟨true, 0, 65536, 0, [], []⟩).wf = false := by decide
theorem test_wf_flit_ack : (Instr.lxlReplay ⟨0, by decide⟩ 65536).wf = false := by decide
theorem test_wf_flit_credit : (Instr.lxlFlitReceive ⟨0, by decide⟩ ⟨true, 0, 0, 0, [(8, 1)], []⟩).wf = false := by decide
theorem test_wf_training_port : (Instr.lxlTrainingComplete ⟨0, by decide⟩ true 0 0 4).wf = false := by decide
theorem test_wf_training_place : (Instr.lxlTrainingComplete ⟨0, by decide⟩ true 256 0 0).wf = false := by decide
theorem test_wf_march : (Instr.marchPassEnd [131072]).wf = false := by decide
theorem test_wf_job : (Instr.rbJobWrite 0x4000000 0).wf = false := by decide

/-! ## The spec's worked examples -/

/-- The frame numbers of chapter 0's example: 3 is later than 0xFFFF_FFFE. -/
theorem test_example_wrap : later 3 0xFFFFFFFE = true ∧ later 0xFFFFFFFE 3 = false := by decide

/-- Chapter 5's example: the record's place, intensity, key and offsets. -/
theorem test_example_grid_point :
    let cal : List Word := [4194304, 0, 0, 0, 4194304, 0, 0, 0, 4194304, 20000, 4800, 28800, 256 * 2 ^ 16]
    let el := BitVec.ofNat 64 (130992 + (2 ^ 19 - 4574) * 2 ^ 19)
    let pt := transform cal el 2 9 (23456 + 0x2000 * 2 ^ 20 + 17 * 2 ^ 36 + 180 * 2 ^ 44)
    pt = ⟨2, 9, (285211, -260412, 15703), 180⟩ ∧
      pointKey GridSet.reset pt.p = some ((8370, 8029, 8201), (65, 62, 208)) := by decide +kernel

/-- Chapter 7's example: the step as scaled, the rotation and the translation written. -/
theorem test_example_calibration :
    let e := (calSize ⟨0, 0, -60000000, 28000000, -9000000, 0, 0, 0⟩).1
    (calSize ⟨0, 0, -60000000, 28000000, -9000000, 0, 0, 0⟩).2 = true ∧ roundDiv e.tx 10000 = 1904 ∧ roundDiv e.ty 10000 = -612 ∧
      composeRot [4194304, 0, 0, 0, 4194304, 0, 0, 0, 4194304] e.rx e.ry e.rz =
        [4194303, 2987, 0, -2987, 4194303, 0, 0, 0, 4194304] ∧
      (60800 + roundDiv e.tx 62500, roundDiv e.ty 62500) = (61105, -98) := by decide +kernel

/-- Chapter 8's example: the ring's entry word and its place. -/
theorem test_example_ring :
    let e : Word := 0x0006050041001481
    seValid e = true ∧ seBase e = 66560 ∧ seLen e = 2560 ∧ seIlv e = 2 ∧ seFmt e = 0x12 ∧ sePool e = 3 ∧ seLoft e = 0 ∧
      shelfLayoutOk e = true ∧ seRows e = 640 ∧ physOf e false 5 = 9 * 8192 + 1025 := by decide +kernel

/-- Chapter 10's example: lanes 7, 12, 3, 20 and 25 of a block drained to MXFP8, and row 412's place in its scale line. -/
theorem test_example_mx_block :
    let r := mxBlock 5 (([0x4214CCCD, 0x4213999A, 0xBC54FDF4, 0x3A6BEDFA, 0x37A7C5AC] : List (BitVec 32)).map f32)
    r.1 = 0x7C ∧ r.2.1 = [0x79, 0x79, 0x9D, 0x04, 0x00] ∧ inScale 5 412 = (12, 56) := by decide +kernel

/-! ## The hypotheses of the statements are met

`wit_<Name>` has one part for each clause with hypotheses of the statement Obligations.<Name>, in their order. -/


/-- A HELLO. -/
def helloBytes : List Nat :=
  List.replicate 12 0 ++ [8, 0, 69, 0, 0, 52, 0, 0, 64, 0, 64, 17, 58, 186] ++ List.replicate 8 0 ++ [185, 250, 185, 250,
    0, 32, 0, 0, 94, 169, 1, 1, 0, 0, 4, 0, 1, 0, 0, 0, 0, 0, 0, 0, 1, 0, 0, 0, 34, 181, 235, 73]

/-- An IDENT, fragment 0 of 1. -/
def identBytes : List Nat :=
  List.replicate 12 0 ++ [8, 0, 69, 0, 0, 51, 0, 0, 64, 0, 64, 17, 58, 187] ++ List.replicate 8 0 ++ [185, 250, 185, 250,
    0, 31, 0, 0, 94, 169, 1, 2, 0, 0, 3, 0, 1] ++ List.replicate 8 0 ++ [1, 7, 161, 151, 153, 10]

/-- A RESPONSE without signatures. -/
def responseBytes : List Nat :=
  List.replicate 12 0 ++ [8, 0, 69, 0, 0, 48, 0, 0, 64, 0, 64, 17, 58, 190] ++ List.replicate 8 0 ++ [185, 250, 185, 250,
    0, 28, 0, 0, 94, 169, 1, 4, 0, 0, 0, 0, 1, 0, 0, 0, 0, 0, 0, 0, 72, 223, 107, 202]

/-- A CONFIG echo. -/
def echoBytes : List Nat :=
  List.replicate 12 0 ++ [8, 0, 69, 0, 0, 48, 0, 0, 64, 0, 64, 17, 58, 190] ++ List.replicate 8 0 ++ [185, 250, 185, 250,
    0, 28, 0, 0, 94, 169, 1, 5, 0, 0, 0, 0, 1, 0, 0, 0, 0, 0, 0, 0, 45, 231, 185, 250]

/-- A HEALTH. -/
def healthBytes : List Nat :=
  List.replicate 12 0 ++ [8, 0, 69, 0, 0, 54, 0, 0, 64, 0, 64, 17, 58, 184] ++ List.replicate 8 0 ++ [185, 250, 185, 250,
    0, 34, 0, 0, 94, 169, 1, 8, 0, 0, 6, 0, 1] ++ List.replicate 13 0 ++ [254, 11, 51, 66]

/-- A LIFE. -/
def lifeBytes : List Nat :=
  List.replicate 12 0 ++ [8, 0, 69, 0, 0, 52, 0, 0, 64, 0, 64, 17, 58, 186] ++ List.replicate 8 0 ++ [185, 250, 185, 250,
    0, 32, 0, 0, 94, 169, 1, 9, 0, 0, 4, 0, 1, 0, 0, 0, 0, 0, 0, 0, 5, 0, 0, 0, 203, 139, 55, 198]

/-- A control message that is too short. -/
def shortBytes : List Nat :=
  List.replicate 12 0 ++ [8, 0, 69, 0, 0, 47, 0, 0, 64, 0, 64, 17, 58, 191] ++ List.replicate 8 0 ++ [185, 250, 185, 250,
    0, 27] ++ List.replicate 21 0

/-- A frame of a native block, with its FCS. -/
def goodFrame : List Nat :=
  List.replicate 12 0 ++ [8, 0, 69, 0, 0, 68, 0, 0, 64, 0, 64, 17, 58, 170] ++ List.replicate 10 0 ++ [185, 251, 0, 48, 0,
    0, 94, 169, 1, 7, 0, 0, 1, 0, 5] ++ List.replicate 27 0 ++ [200, 160, 97, 65, 47, 124, 199, 156]

/-- The same with a wrong header checksum. -/
def badIpFrame : List Nat :=
  List.replicate 12 0 ++ [8, 0, 69, 0, 0, 68, 0, 0, 64, 0, 64, 17, 58, 171] ++ List.replicate 10 0 ++ [185, 251, 0, 48] ++
    List.replicate 42 0 ++ [61, 88, 209, 70]

/-- A frame of no class that is taken. -/
def otherFrame : List Nat :=
  List.replicate 60 0 ++ [8, 137, 18, 4]

/-- A PTP message of type 0. -/
def ptpBytes0 : List Nat :=
  List.replicate 12 0 ++ [136, 247] ++ List.replicate 44 0

/-- A PTP message of type 8. -/
def ptpBytes8 : List Nat :=
  List.replicate 12 0 ++ [136, 247, 8] ++ List.replicate 43 0

/-- A PTP message of type 1. -/
def ptpBytes1 : List Nat :=
  List.replicate 12 0 ++ [136, 247, 1] ++ List.replicate 43 0

/-- A PTP message of type 9. -/
def ptpBytes9 : List Nat :=
  List.replicate 12 0 ++ [136, 247, 9] ++ List.replicate 43 0

/-- A PTP message of type 2. -/
def ptpBytes2 : List Nat :=
  List.replicate 12 0 ++ [136, 247, 2] ++ List.replicate 43 0

/-- A native block. -/
def blockBytes : List Nat :=
  List.replicate 12 0 ++ [8, 0, 69, 0, 0, 68, 0, 0, 64, 0, 64, 17, 58, 170] ++ List.replicate 10 0 ++ [185, 251, 0, 48, 0,
    0, 94, 169, 1, 7, 0, 0, 1, 0, 5] ++ List.replicate 27 0 ++ [200, 160, 97, 65]

/-- A datagram of zeros to the block port. -/
def fmtBytes : List Nat :=
  List.replicate 12 0 ++ [8, 0, 69, 0, 0, 56, 0, 0, 64, 0, 64, 17, 58, 182] ++ List.replicate 10 0 ++ [185, 251, 0, 36] ++
    List.replicate 30 0

/-- A firmware file of one empty section. -/
def fwSmall : List Nat :=
  [84, 82, 70, 87, 1, 0, 0, 0, 0, 0, 0, 0, 0, 0, 0, 0, 109, 14, 0, 0, 64, 1, 0, 0, 1, 0, 0, 0] ++ List.replicate 228 0 ++
    [1, 0, 0, 0, 64, 1, 0, 0, 0, 0, 0, 0, 0, 0, 0, 0] ++ List.replicate 3421 0

theorem wit_StepRunsFrontCommand :
  (∃ (s : State), s.pending = []) :=
   ⟨State.reset, by decide +kernel⟩

theorem wit_FuseBitsOnlyRise :
  (∃ (s : State) (t : State), step s = .next t) ∧
  (∃ (i : Instr) (s : State) (t : State), exec i s = .next t ∧ t.fuse ≠ s.fuse) ∧
  (∃ (v : Word) (fail : Bool) (s : State),
    let refused := bitOf (s.reg Reg.SEC_LOCK) 1 || !fusePermits s (fld v 3 0) (fld v 15 8) || fuseLowers s (fld v 3 0)
      (fld v 15 8) || fail
    refused = true) ∧
  (∃ (v : Word) (fail : Bool) (s : State),
    let refused := bitOf (s.reg Reg.SEC_LOCK) 1 || !fusePermits s (fld v 3 0) (fld v 15 8) || fuseLowers s (fld v 3 0)
      (fld v 15 8) || fail
    refused = false) ∧
  (∃ (v : Word), fld v 3 0 = 3) ∧
  (∃ (v : Word), fld v 3 0 = 4) ∧
  (∃ (req : Requester), req ≠ .sc) :=
   ⟨⟨({ State.reset with pending := [.secFuseCmd .sc 0x103 false] }), (after (.secFuseCmd .sc 0x103 false) State.reset),
      by exact rfl⟩,
   ⟨(.secFuseCmd .sc 0x103 false), ({ State.reset with fuse := { State.reset.fuse with lifecycle := 3, rootO := 1 } }),
     (after (.secFuseCmd .sc 0x103 false)
     ({ State.reset with fuse := { State.reset.fuse with lifecycle := 3, rootO := 1 } })),
      by exact ⟨rfl, by decide +kernel⟩⟩,
   ⟨0x103, true, State.reset, by (conv => zeta); decide +kernel⟩,
   ⟨0x103, false, ({ State.reset with fuse := { State.reset.fuse with lifecycle := 3, rootO := 1 } }),
      by (conv => zeta); decide +kernel⟩,
   ⟨0x103, by decide +kernel⟩,
   ⟨0x4004, by decide +kernel⟩,
   ⟨.pf, by decide +kernel⟩⟩

theorem wit_FuseStateInvariant :
  (∃ (s : State) (t : State), FuseOk s.fuse ∧ step s = .next t) :=
   ⟨({ State.reset with pending := [.thermtrip] }), (after .thermtrip State.reset), by exact ⟨by decide +kernel, rfl⟩⟩

theorem wit_ResetState :
  (∃ (i : Nat), i < 64) :=
   ⟨63, by decide +kernel⟩

theorem wit_IssueRules :
  (∃ (c : CoreId) (m : Mn) (w : Word) (w1 : Word) (s : State) (m' : _),
    let k := s.core c
    ((k.issue = .running ∧ domRun s c.val = true ∧ k.active = [] ∧ k.fwDone = true ∧ fetchWord c s = (⟨0, w, w1⟩, s) ∧
      pump c s = s)) ∧ issueMn k w w1 = some m' ∧ m' ≠ m) ∧
  (∃ (c : CoreId) (m : Mn) (w : Word) (w1 : Word) (s : State),
    let k := s.core c
    ((k.issue = .running ∧ domRun s c.val = true ∧ k.active = [] ∧ k.fwDone = true ∧ fetchWord c s = (⟨0, w, w1⟩, s) ∧
      pump c s = s)) ∧ issueMn k w w1 = some m ∧ k.pendP = 0 ∧ (rdP k (iPr w) == iPn w) = true) ∧
  (∃ (c : CoreId) (m : Mn) (w : Word) (w1 : Word) (s : State),
    let k := s.core c
    ((k.issue = .running ∧ domRun s c.val = true ∧ k.active = [] ∧ k.fwDone = true ∧ fetchWord c s = (⟨0, w, w1⟩, s) ∧
      pump c s = s)) ∧ issueMn k w w1 = some m ∧ iPr w ≠ 0 ∧ k.pendP.getLsbD (iPr w) = true) ∧
  (∃ (c : CoreId) (m : Mn) (w : Word) (w1 : Word) (s : State) (r : _),
    let k := s.core c
    ((k.issue = .running ∧ domRun s c.val = true ∧ k.active = [] ∧ k.fwDone = true ∧ fetchWord c s = (⟨0, w, w1⟩, s) ∧
      pump c s = s)) ∧ issueMn k w w1 = some m ∧ (rdP k (iPr w) == iPn w) = false ∧ ((iPr w = 0 ∨ k.pendP.getLsbD (iPr w)
      = false)) ∧ pairRange m w = false ∧ r ∈ readsS m w w1 ++ writesS m w ∧ k.pendS.getLsbD r = true) ∧
  (∃ (c : CoreId) (m : Mn) (w : Word) (w1 : Word) (s : State),
    let k := s.core c
    ((k.issue = .running ∧ domRun s c.val = true ∧ k.active = [] ∧ k.fwDone = true ∧ fetchWord c s = (⟨0, w, w1⟩, s) ∧
      pump c s = s)) ∧ issueMn k w w1 = some m ∧ (rdP k (iPr w) == iPn w) = false ∧ k.pendP = 0 ∧ k.pendS = 0 ∧ pairRange
      m w = false ∧ (isControl m = false ∨ m = .frameWait) ∧ 16 ≤ (queueOf k (iQ w)).length) ∧
  (∃ (c : CoreId) (m : Mn) (w : Word) (w1 : Word) (s : State) (errs : _), Ready c m w w1 (strike errs s)) :=
   ⟨⟨0, .alu, 0x1f8, 0, (at0 (CoreSt.reset) 0x1f8 0), .nop,
      by (conv => zeta); exact ⟨⟨by decide +kernel, by decide +kernel, by decide +kernel, by decide +kernel, atx_fetch _ _ _ _ _ _ _, pump_at0 _ _ _ (by decide +kernel)⟩, by decide +kernel⟩⟩,
   ⟨0, .nop, 0x21f8, 0, (at0 (CoreSt.reset) 0x21f8 0),
      by (conv => zeta); exact ⟨⟨by decide +kernel, by decide +kernel, by decide +kernel, by decide +kernel, atx_fetch _ _ _ _ _ _ _, pump_at0 _ _ _ (by decide +kernel)⟩, by decide +kernel⟩⟩,
   ⟨0, .nop, 0x5f8, 0, (at0 ({ CoreSt.reset with pendP := 2 }) 0x5f8 0),
      by (conv => zeta); exact ⟨⟨by decide +kernel, by decide +kernel, by decide +kernel, by decide +kernel, atx_fetch _ _ _ _ _ _ _, pump_at0 _ _ _ (by decide +kernel)⟩, by decide +kernel⟩⟩,
   ⟨0, .alu, 0x4008, 0, (at0 ({ CoreSt.reset with pendS := 2 }) 0x4008 0), 1,
      by (conv => zeta); exact ⟨⟨by decide +kernel, by decide +kernel, by decide +kernel, by decide +kernel, atx_fetch _ _ _ _ _ _ _, pump_at0 _ _ _ (by decide +kernel)⟩, by decide +kernel⟩⟩,
   ⟨0, .creditReq, 0x41, 0, (at0
     ({ CoreSt.reset with queues := CoreSt.reset.queues.set 1 (List.replicate 16 ⟨.wait, 1, 0, 0, 0x3FC01C1, 0, 0, 0, 0, 0, 0, 0, true, true⟩) })
     0x41 0),
      by (conv => zeta); exact ⟨⟨by decide +kernel, by decide +kernel, by decide +kernel, by decide +kernel, atx_fetch _ _ _ _ _ _ _, by decide +kernel⟩, by decide +kernel⟩⟩,
   ⟨0, .nop, 0x1f8, 0, (at0 (CoreSt.reset) 0x1f8 0), ([]), by exact ready_atx _ _ _ _ _ _ _ _ (by decide +kernel)⟩⟩

theorem wit_OperandCapture :
  (∃ (c : CoreId) (m : Mn) (w : Word) (w1 : Word) (s : State), Ready c m w w1 s) ∧
  (∃ (c : CoreId) (m : Mn) (w : Word) (w1 : Word) (s : State), Ready c m w w1 s ∧ bitOf w 9 = true) ∧
  (∃ (c : CoreId) (m : Mn) (w : Word) (w1 : Word) (s : State), Ready c m w w1 s ∧ bitOf w 9 = false ∧ m ≠ .sigr) ∧
  (∃ (c : CoreId) (m : Mn) (w : Word) (w1 : Word) (s : State), Ready c m w w1 s ∧ m = .sigr) :=
   ⟨⟨0, .alu, 0x3104008, 0, (at0 (CoreSt.reset) 0x3104008 0), by exact ready_atx _ _ _ _ _ _ _ _ (by decide +kernel)⟩,
   ⟨0, .copy, 0x209, 0, (at0 (CoreSt.reset) 0x209 0),
      by exact ⟨ready_atx _ _ _ _ _ _ _ _ (by decide +kernel), by decide +kernel⟩⟩,
   ⟨0, .alu, 0x3104008, 0, (at0 (CoreSt.reset) 0x3104008 0),
      by exact ⟨ready_atx _ _ _ _ _ _ _ _ (by decide +kernel), by decide +kernel⟩⟩,
   ⟨0, .sigr, 0x7fffc1d1, 0, (at0 (CoreSt.reset) 0x7fffc1d1 0),
      by exact ⟨ready_atx _ _ _ _ _ _ _ _ (by decide +kernel), by decide +kernel⟩⟩⟩

theorem wit_RegisterZeroAndReadBack :
  (∃ (d : Nat), 0 < d ∧ d < 32) ∧
  (∃ (d : Nat) (r : Nat), 0 < d ∧ d < 8 ∧ r < 8) :=
   ⟨⟨31, by decide +kernel⟩,
   ⟨7, 7, by decide +kernel⟩⟩

theorem wit_ScalarResults :
  (∃ (c : CoreId) (w : Word) (w1 : Word) (s : State), Ready c .alu w w1 s) ∧
  (∃ (c : CoreId) (w : Word) (w1 : Word) (s : State), Ready c .alui w w1 s) ∧
  (∃ (c : CoreId) (w : Word) (w1 : Word) (s : State), Ready c .li w w1 s) ∧
  (∃ (c : CoreId) (w : Word) (w1 : Word) (s : State), Ready c .lui w w1 s) ∧
  (∃ (c : CoreId) (w : Word) (w1 : Word) (s : State), Ready c .cmp w w1 s) ∧
  (∃ (c : CoreId) (w : Word) (w1 : Word) (s : State), Ready c .cmpi w w1 s) ∧
  (∃ (c : CoreId) (w : Word) (w1 : Word) (s : State), Ready c .plog w w1 s) ∧
  (∃ (c : CoreId) (w : Word) (w1 : Word) (s : State), Ready c .nop w w1 s) :=
   ⟨⟨0, 0x3104008, 0, (at0 (CoreSt.reset) 0x3104008 0), by exact ready_atx _ _ _ _ _ _ _ _ (by decide +kernel)⟩,
   ⟨0, 0xffffffff0c104010, 0, (at0 (CoreSt.reset) 0xffffffff0c104010 0),
      by exact ready_atx _ _ _ _ _ _ _ _ (by decide +kernel)⟩,
   ⟨0, 0xffffffff0007c018, 0, (at0 (CoreSt.reset) 0xffffffff0007c018 0),
      by exact ready_atx _ _ _ _ _ _ _ _ (by decide +kernel)⟩,
   ⟨0, 0x500084020, 0, (at0 (CoreSt.reset) 0x500084020 0), by exact ready_atx _ _ _ _ _ _ _ _ (by decide +kernel)⟩,
   ⟨0, 0xa209c028, 0, (at0 (CoreSt.reset) 0xa209c028 0), by exact ready_atx _ _ _ _ _ _ _ _ (by decide +kernel)⟩,
   ⟨0, 0xffffffff0509c030, 0, (at0 (CoreSt.reset) 0xffffffff0509c030 0),
      by exact ready_atx _ _ _ _ _ _ _ _ (by decide +kernel)⟩,
   ⟨0, 0x1e209c038, 0, (at0 (CoreSt.reset) 0x1e209c038 0), by exact ready_atx _ _ _ _ _ _ _ _ (by decide +kernel)⟩,
   ⟨0, 0x1f8, 0, (at0 (CoreSt.reset) 0x1f8 0), by exact ready_atx _ _ _ _ _ _ _ _ (by decide +kernel)⟩⟩

theorem wit_ScalarFrame :
  (∃ (c : CoreId) (m : Mn) (i : Instr) (w : Word) (w1 : Word) (s : State) (t : State) (r : _), (m, i) ∈ [(Mn.alu,
    Instr.alu c []), (.alui, .alui c []), (.li, .li c []), (.lui, .lui c []), (.cmp, .cmp c []), (.cmpi, .cmpi c []),
    (.plog, .plog c []), (.nop, .nop c [])] ∧ Ready c m w w1 s ∧ exec i s = .next t ∧ ((r ≠ iD w ∨ m ∈ [Mn.cmp, .cmpi,
    .plog, .nop]))) ∧
  (∃ (c : CoreId) (m : Mn) (i : Instr) (w : Word) (w1 : Word) (s : State) (t : State) (r : _), (m, i) ∈ [(Mn.alu,
    Instr.alu c []), (.alui, .alui c []), (.li, .li c []), (.lui, .lui c []), (.cmp, .cmp c []), (.cmpi, .cmpi c []),
    (.plog, .plog c []), (.nop, .nop c [])] ∧ Ready c m w w1 s ∧ exec i s = .next t ∧ ((r % 8 ≠ iD w % 8 ∨ m ∉ [Mn.cmp,
    .cmpi, .plog]))) ∧
  (∃ (c : CoreId) (m : Mn) (i : Instr) (w : Word) (w1 : Word) (s : State) (t : State), (m, i) ∈ [(Mn.alu, Instr.alu c []),
    (.alui, .alui c []), (.li, .li c []), (.lui, .lui c []), (.cmp, .cmp c []), (.cmpi, .cmpi c []), (.plog, .plog c []),
    (.nop, .nop c [])] ∧ Ready c m w w1 s ∧ exec i s = .next t) ∧
  (∃ (c : CoreId) (m : Mn) (i : Instr) (w : Word) (w1 : Word) (s : State) (t : State) (d : _), (m, i) ∈ [(Mn.alu,
    Instr.alu c []), (.alui, .alui c []), (.li, .li c []), (.lui, .lui c []), (.cmp, .cmp c []), (.cmpi, .cmpi c []),
    (.plog, .plog c []), (.nop, .nop c [])] ∧ Ready c m w w1 s ∧ exec i s = .next t ∧ d ≠ c) ∧
  (∃ (c : CoreId) (m : Mn) (i : Instr) (w : Word) (w1 : Word) (s : State) (t : State) (o : _), (m, i) ∈ [(Mn.alu,
    Instr.alu c []), (.alui, .alui c []), (.li, .li c []), (.lui, .lui c []), (.cmp, .cmp c []), (.cmpi, .cmpi c []),
    (.plog, .plog c []), (.nop, .nop c [])] ∧ Ready c m w w1 s ∧ exec i s = .next t ∧ cntSaturates (s.reg (coreOff
    Reg.SEQ_ISSUE_CNT c)) 1 = false ∧ o ≠ coreOff Reg.SEQ_ISSUE_CNT c) :=
   ⟨⟨0, .alu, (.alu 0 []), 0x3104008, 0, (at0 (CoreSt.reset) 0x3104008 0), (after (.alu 0 []) (at0 CoreSt.reset 0x3104008
     0)), 0,
      by exact ⟨by decide +kernel, ready_atx _ _ _ _ _ _ _ _ (by decide +kernel), rfl, by decide +kernel⟩⟩,
   ⟨0, .cmp, (.cmp 0 []), 0x209c028, 0, (at0 (CoreSt.reset) 0x209c028 0), (after (.cmp 0 []) (at0 CoreSt.reset 0x209c028
     0)), 0,
      by exact ⟨by decide +kernel, ready_atx _ _ _ _ _ _ _ _ (by decide +kernel), rfl, by decide +kernel⟩⟩,
   ⟨0, .nop, (.nop 0 []), 0x1f8, 0, (at0 (CoreSt.reset) 0x1f8 0), (after (.nop 0 []) (at0 CoreSt.reset 0x1f8 0)),
      by exact ⟨by decide +kernel, ready_atx _ _ _ _ _ _ _ _ (by decide +kernel), rfl⟩⟩,
   ⟨0, .li, (.li 0 []), 0x4018, 0, (at0 (CoreSt.reset) 0x4018 0), (after (.li 0 []) (at0 CoreSt.reset 0x4018 0)), 35,
      by exact ⟨by decide +kernel, ready_atx _ _ _ _ _ _ _ _ (by decide +kernel), rfl, by decide +kernel⟩⟩,
   ⟨0, .plog, (.plog 0 []), 0x1c038, 0, (at0 (CoreSt.reset) 0x1c038 0), (after (.plog 0 []) (at0 CoreSt.reset 0x1c038 0)),
     0,
      by exact ⟨by decide +kernel, ready_atx _ _ _ _ _ _ _ _ (by decide +kernel), rfl, by decide +kernel⟩⟩⟩

theorem wit_LoadStoreResults :
  (∃ (c : CoreId) (w : Word) (w1 : Word) (s : State) (l : Line),
    let sh := iF w % 64
    let size := 2 ^ (iF w / 64)
    let off := (rdS (s.core c) (iA w) + iImm w).toNat
    off % size = 0 ∧ GoodLine c sh (off / 64) l s ∧ Ready c .ld w w1 s ∧ runCheck s c sh (off / 64) 1 = 0) ∧
  (∃ (c : CoreId) (w : Word) (w1 : Word) (s : State) (l : Line),
    let sh := iF w % 64
    let size := 2 ^ (iF w / 64)
    let off := (rdS (s.core c) (iA w) + iImm w).toNat
    off % size = 0 ∧ GoodLine c sh (off / 64) l s ∧ Ready c .st w w1 s ∧ writeCheck s c (s.core c).nextSeq sh (off / 64) 1
      = 0) ∧
  (∃ (c : CoreId) (m : Mn) (i : Instr) (w : Word) (w1 : Word) (s : State),
    let off := (rdS (s.core c) (iA w) + iImm w).toNat
    (m, i) ∈ [(Mn.ld, Instr.ld c []), (.st, .st c [])] ∧ Ready c m w w1 s ∧ off % 2 ^ (iF w / 64) ≠ 0) ∧
  (∃ (c : CoreId) (m : Mn) (i : Instr) (w : Word) (w1 : Word) (s : State),
    let sh := iF w % 64
    let off := (rdS (s.core c) (iA w) + iImm w).toNat
    let t := if m = .ld then runCheck s c sh (off / 64) 1 else writeCheck s c (s.core c).nextSeq sh (off / 64) 1
    (m, i) ∈ [(Mn.ld, Instr.ld c []), (.st, .st c [])] ∧ Ready c m w w1 s ∧ off % 2 ^ (iF w / 64) = 0 ∧ t ≠ 0) :=
   ⟨⟨0, 0xc1104040, 0, (at0 ({ rk [(2, 2040), (1, 7)] with spad := [put 95 0xFF] }) 0xc1104040 0), ((put 95 0xFF).2),
      by (conv => zeta); refine ⟨?_, ?_, ready_atx _ _ _ _ _ _ _ _ (by decide +kernel), ?_⟩ <;> decide +kernel⟩,
   ⟨0, 0xc1104048, 0, (at0 ({ rk [(2, 2040), (1, 7)] with spad := [put 95 0xFF] }) 0xc1104048 0), ((put 95 0xFF).2),
      by (conv => zeta); refine ⟨?_, ?_, ready_atx _ _ _ _ _ _ _ _ (by decide +kernel), ?_⟩ <;> decide +kernel⟩,
   ⟨0, .ld, (.ld 0 []), 0xc1104040, 0, (at0 (rk [(2, 2041)]) 0xc1104040 0),
      by (conv => zeta); exact ⟨by decide +kernel, ready_atx _ _ _ _ _ _ _ _ (by decide +kernel), by decide +kernel⟩⟩,
   ⟨0, .st, (.st 0 []), 0xc1104048, 0, (at0 (rk [(2, 2048)]) 0xc1104048 0),
      by (conv => zeta); exact ⟨by decide +kernel, ready_atx _ _ _ _ _ _ _ _ (by decide +kernel), by decide +kernel⟩⟩⟩

theorem wit_StoreFrame :
  (∃ (c : CoreId) (w : Word) (w1 : Word) (s : State) (t : State) (l : Line),
    let sh := iF w % 64
    let size := 2 ^ (iF w / 64)
    let off := (rdS (s.core c) (iA w) + iImm w).toNat
    Ready c .st w w1 s ∧ off % size = 0 ∧ GoodLine c sh (off / 64) l s ∧ writeCheck s c (s.core c).nextSeq sh (off / 64) 1
      = 0 ∧ exec (.st c []) s = .next t) ∧
  (∃ (c : CoreId) (w : Word) (w1 : Word) (s : State) (t : State) (l : Line) (q : _),
    let sh := iF w % 64
    let size := 2 ^ (iF w / 64)
    let off := (rdS (s.core c) (iA w) + iImm w).toNat
    let p := physOf (shelfEnt s c sh) (workSecond s c sh) (off / 64)
    Ready c .st w w1 s ∧ off % size = 0 ∧ GoodLine c sh (off / 64) l s ∧ writeCheck s c (s.core c).nextSeq sh (off / 64) 1
      = 0 ∧ exec (.st c []) s = .next t ∧ q ≠ p) ∧
  (∃ (c : CoreId) (w : Word) (w1 : Word) (s : State) (t : State) (l : Line) (d : _),
    let sh := iF w % 64
    let size := 2 ^ (iF w / 64)
    let off := (rdS (s.core c) (iA w) + iImm w).toNat
    Ready c .st w w1 s ∧ off % size = 0 ∧ GoodLine c sh (off / 64) l s ∧ writeCheck s c (s.core c).nextSeq sh (off / 64) 1
      = 0 ∧ exec (.st c []) s = .next t ∧ d ≠ c) :=
   ⟨⟨0, 0xc1104048, 0, (at0 ({ rk [(2, 2040), (1, 7)] with spad := [put 95 0xFF] }) 0xc1104048 0), (after (.st 0 []) (at0
     ({ rk [(2, 2040), (1, 7)] with spad := [put 95 0xFF] }) 0xc1104048 0)), ((put 95 0xFF).2),
      by (conv => zeta); refine ⟨ready_atx _ _ _ _ _ _ _ _ (by decide +kernel), ?_, ?_, ?_, rfl⟩ <;> decide +kernel⟩,
   ⟨0, 0xc1104048, 0, (at0 ({ rk [(2, 2040), (1, 7)] with spad := [put 95 0xFF] }) 0xc1104048 0), (after (.st 0 []) (at0
     ({ rk [(2, 2040), (1, 7)] with spad := [put 95 0xFF] }) 0xc1104048 0)), ((put 95 0xFF).2), 94,
      by (conv => zeta); refine ⟨ready_atx _ _ _ _ _ _ _ _ (by decide +kernel), ?_, ?_, ?_, rfl, ?_⟩ <;> decide +kernel⟩,
   ⟨0, 0xc1104048, 0, (at0 ({ rk [(2, 2040), (1, 7)] with spad := [put 95 0xFF] }) 0xc1104048 0), (after (.st 0 []) (at0
     ({ rk [(2, 2040), (1, 7)] with spad := [put 95 0xFF] }) 0xc1104048 0)), ((put 95 0xFF).2), 35,
      by (conv => zeta); refine ⟨ready_atx _ _ _ _ _ _ _ _ (by decide +kernel), ?_, ?_, ?_, rfl, ?_⟩ <;> decide +kernel⟩⟩

theorem wit_StatusAccess :
  (∃ (c : CoreId) (w : Word) (w1 : Word) (s : State) (v : _),
    let u := issued c .rds w w1 s
    Ready c .rds w w1 s ∧ statusVal u c (iImmN w) = some v) ∧
  (∃ (c : CoreId) (w : Word) (w1 : Word) (s : State),
    let u := issued c .rds w w1 s
    Ready c .rds w w1 s ∧ statusVal u c (iImmN w) = none) ∧
  (∃ (c : CoreId) (w : Word) (w1 : Word) (s : State) (p : _), Ready c .rds w w1 s ∧ p < 4) ∧
  (∃ (c : CoreId) (w : Word) (w1 : Word) (s : State) (p : _), Ready c .rds w w1 s ∧ 1 ≤ p ∧ p ≤ 15) ∧
  (∃ (c : CoreId) (w : Word) (w1 : Word) (s : State) (i : _), Ready c .rds w w1 s ∧ i < 64) ∧
  (∃ (c : CoreId) (w : Word) (w1 : Word) (s : State) (t : _), Ready c .rds w w1 s ∧ t < 16) ∧
  (∃ (c : CoreId) (w : Word) (w1 : Word) (s : State) (i : _), Ready c .rds w w1 s ∧ ((6 ≤ i ∧ i < 0x10) ∨ (0x18 ≤ i ∧ i <
    0x20) ∨ (0x2F ≤ i ∧ i < 0x40) ∨ 0x90 ≤ i)) ∧
  (∃ (c : CoreId) (w : Word) (w1 : Word) (s : State), Ready c .wrs w w1 s ∧ iImmN w = 0x11) ∧
  (∃ (c : CoreId) (w : Word) (w1 : Word) (s : State) (p : _), Ready c .wrs w w1 s ∧ p < 4 ∧ iImmN w = 0x12 + p) ∧
  (∃ (c : CoreId) (w : Word) (w1 : Word) (s : State), Ready c .wrs w w1 s ∧ iImmN w ∉ [0x11, 0x12, 0x13, 0x14, 0x15]) :=
   ⟨⟨0, 0x100004050, 0, (at0 (CoreSt.reset) 0x100004050 0), 0,
      by (conv => zeta); exact ⟨ready_atx _ _ _ _ _ _ _ _ (by decide +kernel), by decide +kernel⟩⟩,
   ⟨0, 0x9000004050, 0, (at0 (CoreSt.reset) 0x9000004050 0),
      by (conv => zeta); exact ⟨ready_atx _ _ _ _ _ _ _ _ (by decide +kernel), by decide +kernel⟩⟩,
   ⟨0, 0x4050, 0, (at0 (CoreSt.reset) 0x4050 0), 3,
      by exact ⟨ready_atx _ _ _ _ _ _ _ _ (by decide +kernel), by decide +kernel⟩⟩,
   ⟨0, 0x4050, 0, (at0 (CoreSt.reset) 0x4050 0), 15,
      by exact ⟨ready_atx _ _ _ _ _ _ _ _ (by decide +kernel), by decide +kernel⟩⟩,
   ⟨0, 0x4050, 0, (at0 (CoreSt.reset) 0x4050 0), 63,
      by exact ⟨ready_atx _ _ _ _ _ _ _ _ (by decide +kernel), by decide +kernel⟩⟩,
   ⟨0, 0x4050, 0, (at0 (CoreSt.reset) 0x4050 0), 15,
      by exact ⟨ready_atx _ _ _ _ _ _ _ _ (by decide +kernel), by decide +kernel⟩⟩,
   ⟨0, 0x4050, 0, (at0 (CoreSt.reset) 0x4050 0), 6,
      by exact ⟨ready_atx _ _ _ _ _ _ _ _ (by decide +kernel), by decide +kernel⟩⟩,
   ⟨0, 0x1100080058, 0, (at0 (CoreSt.reset) 0x1100080058 0),
      by exact ⟨ready_atx _ _ _ _ _ _ _ _ (by decide +kernel), by decide +kernel⟩⟩,
   ⟨0, 0x1500080058, 0, (at0 (CoreSt.reset) 0x1500080058 0), 3,
      by exact ⟨ready_atx _ _ _ _ _ _ _ _ (by decide +kernel), by decide +kernel⟩⟩,
   ⟨0, 0x1600080058, 0, (at0 (CoreSt.reset) 0x1600080058 0),
      by exact ⟨ready_atx _ _ _ _ _ _ _ _ (by decide +kernel), by decide +kernel⟩⟩⟩

theorem wit_ControlResults :
  (∃ (c : CoreId) (w : Word) (w1 : Word) (s : State), Ready c .br w w1 s) ∧
  (∃ (c : CoreId) (w : Word) (w1 : Word) (s : State), Ready c .brr w w1 s) ∧
  (∃ (c : CoreId) (w : Word) (w1 : Word) (s : State),
    let k := s.core c
    Ready c .call w w1 s ∧ k.rets.length < 8) ∧
  (∃ (c : CoreId) (w : Word) (w1 : Word) (s : State) (r : _) (rs : _),
    let k := s.core c
    Ready c .ret w w1 s ∧ k.rets = r :: rs) ∧
  (∃ (c : CoreId) (w : Word) (w1 : Word) (s : State),
    let k := s.core c
    Ready c .loop w w1 s ∧ low32 (rdS k (iA w)) ≠ 0 ∧ k.loops.length < 4) ∧
  (∃ (c : CoreId) (w : Word) (w1 : Word) (s : State),
    let k := s.core c
    Ready c .loop w w1 s ∧ low32 (rdS k (iA w)) = 0) ∧
  (∃ (c : CoreId) (w : Word) (w1 : Word) (s : State),
    let k := s.core c
    Ready c .loopi w w1 s ∧ fld w 63 44 ≠ 0 ∧ k.loops.length < 4) ∧
  (∃ (c : CoreId) (w : Word) (w1 : Word) (s : State), Ready c .qwait w w1 s) ∧
  (∃ (c : CoreId) (w : Word) (w1 : Word) (s : State), Ready c .frameWait w w1 s) :=
   ⟨⟨0, 0xffffffff00000080, 0, (at0 (CoreSt.reset) 0xffffffff00000080 0),
      by exact ready_atx _ _ _ _ _ _ _ _ (by decide +kernel)⟩,
   ⟨0, 0x80088, 0, (at0 (rk [(1, 0xFFFFF)]) 0x80088 0), by exact ready_atx _ _ _ _ _ _ _ _ (by decide +kernel)⟩,
   ⟨0, 0x500000090, 0, (at0 ({ CoreSt.reset with rets := List.replicate 7 1 }) 0x500000090 0),
      by (conv => zeta); exact ⟨ready_atx _ _ _ _ _ _ _ _ (by decide +kernel), by decide +kernel⟩⟩,
   ⟨0, 0x98, 0, (at0 ({ CoreSt.reset with rets := [5] }) 0x98 0), 5, ([]),
      by (conv => zeta); exact ⟨ready_atx _ _ _ _ _ _ _ _ (by decide +kernel), by decide +kernel⟩⟩,
   ⟨0, 0x1000800a0, 0, (at0 ({ rk [(1, 1)] with loops := List.replicate 3 ⟨1, 9, 1⟩ }) 0x1000800a0 0),
      by (conv => zeta); exact ⟨ready_atx _ _ _ _ _ _ _ _ (by decide +kernel), by decide +kernel⟩⟩,
   ⟨0, 0xfff000800a0, 0, (at0 (CoreSt.reset) 0xfff000800a0 0),
      by (conv => zeta); exact ⟨ready_atx _ _ _ _ _ _ _ _ (by decide +kernel), by decide +kernel⟩⟩,
   ⟨0, 0x1001000000a8, 0, (at0 ({ CoreSt.reset with loops := List.replicate 3 ⟨1, 9, 1⟩ }) 0x1001000000a8 0),
      by (conv => zeta); exact ⟨ready_atx _ _ _ _ _ _ _ _ (by decide +kernel), by decide +kernel⟩⟩,
   ⟨0, 0x3f000000c0, 0, (at0 (CoreSt.reset) 0x3f000000c0 0), by exact ready_atx _ _ _ _ _ _ _ _ (by decide +kernel)⟩,
   ⟨0, 0x40e0, 0, (at0 (CoreSt.reset) 0x40e0 0), by exact ready_atx _ _ _ _ _ _ _ _ (by decide +kernel)⟩⟩

theorem wit_ControlTraps :
  (∃ (c : CoreId) (w : Word) (w1 : Word) (s : State),
    let k := s.core c
    Ready c .call w w1 s ∧ 8 ≤ k.rets.length) ∧
  (∃ (c : CoreId) (w : Word) (w1 : Word) (s : State),
    let k := s.core c
    Ready c .ret w w1 s ∧ k.rets = []) ∧
  (∃ (c : CoreId) (w : Word) (w1 : Word) (s : State),
    let k := s.core c
    Ready c .loop w w1 s ∧ low32 (rdS k (iA w)) ≠ 0 ∧ 4 ≤ k.loops.length) ∧
  (∃ (c : CoreId) (w : Word) (w1 : Word) (s : State),
    let k := s.core c
    Ready c .loopi w w1 s ∧ fld w 63 44 ≠ 0 ∧ 4 ≤ k.loops.length) ∧
  (∃ (c : CoreId) (w : Word) (w1 : Word) (s : State), Ready c .trap w w1 s) :=
   ⟨⟨0, 0x500000090, 0, (at0 ({ CoreSt.reset with rets := List.replicate 8 1 }) 0x500000090 0),
      by (conv => zeta); exact ⟨ready_atx _ _ _ _ _ _ _ _ (by decide +kernel), by decide +kernel⟩⟩,
   ⟨0, 0x98, 0, (at0 (CoreSt.reset) 0x98 0),
      by (conv => zeta); exact ⟨ready_atx _ _ _ _ _ _ _ _ (by decide +kernel), by decide +kernel⟩⟩,
   ⟨0, 0x1000800a0, 0, (at0 ({ rk [(1, 1)] with loops := List.replicate 4 ⟨1, 9, 1⟩ }) 0x1000800a0 0),
      by (conv => zeta); exact ⟨ready_atx _ _ _ _ _ _ _ _ (by decide +kernel), by decide +kernel⟩⟩,
   ⟨0, 0x1001000000a8, 0, (at0 ({ CoreSt.reset with loops := List.replicate 4 ⟨1, 9, 1⟩ }) 0x1001000000a8 0),
      by (conv => zeta); exact ⟨ready_atx _ _ _ _ _ _ _ _ (by decide +kernel), by decide +kernel⟩⟩,
   ⟨0, 0xffff000000f0, 0, (at0 (CoreSt.reset) 0xffff000000f0 0), by exact ready_atx _ _ _ _ _ _ _ _ (by decide +kernel)⟩⟩

theorem wit_SignalResults :
  (∃ (c : CoreId) (w : Word) (w1 : Word) (s : State), Ready c .wait w w1 s) ∧
  (∃ (c : CoreId) (w : Word) (w1 : Word) (s : State) (m : _) (i : _),
    let k := s.core c
    let dst := fld (rdS k (iYa w)) 4 0
    (m, i) ∈ [(Mn.sig, Instr.sig c []), (.sigr, .sigr c [])] ∧ Ready c m w w1 s ∧ ((m = .sigr → iYrd w = false ∧ peerCore
      s c dst = some c)) ∧ (semOf k (iT w)).count + iN w ≤ 65535) ∧
  (∃ (c : CoreId) (w : Word) (w1 : Word) (s : State) (t : _),
    let k := s.core c
    let dst := fld (rdS k (iYa w)) 4 0
    Ready c .sigr w w1 s ∧ iYrd w = false ∧ peerCore s c dst = some t ∧ t ≠ c ∧ reachable s t = false) ∧
  (∃ (c : CoreId) (w : Word) (w1 : Word) (s : State),
    let k := s.core c
    let y := fld (rdS k (iYb w)) 15 8
    let x := fld (rdS k (iYb w)) 7 0
    Ready c .sigr w w1 s ∧ iYrd w = true ∧ (¬(x = s.coordX ∧ y = s.coordY))) ∧
  (∃ (c : CoreId) (w : Word) (w1 : Word) (s : State) (t : _),
    let k := s.core c
    let dst := fld (rdS k (iYa w)) 4 0
    Ready c .sigr w w1 s ∧ iYrd w = false ∧ peerCore s c dst = some t ∧ t ≠ c ∧ reachable s t = true) ∧
  (∃ (c : CoreId) (w : Word) (w1 : Word) (s : State),
    let k := s.core c
    let dst := fld (rdS k (iYa w)) 4 0
    Ready c .sigr w w1 s ∧ iYrd w = false ∧ peerCore s c dst = none) :=
   ⟨⟨0, 0x3ffc1c1, 0, (at0 ({ CoreSt.reset with sems := CoreSt.reset.sems.set 15 ⟨255, 0⟩ }) 0x3ffc1c1 0),
      by exact ready_atx _ _ _ _ _ _ _ _ (by decide +kernel)⟩,
   ⟨0, 0x3ffc1c9, 0, (at0 ({ CoreSt.reset with sems := CoreSt.reset.sems.set 15 ⟨65280, 0⟩ }) 0x3ffc1c9 0), .sig, (.sig 0
     []),
      by (conv => zeta); exact ⟨by decide +kernel, ready_atx _ _ _ _ _ _ _ _ (by decide +kernel), by decide +kernel⟩⟩,
   ⟨0, 0x3ffc1d1, 0, (atx 0 0x2001000100001 [(coreOff Reg.PEER_MAP 0, 0x80000023)] [] (CoreSt.reset) 0x3ffc1d1 0), 35,
      by (conv => zeta); exact ⟨ready_atx _ _ _ _ _ _ _ _ (by decide +kernel), by decide +kernel⟩⟩,
   ⟨0, 0x1083ffc1d1, 0, (at0 (rk [(1, 0x203)]) 0x1083ffc1d1 0),
      by (conv => zeta); exact ⟨ready_atx _ _ _ _ _ _ _ _ (by decide +kernel), by decide +kernel⟩⟩,
   ⟨0, 0x3ffc1d1, 0, (atx 0 0x2001000100001 [(coreOff Reg.PEER_MAP 0, 0x80000023)] [(coreOff Reg.CORE_STAT 35, 1),
     (Reg.PWR_DOM_STAT + 8 * 35, 0)] (CoreSt.reset) 0x3ffc1d1 0), 35,
      by (conv => zeta); exact ⟨ready_atx _ _ _ _ _ _ _ _ (by decide +kernel), by decide +kernel⟩⟩,
   ⟨0, 0x3ffc1d1, 0, (at0 (CoreSt.reset) 0x3ffc1d1 0),
      by (conv => zeta); exact ⟨ready_atx _ _ _ _ _ _ _ _ (by decide +kernel), by decide +kernel⟩⟩⟩

theorem wit_CommitResults :
  (∃ (c : CoreId) (w : Word) (w1 : Word) (s : State),
    let k := s.core c
    Ready c .commit w w1 s ∧ rdS k (iA w) = k.cur.zeroExtend 64 ∧ k.committed = none) ∧
  (∃ (c : CoreId) (w : Word) (w1 : Word) (s : State) (q : _),
    let k := s.core c
    Ready c .commit w w1 s ∧ rdS k (iA w) = k.cur.zeroExtend 64 ∧ k.committed = some q ∧ q < k.nextSeq) ∧
  (∃ (c : CoreId) (w : Word) (w1 : Word) (s : State),
    let k := s.core c
    Ready c .commit w w1 s ∧ rdS k (iA w) ≠ k.cur.zeroExtend 64) :=
   ⟨⟨0, 0x800e8, 0, (at0 (CoreSt.reset) 0x800e8 0),
      by (conv => zeta); exact ⟨ready_atx _ _ _ _ _ _ _ _ (by decide +kernel), by decide +kernel⟩⟩,
   ⟨0, 0x800e8, 0, (at0 ({ CoreSt.reset with committed := some 0, nextSeq := 1 }) 0x800e8 0), 0,
      by (conv => zeta); exact ⟨ready_atx _ _ _ _ _ _ _ _ (by decide +kernel), by decide +kernel⟩⟩,
   ⟨0, 0x800e8, 0, (at0 (rk [(1, 1)]) 0x800e8 0),
      by (conv => zeta); exact ⟨ready_atx _ _ _ _ _ _ _ _ (by decide +kernel), by decide +kernel⟩⟩⟩

theorem wit_IllegalWordTraps :
  (∃ (c : CoreId) (w : Word) (w1 : Word) (s : State),
    let k := s.core c
    k.issue = .running ∧ domRun s c.val = true ∧ k.queues = Vector.replicate 6 [] ∧ k.pendP = 0 ∧ k.fwDone = true ∧
      fetchWord c s = (⟨0, w, w1⟩, s) ∧ issueMn k w w1 = none ∧ (rdP k (iPr w) == iPn w) = false) :=
   ⟨0, 0x1, 0, (at0 (CoreSt.reset) 0x1 0),
      by (conv => zeta); refine ⟨?_, ?_, ?_, ?_, ?_, atx_fetch _ _ _ _ _ _ _, ?_⟩ <;> decide +kernel⟩

theorem wit_WaitReleases :
  (∃ (c : CoreId) (s : State) (mask : _) (limit : _),
    let k := s.core c
    k.issue = .qwait mask limit ∧ k.queues = Vector.replicate 6 [] ∧ k.active = []) ∧
  (∃ (c : CoreId) (s : State) (d : _) (pc : _) (w : _),
    let k := s.core c
    k.issue = .frameWait d pc w ∧ frameWaitReady s c = true ∧ ((∀ t, t < 16 → (semOf k t).count + (semOf k t).held ≤
      65535))) ∧
  (∃ (c : CoreId) (s : State) (q : Nat) (o : Op) (hq : q < 6),
    let k := s.core c
    k.queues = (Vector.replicate 6 []).set q [o] hq ∧ k.active = [] ∧ k.issue ≠ .trapped ∧ o.mn = .wait ∧ iN o.w0 ≤ (semOf
      k (iT o.w0)).count) :=
   ⟨⟨0, (c0 { CoreSt.reset with issue := .qwait 63 0 }), 63, 0, by (conv => zeta); decide +kernel⟩,
   ⟨0,
     ({ sr [(Reg.FRAME_CTRL, 1)] with cores := State.reset.cores.set 0 { CoreSt.reset with issue := .frameWait 31 5 0, captured := true, capFrame := 1, sems := CoreSt.reset.sems.set 15 ⟨65534, 1⟩ } }),
     31, 5, 0,
      by (conv => zeta); decide +kernel⟩,
   ⟨0, (c0
     { CoreSt.reset with queues := CoreSt.reset.queues.set 5 [⟨.wait, 5, 0, 0, 0x3FC01C5, 0, 0, 0, 0, 0, 0, 0, true, true⟩], sems := CoreSt.reset.sems.set 0 ⟨255, 0⟩ }),
     5, (⟨.wait, 5, 0, 0, 0x3FC01C5, 0, 0, 0, 0, 0, 0, 0, true, true⟩), (by decide),
      by (conv => zeta); decide +kernel⟩⟩

theorem wit_MoveResults :
  (∃ (c : CoreId) (w : Word) (w1 : Word) (s : State),
    let k := s.core c
    let a := rdS k (lRa w)
    let cc := rdS k (lRc w)
    let n := low32 (rdS k (lRn w))
    let u := issued c .copy w w1 s
    let r := copyLoop c (lSa w) (low32 a) (lSc w) (low32 cc) n u
    Ready c .copy w w1 s ∧ ((upperZero (rdS k (lRn w)) = true ∧ n ≤ 131072)) ∧ upperZero a = true ∧ upperZero cc = true ∧
      runCheck s c (lSa w) (low32 a) n = 0 ∧ writeCheck s c k.nextSeq (lSc w) (low32 cc) n = 0 ∧ r.1 = false) ∧
  (∃ (c : CoreId) (w : Word) (w1 : Word) (s : State),
    let k := s.core c
    let a := rdS k (lRa w)
    let b := rdS k (lRb w)
    let d := rdS k (lRd w)
    let n := low32 (rdS k (lRn w))
    let u := issued c .get w w1 s
    let p := resolvePeer u c d (lOptB w 0)
    Ready c .get w w1 s ∧ ((upperZero (rdS k (lRn w)) = true ∧ n ≤ 131072)) ∧ upperZero a = true ∧ upperZero b = true ∧
      peerOk d (lOptB w 0) = true ∧ writeCheck s c k.nextSeq (lSa w) (low32 a) n = 0 ∧ p.2 = 0) ∧
  (∃ (c : CoreId) (w : Word) (w1 : Word) (s : State),
    let k := s.core c
    let a := rdS k (lRa w)
    let b := rdS k (lRb w)
    let d := rdS k (lRd w)
    let n := low32 (rdS k (lRn w))
    let v := issued c .put w w1 s
    let u := v.modCore c fun k => ledgerTake k d (lOptB w 0) (fld w1 3 0) n
    let p := resolvePeer v c d (lOptB w 0)
    let r := shelfReadN c (lSa w) (low32 a) 2 n u
    Ready c .put w w1 s ∧ ((upperZero (rdS k (lRn w)) = true ∧ n ≤ 131072)) ∧ upperZero a = true ∧ upperZero b = true ∧
      peerOk d (lOptB w 0) = true ∧ runCheck s c (lSa w) (low32 a) n = 0 ∧ p.2 = 0 ∧ n ≤ ledgerHas k d (lOptB w 0) (fld w1
      3 0) ∧ r.2.1 = false ∧ r.2.2 = u) ∧
  (∃ (c : CoreId) (w : Word) (w1 : Word) (s : State),
    let k := s.core c
    let b := rdS k (lRb w)
    let cc := rdS k (lRc w)
    let n := low32 (rdS k (lRn w))
    let u := issued c .fetch w w1 s
    let e := fld b 39 0
    Ready c .fetch w w1 s ∧ ((upperZero (rdS k (lRn w)) = true ∧ n ≤ 131072)) ∧ 0 < n ∧ upperZero cc = true ∧ fld b 63 40
      = 0 ∧ extentCheck u k.slot e n true = 0 ∧ writeCheck s c k.nextSeq (lSc w) (low32 cc) n = 0) ∧
  (∃ (c : CoreId) (w : Word) (w1 : Word) (s : State),
    let k := s.core c
    let a := rdS k (lRa w)
    let b := rdS k (lRb w)
    let n := low32 (rdS k (lRn w))
    let u := issued c .store w w1 s
    let e := fld b 39 0
    let r := shelfReadN c (lSa w) (low32 a) 2 n u
    Ready c .store w w1 s ∧ ((upperZero (rdS k (lRn w)) = true ∧ n ≤ 131072)) ∧ 0 < n ∧ upperZero a = true ∧ fld b 63 40 =
      0 ∧ runCheck s c (lSa w) (low32 a) n = 0 ∧ extentCheck u k.slot e n false = 0 ∧ r.2.1 = false) ∧
  (∃ (c : CoreId) (w : Word) (w1 : Word) (s : State),
    let k := s.core c
    let a := rdS k (lRa w)
    let b := rdS k (lRb w)
    let n := low32 (rdS k (lRn w))
    let u := issued c .storeRing w w1 s
    let r := shelfReadN c (lSa w) (low32 a) 2 n u
    Ready c .storeRing w w1 s ∧ ((upperZero (rdS k (lRn w)) = true ∧ n ≤ 131072)) ∧ 0 < n ∧ upperZero a = true ∧ b = 0 ∧
      fld w1 5 0 ≤ 32 ∧ runCheck s c (lSa w) (low32 a) n = 0 ∧ k.committed = none ∧ r.2.1 = false) ∧
  (∃ (a : Active), ((∀ m, m ∈ a.todo → m.kind ≠ .ringWrite ∧ ∀ x y u, m.dst ≠ .dev x y u))) ∧
  (∃ (room : Nat) (a : Active) (m : Msg),
    let d := checked (saltAddr 0) m.line
    a.todo = [m] ∧ 0 < room ∧ m.kind = .ringWrite ∧ m.dst = .mem ∧ d.poison = false) :=
   ⟨⟨0, 0x1881000104209, 0, (at0 ({ rk [(2, 16), (3, 16)] with spad := ((List.range 32).map fun i => put (64 + i) 0) })
     0x1881000104209 0),
      by (conv => zeta); exact ⟨ready_atx _ _ _ _ _ _ _ _ (by decide +kernel), by decide +kernel⟩⟩,
   ⟨0, 0x241800100104211, 0, (at0 (rk [(3, 32), (4, 0x100)]) 0x241800100104211 0),
      by (conv => zeta); exact ⟨ready_atx _ _ _ _ _ _ _ _ (by decide +kernel), by decide +kernel⟩⟩,
   ⟨0, 0x241800100104219, 1, (at0
     ({ rk [(3, 2), (4, 0x100)] with spad := ((List.range 32).map fun i => put (64 + i) 0), ledger := ([⟨0, true, 1, 0, 1, 2, 0⟩]) })
     0x241800100104219 1),
      by (conv => zeta); exact ⟨ready_atx _ _ _ _ _ _ _ _ (by decide +kernel), by decide +kernel⟩⟩,
   ⟨0, 0x1881200000221, 0, (at0 (rk [(3, 2), (4, 0x1100000000)]) 0x1881200000221 0),
      by (conv => zeta); exact ⟨ready_atx _ _ _ _ _ _ _ _ (by decide +kernel), by decide +kernel⟩⟩,
   ⟨0, 0x1800200104229, 0, (atx 4 0x2001000100001 [] []
     ({ rk [(3, 2), (4, 0xFFFFFF80)] with spad := ((List.range 32).map fun i => put (64 + i) 0) }) 0x1800200104229 0),
      by (conv => zeta); exact ⟨ready_atx _ _ _ _ _ _ _ _ (by decide +kernel), by decide +kernel⟩⟩,
   ⟨0, 0x401800000104229, 32, (atx 0 0x2001000100001 [] []
     ({ rk [(3, 1)] with spad := ((List.range 32).map fun i => put (64 + i) 0) }) 0x401800000104229 32),
      by (conv => zeta); exact ⟨ready_atx _ _ _ _ _ _ _ _ (by decide +kernel), by decide +kernel⟩⟩,
   ⟨(⟨⟨.wait, 5, 0, 0, 0x3FC01C5, 0, 0, 0, 0, 0, 0, 0, true, true⟩, [{ kind := .signal, src := .sys, dst := .mem }], 0,
     []⟩),
      by intro m hm; simp at hm; subst hm; exact ⟨by decide, by intros; simp⟩⟩,
   ⟨1, (⟨⟨.wait, 5, 0, 0, 0x3FC01C5, 0, 0, 0, 0, 0, 0, 0, true, true⟩,
     [{ kind := .ringWrite, src := .core 0, dst := .mem, line := sealLine (saltAddr 0) ⟨5, false⟩ }], 0, []⟩),
     ({ kind := .ringWrite, src := .core 0, dst := .mem, line := sealLine (saltAddr 0) ⟨5, false⟩ }),
      by (conv => zeta); decide +kernel⟩⟩

theorem wit_GatherAndCreditResults :
  (∃ (c : CoreId) (w : Word) (w1 : Word) (s : State),
    let k := s.core c
    let a := rdS k (lRa w)
    let b := rdS k (lRb w)
    let n := low32 (rdS k (lRn w))
    let nc := fld w1 5 0
    let rl := fld w1 9 6
    let cap := fld w1 29 10
    Ready c .getx w w1 s ∧ upperZero a = true ∧ upperZero b = true ∧ upperZero (rdS k (lRn w)) = true ∧ n ≤ 1048575 ∧ 0 <
      nc ∧ nc ≤ 32 ∧ 0 < rl ∧ rl ≤ 8 ∧ 16 ≤ cap ∧ low32 b + cap ≤ 2 ^ 20) ∧
  (∃ (c : CoreId) (w : Word) (w1 : Word) (s : State),
    let k := s.core c
    let a := rdS k (lRa w)
    let b := rdS k (lRb w)
    let n := low32 (rdS k (lRn w))
    let mode := fld w1 6 5
    let d := rdS k (lRd w)
    Ready c .gather w w1 s ∧ upperZero a = true ∧ upperZero (rdS k (lRc w)) = true ∧ upperZero (rdS k (lRn w)) = true ∧ n
      ≤ 1048575 ∧ ((mode = 1 ∨ mode = 2 → upperZero b = true ∧ upperZero d = true ∧ runCheck s c (lSb w) (low32 b) (cdiv
      (low32 d) 16) = 0)) ∧ runCheck s c (lSa w) (low32 a) (cdiv n 16) = 0) ∧
  (∃ (c : CoreId) (w : Word) (w1 : Word) (s : State),
    let k := s.core c
    let u := issued c .creditReq w w1 s
    let v := rdS k (iA w)
    let remote := (iX w).testBit 4
    let p := resolvePeer u c v remote
    let count := (rdS k (iB w)).toNat
    Ready c .creditReq w w1 s ∧ peerOk v remote = true ∧ 0 < count ∧ count ≤ 16383 ∧ p.2 = 0 ∧ (((ledgerKeys k).contains
      (ledgerKey v remote (iX w % 16)) = true ∨ (ledgerKeys k).length < 16))) ∧
  (∃ (c : CoreId) (w : Word) (w1 : Word) (s : State),
    let k := s.core c
    let p := iX w % 16
    let v := rdS k (iB w)
    let q := poolOf k p
    Ready c .creditRet w w1 s ∧ 0 < p ∧ fld (poolCfg s c p) 20 18 = k.slot ∧ fld v 63 18 = 0 ∧ q.avail + fld v 17 0 ≤
      poolCap s c p) :=
   ⟨⟨0, 0x801800102104211, 0x4041, (at0 ({ rk [(3, 16)] with spad := ((List.range 32).map fun i => put (64 + i) 0x1FFFF) })
     0x801800102104211 0x4041),
      by (conv => zeta); exact ⟨ready_atx _ _ _ _ _ _ _ _ (by decide +kernel), by decide +kernel⟩⟩,
   ⟨0, 0x1880000104231, 0, (at0 (rk [(3, 512)]) 0x1880000104231 0),
      by (conv => zeta); exact ⟨ready_atx _ _ _ _ _ _ _ _ (by decide +kernel), by decide +kernel⟩⟩,
   ⟨0, 0x222080041, 0, (at0 (rk [(1, 0x100), (2, 16383)]) 0x222080041 0),
      by (conv => zeta); exact ⟨ready_atx _ _ _ _ _ _ _ _ (by decide +kernel), by decide +kernel⟩⟩,
   ⟨0, 0x22000049, 0, (atx 0 0x2001000100001 [(coreOff Reg.CREDIT_POOL 0, 100)] [] (rk [(2, 100)]) 0x22000049 0),
      by (conv => zeta); exact ⟨ready_atx _ _ _ _ _ _ _ _ (by decide +kernel), by decide +kernel⟩⟩⟩

theorem wit_VectorResults :
  (∃ (c : CoreId) (w : Word) (w1 : Word) (s : State),
    let fn := iX w % 32
    Ready c .valu w w1 s ∧ fn < 13) ∧
  (∃ (c : CoreId) (w : Word) (w1 : Word) (s : State),
    let isInt := (iX w).testBit 5
    let fn := iX w % 32
    Ready c .valu w w1 s ∧ fn = 13 ∧ isInt = false) ∧
  (∃ (c : CoreId) (w : Word) (w1 : Word) (s : State),
    let isInt := (iX w).testBit 5
    let fn := iX w % 32
    Ready c .valu w w1 s ∧ fn = 13 ∧ isInt = true) ∧
  (∃ (c : CoreId) (w : Word) (w1 : Word) (s : State), Ready c .vfma w w1 s) ∧
  (∃ (c : CoreId) (w : Word) (w1 : Word) (s : State), Ready c .vsf w w1 s) ∧
  (∃ (c : CoreId) (w : Word) (w1 : Word) (s : State), Ready c .vred w w1 s) ∧
  (∃ (c : CoreId) (w : Word) (w1 : Word) (s : State), Ready c .vbcast w w1 s) ∧
  (∃ (c : CoreId) (w : Word) (w1 : Word) (s : State),
    let k := s.core c
    Ready c .vext w w1 s ∧ (rdS k (iB w)).toNat ≤ 63) ∧
  (∃ (c : CoreId) (w : Word) (w1 : Word) (s : State),
    let k := s.core c
    Ready c .vext w w1 s ∧ 63 < (rdS k (iB w)).toNat) :=
   ⟨⟨0, 0x180104023, 0, (at0 (CoreSt.reset) 0x180104023 0),
      by (conv => zeta); exact ⟨ready_atx _ _ _ _ _ _ _ _ (by decide +kernel), by decide +kernel⟩⟩,
   ⟨0, 0x1a0104023, 0, (at0 (CoreSt.reset) 0x1a0104023 0),
      by (conv => zeta); exact ⟨ready_atx _ _ _ _ _ _ _ _ (by decide +kernel), by decide +kernel⟩⟩,
   ⟨0, 0x5a0104023, 0, (at0 (CoreSt.reset) 0x5a0104023 0),
      by (conv => zeta); exact ⟨ready_atx _ _ _ _ _ _ _ _ (by decide +kernel), by decide +kernel⟩⟩,
   ⟨0, 0x310402b, 0, (at0 (CoreSt.reset) 0x310402b 0), by exact ready_atx _ _ _ _ _ _ _ _ (by decide +kernel)⟩,
   ⟨0, 0x80104033, 0, (at0 (CoreSt.reset) 0x80104033 0), by exact ready_atx _ _ _ _ _ _ _ _ (by decide +kernel)⟩,
   ⟨0, 0x40104043, 0, (at0 (CoreSt.reset) 0x40104043 0), by exact ready_atx _ _ _ _ _ _ _ _ (by decide +kernel)⟩,
   ⟨0, 0xfc04b, 0, (at0 (CoreSt.reset) 0xfc04b 0), by exact ready_atx _ _ _ _ _ _ _ _ (by decide +kernel)⟩,
   ⟨0, 0x2084053, 0, (at0 (rk [(2, 63)]) 0x2084053 0),
      by (conv => zeta); exact ⟨ready_atx _ _ _ _ _ _ _ _ (by decide +kernel), by decide +kernel⟩⟩,
   ⟨0, 0x2084053, 0, (at0 (rk [(2, 64)]) 0x2084053 0),
      by (conv => zeta); exact ⟨ready_atx _ _ _ _ _ _ _ _ (by decide +kernel), by decide +kernel⟩⟩⟩

theorem wit_VectorMemoryResults :
  (∃ (c : CoreId) (w : Word) (w1 : Word) (s : State),
    let k := s.core c
    let a := low32 (rdS k (lRa w))
    let b := low32 (rdS k (lRb w))
    let n := low32 (rdS k (lRn w))
    let f := fld w1 4 0
    let bits := fmtBits f
    let p := bitLines (bits * n) (bits * 64)
    let sp := bitLines (8 * (n / 32)) 16
    let u := issued c .vld w w1 s
    let comp := fld w1 6 5
    let r := readEls c (lSa w) a 5 bits n 64 u
    let q := if fmtMx f then readEls c (lSb w) b 5 8 (n / 32) 2 r.2.2.2 else ([], false, false, r.2.2.2)
    Ready c .vld w w1 s ∧ ((upperZero (rdS k (lRa w)) = true ∧ upperZero (rdS k (lRb w)) = true ∧ upperZero (rdS k (lRn
      w)) = true)) ∧ f ≤ 15 ∧ ((f = 15 → comp ≠ 3)) ∧ ((fmtMx f = true → n % 32 = 0)) ∧ runCheck s c (lSa w) (a + p.1) p.2
      = 0 ∧ ((fmtMx f = true → runCheck s c (lSb w) (b + sp.1) sp.2 = 0)) ∧ r.2.2.1 = false ∧ q.2.2.1 = false) ∧
  (∃ (c : CoreId) (w : Word) (w1 : Word) (s : State),
    let k := s.core c
    let a := low32 (rdS k (lRa w))
    let b := low32 (rdS k (lRb w))
    let n := low32 (rdS k (lRn w))
    let f := fld w1 4 0
    let bits := fmtBits f
    let p := bitLines (bits * n) (bits * 64)
    let sp := bitLines (8 * (n / 32)) 16
    let u := issued c .vst w w1 s
    let v := convVals f ((getV s c (lRd w)).map fun x => if fmtInt f then fofInt x.toInt else f32 x)
    let poison := vPoison k (lRd w)
    let t := writeRange c (lSa w) 6 (fun _ => poison) (p.2 + 1) (a + p.1) 0 (bits * n % 512) (bits * 64) (packEls bits
      v.1) (countConv c v.2.2 u)
    let x := if fmtMx f then writeRange c (lSb w) 6 (fun _ => poison) 2 (b + sp.1) 0 (8 * (n / 32) % 512) 16 (packEls 8
      v.2.1) t.2 else (false, t.2)
    Ready c .vst w w1 s ∧ ((upperZero (rdS k (lRa w)) = true ∧ upperZero (rdS k (lRb w)) = true ∧ upperZero (rdS k (lRn
      w)) = true)) ∧ f < 15 ∧ ((fmtMx f = true → n % 64 = 0)) ∧ writeCheck s c k.nextSeq (lSa w) (a + p.1) p.2 = 0 ∧
      ((fmtMx f = true → writeCheck s c k.nextSeq (lSb w) (b + sp.1) sp.2 = 0)) ∧ t.1 = false ∧ x.1 = false) ∧
  (∃ (c : CoreId) (w : Word) (w1 : Word) (s : State),
    let k := s.core c
    let a := low32 (rdS k (lRa w))
    let b := low32 (rdS k (lRb w))
    let cc := low32 (rdS k (lRc w))
    let n := low32 (rdS k (lRn w))
    let f := fld w1 4 0
    let bits := fmtBits f
    let u := issued c .vcvt w w1 s
    let g := fld w1 9 5
    let y := low32 (rdS k (fld w1 20 16))
    let nf := if g = 15 && f ≠ 15 then 3 * n else n
    let ng := if f = 15 && g ≠ 15 then 3 * n else n
    let lg := bitLines 0 (fmtBits g * ng)
    let r := readEls c (lSa w) a 5 bits 0 nf u
    let q := if fmtMx f then readEls c (lSb w) b 5 8 0 (nf / 32) r.2.2.2 else ([], false, false, r.2.2.2)
    let vals := cvtVals f r.1 q.1
    let mx := if fmtMx g then lanesF32 vals else ([], .zero)
    let vs := if fmtMx g then mx.1.map f32 else vals
    let ws := (triples vs).mapIdx fun j t => fxWord (if f = 15 then ((r.1[j]?).getD 0) >>> 60 else fld w1 24 21) t
    let v : List Nat × List Nat × ConvCount := if g = 15 then (ws.map (·.1), [], ws.foldl (fun k w => k.plus w.2) .zero)
      else convVals g vs
    let t := writeRange c (lSc w) 6 (fun _ => r.2.1 || q.2.1) (lg.2 + 1) cc 0 0 (fmtBits g * ng) (packEls (fmtBits g) v.1)
      (countConv c (v.2.2.plus mx.2) q.2.2.2)
    let x := if fmtMx g then writeRange c (fld w1 15 10) 6 (fun _ => r.2.1 || q.2.1) (cdiv v.2.1.length 64 + 1) y 0 0 (8 *
      v.2.1.length) (packEls 8 v.2.1) t.2 else (false, t.2)
    Ready c .vcvt w w1 s ∧ ((upperZero (rdS k (lRa w)) = true ∧ upperZero (rdS k (lRb w)) = true ∧ upperZero (rdS k (lRn
      w)) = true)) ∧ upperZero (rdS k (lRc w)) = true ∧ upperZero (rdS k (fld w1 20 16)) = true ∧ n ≤ 1048575 ∧ f ≤ 15 ∧ g
      ≤ 15 ∧ ((fmtMx f = true ∨ fmtMx g = true → n % 32 = 0)) ∧ runCheck s c (lSa w) a (bitLines 0 (bits * nf)).2 = 0 ∧
      ((fmtMx f = true → runCheck s c (lSb w) b (cdiv (nf / 32) 64) = 0)) ∧ writeCheck s c k.nextSeq (lSc w) cc lg.2 = 0 ∧
      ((fmtMx g = true → writeCheck s c k.nextSeq (fld w1 15 10) y (cdiv (cdiv ng 32) 64) = 0)) ∧ r.2.2.1 = false ∧
      q.2.2.1 = false ∧ t.1 = false ∧ x.1 = false) ∧
  (∃ (c : CoreId) (w : Word) (w1 : Word) (s : State),
    let k := s.core c
    let a := low32 (rdS k (lRa w))
    let cc := low32 (rdS k (lRc w))
    let n := low32 (rdS k (lRn w))
    let f := fld w1 4 0
    let bits := fmtBits f
    let u := issued c .argmax w w1 s
    let l := fld w1 21 5
    let rl := cdiv (l * bits) 512
    let lines := cdiv n 8
    let r := argRows c (issuedOp c .argmax w w1 s) f l rl n 0 u
    Ready c .argmax w w1 s ∧ upperZero (rdS k (lRa w)) = true ∧ upperZero (rdS k (lRc w)) = true ∧ upperZero (rdS k (lRn
      w)) = true ∧ n ≤ 1048575 ∧ l ≤ 65536 ∧ selectFmt f = true ∧ runCheck s c (lSa w) a (n * rl) = 0 ∧ writeCheck s c
      k.nextSeq (lSc w) cc lines = 0 ∧ r.2.1 = false) :=
   ⟨⟨0, 0x2180000010420b, 0x4f, (at0 ({ rk [] with spad := ((List.range 32).map fun i => put (64 + i) 0) })
     0x2180000010420b 0x4f),
      by (conv => zeta); exact ⟨ready_atx _ _ _ _ _ _ _ _ (by decide +kernel), by decide +kernel⟩⟩,
   ⟨0, 0x21800000104213, 14, (at0 ({ rk [] with spad := ((List.range 32).map fun i => put (64 + i) 0) }) 0x21800000104213
     14),
      by (conv => zeta); exact ⟨ready_atx _ _ _ _ _ _ _ _ (by decide +kernel), by decide +kernel⟩⟩,
   ⟨0, 0x188100010423b, 0x20, (at0 ({ rk [(2, 16), (3, 32)] with spad := ((List.range 32).map fun i => put (64 + i) 0) })
     0x188100010423b 0x20),
      by (conv => zeta); exact ⟨ready_atx _ _ _ _ _ _ _ _ (by decide +kernel), by decide +kernel⟩⟩,
   ⟨0, 0x1881000104263, 0x200, (at0 ({ rk [(2, 16), (3, 8)] with spad := ((List.range 32).map fun i => put (64 + i) 0) })
     0x1881000104263 0x200),
      by (conv => zeta); exact ⟨ready_atx _ _ _ _ _ _ _ _ (by decide +kernel), by decide +kernel⟩⟩⟩

theorem wit_WeightLoadResults :
  (∃ (c : CoreId) (w : Word) (w1 : Word) (s : State),
    let k := s.core c
    let u := issued c .wload w w1 s
    let a := low32 (rdS k (lRa w))
    let cc := low32 (rdS k (lRc w))
    let f := fld w1 4 0
    let mode := fld w1 8 7
    let q := fld w1 25 24
    let nLen := fld w1 15 9
    let rows := fld w1 23 16
    let r := shelfReadN c (lSa w) a 7 (tileLines f rows) u
    let z := shelfReadN c (lSc w) cc 7 (wScaleLines f rows) r.2.2
    Ready c .wload w w1 s ∧ k.array.stopped = false ∧ upperZero (rdS k (lRa w)) = true ∧ upperZero (rdS k (lRc w)) = true
      ∧ upperZero (rdS k (lRn w)) = true ∧ fld w1 6 5 ≠ 3 ∧ arrayFmt f = true ∧ ((mode = 1 → fmtClass f ≠ 0)) ∧ q <
      partCount k.array.mode ∧ ((mode = 1 ∨ k.array.mode ≠ 2 ∨ fmtMx f = false ∨ fmtClass f ≠ 2)) ∧ mode = 0 ∧ 0 < nLen ∧
      nLen ≤ 64 ∧ rows ≤ kLimit f k.array.mode ∧ runCheck s c (lSa w) a (tileLines f rows) = 0 ∧ runCheck s c (lSc w) cc
      (wScaleLines f rows) = 0 ∧ r.2.1 = false ∧ z.2.1 = false) ∧
  (∃ (c : CoreId) (w : Word) (w1 : Word) (s : State) (h : TileHdr) (t : List (List (Option Nat))),
    let k := s.core c
    let u := issued c .wload w w1 s
    let a := low32 (rdS k (lRa w))
    let cc := low32 (rdS k (lRc w))
    let f := fld w1 4 0
    let mode := fld w1 8 7
    let q := fld w1 25 24
    let r := readTile c (lSa w) a f 7 u
    let z := shelfReadN c (lSc w) cc 7 (wScaleLines f h.rows) r.2
    Ready c .wload w w1 s ∧ k.array.stopped = false ∧ upperZero (rdS k (lRa w)) = true ∧ upperZero (rdS k (lRc w)) = true
      ∧ upperZero (rdS k (lRn w)) = true ∧ fld w1 6 5 ≠ 3 ∧ arrayFmt f = true ∧ ((mode = 1 → fmtClass f ≠ 0)) ∧ q <
      partCount k.array.mode ∧ ((mode = 1 ∨ k.array.mode ≠ 2 ∨ fmtMx f = false ∨ fmtClass f ≠ 2)) ∧ (mode = 1 ∨ mode = 2)
      ∧ bitOf w1 26 = false ∧ r.1.2.1 = some h ∧ r.1.2.2.2.2 = false ∧ h.role = 0 ∧ ((mode = 1 → h.pack = 0 ∧ h.rows ≤
      peRows k.array.mode * (8 / h.n) * (if fmtClass f = 3 then 2 else 1))) ∧ ((mode = 2 → h.rows ≤ kLimit f
      k.array.mode)) ∧ runCheck s c (lSc w) cc (wScaleLines f h.rows) = 0 ∧ ((h.pack = 0 → codesOk f h.n h.nLen r.1.2.2.1
      = true ∧ t = expandStruct f h.n h.nLen h.rows r.1.2.2.1)) ∧ ((h.pack ≠ 0 → expandVar f h r.1.2.2.1 = some t)) ∧
      z.2.1 = false) ∧
  (∃ (c : CoreId) (w : Word) (w1 : Word) (s : State),
    let k := s.core c
    let f := fld w1 4 0
    let mode := fld w1 8 7
    let q := fld w1 25 24
    Ready c .wload w w1 s ∧ k.array.stopped = false ∧ upperZero (rdS k (lRa w)) = true ∧ upperZero (rdS k (lRc w)) = true
      ∧ upperZero (rdS k (lRn w)) = true ∧ fld w1 6 5 ≠ 3 ∧ arrayFmt f = true ∧ ((mode = 1 → fmtClass f ≠ 0)) ∧ q <
      partCount k.array.mode ∧ ((mode = 1 ∨ k.array.mode ≠ 2 ∨ fmtMx f = false ∨ fmtClass f ≠ 2)) ∧ (mode = 1 ∨ mode = 2)
      ∧ bitOf w1 26 = true) ∧
  (∃ (c : CoreId) (w : Word) (w1 : Word) (s : State),
    let k := s.core c
    let f := fld w1 4 0
    let mode := fld w1 8 7
    let q := fld w1 25 24
    Ready c .wload w w1 s ∧ k.array.stopped = false ∧ upperZero (rdS k (lRa w)) = true ∧ upperZero (rdS k (lRc w)) = true
      ∧ upperZero (rdS k (lRn w)) = true ∧ fld w1 6 5 ≠ 3 ∧ arrayFmt f = true ∧ ((mode = 1 → fmtClass f ≠ 0)) ∧ q <
      partCount k.array.mode ∧ ((mode = 1 ∨ k.array.mode ≠ 2 ∨ fmtMx f = false ∨ fmtClass f ≠ 2)) ∧ mode = 3) :=
   ⟨⟨0, 0x10420a, 0x48003, (at0 ({ rk [] with spad := ((List.range 32).map fun i => put (64 + i) 0) }) 0x10420a 0x48003),
      by (conv => zeta); exact ⟨ready_atx _ _ _ _ _ _ _ _ (by decide +kernel), by decide +kernel⟩⟩,
   ⟨0, 0x10420a, 0x103, (at0
     ({ CoreSt.reset with spad := ([put 64 (BitVec.ofNat 512 (hdrBits ⟨true, 1, 1, false, 0, 3, 1, 1, 64⟩)), put 65 0]) })
     0x10420a 0x103), (⟨true, 1, 1, false, 0, 3, 1, 1, 64⟩), ([[some 0]]),
      by (conv => zeta); refine ⟨ready_atx _ _ _ _ _ _ _ _ (by decide +kernel), ?_, ?_, ?_, ?_, ?_, ?_, ?_, ?_, ?_, ?_, ?_, ?_, ?_, ?_, ?_, ?_, ?_, fun h => absurd h (by decide), fun _ => by decide +kernel, ?_⟩ <;> decide +kernel⟩,
   ⟨0, 0x180000010420a, 0x4000083, (at0 (CoreSt.reset) 0x180000010420a 0x4000083),
      by (conv => zeta); exact ⟨ready_atx _ _ _ _ _ _ _ _ (by decide +kernel), by decide +kernel⟩⟩,
   ⟨0, 0x10420a, 0x183, (at0 (CoreSt.reset) 0x10420a 0x183),
      by (conv => zeta); exact ⟨ready_atx _ _ _ _ _ _ _ _ (by decide +kernel), by decide +kernel⟩⟩⟩

/-- A state for clause 3 of ProductResults. -/
def productResults2 : State :=
  atx 0 0x2001000100001 [] []
    ({ rk [(3, 1), (4, 1)] with spad := ((List.range 32).map fun i => put (64 + i) 0), array := ({ CoreSt.reset.array with sets := [(0, ⟨0, 3, 1, 1, [[some 0]], [[(0, 0)]], [], false, false⟩)] }) })
    0x4180010210421a 0x80003

theorem wit_ProductResults :
  (∃ (c : CoreId) (w : Word) (w1 : Word) (s : State) (b : Nat) (ws : WSet × WSet),
    let k := s.core c
    let u := issued c .mm w w1 s
    let o := issuedOp c .mm w w1 s
    let p := productOf k.array o 0 b ws.1 ws.2
    let e := productRows c o false p u
    Ready c .mm w w1 s ∧ ProductOk k.array o 0 false b ws ∧ 0 < low32 o.n ∧ tileAt c (lSa w) (low32 o.a) p.f u = false ∧
      ProductRunsOk c o false p s ∧ e.1 = 0 ∧ e.2.1 = false) ∧
  (∃ (c : CoreId) (w : Word) (w1 : Word) (s : State) (b : Nat) (ws : WSet × WSet) (h : TileHdr) (rs : List (List Nat ×
    Bool)),
    let k := s.core c
    let u := issued c .mm w w1 s
    let o := issuedOp c .mm w w1 s
    let p := productOf k.array o 0 b ws.1 ws.2
    let t := readTile c (lSa w) (low32 o.a) p.f 3 u
    let e := runPacked c o p t.1.2.2.2.1 (fld w1 18 9) (productSpan o false) (rs.take (low32 o.n)) 0 t.1.2.2.2.2 t.2
    Ready c .mm w w1 s ∧ ProductOk k.array o 0 false b ws ∧ 0 < low32 o.n ∧ tileAt c (lSa w) (low32 o.a) p.f u = true ∧
      t.1.2.1 = some h ∧ h.role = 1 ∧ low32 o.n ≤ h.rows ∧ runCheck s c (lSc w) (low32 o.c) (inScaleLines p.f (low32 o.n))
      = 0 ∧ tileRows p.f h t.1.2.2.1 = some rs ∧ e.1 = 0 ∧ e.2.1 = false) ∧
  (∃ (c : CoreId) (w : Word) (w1 : Word) (s : State) (b : Nat) (ws : WSet × WSet),
    let k := s.core c
    let u := issued c .mmg w w1 s
    let o := issuedOp c .mmg w w1 s
    let p := productOf k.array o 0 b ws.1 ws.2
    let e := productRows c o true p u
    Ready c .mmg w w1 s ∧ ProductOk k.array o 0 true b ws ∧ 0 < low32 o.n ∧ tileAt c (lSb w) 0 p.f u = false ∧ e.1 = 0 ∧
      e.2.1 = false) ∧
  (∃ (c : CoreId) (w : Word) (w1 : Word) (s : State) (b : Nat) (ws : WSet × WSet),
    let k := s.core c
    let u := issued c .mms w w1 s
    let o := issuedOp c .mms w w1 s
    let g := lOptB w 0
    let p := productOf k.array o 3 b ws.1 ws.2
    let e := productRows c o g p u
    Ready c .mms w w1 s ∧ ProductOk k.array o 3 g b ws ∧ 0 < low32 o.n ∧ (if g then tileAt c (lSb w) 0 p.f u else tileAt c
      (lSa w) (low32 o.a) p.f u) = false ∧ ProductRunsOk c o g p s ∧ e.1 = 0 ∧ e.2.1 = false) ∧
  (∃ (c : CoreId) (w : Word) (w1 : Word) (s : State) (b : Nat) (ws : WSet × WSet),
    let k := s.core c
    let u := issued c .mmp w w1 s
    let o := issuedOp c .mmp w w1 s
    let g := lOptB w 0
    let kind := if bitOf w1 39 then 2 else 1
    let p := productOf k.array o kind b ws.1 ws.2
    let e := productRows c o g p u
    Ready c .mmp w w1 s ∧ ProductOk k.array o kind g b ws ∧ 0 < low32 o.n ∧ ProductRunsOk c o g p s ∧ e.1 = 0 ∧ e.2.1 =
      false) ∧
  (∃ (c : CoreId) (w : Word) (w1 : Word) (s : State) (b : Nat) (ws : WSet × WSet),
    let k := s.core c
    let o := issuedOp c .mm w w1 s
    Ready c .mm w w1 s ∧ ProductOk k.array o 0 false b ws ∧ low32 o.n = 0) :=
   ⟨⟨0, 0x1800000104212, 0x80003, (atx 0 0x2001000100001 [] []
     ({ rk [(3, 1)] with spad := ((List.range 32).map fun i => put (64 + i) 0), array := ({ CoreSt.reset.array with sets := [(0, ⟨0, 3, 1, 1, [[some 0]], [[(0, 0)]], [], false, false⟩)] }) })
     0x1800000104212 0x80003), 0, (⟨0, 3, 1, 1, [[some 0]], [[(0, 0)]], [], false, false⟩, ⟨0, 3, 1, 1, [[some 0]], [[(0,
     0)]], [], false, false⟩),
      by (conv => zeta); exact ⟨ready_atx _ _ _ _ _ _ _ _ (by decide +kernel), by decide +kernel⟩⟩,
   ⟨0, 0x1800000104212, 0x80003, (atx 0 0x2001000100401 [] []
     ({ rk [(3, 1)] with spad := ([put 64 (BitVec.ofNat 512 (hdrBits ⟨true, 1, 1, false, 1, 3, 0, 1, 64⟩)), put 65 0]), array := ({ CoreSt.reset.array with sets := [(0, ⟨0, 3, 1, 1, [[some 0]], [[(0, 0)]], [], false, false⟩)] }) })
     0x1800000104212 0x80003), 0, (⟨0, 3, 1, 1, [[some 0]], [[(0, 0)]], [], false, false⟩, ⟨0, 3, 1, 1, [[some 0]], [[(0,
     0)]], [], false, false⟩), (⟨true, 1, 1, false, 1, 3, 0, 1, 64⟩), ([(List.replicate 64 0, false)]),
      by (conv => zeta); exact ⟨ready_atx _ _ _ _ _ _ _ _ (by decide +kernel), by decide +kernel⟩⟩,
   ⟨0, 0x4180010210421a, 0x80003, productResults2, 0, (⟨0, 3, 1, 1, [[some 0]], [[(0, 0)]], [], false, false⟩, ⟨0, 3, 1,
     1, [[some 0]], [[(0, 0)]], [], false, false⟩),
      by (conv => zeta); exact ⟨ready_atx _ _ _ _ _ _ _ _ (by decide +kernel), by decide +kernel⟩⟩,
   ⟨0, 0x1800000104222, 0x80003, (atx 0 0x2001000100001 [] []
     ({ rk [(3, 1)] with spad := ((List.range 32).map fun i => put (64 + i) 0), array := ({ CoreSt.reset.array with sets := [(0, ⟨1, 3, 1, 1, [[some 0]], [[(0, 0)]], [], false, false⟩)] }) })
     0x1800000104222 0x80003), 0, (⟨1, 3, 1, 1, [[some 0]], [[(0, 0)]], [], false, false⟩, ⟨1, 3, 1, 1, [[some 0]], [[(0,
     0)]], [], false, false⟩),
      by (conv => zeta); exact ⟨ready_atx _ _ _ _ _ _ _ _ (by decide +kernel), by decide +kernel⟩⟩,
   ⟨0, 0x180000010422a, 0x80000, (atx 0 0x2001000100001 [] []
     ({ rk [(3, 1)] with spad := ((List.range 32).map fun i => put (64 + i) 0), array := ({ CoreSt.reset.array with sets := [(0, ⟨0, 0, 1, 1, [[some 0]], [[(0, 0)]], [], false, false⟩)] }) })
     0x180000010422a 0x80000), 0, (⟨0, 0, 1, 1, [[some 0]], [[(0, 0)]], [], false, false⟩, ⟨0, 0, 1, 1, [[some 0]], [[(0,
     0)]], [], false, false⟩),
      by (conv => zeta); exact ⟨ready_atx _ _ _ _ _ _ _ _ (by decide +kernel), by decide +kernel⟩⟩,
   ⟨0, 0x1800000104212, 0x80003, (atx 0 0x2001000100001 [] []
     ({ rk [(1, 0)] with spad := ((List.range 32).map fun i => put (64 + i) 0), array := ({ CoreSt.reset.array with sets := [(0, ⟨0, 3, 1, 1, [[some 0]], [[(0, 0)]], [], false, false⟩)] }) })
     0x1800000104212 0x80003), 0, (⟨0, 3, 1, 1, [[some 0]], [[(0, 0)]], [], false, false⟩, ⟨0, 3, 1, 1, [[some 0]], [[(0,
     0)]], [], false, false⟩),
      by (conv => zeta); exact ⟨ready_atx _ _ _ _ _ _ _ _ (by decide +kernel), by decide +kernel⟩⟩⟩

theorem wit_AccumulatorResults :
  (∃ (c : CoreId) (w : Word) (w1 : Word) (s : State),
    let k := s.core c
    let a := low32 (rdS k (lRa w))
    let b := low32 (rdS k (lRb w))
    let n := low32 (rdS k (lRn w))
    let u := issued c .accInit w w1 s
    let r0 := fld w1 11 2
    let la := if lOptB w 0 then 4 else 0
    let lb := if lOptB w 1 then 4 else 0
    let i := shelfReadN c (lSa w) a 3 la u
    let v := shelfReadN c (lSb w) b 3 lb i.2.2
    Ready c .accInit w w1 s ∧ k.array.stopped = false ∧ ((upperZero (rdS k (lRa w)) = true ∧ upperZero (rdS k (lRb w)) =
      true ∧ upperZero (rdS k (lRn w)) = true)) ∧ fld w1 1 0 ≠ 3 ∧ r0 + n ≤ 1024 ∧ runCheck s c (lSa w) a la = 0 ∧
      runCheck s c (lSb w) b lb = 0 ∧ i.2.1 = false ∧ v.2.1 = false) ∧
  (∃ (c : CoreId) (w : Word) (w1 : Word) (s : State) (bk : _),
    let k := s.core c
    let a := low32 (rdS k (lRa w))
    let b := low32 (rdS k (lRb w))
    let cc := low32 (rdS k (lRc w))
    let n := low32 (rdS k (lRn w))
    let u := issued c .accDrain w w1 s
    let f := fld w1 4 0
    let r0 := fld w1 16 7
    let bm := bitOf w1 18
    let lines := drainLines f n
    let r := drainRows c bk f (bitOf w1 17) n r0 ⟨[], [], [], [], false⟩ u
    let bad (i : Nat) : Bool := (r.1.bad[i]?).getD false
    let t := writeRange c (lSc w) 4 (fun i => let x := rowsOfLine f i; (List.range (x.2 + 1 - x.1)).any fun j => bad (x.1
      + j)) (lines + 1) cc 0 0 (if fmt6 f then 512 * lines else 64 * fmtBits f * n) (packEls (64 * fmtBits f) r.1.bits)
      r.2
    let v := writeRange c (lSa w) 4 (fun i => (List.range 32).any fun j => bad (32 * i + j)) (n + 1) a 0 0 (if fmtMx f
      then 16 * n else 0) (packEls 16 (r.1.sc.map (packEls 8))) t.2
    Ready c .accDrain w w1 s ∧ k.array.stopped = false ∧ ((upperZero (rdS k (lRa w)) = true ∧ upperZero (rdS k (lRb w)) =
      true ∧ upperZero (rdS k (lRn w)) = true)) ∧ upperZero (rdS k (lRc w)) = true ∧ fld w1 6 5 ≠ 3 ∧ arrayFmt f = true ∧
      pickBank k.array (fld w1 6 5) false = some bk ∧ r0 + n ≤ 1024 ∧ bitOf w1 19 = false ∧ writeCheck s c k.nextSeq (lSc
      w) cc lines = 0 ∧ writeCheck s c k.nextSeq (lSa w) a (drainScaleLines f n) = 0 ∧ writeCheck s c k.nextSeq (lSb w) b
      (if bm then cdiv n 512 else 0) = 0 ∧ t.1 = false ∧ v.1 = false ∧ r.1.trap = false ∧ arrayFailed v.2 c = false) ∧
  (∃ (c : CoreId) (w : Word) (w1 : Word) (s : State) (bk : _),
    let k := s.core c
    let n := low32 (rdS k (lRn w))
    Ready c .accDrain w w1 s ∧ k.array.stopped = false ∧ ((upperZero (rdS k (lRa w)) = true ∧ upperZero (rdS k (lRb w)) =
      true ∧ upperZero (rdS k (lRn w)) = true)) ∧ upperZero (rdS k (lRc w)) = true ∧ fld w1 6 5 ≠ 3 ∧ arrayFmt (fld w1 4
      0) = true ∧ pickBank k.array (fld w1 6 5) false = some bk ∧ n ≤ 1024 ∧ bitOf w1 19 = true) ∧
  (∃ (c : CoreId) (w : Word) (w1 : Word) (s : State),
    let k := s.core c
    Ready c .part w w1 s ∧ k.array.stopped = false ∧ fld w 33 32 ≠ 3) :=
   ⟨⟨0, 0x601800102104242, 0, (at0 ({ rk [(2, 4), (3, 1024)] with spad := ((List.range 32).map fun i => put (64 + i) 0) })
     0x601800102104242 0),
      by (conv => zeta); exact ⟨ready_atx _ _ _ _ _ _ _ _ (by decide +kernel), by decide +kernel⟩⟩,
   ⟨0, 0x184100000024a, 3, (at0
     ({ rk [(3, 1)] with spad := ((List.range 32).map fun i => put (64 + i) 0), array := ({ CoreSt.reset.array with acc := [(0, ⟨List.replicate 64 0, 0, 0, true, false, false, 1⟩)] }) })
     0x184100000024a 3), 0,
      by (conv => zeta); exact ⟨ready_atx _ _ _ _ _ _ _ _ (by decide +kernel), by decide +kernel⟩⟩,
   ⟨0, 0x184100000024a, 0x9ff83, (at0 ({ rk [(3, 1)] with spad := ((List.range 32).map fun i => put (64 + i) 0) })
     0x184100000024a 0x9ff83), 0,
      by (conv => zeta); exact ⟨ready_atx _ _ _ _ _ _ _ _ (by decide +kernel), by decide +kernel⟩⟩,
   ⟨0, 0x3e00000062, 0, (at0 (CoreSt.reset) 0x3e00000062 0),
      by (conv => zeta); exact ⟨ready_atx _ _ _ _ _ _ _ _ (by decide +kernel), by decide +kernel⟩⟩⟩

theorem wit_PackResults :
  (∃ (c : CoreId) (w : Word) (w1 : Word) (s : State),
    let k := s.core c
    let u := issued c .pack w w1 s
    let a := low32 (rdS k (lRa w))
    let cc := low32 (rdS k (lRc w))
    let n := low32 (rdS k (lRn w))
    let f := fld w1 4 0
    let role := fld w1 5 5
    let nLen := fld w1 13 7
    let dense := densePayload f role n
    let lines := srcLines f role n
    let r := shelfReadN c (lSa w) a 7 lines u
    let src := r.1.foldr (fun l acc => l.data.toNat + 2 ^ 512 * acc) 0
    let four := fmtClass f == 3
    let cols := if role = 0 then (if four then 2 * nLen else nLen) else rowElems f
    let els := (List.range (if role = 0 && four then cdiv n 2 else n)).map fun i => (List.range (rowElems f)).map fun e =>
      if e < cols then (src >>> srcBit f role i e) % 2 ^ fmtBits f else 0
    let v := varTileBits f els
    Ready c .pack w w1 s ∧ upperZero (rdS k (lRa w)) = true ∧ upperZero (rdS k (lRb w)) = true ∧ upperZero (rdS k (lRc w))
      = true ∧ upperZero (rdS k (lRn w)) = true ∧ arrayFmt f = true ∧ ((bitOf w1 6 = true → fmtClass f ≠ 0)) ∧ bitOf w1 6
      = false ∧ 0 < n ∧ n ≤ (if role = 0 then rowElems f else 1048575) ∧ ((role = 0 → 0 < nLen ∧ nLen ≤ 64)) ∧ runCheck s
      c (lSa w) a lines = 0 ∧ writeCheck s c k.nextSeq (lSc w) cc (packedLines dense) = 0 ∧ r.2.1 = false ∧ v.2 / 8 ≤
      dense) ∧
  (∃ (c : CoreId) (w : Word) (w1 : Word) (s : State),
    let k := s.core c
    let u := issued c .pack w w1 s
    let a := low32 (rdS k (lRa w))
    let cc := low32 (rdS k (lRc w))
    let n := low32 (rdS k (lRn w))
    let f := fld w1 4 0
    let role := fld w1 5 5
    let nLen := fld w1 13 7
    let dense := densePayload f role n
    let lines := srcLines f role n
    let r := shelfReadN c (lSa w) a 7 lines u
    let src := r.1.foldr (fun l acc => l.data.toNat + 2 ^ 512 * acc) 0
    let four := fmtClass f == 3
    let cols := if role = 0 then (if four then 2 * nLen else nLen) else rowElems f
    let els := (List.range (if role = 0 && four then cdiv n 2 else n)).map fun i => (List.range (rowElems f)).map fun e =>
      if e < cols then (src >>> srcBit f role i e) % 2 ^ fmtBits f else 0
    let v := varTileBits f els
    Ready c .pack w w1 s ∧ upperZero (rdS k (lRa w)) = true ∧ upperZero (rdS k (lRb w)) = true ∧ upperZero (rdS k (lRc w))
      = true ∧ upperZero (rdS k (lRn w)) = true ∧ arrayFmt f = true ∧ ((bitOf w1 6 = true → fmtClass f ≠ 0)) ∧ bitOf w1 6
      = false ∧ 0 < n ∧ n ≤ (if role = 0 then rowElems f else 1048575) ∧ ((role = 0 → 0 < nLen ∧ nLen ≤ 64)) ∧ runCheck s
      c (lSa w) a lines = 0 ∧ writeCheck s c k.nextSeq (lSc w) cc (packedLines dense) = 0 ∧ r.2.1 = false ∧ dense < v.2 /
      8) ∧
  (∃ (c : CoreId) (w : Word) (w1 : Word) (s : State),
    let k := s.core c
    let f := fld w1 4 0
    Ready c .pack w w1 s ∧ upperZero (rdS k (lRa w)) = true ∧ upperZero (rdS k (lRb w)) = true ∧ upperZero (rdS k (lRc w))
      = true ∧ upperZero (rdS k (lRn w)) = true ∧ arrayFmt f = true ∧ ((bitOf w1 6 = true → fmtClass f ≠ 0)) ∧ bitOf w1 6
      = true) :=
   ⟨⟨0, 0x41881000104214, 0x2003, (at0
     ({ rk [(2, 16), (3, 1)] with spad := ((List.range 32).map fun i => put (64 + i) 0) }) 0x41881000104214 0x2003),
      by (conv => zeta); exact ⟨ready_atx _ _ _ _ _ _ _ _ (by decide +kernel), by decide +kernel⟩⟩,
   ⟨0, 0x41881000104214, 0x2003, (at0
     ({ rk [(2, 16), (3, 1)] with spad := ((List.range 32).map fun i => put (64 + i) (-1)) }) 0x41881000104214 0x2003),
      by (conv => zeta); exact ⟨ready_atx _ _ _ _ _ _ _ _ (by decide +kernel), by decide +kernel⟩⟩,
   ⟨0, 0x41881000104214, 0x43, (at0 (rk [(3, 1)]) 0x41881000104214 0x43),
      by (conv => zeta); exact ⟨ready_atx _ _ _ _ _ _ _ _ (by decide +kernel), by decide +kernel⟩⟩⟩

theorem wit_MatchResults :
  (∃ (c : CoreId) (w : Word) (w1 : Word) (s : State),
    let k := s.core c
    let a := low32 (rdS k (lRa w))
    let n := low32 (rdS k (lRn w))
    let split := lOptB w 1
    let u := issued c .matchLoad w w1 s
    let r := shelfReadN c (lSa w) a 7 (cdiv n 8) u
    (Ready c .matchLoad w w1 s) ∧ upperZero (rdS k (lRa w)) = true ∧ upperZero (rdS k (lRn w)) = true ∧ n ≤ (if split then
      256 else 1024) ∧ runCheck s c (lSa w) a (cdiv n 8) = 0 ∧ r.2.1 = false) ∧
  (∃ (c : CoreId) (w : Word) (w1 : Word) (s : State),
    let k := s.core c
    let a := low32 (rdS k (lRa w))
    let cc := low32 (rdS k (lRc w))
    let n := low32 (rdS k (lRn w))
    let split := lOptB w 1
    let u := issued c .matchProbe w w1 s
    let o := issuedOp c .matchProbe w w1 s
    let d := fld w1 20 0
    let r := probeGroup c o (k.cam.groups.flatMap (·.2)) a n d u
    (Ready c .matchProbe w w1 s) ∧ upperZero (rdS k (lRa w)) = true ∧ upperZero (rdS k (lRc w)) = true ∧ upperZero (rdS k
      (lRn w)) = true ∧ 0 < n ∧ n ≤ 1048576 ∧ split = false ∧ runCheck s c (lSa w) a (cdiv n 8) = 0 ∧ writeCheck s c
      k.nextSeq (lSc w) cc d = 0 ∧ r.1.ecc = false) ∧
  (∃ (c : CoreId) (w : Word) (w1 : Word) (s : State),
    let k := s.core c
    let a := low32 (rdS k (lRa w))
    let cc := low32 (rdS k (lRc w))
    let n := low32 (rdS k (lRn w))
    let split := lOptB w 1
    let u := issued c .matchProbe w w1 s
    let o := issuedOp c .matchProbe w w1 s
    let d := fld w1 20 0
    let stride := fld w1 41 21
    let q := probeSplit c o k.cam n d stride (List.range 4) u
    (Ready c .matchProbe w w1 s) ∧ upperZero (rdS k (lRa w)) = true ∧ upperZero (rdS k (lRc w)) = true ∧ upperZero (rdS k
      (lRn w)) = true ∧ 0 < n ∧ n ≤ 1048576 ∧ split = true ∧ ((∀ g, g < 4 → (sget g k.cam.groups).isSome = true → runCheck
      s c (lSa w) (a + g * stride) (cdiv n 8) = 0 ∧ writeCheck s c k.nextSeq (lSc w) (cc + g * d) d = 0)) ∧ ((∀ p, p ∈ q.1
      → p.2.ecc = false))) :=
   ⟨⟨0, 0x180000010421c, 0, (at0 ({ rk [(3, 8)] with spad := ((List.range 32).map fun i => put (64 + i) 0) })
     0x180000010421c 0),
      by (conv => zeta); decide +kernel⟩,
   ⟨0, 0x24188100010421c, 1, (at0
     ({ rk [(2, 16), (3, 8)] with spad := ((List.range 32).map fun i => put (64 + i) 0), cam := (⟨1, [(0, [⟨0, 0, false⟩])], []⟩) })
     0x24188100010421c 1),
      by (conv => zeta); decide +kernel⟩,
   ⟨0, 0x64188100010421c, 0x200001, (at0
     ({ rk [(2, 16), (3, 8)] with spad := ((List.range 32).map fun i => put (64 + i) 0), cam := (⟨2, [(3, [⟨0, 0, false⟩])], []⟩) })
     0x64188100010421c 0x200001),
      by (conv => zeta); decide +kernel⟩⟩

theorem wit_PredGateResults :
  (∃ (c : CoreId) (w : Word) (w1 : Word) (s : State),
    let k := s.core c
    let u := issued c .predGate w w1 s
    let a := low32 (rdS k (lRa w))
    let n := low32 (rdS k (lRn w))
    let thr := (rdS k (fld w1 24 20)).toNat
    let f := fld w1 4 0
    let ng := fld w1 11 5
    let gate := fld w1 17 12
    let rl := cdiv (ng * fmtBits f) 512
    let q := scoreRows c (issuedOp c .predGate w w1 s) f thr ng rl n 0 u
    let inFallback := bitOf (u.reg (Reg.GATE_STAT + 0x200 * k.slot + 8 * gate)) 63
    Ready c .predGate w w1 s ∧ upperZero (rdS k (lRa w)) = true ∧ upperZero (rdS k (lRn w)) = true ∧ n ≤ 1024 ∧ scoreFmt f
      = true ∧ thr < 2 ^ fmtBits f ∧ 0 < ng ∧ ng ≤ 64 ∧ bitOf (gateCfg s k.slot gate) 0 = true ∧ runCheck s c (lSa w) a (n
      * rl) = 0 ∧ q.2.1 = false ∧ inFallback = true) ∧
  (∃ (c : CoreId) (w : Word) (w1 : Word) (s : State),
    let k := s.core c
    let u := issued c .predGate w w1 s
    let a := low32 (rdS k (lRa w))
    let n := low32 (rdS k (lRn w))
    let thr := (rdS k (fld w1 24 20)).toNat
    let f := fld w1 4 0
    let ng := fld w1 11 5
    let gate := fld w1 17 12
    let rl := cdiv (ng * fmtBits f) 512
    let q := scoreRows c (issuedOp c .predGate w w1 s) f thr ng rl n 0 u
    let inFallback := bitOf (u.reg (Reg.GATE_STAT + 0x200 * k.slot + 8 * gate)) 63
    Ready c .predGate w w1 s ∧ upperZero (rdS k (lRa w)) = true ∧ upperZero (rdS k (lRn w)) = true ∧ n ≤ 1024 ∧ scoreFmt f
      = true ∧ thr < 2 ^ fmtBits f ∧ 0 < ng ∧ ng ≤ 64 ∧ bitOf (gateCfg s k.slot gate) 0 = true ∧ runCheck s c (lSa w) a (n
      * rl) = 0 ∧ q.2.1 = false ∧ inFallback = false) :=
   ⟨⟨0, 0x4180000010420c, 0x800, (atx 0 0x2001000100001 [(Reg.GATE_CFG, 1)] [(Reg.GATE_STAT, 0x8000000000000000)]
     ({ rk [(3, 1)] with spad := ((List.range 32).map fun i => put (64 + i) 0) }) 0x4180000010420c 0x800),
      by (conv => zeta); exact ⟨ready_atx _ _ _ _ _ _ _ _ (by decide +kernel), by decide +kernel⟩⟩,
   ⟨0, 0x4180000010420c, 0x800, (atx 0 0x2001000100001 [(Reg.GATE_CFG, 1)] []
     ({ rk [(3, 1)] with spad := ((List.range 32).map fun i => put (64 + i) 0) }) 0x4180000010420c 0x800),
      by (conv => zeta); exact ⟨ready_atx _ _ _ _ _ _ _ _ (by decide +kernel), by decide +kernel⟩⟩⟩

theorem wit_ScatterResults :
  (∃ (c : CoreId) (w : Word) (w1 : Word) (s : State), Ready c .scaInit w w1 s ∧ 0 < fld w 38 32 ∧ fld w 38 32 ≤ 64 ∧
    runCheck s c (fld w 29 24) 0 1 = 0) ∧
  (∃ (c : CoreId) (w : Word) (w1 : Word) (s : State),
    let k := s.core c
    let a := low32 (rdS k (lRa w))
    let n := low32 (rdS k (lRn w))
    let sca := k.sca
    let u := issued c .scaAdd w w1 s
    let o := issuedOp c .scaAdd w w1 s
    let r := scaPairs c o n a ⟨[], none, 0⟩ u
    Ready c .scaAdd w w1 s ∧ upperZero (rdS k (lRa w)) = true ∧ upperZero (rdS k (lRn w)) = true ∧ n ≤ 1048575 ∧ sca.init
      = true ∧ runCheck s c (lSa w) a (n * scaLin sca.lanes) = 0 ∧ ((0 < n → writeCheck s c k.nextSeq sca.shelf 0 1 = 0))
      ∧ r.1.trap = 0) ∧
  (∃ (c : CoreId) (w : Word) (w1 : Word) (s : State),
    let k := s.core c
    let cc := low32 (rdS k (lRc w))
    let sca := k.sca
    let u := issued c .scaDrain w w1 s
    let keys := sca.keys.length
    let t := writeRange c (lSc w) 7 (fun _ => sca.poisoned) (cdiv keys 8 + 1) cc 0 0 (64 * keys) (packEls 64 (sca.keys.map
      (·.key))) u
    Ready c .scaDrain w w1 s ∧ upperZero (rdS k (lRc w)) = true ∧ sca.init = true ∧ writeCheck s c k.nextSeq (lSc w) cc
      (cdiv keys 8) = 0 ∧ t.1 = false) :=
   ⟨⟨0, 0x4001000044, 0, (at0 (CoreSt.reset) 0x4001000044 0),
      by exact ⟨ready_atx _ _ _ _ _ _ _ _ (by decide +kernel), by decide +kernel⟩⟩,
   ⟨0, 0x180000010424c, 0, (at0
     ({ rk [(3, 1)] with spad := ((List.range 32).map fun i => put (64 + i) 0), sca := (⟨true, false, 1, 1, false, [], 0, 0⟩) })
     0x180000010424c 0),
      by (conv => zeta); exact ⟨ready_atx _ _ _ _ _ _ _ _ (by decide +kernel), by decide +kernel⟩⟩,
   ⟨0, 0x1d0081000000254, 0, (at0
     ({ rk [] with spad := ((List.range 32).map fun i => put (64 + i) 0), sca := (⟨true, false, 1, 1, false, [], 0, 0⟩) })
     0x1d0081000000254 0),
      by (conv => zeta); exact ⟨ready_atx _ _ _ _ _ _ _ _ (by decide +kernel), by decide +kernel⟩⟩⟩

theorem wit_SelectResults :
  (∃ (c : CoreId) (w : Word) (w1 : Word) (s : State),
    let k := s.core c
    let a := low32 (rdS k (lRa w))
    let cc := low32 (rdS k (lRc w))
    let n := low32 (rdS k (lRn w))
    let f := fld w1 4 0
    let l := fld w1 29 5
    let kk := fld w1 42 30
    Ready c .topk w w1 s ∧ ((upperZero (rdS k (lRa w)) = true ∧ upperZero (rdS k (lRc w)) = true ∧ upperZero (rdS k (lRn
      w)) = true)) ∧ n ≤ 1048575 ∧ 0 < kk ∧ kk ≤ 4096 ∧ 0 < l ∧ l ≤ 2 ^ 24 ∧ selectFmt f = true ∧ runCheck s c (lSa w) a
      (n * cdiv (l * fmtBits f) 512) = 0 ∧ writeCheck s c k.nextSeq (lSc w) cc (n * blockLines kk) = 0) ∧
  (∃ (c : CoreId) (w : Word) (w1 : Word) (s : State),
    let k := s.core c
    let a := low32 (rdS k (lRa w))
    let cc := low32 (rdS k (lRc w))
    let n := low32 (rdS k (lRn w))
    let f := fld w1 4 0
    let ki := fld w1 17 5
    let ko := fld w1 42 30
    Ready c .merge w w1 s ∧ ((upperZero (rdS k (lRa w)) = true ∧ upperZero (rdS k (lRc w)) = true ∧ upperZero (rdS k (lRn
      w)) = true)) ∧ 0 < n ∧ n ≤ 64 ∧ 0 < ki ∧ ki ≤ 4096 ∧ 0 < ko ∧ ko ≤ 4096 ∧ selectFmt f = true ∧ runCheck s c (lSa w)
      a (n * blockLines ki) = 0 ∧ writeCheck s c k.nextSeq (lSc w) cc (blockLines ko) = 0) ∧
  (∃ (c : CoreId) (m : Msg) (rest : List Msg) (a : Active) (s : State), domRun s 40 = true ∧ s.smu.length < 64 ∧ takeFirst
    (fun m : Msg => m.kind == .smuWork) s.net = some (m, rest) ∧ m.src = .core c ∧ findActive (s.core c) m.seq = some a) ∧
  (∃ (i : Nat) (k : SmuCtx) (a : Active) (errs : List LineErr) (s : State),
    let ls := smuChecked k.core errs k.lines
    let u := strike errs s
    let r := resolveTopk k.core a.op k.row ls u
    s.smu[i]? = some k ∧ domRun s 40 = true ∧ findActive (s.core k.core) k.seq = some a ∧ a.op.mn = .topk ∧ r.1.trap = 0) ∧
  (∃ (i : Nat) (k : SmuCtx) (a : Active) (errs : List LineErr) (s : State),
    let ls := smuChecked k.core errs k.lines
    let u := strike errs s
    let r := resolveMerge k.core a.op ls u
    s.smu[i]? = some k ∧ domRun s 40 = true ∧ findActive (s.core k.core) k.seq = some a ∧ a.op.mn = .merge ∧ r.1.trap = 0) ∧
  (∃ (i : Nat) (k : SmuCtx) (a : Active) (errs : List LineErr) (s : State),
    let ls := smuChecked k.core errs k.lines
    let u := strike errs s
    let r := if a.op.mn = .topk then resolveTopk k.core a.op k.row ls u else resolveMerge k.core a.op ls u
    s.smu[i]? = some k ∧ domRun s 40 = true ∧ findActive (s.core k.core) k.seq = some a ∧ r.1.trap ≠ 0) :=
   ⟨⟨0, 0x188100010420d, 0x200000200, (at0 (rk [(2, 16), (3, 1)]) 0x188100010420d 0x200000200),
      by (conv => zeta); exact ⟨ready_atx _ _ _ _ _ _ _ _ (by decide +kernel), by decide +kernel⟩⟩,
   ⟨0, 0x1881000104215, 0x200000100, (at0 (rk [(2, 16), (3, 2)]) 0x1881000104215 0x200000100),
      by (conv => zeta); exact ⟨ready_atx _ _ _ _ _ _ _ _ (by decide +kernel), by decide +kernel⟩⟩,
   ⟨0, ({ kind := .smuWork, src := .core 0, dst := .smu }), ([]), (⟨⟨.topk, 5, 0, 0, 0x100000420d, 0x200000200, 0, 0, 16,
     1, 0, 0, true, true⟩, [], 1, []⟩),
     ({ sr [(Reg.PWR_DOM_STAT + 320, 0)] with net := ([{ kind := .smuWork, src := .core 0, dst := .smu }]), cores := State.reset.cores.set 0 { CoreSt.reset with active := [⟨⟨.topk, 5, 0, 0, 0x100000420d, 0x200000200, 0, 0, 16, 1, 0, 0, true, true⟩, [], 1, []⟩] } }),
      by decide +kernel⟩,
   ⟨0, (⟨0, 0, 0, List.replicate 16 ⟨0, false⟩⟩), (⟨⟨.topk, 5, 0, 0, 0x100000420d, 0x200000200, 0, 0, 16, 1, 0, 0, true,
     true⟩, [], 1, []⟩), ([⟨0, .sent 3, true⟩]),
     ({ atx 0 0x2001000100001 [] [(Reg.PWR_DOM_STAT + 320, 0)] ({ rk [] with spad := ((List.range 32).map fun i => put (64 + i) 0), active := ([⟨⟨.topk, 5, 0, 0, 0x100000420d, 0x200000200, 0, 0, 16, 1, 0, 0, true, true⟩, [], 1, []⟩]) }) 0 0 with smu := ([⟨0, 0, 0, List.replicate 16 ⟨0, false⟩⟩]) }),
      by (conv => zeta); decide +kernel⟩,
   ⟨0, (⟨0, 0, 0, List.replicate 16 ⟨0x800000000, false⟩⟩), (⟨⟨.merge, 5, 0, 0, 0x1000004215, 0x200000100, 0, 0, 16, 1, 0,
     0, true, true⟩, [], 1, []⟩), ([⟨0, .sent 3, true⟩]),
     ({ atx 0 0x2001000100001 [] [(Reg.PWR_DOM_STAT + 320, 0)] ({ rk [] with spad := ((List.range 32).map fun i => put (64 + i) 0), active := ([⟨⟨.merge, 5, 0, 0, 0x1000004215, 0x200000100, 0, 0, 16, 1, 0, 0, true, true⟩, [], 1, []⟩]) }) 0 0 with smu := ([⟨0, 0, 0, List.replicate 16 ⟨0x800000000, false⟩⟩]) }),
      by (conv => zeta); decide +kernel⟩,
   ⟨0, (⟨0, 0, 0, List.replicate 16 ⟨(-1), false⟩⟩), (⟨⟨.merge, 5, 0, 0, 0x1000004215, 0x200000100, 0, 0, 16, 1, 0, 0,
     true, true⟩, [], 1, []⟩), ([]),
     ({ atx 0 0x2001000100001 [] [(Reg.PWR_DOM_STAT + 320, 0)] ({ rk [] with spad := ((List.range 32).map fun i => put (64 + i) 0), active := ([⟨⟨.merge, 5, 0, 0, 0x1000004215, 0x200000100, 0, 0, 16, 1, 0, 0, true, true⟩, [], 1, []⟩]) }) 0 0 with smu := ([⟨0, 0, 0, List.replicate 16 ⟨(-1), false⟩⟩]) }),
      by (conv => zeta); decide +kernel⟩⟩

theorem wit_TimeBaseResults :
  (∃ (s : State), bitOf (s.reg Reg.TIME_STAT) 0 = false ∧ s.regF Reg.TIME_STEP_NS 29 0 < 1000000000) ∧
  (∃ (s : State),
    let n : Int := (s.nowNs : Int) + sfld (s.reg Reg.TIME_STEP_SEC) 47 0 * 1000000000 + s.regF Reg.TIME_STEP_NS 29 0
    bitOf (s.reg Reg.TIME_STAT) 0 = false ∧ s.regF Reg.TIME_STEP_NS 29 0 < 1000000000 ∧ 0 ≤ n ∧ n < 2 ^ 48 * 1000000000) ∧
  (∃ (s : State), bitOf (s.reg Reg.TIME_STAT) 0 = true) ∧
  (∃ (r : Requester), coreDenied r Reg.TIME_NOW_SEC false = none ∧ ((∀ f, r ≠ .vf f))) :=
   ⟨⟨(sr [(Reg.TIME_STEP_NS, 999999999)]), by decide +kernel⟩,
   ⟨(sr [(Reg.TIME_STEP_NS, 999999999)]), by (conv => zeta); decide +kernel⟩,
   ⟨(sr [(Reg.TIME_STAT, 1)]), by decide +kernel⟩,
   ⟨.pf, by exact ⟨by decide +kernel, by intro f h; cases h⟩⟩⟩

theorem wit_TimedPinResults :
  (∃ (s : State) (i : Idx4) (t : Nat) (k : Bool) (r : List (Nat × Bool)), (s.pin i).edges = (t, k) :: r ∧ t ≤ s.nowNs ∧
    edgeLate s i (t, k) = false) ∧
  (∃ (s : State) (i : Idx4) (t : Nat) (k : Bool) (r : List (Nat × Bool)), (s.pin i).edges = (t, k) :: r ∧ s.nowNs < t) ∧
  (∃ (s : State) (i : Idx4) (t : Nat), (s.pin i).ends = some t ∧
    ((match toutNext s i with | some n => if n ≤ t then n - 8 else t | none => t) ≤ s.nowNs)) ∧
  (∃ (v : Word), fld v 2 0 ≤ 4) ∧
  (∃ (s : State) (i : Idx4),
    let p : ToutPin :=
      { cfg := (s.reg (toutOff Reg.TOUT_CFG i)).truncate 32, start := s.regF (toutOff Reg.TOUT_TIME_SEC i) 47 0 * 1000000000 + s.regF (toutOff Reg.TOUT_TIME_NS i) 29 0, period := s.regF (toutOff Reg.TOUT_PERIOD_NS i) 31 0, wrote := false, edges := [], ends := none }
    ((∀ j : Idx4, (s.pin j).wrote = decide (j = i))) ∧ fld p.cfg 2 0 ≠ 1 ∧ fld p.cfg 2 0 ≠ 2) ∧
  (∃ (s : State) (i : Idx4),
    let u := (s.modTime fun t => t.advance s.rateAct).setReg Reg.TIME_RATE_ACT (s.reg Reg.TIME_RATE)
    let p : ToutPin :=
      { cfg := (s.reg (toutOff Reg.TOUT_CFG i)).truncate 32, start := s.regF (toutOff Reg.TOUT_TIME_SEC i) 47 0 * 1000000000 + s.regF (toutOff Reg.TOUT_TIME_NS i) 29 0, period := s.regF (toutOff Reg.TOUT_PERIOD_NS i) 31 0, wrote := false, edges := [], ends := none }
    ((∀ j : Idx4, (s.pin j).wrote = decide (j = i))) ∧ (fld p.cfg 2 0 = 1 ∨ fld p.cfg 2 0 = 2) ∧ u.nowNs ≤ p.start) ∧
  (∃ (s : State) (j : Fin 2) (rising : Bool), bitOf (s.reg (Reg.TIN_CFG + 0x40 * j.val)) (if rising then 0 else 1) = true
    ∧ frameOn s = false ∧ (s.caps j).length < 4 ∧ 4 ≤ s.nowNs) ∧
  (∃ (s : State) (j : Fin 2) (rising : Bool), bitOf (s.reg (Reg.TIN_CFG + 0x40 * j.val)) (if rising then 0 else 1) = true
    ∧ frameOn s = false ∧ 4 ≤ (s.caps j).length) ∧
  (∃ (s : State) (j : Fin 2) (x : Nat × Nat) (r : List (Nat × Nat)), s.caps j = x :: r) ∧
  (∃ (s : State) (j : Fin 2), s.caps j = []) :=
   ⟨⟨({ sr [] with time := ({ TimeSt.reset with pins := TimeSt.reset.pins.set 3 ⟨0, 0, 0, false, [(0, false)], none⟩ }) }),
     3, 0, false, ([]),
      by decide +kernel⟩,
   ⟨({ sr [] with time := ({ TimeSt.reset with pins := TimeSt.reset.pins.set 3 ⟨0, 0, 0, false, [(1, false)], none⟩ }) }),
     3, 1, false, ([]),
      by decide +kernel⟩,
   ⟨({ sr [] with time := ({ TimeSt.reset with pins := TimeSt.reset.pins.set 3 ⟨0, 0, 0, false, [], some 0⟩ }) }), 3, 0,
      by decide +kernel⟩,
   ⟨4, by decide +kernel⟩,
   ⟨({ sr [] with time := ({ TimeSt.reset with pins := TimeSt.reset.pins.set 3 ⟨3, 0, 0, true, [], none⟩ }) }), 3,
      by (conv => zeta); decide +kernel⟩,
   ⟨({ sr [(Reg.TOUT_CFG + 0xC0, 1), (Reg.TOUT_TIME_NS + 0xC0, 2)] with time := ({ TimeSt.reset with pins := TimeSt.reset.pins.set 3 ⟨0, 0, 0, true, [], none⟩ }) }),
     3,
      by (conv => zeta); decide +kernel⟩,
   ⟨({ sr [(Reg.TIN_CFG + 0x40, 2)] with time := ({ TimeSt.reset with ns := 4, caps := TimeSt.reset.caps.set 1 [(0, 0), (0, 0), (0, 0)] }) }),
     1, false,
      by decide +kernel⟩,
   ⟨({ sr [(Reg.TIN_CFG + 0x40, 2)] with time := ({ TimeSt.reset with ns := 4, caps := TimeSt.reset.caps.set 1 [(0, 0), (0, 0), (0, 0), (0, 0)] }) }),
     1, false,
      by decide +kernel⟩,
   ⟨({ sr [(Reg.TIN_CFG + 0x40, 2)] with time := ({ TimeSt.reset with ns := 4, caps := TimeSt.reset.caps.set 1 [(0, 0)] }) }),
     1, ((0, 0)), ([]),
      by decide +kernel⟩,
   ⟨State.reset, 1, by decide +kernel⟩⟩

theorem wit_FenceSourceResults :
  (∃ (s : State) (d : _),
    let early := match s.time.lastFence with
      | some f => decide (s.time.cyc < f + 5000000)
      | none => false
    ((frameOn s = true ∧ isSafe s = false)) ∧ frameSrc s = 0 ∧ s.time.due = some d ∧ d ≤ s.time.cyc ∧ early = false) ∧
  (∃ (s : State) (j : Fin 2),
    let early := match s.time.lastFence with
      | some f => decide (s.time.cyc < f + 5000000)
      | none => false
    ((frameOn s = true ∧ isSafe s = false)) ∧ frameSrc s = 1 + j.val ∧ tinSelects s j true = false ∧ early = false) ∧
  (∃ (s : State) (j : Fin 2),
    let early := match s.time.lastFence with
      | some f => decide (s.time.cyc < f + 5000000)
      | none => false
    ((frameOn s = true ∧ isSafe s = false)) ∧ frameSrc s = 1 + j.val ∧ tinSelects s j true = false ∧ early = true) ∧
  (∃ (s : State),
    let early := match s.time.lastFence with
      | some f => decide (s.time.cyc < f + 5000000)
      | none => false
    ((frameOn s = true ∧ isSafe s = false)) ∧ frameSrc s = 4 ∧ early = false) ∧
  (∃ (s : State), frameSrc s ≠ 4) ∧
  (∃ (s : State) (p : Idx4) (m : Msg) (u : State),
    let early := match s.time.lastFence with
      | some f => decide (s.time.cyc < f + 5000000)
      | none => false
    takeFence p s = some (m, u) ∧ ((frameOn s = true ∧ isSafe s = false)) ∧ frameSrc s = 3 ∧ s.actF Reg.FRAME_SRC 4 3 =
      p.val ∧ early = false) ∧
  (∃ (s : State), ((frameOn s = true ∧ isSafe s = false)) ∧ frameSrc s ≠ 0 ∧ missBase s + 500000000 ≤ s.time.cyc) ∧
  (∃ (s : State) (d : _), ((frameOn s = true ∧ isSafe s = false)) ∧ frameSrc s = 0 ∧ s.time.due = some d ∧ s.time.cyc < d
    ∧ d ≤ s.time.cyc + (s.reg Reg.FRAME_GUARD).toNat) ∧
  (∃ (s : State), frameOn s = false) ∧
  (∃ (s : State), frameOn s = true) ∧
  (∃ (s : State), frameOn s = false ∧ (s.frames.toList.any fun l => !l.isEmpty) = false) ∧
  (∃ (s : State), (frameOn s = true ∨ (s.frames.toList.any fun l => !l.isEmpty) = true)) ∧
  (∃ (s : State), handoverOwed s = false) :=
   ⟨⟨({ sa [(Reg.FRAME_CTRL, 1)] [(Reg.FRAME_SRC, 0)] with time := (tm 5000000 (some 0) (some 5000000)), net := ([]) }),
     5000000,
      by (conv => zeta); decide +kernel⟩,
   ⟨({ sa [(Reg.FRAME_CTRL, 1)] [(Reg.FRAME_SRC, 2)] with time := (tm 5000000 (some 0) none), net := ([]) }), 1,
      by (conv => zeta); decide +kernel⟩,
   ⟨({ sa [(Reg.FRAME_CTRL, 1)] [(Reg.FRAME_SRC, 2)] with time := (tm 4999999 (some 0) none), net := ([]) }), 1,
      by (conv => zeta); decide +kernel⟩,
   ⟨({ sa [(Reg.FRAME_CTRL, 1)] [(Reg.FRAME_SRC, 4)] with time := (tm 5000000 (some 0) none), net := ([]) }),
      by (conv => zeta); decide +kernel⟩,
   ⟨State.reset, by decide +kernel⟩,
   ⟨({ sa [(Reg.FRAME_CTRL, 1)] [(Reg.FRAME_SRC, 27)] with time := (tm 0 none none), net := ([{ kind := .fence, src := .sys, dst := .sys, addr := 3 }]) }),
     3, ({ kind := .fence, src := .sys, dst := .sys, addr := 3 }),
     ({ sa [(Reg.FRAME_CTRL, 1)] [(Reg.FRAME_SRC, 27)] with time := (tm 0 none none), net := ([]) }),
      by (conv => zeta); exact ⟨rfl, by decide +kernel⟩⟩,
   ⟨({ sa [(Reg.FRAME_CTRL, 1)] [(Reg.FRAME_SRC, 1)] with time := (tm 500000000 none none), net := ([]) }),
      by decide +kernel⟩,
   ⟨({ sa [(Reg.FRAME_CTRL, 1), (Reg.FRAME_GUARD, 5)] [(Reg.FRAME_SRC, 0)] with time := (tm 5 none (some 10)), net := ([]) }),
     10,
      by decide +kernel⟩,
   ⟨State.reset, by decide +kernel⟩,
   ⟨(sr [(Reg.FRAME_CTRL, 1)]), by decide +kernel⟩,
   ⟨State.reset, by decide +kernel⟩,
   ⟨(sr [(Reg.FRAME_CTRL, 1)]), by decide +kernel⟩,
   ⟨State.reset, by decide +kernel⟩⟩

theorem wit_FenceInstantEffects :
  (∃ (k : CoreSt), k.issue ≠ .unplaced) ∧
  (∃ (k : CoreSt) (t : _), k.issue ≠ .unplaced ∧ t < 16) :=
   ⟨⟨({ CoreSt.reset with issue := .running }), by decide +kernel⟩,
   ⟨({ CoreSt.reset with issue := .running }), 15, by decide +kernel⟩⟩

theorem wit_MemoryControlResults :
  (∃ (s : State), s.mem.training = none) ∧
  (∃ (s : State), s.mem.training.isSome = true) ∧
  (∃ (s : State) (cfg : _), s.mem.training = some cfg) ∧
  (∃ (s : State) (cfg : _), s.mem.training = some cfg ∧ bitOf cfg 0 = false) ∧
  (∃ (s : State),
    let b := s.regF Reg.MEM_FILL_BASE 39 0
    let n := s.regF Reg.MEM_FILL_LINES 29 0
    bitOf (s.reg Reg.MEM_STAT) 16 = false ∧ bitOf (s.reg Reg.MEM_STAT) 0 = true ∧ b % 64 = 0 ∧ 0 < n ∧ b + 64 * n ≤
      memBytes s) ∧
  (∃ (s : State), bitOf (s.reg Reg.MEM_STAT) 16 = true ∧ s.mem.training = none) ∧
  (∃ (s : State), bitOf (s.reg Reg.MEM_SCRUB_CFG) 0 = true ∧ 0 < memBytes s ∧ memHeld s (64 * s.mem.scrubPos) 1 = false) :=
   ⟨⟨State.reset, by decide +kernel⟩,
   ⟨({ sr [] with mem := ({ State.reset.mem with training := some 0 }) }), by decide +kernel⟩,
   ⟨({ sr [] with mem := ({ State.reset.mem with training := some 0 }) }), 0, by decide +kernel⟩,
   ⟨({ sr [] with mem := ({ State.reset.mem with training := some 0xFFFFFFFE }) }), 0xFFFFFFFE, by decide +kernel⟩,
   ⟨({ sr [(Reg.MEM_STAT, 1), (Reg.MEM_FILL_BASE, 64), (Reg.MEM_FILL_LINES, 67108863)] with mem := ({ State.reset.mem with capGib := 4 }) }),
      by (conv => zeta); decide +kernel⟩,
   ⟨(sr [(Reg.MEM_STAT, 0x10000)]), by decide +kernel⟩,
   ⟨({ sr [(Reg.MEM_SCRUB_CFG, 1), (Reg.PWR_DOM_STAT + 8 * 41, 0), (Reg.PWR_DOM_STAT + 8 * 42, 0)] with mem := ({ State.reset.mem with capGib := 4 }) }),
      by decide +kernel⟩⟩

theorem wit_MemoryLineResults :
  (∃ (src : Agent) (m : Msg) (s : State) (u : State) (l : _), s.mem.training = none ∧ m.addr < memBytes s ∧ memHeld s
    m.addr 1 = false ∧ s.receive .memRead src .mem = some (m, u) ∧ sget (m.addr / 64) s.mem.lines = some l) ∧
  (∃ (src : Agent) (m : Msg) (s : State) (u : State), s.mem.training = none ∧ m.addr < memBytes s ∧ memHeld s m.addr 1 =
    false ∧ s.receive .memRead src .mem = some (m, u) ∧ sget (m.addr / 64) s.mem.lines = none) ∧
  (∃ (src : Agent) (m : Msg) (s : State) (u : State), s.mem.training = none ∧ m.addr < memBytes s ∧ memHeld s m.addr 1 =
    false ∧ s.receive .memWrite src .mem = some (m, u) ∧ tagFails (saltAddr m.addr) m.line = false) ∧
  (∃ (src : Agent) (m : Msg) (s : State) (u : State) (a : _), s.mem.training = none ∧ m.addr < memBytes s ∧ memHeld s
    m.addr 1 = false ∧ s.receive .memWrite src .mem = some (m, u) ∧ tagFails (saltAddr m.addr) m.line = false ∧ a ≠ m.addr
    / 64) ∧
  (∃ (src : Agent) (m : Msg) (s : State) (u : State), s.mem.training = none ∧ m.addr < memBytes s ∧ memHeld s m.addr 1 =
    false ∧ s.receive .memWrite src .mem = some (m, u) ∧ tagFails (saltAddr m.addr) m.line = true ∧ m.disc = false) ∧
  (∃ (m : Msg) (s : State) (r : Msg), s.mem.training = none ∧ m.addr < memBytes s ∧ memHeld s m.addr 1 = false ∧ ((∀ x y
    c, r.dst ≠ .dev x y c))) :=
   ⟨⟨(.core 0), ({ kind := .memRead, src := .core 0, dst := .mem, addr := 0xFFFFFFC0, line := (⟨0, 0⟩) }),
     ({ sr [(Reg.PWR_DOM_STAT + 8 * 41, 0), (Reg.PWR_DOM_STAT + 8 * 42, 0)] with mem := ({ State.reset.mem with capGib := 4, lines := [(67108863, ⟨5, 0⟩)] }), net := ([{ kind := .memRead, src := .core 0, dst := .mem, addr := 0xFFFFFFC0, line := (⟨0, 0⟩) }]) }),
     ({ sr [(Reg.PWR_DOM_STAT + 8 * 41, 0), (Reg.PWR_DOM_STAT + 8 * 42, 0)] with mem := ({ State.reset.mem with capGib := 4, lines := [(67108863, ⟨5, 0⟩)] }), net := ([]) }),
     (⟨5, 0⟩),
      by refine ⟨?_, ?_, ?_, rfl, ?_⟩ <;> decide +kernel⟩,
   ⟨(.core 0), ({ kind := .memRead, src := .core 0, dst := .mem, addr := 0xFFFFFFC0, line := (⟨0, 0⟩) }),
     ({ sr [(Reg.PWR_DOM_STAT + 8 * 41, 0), (Reg.PWR_DOM_STAT + 8 * 42, 0)] with mem := ({ State.reset.mem with capGib := 4, lines := [] }), net := ([{ kind := .memRead, src := .core 0, dst := .mem, addr := 0xFFFFFFC0, line := (⟨0, 0⟩) }]) }),
     ({ sr [(Reg.PWR_DOM_STAT + 8 * 41, 0), (Reg.PWR_DOM_STAT + 8 * 42, 0)] with mem := ({ State.reset.mem with capGib := 4, lines := [] }), net := ([]) }),
      by refine ⟨?_, ?_, ?_, rfl, ?_⟩ <;> decide +kernel⟩,
   ⟨(.core 0), ({ kind := .memWrite, src := .core 0, dst := .mem, addr := 0xFFFFFFC0, line := (⟨0, 0⟩) }),
     ({ sr [(Reg.PWR_DOM_STAT + 8 * 41, 0), (Reg.PWR_DOM_STAT + 8 * 42, 0)] with mem := ({ State.reset.mem with capGib := 4, lines := [] }), net := ([{ kind := .memWrite, src := .core 0, dst := .mem, addr := 0xFFFFFFC0, line := (⟨0, 0⟩) }]) }),
     ({ sr [(Reg.PWR_DOM_STAT + 8 * 41, 0), (Reg.PWR_DOM_STAT + 8 * 42, 0)] with mem := ({ State.reset.mem with capGib := 4, lines := [] }), net := ([]) }),
      by refine ⟨?_, ?_, ?_, rfl, ?_⟩ <;> decide +kernel⟩,
   ⟨(.core 0), ({ kind := .memWrite, src := .core 0, dst := .mem, addr := 0xFFFFFFC0, line := (⟨0, 0⟩) }),
     ({ sr [(Reg.PWR_DOM_STAT + 8 * 41, 0), (Reg.PWR_DOM_STAT + 8 * 42, 0)] with mem := ({ State.reset.mem with capGib := 4, lines := [] }), net := ([{ kind := .memWrite, src := .core 0, dst := .mem, addr := 0xFFFFFFC0, line := (⟨0, 0⟩) }]) }),
     ({ sr [(Reg.PWR_DOM_STAT + 8 * 41, 0), (Reg.PWR_DOM_STAT + 8 * 42, 0)] with mem := ({ State.reset.mem with capGib := 4, lines := [] }), net := ([]) }),
     67108862,
      by refine ⟨?_, ?_, ?_, rfl, ?_⟩ <;> decide +kernel⟩,
   ⟨(.core 0), ({ kind := .memWrite, src := .core 0, dst := .mem, addr := 0xFFFFFFC0, line := (⟨0, 1⟩) }),
     ({ sr [(Reg.PWR_DOM_STAT + 8 * 41, 0), (Reg.PWR_DOM_STAT + 8 * 42, 0)] with mem := ({ State.reset.mem with capGib := 4, lines := [] }), net := ([{ kind := .memWrite, src := .core 0, dst := .mem, addr := 0xFFFFFFC0, line := (⟨0, 1⟩) }]) }),
     ({ sr [(Reg.PWR_DOM_STAT + 8 * 41, 0), (Reg.PWR_DOM_STAT + 8 * 42, 0)] with mem := ({ State.reset.mem with capGib := 4, lines := [] }), net := ([]) }),
      by refine ⟨?_, ?_, ?_, rfl, ?_⟩ <;> decide +kernel⟩,
   ⟨({ kind := .memRead, src := .core 0, dst := .mem, addr := 0xFFFFFFC0, line := (⟨0, 0⟩) }),
     ({ sr [(Reg.PWR_DOM_STAT + 8 * 41, 0), (Reg.PWR_DOM_STAT + 8 * 42, 0)] with mem := ({ State.reset.mem with capGib := 4, lines := [] }), net := ([{ kind := .memRead, src := .core 0, dst := .mem, addr := 0xFFFFFFC0, line := (⟨0, 0⟩) }]) }),
     ({ kind := .readRsp, src := .mem, dst := .core 0 }),
      by refine ⟨?_, ?_, ?_, by intro x y c h; cases h⟩ <;> decide +kernel⟩⟩

theorem wit_RegisterAccessResults :
  (∃ (req : Requester) (o : Nat) (w : Width) (p : Piece) (s : State), coreDenied req o true = none ∧ pieces o w = [(some
    p, 0)] ∧ reaches s req true p = true ∧ p.mirror = false ∧ clearBase p.r.base = none ∧ p.o / 0x100000 ∉ [1, 2, 3, 4, 5,
    6, 7, 8, 10, 11, 12, 14] ∧ p.r.base ∉ [Reg.FRAME_CTRL, Reg.FRAME_GUARD, Reg.TEST_REF, Reg.FENCE_REQ, Reg.FENCE_CLEAR,
    Reg.SAFE_CTRL, Reg.SAFE_CFG, Reg.SHELF, Reg.SEC_BOOT_CTRL] ∧ p.r.acc = .rw) ∧
  (∃ (req : Requester) (o : Nat) (w : Width) (p : Piece) (s : State), coreDenied req o true = none ∧ pieces o w = [(some
    p, 0)] ∧ reaches s req true p = true ∧ p.mirror = false ∧ clearBase p.r.base = none ∧ p.o / 0x100000 ∉ [1, 2, 3, 4, 5,
    6, 7, 8, 10, 11, 12, 14] ∧ p.r.base ∉ [Reg.FRAME_CTRL, Reg.FRAME_GUARD, Reg.TEST_REF, Reg.FENCE_REQ, Reg.FENCE_CLEAR,
    Reg.SAFE_CTRL, Reg.SAFE_CFG, Reg.SHELF, Reg.SEC_BOOT_CTRL] ∧ p.r.acc = .fb) ∧
  (∃ (req : Requester) (o : Nat) (w : Width) (p : Piece) (s : State), coreDenied req o true = none ∧ pieces o w = [(some
    p, 0)] ∧ reaches s req true p = true ∧ p.mirror = true) ∧
  (∃ (req : Requester) (o : Nat) (w : Width) (p : Piece) (s : State), coreDenied req o true = none ∧ pieces o w = [(some
    p, 0)] ∧ reaches s req true p = false) ∧
  (∃ (req : Requester) (o : Nat) (w : Width) (p : Piece) (s : State) (c : Nat), coreDenied req o true = none ∧ pieces o w
    = [(some p, 0)] ∧ w = .w32 ∧ p.m = lowMask ∧ reaches s req true p = true ∧ p.mirror = false ∧ clearBase p.r.base =
    some c) ∧
  (∃ (req : Requester) (o : Nat) (p : Piece) (s : State), coreDenied req o false = none ∧ pieces o .w32 = [(some p, 0)] ∧
    reaches s req false p = true ∧ p.m = lowMask ∧ p.r.acc = .cnt ∧ p.r.base ∉ [Reg.TIME_NOW_SEC, Reg.TIME_NOW_NS,
    Reg.TIME_NOW_FRAC, Reg.TIN_CAP_NS]) ∧
  (∃ (req : Requester) (o : Nat) (w : Width), coreDenied req o true = none ∧ pieces o w = [(none, 0)]) ∧
  (∃ (req : Requester) (o : Nat) (w : Width), coreDenied req o true = none ∧ pieces o w = [(none, 0)] ∧ o < 0x4000000) ∧
  (∃ (req : Requester) (o : Nat) (w : Width), coreDenied req o true = none ∧ pieces o w = [(none, 0)] ∧ o < 0x4000000 ∧
    coreDenied req o false = none) ∧
  (∃ (req : Requester) (a : Nat) (s : State), regionOf s a = .unmapped ∧ ((∀ c, req ≠ .core c))) ∧
  (∃ (req : Requester) (a : Nat) (s : State) (c : _), regionOf s a = .unmapped ∧ req = .core c) ∧
  (∃ (req : Requester) (o : Nat) (c : CoreId), coreDenied req o true = some c) :=
   ⟨⟨.pf, Reg.TEMP_CFG, .w32, (((pieces (Reg.TEMP_CFG) .w32).head!.1).get (by decide +kernel)), State.reset,
      by decide +kernel⟩,
   ⟨.pf, Reg.FRAME_DEADLINE, .w32, (((pieces (Reg.FRAME_DEADLINE) .w32).head!.1).get (by decide +kernel)), State.reset,
      by decide +kernel⟩,
   ⟨.pf, Reg.FRAME_DEADLINE_ACT, .w32, (((pieces (Reg.FRAME_DEADLINE_ACT) .w32).head!.1).get (by decide +kernel)),
     State.reset,
      by decide +kernel⟩,
   ⟨(.vf 0), Reg.FRAME_SRC, .w32, (((pieces (Reg.FRAME_SRC) .w32).head!.1).get (by decide +kernel)), State.reset,
      by decide +kernel⟩,
   ⟨.pf, Reg.FRAME_CNT_CLR, .w32, (((pieces (Reg.FRAME_CNT_CLR) .w32).head!.1).get (by decide +kernel)), State.reset,
     Reg.FRAME_COMMIT_CNT,
      by decide +kernel⟩,
   ⟨.pf, Reg.FRAME_COMMIT_CNT, (((pieces (Reg.FRAME_COMMIT_CNT) .w32).head!.1).get (by decide +kernel)), State.reset,
      by decide +kernel⟩,
   ⟨.pf, 0x0FFFFC, .w32, by decide +kernel⟩,
   ⟨.pf, 0x0FFFFC, .w32, by decide +kernel⟩,
   ⟨.pf, 0x0FFFFC, .w32, by decide +kernel⟩,
   ⟨.pf, 0xFFFFFFFFFF, State.reset, by decide +kernel⟩,
   ⟨(.core 0), 0xFFFFFFFFFF, State.reset, 0, by decide +kernel⟩,
   ⟨(.core 0), Reg.FRAME_SRC, 0, by decide +kernel⟩⟩

theorem wit_CounterRules :
  (∃ (n : Nat), 0 < n) ∧
  (∃ (o : Nat) (n : Nat) (s : State), 0 < n ∧ ((s.reg o).getLsbD 63 = true ∨ (s.reg o).toNat % 2 ^ 48 + n < 2 ^ 48 - 1)) ∧
  (∃ (o : Nat) (n : Nat) (s : State), 0 < n ∧ (s.reg o).getLsbD 63 = false ∧ 2 ^ 48 - 1 ≤ (s.reg o).toNat % 2 ^ 48 + n) :=
   ⟨⟨1, by decide +kernel⟩,
   ⟨8, 1, (sr [(8, 0xFFFFFFFFFFFD)]), by decide +kernel⟩,
   ⟨8, 1, (sr [(8, 0xFFFFFFFFFFFE)]), by decide +kernel⟩⟩

theorem wit_EventRules :
  (∃ (e : Nat) (s : State), e < 1024 ∧ s.isPend e = true) ∧
  (∃ (e : Nat) (s : State),
    let r := s.reg (Reg.EVT_ROUTE + 4 * e)
    e < 1024 ∧ s.isPend e = false ∧ bitOf r 12 = false) ∧
  (∃ (e : Nat) (s : State),
    let r := s.reg (Reg.EVT_ROUTE + 4 * e)
    let fn := if fld r 11 8 ≥ 9 then 0 else fld r 11 8
    let vec := fld r 7 0
    e < 1024 ∧ s.isPend e = false ∧ bitOf r 12 = true ∧ vec < msixSize s.pcie fn ∧ s.pcie.linkUp = true ∧
      s.pcie.masked.contains (fn, vec) = false ∧ s.pcie.d3hot.contains fn = false) ∧
  (∃ (e : Nat) (s : State),
    let r := s.reg (Reg.EVT_ROUTE + 4 * e)
    let fn := if fld r 11 8 ≥ 9 then 0 else fld r 11 8
    let vec := fld r 7 0
    e < 1024 ∧ s.isPend e = false ∧ bitOf r 12 = true ∧ vec < msixSize s.pcie fn ∧ s.pcie.linkUp = true ∧
      s.pcie.masked.contains (fn, vec) = true) ∧
  (∃ (e : Nat), e < 1024) :=
   ⟨⟨1023, (sr [(Reg.EVT_PEND + 124, 0x80000000)]), by decide +kernel⟩,
   ⟨1023, State.reset, by (conv => zeta); decide +kernel⟩,
   ⟨1023, ({ sr [(Reg.EVT_ROUTE + 4 * 1023, 0x10FF)] with pcie := ({ State.reset.pcie with linkUp := true }) }),
      by (conv => zeta); decide +kernel⟩,
   ⟨1023,
     ({ sr [(Reg.EVT_ROUTE + 4 * 1023, 0x10FF)] with pcie := ({ State.reset.pcie with linkUp := true, masked := [(0, 255)] }) }),
      by (conv => zeta); decide +kernel⟩,
   ⟨1023, by decide +kernel⟩⟩

theorem wit_PointBlockResults :
  (∃ (p : Idx8) (s : State) (f : RxFrame) (rest : List RxFrame), domRun s 36 = true ∧ takeFirst (fun f : RxFrame => f.port
    == p.val) s.ingest.parserq = some (f, rest) ∧ s.time.cyc < f.cyc) ∧
  (∃ (p : Idx8) (s : State) (f : RxFrame) (rest : List RxFrame), domRun s 36 = true ∧ takeFirst (fun f : RxFrame => f.port
    == p.val) s.ingest.parserq = some (f, rest) ∧ f.cyc ≤ s.time.cyc ∧ blockSlot s f = none) ∧
  (∃ (p : Idx8) (s : State) (f : RxFrame) (rest : List RxFrame) (n : HeadId),
    let u := { s with ingest := { s.ingest with parserq := rest } }
    let k := headProg s n.val
    let good := udpDst f.bytes = (if k = 0 then 47611 else progHdr u k 0 2)
    domRun s 36 = true ∧ takeFirst (fun f : RxFrame => f.port == p.val) s.ingest.parserq = some (f, rest) ∧ f.cyc ≤
      s.time.cyc ∧ blockSlot s f = some n ∧ ¬good) ∧
  (∃ (p : Idx8) (s : State) (f : RxFrame) (rest : List RxFrame) (n : HeadId) (o : _),
    let u := { s with ingest := { s.ingest with parserq := rest } }
    let k := headProg s n.val
    let m := udpData f.bytes
    let parsed := if k = 0 then parseNative n (udpLen f.bytes - 8) m else parseForeign u k f m
    let good := udpDst f.bytes = (if k = 0 then 47611 else progHdr u k 0 2)
    domRun s 36 = true ∧ takeFirst (fun f : RxFrame => f.port == p.val) s.ingest.parserq = some (f, rest) ∧ f.cyc ≤
      s.time.cyc ∧ blockSlot s f = some n ∧ good ∧ parsed = .inl o) ∧
  (∃ (p : Idx8) (s : State) (f : RxFrame) (rest : List RxFrame) (n : HeadId) (b : _),
    let u := { s with ingest := { s.ingest with parserq := rest } }
    let k := headProg s n.val
    let m := udpData f.bytes
    let parsed := if k = 0 then parseNative n (udpLen f.bytes - 8) m else parseForeign u k f m
    let good := udpDst f.bytes = (if k = 0 then 47611 else progHdr u k 0 2)
    domRun s 36 = true ∧ takeFirst (fun f : RxFrame => f.port == p.val) s.ingest.parserq = some (f, rest) ∧ f.cyc ≤
      s.time.cyc ∧ blockSlot s f = some n ∧ good ∧ parsed = .inr b ∧ activeAt u n f.cyc = false) ∧
  (∃ (p : Idx8) (s : State) (f : RxFrame) (rest : List RxFrame) (n : HeadId) (b : _) (q : _) (r : _),
    let u := { s with ingest := { s.ingest with parserq := rest } }
    let k := headProg s n.val
    let m := udpData f.bytes
    let parsed := if k = 0 then parseNative n (udpLen f.bytes - 8) m else parseForeign u k f m
    let good := udpDst f.bytes = (if k = 0 then 47611 else progHdr u k 0 2)
    domRun s 36 = true ∧ takeFirst (fun f : RxFrame => f.port == p.val) s.ingest.parserq = some (f, rest) ∧ f.cyc ≤
      s.time.cyc ∧ blockSlot s f = some n ∧ good ∧ parsed = .inr b ∧ activeAt u n f.cyc = true ∧ b.seq = some q ∧ (s.head
      n).blkRef = some r ∧ laterSeq 32 q r = false) ∧
  (∃ (p : Idx8) (s : State) (f : RxFrame) (rest : List RxFrame) (n : HeadId) (b : _),
    let u := { s with ingest := { s.ingest with parserq := rest } }
    let k := headProg s n.val
    let m := udpData f.bytes
    let parsed := if k = 0 then parseNative n (udpLen f.bytes - 8) m else parseForeign u k f m
    let good := udpDst f.bytes = (if k = 0 then 47611 else progHdr u k 0 2)
    domRun s 36 = true ∧ takeFirst (fun f : RxFrame => f.port == p.val) s.ingest.parserq = some (f, rest) ∧ f.cyc ≤
      s.time.cyc ∧ blockSlot s f = some n ∧ good ∧ parsed = .inr b ∧ activeAt u n f.cyc = true ∧ ((b.seq = none ∨ (s.head
      n).blkRef = none ∨ ∃ q r, b.seq = some q ∧ (s.head n).blkRef = some r ∧ laterSeq 32 q r = true))) ∧
  (∃ (p : Idx8) (s : State) (w : Nat) (v : Word), ((∀ n, n < 16 → headProg s n ≠ p.val + 1)) ∧ w < 4 ∧ ((w = 0 → v.toNat %
    65536 ∉ [319, 320, 47610]))) ∧
  (∃ (p : Idx8) (s : State) (w : Nat), ((∀ n, n < 16 → headProg s n ≠ p.val + 1)) ∧ 4 ≤ w ∧ w < 20) ∧
  (∃ (p : Idx8) (s : State) (n : Nat), n < 16 ∧ headProg s n = p.val + 1) :=
   ⟨⟨0,
     ({ sr [(Reg.PWR_DOM_STAT + 8 * 36, 0)] with ingest := ({ IngestSt.reset with parserq := [⟨0, 2, [], 0, 0, 1⟩] }) }),
     (⟨0, 2, [], 0, 0, 1⟩), ([]),
      by decide +kernel⟩,
   ⟨0, ({ sr [(Reg.PWR_DOM_STAT + 8 * 36, 0)] with ingest := ({ IngestSt.reset with parserq := [rx 2 []] }) }), (rx 2 []),
     ([]),
      by decide +kernel⟩,
   ⟨0,
     ({ sa [(Reg.HEAD_SLOT_STAT, 4), (Reg.PWR_DOM_STAT + 8 * 36, 0)] [(Reg.HEAD_SLOT_CFG, 1), (Reg.HEAD_SLOT_ADDR, 0)] with ingest := ({ IngestSt.reset with parserq := [rx 2 (List.replicate 60 0)] }) }),
     (rx 2 (List.replicate 60 0)), ([]), 0,
      by (conv => zeta); decide +kernel⟩,
   ⟨0,
     ({ sa [(Reg.HEAD_SLOT_STAT, 4), (Reg.PWR_DOM_STAT + 8 * 36, 0)] [(Reg.HEAD_SLOT_CFG, 1), (Reg.HEAD_SLOT_ADDR, 0)] with ingest := ({ IngestSt.reset with parserq := [rx 2 fmtBytes] }) }),
     (rx 2 fmtBytes), ([]), 0, Reg.BLK_FORMAT_DROP,
      by (conv => zeta); decide +kernel⟩,
   ⟨0,
     ({ sa [(Reg.HEAD_SLOT_STAT, 3), (Reg.PWR_DOM_STAT + 8 * 36, 0)] [(Reg.HEAD_SLOT_CFG, 1), (Reg.HEAD_SLOT_ADDR, 0)] with ingest := ({ IngestSt.reset with parserq := [rx 2 blockBytes] }) }),
     (rx 2 blockBytes), ([]), 0, (parsed 0 (udpData blockBytes)),
      by (conv => zeta); decide +kernel⟩,
   ⟨0,
     ({ sa [(Reg.HEAD_SLOT_STAT, 4), (Reg.PWR_DOM_STAT + 8 * 36, 0)] [(Reg.HEAD_SLOT_CFG, 1), (Reg.HEAD_SLOT_ADDR, 0)] with ingest := ({ IngestSt.reset with parserq := [rx 2 blockBytes], slots := IngestSt.reset.slots.set 0 { HeadSt.reset with blkRef := some 5 } }) }),
     (rx 2 blockBytes), ([]), 0, (parsed 0 (udpData blockBytes)), 5, 5,
      by (conv => zeta); decide +kernel⟩,
   ⟨0,
     ({ sa [(Reg.HEAD_SLOT_STAT, 4), (Reg.PWR_DOM_STAT + 8 * 36, 0)] [(Reg.HEAD_SLOT_CFG, 1), (Reg.HEAD_SLOT_ADDR, 0)] with ingest := ({ IngestSt.reset with parserq := [rx 2 blockBytes] }) }),
     (rx 2 blockBytes), ([]), 0, (parsed 0 (udpData blockBytes)),
      by (conv => zeta); refine ⟨?_, ?_, ?_, ?_, ?_, ?_, ?_, Or.inr (Or.inl (by decide +kernel))⟩ <;> decide +kernel⟩,
   ⟨7, State.reset, 3, 0, by decide +kernel⟩,
   ⟨7, State.reset, 19, by decide +kernel⟩,
   ⟨0, (sa [] [(Reg.HEAD_SLOT_CFG, 16)]), 0, by decide +kernel⟩⟩

theorem wit_GridResults :
  (∃ (s : State) (k : GridBlock) (rest : List GridBlock), s.grid.queue = k :: rest ∧ (bitOf (s.actReg Reg.GRID_CFG) 0 =
    false ∨ domRun s 37 = false)) ∧
  (∃ (s : State) (k : GridBlock) (rest : List GridBlock) (lat : Nat), s.grid.queue = k :: rest ∧ bitOf (s.actReg
    Reg.GRID_CFG) 0 = true ∧ domRun s 37 = true ∧ lat ≤ 900 ∧ ((∀ e, e ∈ k.lines.zipIdx → tagGood (saltBlock k.slot k.seq
    e.2) e.1 = true))) ∧
  (∃ (s : State) (b : Fin 2) (pt : GridPoint), pointKey (s.gbuf b).set pt.p = none) ∧
  (∃ (s : State) (src : Agent) (m : Msg) (u : State), bitOf (s.reg Reg.FRAME_STAT) 3 = false ∧ domRun s 37 = true ∧
    s.receive .gridRead src .grid = some (m, u)) ∧
  (∃ (s : State), bitOf (s.reg Reg.FRAME_STAT) 3 = true) ∧
  (∃ (s : State) (n : HeadId), headOn s n.val = false ∧ bitOf (s.reg Reg.FRAME_STAT) 3 = false) ∧
  (∃ (s : State) (n : HeadId), (headOn s n.val = true ∨ bitOf (s.reg Reg.FRAME_STAT) 3 = true)) :=
   ⟨⟨({ State.reset with grid := ({ GridSt.reset with queue := [⟨0, 0, 0, 0, [], [], 0⟩] }) }), (⟨0, 0, 0, 0, [], [], 0⟩),
     ([]),
      by decide +kernel⟩,
   ⟨({ sa [(Reg.PWR_DOM_STAT + 8 * 37, 0)] [(Reg.GRID_CFG, 1)] with grid := ({ GridSt.reset with queue := [⟨0, 0, 0, 0, [], [], 0⟩] }) }),
     (⟨0, 0, 0, 0, [], [], 0⟩), ([]), 900,
      by decide +kernel⟩,
   ⟨State.reset, 1, (⟨0, 0, (10000000, 0, 0), 0⟩), by decide +kernel⟩,
   ⟨({ sr [(Reg.PWR_DOM_STAT + 8 * 37, 0)] with net := ([{ kind := .gridRead, src := .core 35, dst := .grid, addr := 0x1100000000 }]) }),
     (.core 35), ({ kind := .gridRead, src := .core 35, dst := .grid, addr := 0x1100000000 }),
     ({ sr [(Reg.PWR_DOM_STAT + 8 * 37, 0)] with net := [] }),
      by exact ⟨by decide +kernel, by decide +kernel, rfl⟩⟩,
   ⟨(sr [(Reg.FRAME_STAT, 8)]), by decide +kernel⟩,
   ⟨State.reset, 15, by decide +kernel⟩,
   ⟨(sa [] [(Reg.HEAD_SLOT_CFG, 1)]), 0, by decide +kernel⟩⟩

theorem wit_CalibrationResults :
  (∃ (s : State) (k : CalCand) (rest : List CalCand),
    let g := s.gbuf s.grid.filling
    let r := (neighbours k.key).map (lookNeighbour g s.grid.filling.val k.a)
    let pts := repPos g.set k.key k.off :: r.filterMap (·.1)
    s.cal.queue = k :: rest ∧ calOn s = true ∧ s.cal.taken < calMax s ∧ ((∀ x, x ∈ r → x.2 = 0)) ∧ (pts.length < 6 ∨
      planeFits pts = false)) ∧
  (∃ (s : State) (k : CalCand) (rest : List CalCand),
    let g := s.gbuf s.grid.filling
    let r := (neighbours k.key).map (lookNeighbour g s.grid.filling.val k.a)
    let pts := repPos g.set k.key k.off :: r.filterMap (·.1)
    let q := (k.p.1 * 16, k.p.2.1 * 16, k.p.2.2 * 16)
    let d := planeResid (planeNormal pts) pts q
    s.cal.queue = k :: rest ∧ calOn s = true ∧ s.cal.taken < calMax s ∧ ((∀ x, x ∈ r → x.2 = 0)) ∧ 6 ≤ pts.length ∧
      planeFits pts = true ∧ s.actF Reg.CAL_CFG 31 24 * 2 ^ 40 < d.natAbs * 1000) ∧
  (∃ (s : State) (k : CalCand) (rest : List CalCand),
    let g := s.gbuf s.grid.filling
    let r := (neighbours k.key).map (lookNeighbour g s.grid.filling.val k.a)
    let pts := repPos g.set k.key k.off :: r.filterMap (·.1)
    let q := (k.p.1 * 16, k.p.2.1 * 16, k.p.2.2 * 16)
    let d := planeResid (planeNormal pts) pts q
    s.cal.queue = k :: rest ∧ calOn s = true ∧ s.cal.taken < calMax s ∧ ((∀ x, x ∈ r → x.2 = 0)) ∧ 6 ≤ pts.length ∧
      planeFits pts = true ∧ d.natAbs * 1000 ≤ s.actF Reg.CAL_CFG 31 24 * 2 ^ 40) ∧
  (∃ (s : State) (n : HeadId),
    let rows := calRows s n.val
    (s.calSlot n).solve = true ∧ calOn s = true ∧ rows.length < 8 * s.actF Reg.CAL_CFG 23 16) ∧
  (∃ (s : State) (n : HeadId),
    let rows := calRows s n.val
    (s.calSlot n).solve = true ∧ calOn s = true ∧ 8 * s.actF Reg.CAL_CFG 23 16 ≤ rows.length ∧ poseIll rows = true) ∧
  (∃ (s : State) (n : HeadId),
    let rows := calRows s n.val
    (s.calSlot n).solve = true ∧ calOn s = true ∧ 8 * s.actF Reg.CAL_CFG 23 16 ≤ rows.length ∧ poseIll rows = false ∧
      (s.calSlot n).hist.length < 7) ∧
  (∃ (s : State), bitOf (s.reg Reg.FRAME_STAT) 1 = false) ∧
  (∃ (s : State), ((∀ n : HeadId, (s.calSlot n).mine = []))) ∧
  (∃ (s : State) (n : HeadId), (s.calSlot n).mine ≠ []) :=
   ⟨⟨({ sa [(Reg.CAL_CTRL, 1), (Reg.PWR_DOM_STAT + 8 * 38, 0)] [(Reg.CAL_CFG, 1)] with cal := ({ CalSt.reset with queue := [⟨(8192, 8192, 8192), (0, 0, 0), 0, 0, 1, (0, 0, 0), 0⟩] }) }),
     (⟨(8192, 8192, 8192), (0, 0, 0), 0, 0, 1, (0, 0, 0), 0⟩), ([]),
      by (conv => zeta); refine ⟨?_, ?_, ?_, ?_, Or.inl (by decide +kernel)⟩ <;> decide +kernel⟩,
   ⟨({ sa [(Reg.CAL_CTRL, 1), (Reg.PWR_DOM_STAT + 8 * 38, 0)] [(Reg.CAL_CFG, 1)] with cal := ({ CalSt.reset with queue := [⟨(8192, 8192, 8192), (0, 0, 0), 0, 0, 1, (0, 0, 1), 0⟩] }), grid := (fivePoints.grid) }),
     (⟨(8192, 8192, 8192), (0, 0, 0), 0, 0, 1, (0, 0, 1), 0⟩), ([]),
      by (conv => zeta); decide +kernel⟩,
   ⟨({ sa [(Reg.CAL_CTRL, 1), (Reg.PWR_DOM_STAT + 8 * 38, 0)] [(Reg.CAL_CFG, 1)] with cal := ({ CalSt.reset with queue := [⟨(8192, 8192, 8192), (0, 0, 0), 0, 0, 1, (0, 0, 0), 0⟩] }), grid := (fivePoints.grid) }),
     (⟨(8192, 8192, 8192), (0, 0, 0), 0, 0, 1, (0, 0, 0), 0⟩), ([]),
      by (conv => zeta); decide +kernel⟩,
   ⟨({ sa [(Reg.CAL_CTRL, 1), (Reg.PWR_DOM_STAT + 8 * 38, 0)] [(Reg.CAL_CFG, 65536)] with cal := ({ CalSt.reset with slots := CalSt.reset.slots.set 15 ⟨[], 0, false, false, true, [], false⟩ }) }),
     15,
      by (conv => zeta); decide +kernel⟩,
   ⟨({ sa [(Reg.CAL_CTRL, 1), (Reg.PWR_DOM_STAT + 8 * 38, 0)] [(Reg.CAL_CFG, 0)] with cal := ({ CalSt.reset with closed := [⟨15, 0, [⟨15, [1, 0, 0, 0, 0, 0, 0], 0⟩], []⟩], slots := CalSt.reset.slots.set 15 ⟨[], 0, false, false, true, [], false⟩ }) }),
     15,
      by (conv => zeta); decide +kernel⟩,
   ⟨({ sa [(Reg.CAL_CTRL, 1), (Reg.PWR_DOM_STAT + 8 * 38, 0)] [(Reg.CAL_CFG, 0)] with cal := ({ CalSt.reset with slots := CalSt.reset.slots.set 15 ⟨[], 0, false, false, true, [], false⟩ }) }),
     15,
      by (conv => zeta); decide +kernel⟩,
   ⟨State.reset, by decide +kernel⟩,
   ⟨State.reset, by decide +kernel⟩,
   ⟨({ sa [(Reg.CAL_CTRL, 1), (Reg.PWR_DOM_STAT + 8 * 38, 0)] [(Reg.CAL_CFG, 0)] with cal := ({ CalSt.reset with slots := CalSt.reset.slots.set 15 ⟨[], 0, false, false, false, [12], false⟩ }) }),
     15,
      by decide +kernel⟩⟩

set_option maxRecDepth 100000 in
theorem wit_EthernetResults :
  (∃ (p : Idx8) (s : State), macLive s p = true ∧ s.ingest.held.contains p.val = false ∧ ethUp s p.val = false) ∧
  (∃ (p : Idx8) (s : State) (up : _), macLive s p = true ∧ s.ingest.held.contains p.val = false ∧ up = ethUp s p.val) ∧
  (∃ (p : Idx8) (s : State) (mbps : _) (code : _), bitOf (s.reg (ethOff Reg.ETH_CFG p)) 3 = true ∧ ethMode s p ≠ 0 ∧
    usxRate mbps = some code) ∧
  (∃ (p : Idx8) (s : State), bitOf (s.reg (ethOff Reg.ETH_CFG p)) 7 = true ∧ ethUp s p.val = true ∧ domRun s 36 = true) ∧
  (∃ (p : Idx8) (s : State) (b : List Nat), bitOf (s.reg (ethOff Reg.ETH_CFG p)) 7 = true ∧ ethUp s p.val = true ∧ domRun
    s 36 = true ∧ (b.length < 64 ∨ 9216 < b.length)) ∧
  (∃ (p : Idx8) (s : State) (b : List Nat),
    let body := b.take (b.length - 4)
    bitOf (s.reg (ethOff Reg.ETH_CFG p)) 7 = true ∧ ethUp s p.val = true ∧ domRun s 36 = true ∧ 64 ≤ b.length ∧ b.length ≤
      9216 ∧ leAt b (b.length - 4) 4 ≠ (crc32Ieee body).toNat) ∧
  (∃ (p : Idx8) (s : State) (b : List Nat),
    let body := b.take (b.length - 4)
    bitOf (s.reg (ethOff Reg.ETH_CFG p)) 7 = true ∧ ethUp s p.val = true ∧ domRun s 36 = true ∧ rxJudge s p b = none ∧
      rxClass s p body = 2 ∧ ipOk body = true) ∧
  (∃ (p : Idx8) (s : State) (b : List Nat),
    let body := b.take (b.length - 4)
    bitOf (s.reg (ethOff Reg.ETH_CFG p)) 7 = true ∧ ethUp s p.val = true ∧ domRun s 36 = true ∧ rxJudge s p b = none ∧
      rxClass s p body = 2 ∧ ipOk body = false) ∧
  (∃ (p : Idx8) (s : State) (b : List Nat),
    let body := b.take (b.length - 4)
    bitOf (s.reg (ethOff Reg.ETH_CFG p)) 7 = true ∧ ethUp s p.val = true ∧ domRun s 36 = true ∧ rxJudge s p b = none ∧
      rxClass s p body = 6) ∧
  (∃ (p : Idx8) (s : State) (base : _) (size : _) (head : _) (tail : _),
    let d := base + 32 * (head % size)
    let r := memGet d 32 s
    let len := leAt r.1 8 2
    macLive s p = true ∧ ethRing s p 2 = some (base, size, head, tail) ∧ head ≠ tail ∧ (len < 60 ∨ 9212 < len)) ∧
  (∃ (p : Idx8) (s : State) (base : _) (size : _) (head : _) (tail : _),
    let d := base + 32 * (head % size)
    let r := memGet d 32 s
    let len := leAt r.1 8 2
    macLive s p = true ∧ ethRing s p 2 = some (base, size, head, tail) ∧ head ≠ tail ∧ 60 ≤ len ∧ len ≤ 9212 ∧ ethUp s
      p.val = false) ∧
  (∃ (p : Idx8) (s : State) (base : _) (size : _) (head : _) (tail : _),
    let d := base + 32 * (head % size)
    let r := memGet d 32 s
    let len := leAt r.1 8 2
    let r2 := memExit (leAt r.1 0 5) len r.2.2
    macLive s p = true ∧ ethRing s p 2 = some (base, size, head, tail) ∧ head ≠ tail ∧ 60 ≤ len ∧ len ≤ 9212 ∧ ethUp s
      p.val = true ∧ leAt r.1 10 1 % 4 = 0 ∧ r2.2.1 = 0) :=
   ⟨⟨7, (sr [(Reg.PWR_DOM_STAT + 8 * 36, 0)]), by decide +kernel⟩,
   ⟨7, (sr [(Reg.PWR_DOM_STAT + 8 * 36, 0)]), false, by decide +kernel⟩,
   ⟨0, (sr [(Reg.ETH_CFG, 9)]), 1000, 4, by decide +kernel⟩,
   ⟨0, (sr [(Reg.ETH_CFG, 128), (Reg.ETH_STAT, 1), (Reg.PWR_DOM_STAT + 8 * 36, 0)]), by decide +kernel⟩,
   ⟨0, (sr [(Reg.ETH_CFG, 128), (Reg.ETH_STAT, 1), (Reg.PWR_DOM_STAT + 8 * 36, 0)]), (List.replicate 63 0),
      by decide +kernel⟩,
   ⟨0, (sr [(Reg.ETH_CFG, 128), (Reg.ETH_STAT, 1), (Reg.PWR_DOM_STAT + 8 * 36, 0)]), (List.replicate 64 0),
      by (conv => zeta); decide +kernel⟩,
   ⟨0, (sr [(Reg.ETH_CFG, 128), (Reg.ETH_STAT, 1), (Reg.PWR_DOM_STAT + 8 * 36, 0)]), goodFrame,
      by (conv => zeta); decide +kernel⟩,
   ⟨0, (sr [(Reg.ETH_CFG, 128), (Reg.ETH_STAT, 1), (Reg.PWR_DOM_STAT + 8 * 36, 0)]), badIpFrame,
      by (conv => zeta); decide +kernel⟩,
   ⟨0, (sr [(Reg.ETH_CFG, 128), (Reg.ETH_STAT, 1), (Reg.PWR_DOM_STAT + 8 * 36, 0)]), otherFrame,
      by (conv => zeta); decide +kernel⟩,
   ⟨0,
     ({ sr [(Reg.ETH_STAT, 1), (Reg.PWR_DOM_STAT + 8 * 36, 0), (Reg.ETH_RING_BASE + 0x40, 0), (Reg.ETH_RING_CFG + 0x40, 0x80000040), (Reg.ETH_RING_HEAD + 0x40, 0), (Reg.ETH_RING_TAIL + 0x40, 1)] with mem := ({ State.reset.mem with capGib := 4, lines := [ln 0 0] }) }),
     0, 64, 0, 1,
      by (conv => zeta); decide +kernel⟩,
   ⟨0,
     ({ sr [(Reg.ETH_STAT, 0), (Reg.PWR_DOM_STAT + 8 * 36, 0), (Reg.ETH_RING_BASE + 0x40, 0), (Reg.ETH_RING_CFG + 0x40, 0x80000040), (Reg.ETH_RING_HEAD + 0x40, 0), (Reg.ETH_RING_TAIL + 0x40, 1)] with mem := ({ State.reset.mem with capGib := 4, lines := [ln 0 0x3C0000000000000040, ln 64 0] }) }),
     0, 64, 0, 1,
      by (conv => zeta); decide +kernel⟩,
   ⟨0,
     ({ sr [(Reg.ETH_STAT, 1), (Reg.PWR_DOM_STAT + 8 * 36, 0), (Reg.ETH_RING_BASE + 0x40, 0), (Reg.ETH_RING_CFG + 0x40, 0x80000040), (Reg.ETH_RING_HEAD + 0x40, 0), (Reg.ETH_RING_TAIL + 0x40, 1)] with mem := ({ State.reset.mem with capGib := 4, lines := [ln 0 0x3C0000000000000040, ln 64 0] }) }),
     0, 64, 0, 1,
      by (conv => zeta); decide +kernel⟩⟩

theorem wit_PublisherAndPtpResults :
  (∃ (p : Idx8) (s : State) (d : Nat) (frag : Nat) (line : Nat) (f : PubFrame) (r : List PubFrame), pubPort s d = p.val ∧
    macLive s p = true ∧ txWaits s p 2 = false ∧ s.pub.frames = f :: r ∧ (f.todo.find? fun e => e.1 == d) = some (d, frag,
    line) ∧ (pubOwner s).isSome = true ∧ isSafe s = false ∧ ethUp s p.val = false) ∧
  (∃ (p : Idx8) (s : State) (d : Nat) (frag : Nat) (line : Nat) (f : PubFrame) (r : List PubFrame),
    let n := min (pubMax s d) (f.lines - line)
    let q := pubLines ((f.first + line) % 2 ^ 32) n s
    pubPort s d = p.val ∧ macLive s p = true ∧ txWaits s p 2 = false ∧ s.pub.frames = f :: r ∧ (f.todo.find? fun e => e.1
      == d) = some (d, frag, line) ∧ (pubOwner s).isSome = true ∧ isSafe s = false ∧ ethUp s p.val = true ∧ q.2.1 = 0) ∧
  (∃ (p : Idx8) (s : State) (f : RxFrame) (rest : List RxFrame), takeFirst (fun f : RxFrame => f.cls == 1 && f.port ==
    p.val) s.ingest.fwq = some (f, rest) ∧ isIp f.bytes = true ∧ ipOk f.bytes = false) ∧
  (∃ (p : Idx8) (s : State) (f : RxFrame) (rest : List RxFrame),
    let m := ptpBytes f.bytes
    let type := leAt m 0 1 % 16
    takeFirst (fun f : RxFrame => f.cls == 1 && f.port == p.val) s.ingest.fwq = some (f, rest) ∧ ((isIp f.bytes = true →
      ipOk f.bytes = true)) ∧ type = 0) ∧
  (∃ (p : Idx8) (s : State) (f : RxFrame) (rest : List RxFrame) (t : _),
    let m := ptpBytes f.bytes
    let type := leAt m 0 1 % 16
    let sq := beAt m 30 2
    takeFirst (fun f : RxFrame => f.cls == 1 && f.port == p.val) s.ingest.fwq = some (f, rest) ∧ ((isIp f.bytes = true →
      ipOk f.bytes = true)) ∧ type = 8 ∧ s.time.servo.sync = some (p.val, sq, t)) ∧
  (∃ (p : Idx8) (s : State) (f : RxFrame) (rest : List RxFrame),
    let m := ptpBytes f.bytes
    let type := leAt m 0 1 % 16
    takeFirst (fun f : RxFrame => f.cls == 1 && f.port == p.val) s.ingest.fwq = some (f, rest) ∧ ((isIp f.bytes = true →
      ipOk f.bytes = true)) ∧ type = 1) ∧
  (∃ (p : Idx8) (s : State) (f : RxFrame) (rest : List RxFrame) (t1 : _) (t2 : _) (t3 : _),
    let m := ptpBytes f.bytes
    let type := leAt m 0 1 % 16
    let sq := beAt m 30 2
    takeFirst (fun f : RxFrame => f.cls == 1 && f.port == p.val) s.ingest.fwq = some (f, rest) ∧ ((isIp f.bytes = true →
      ipOk f.bytes = true)) ∧ type = 9 ∧ s.time.servo.last = some (p.val, t2, t1) ∧ sget p.val s.time.servo.reqs = some
      (sq, t3)) ∧
  (∃ (p : Idx8) (s : State) (f : RxFrame) (rest : List RxFrame),
    let m := ptpBytes f.bytes
    let type := leAt m 0 1 % 16
    takeFirst (fun f : RxFrame => f.cls == 1 && f.port == p.val) s.ingest.fwq = some (f, rest) ∧ ((isIp f.bytes = true →
      ipOk f.bytes = true)) ∧ type = 2) ∧
  (∃ (p : Idx8) (s : State), macLive s p = true ∧ ethUp s p.val = true) ∧
  (∃ (p : Idx8) (s : State), macLive s p = true ∧ ethUp s p.val = false) ∧
  (∃ (s : State), s.regF Reg.TIME_SERVO_STAT 1 0 = 2) ∧
  (∃ (s : State), s.regF Reg.TIME_SERVO_STAT 1 0 ≠ 2) :=
   ⟨⟨0,
     ({ sa [(Reg.ETH_STAT, 0), (Reg.PWR_DOM_STAT + 8 * 36, 0)] [(Reg.PUB_QUEUE_BASE, 0), (Reg.PUB_QUEUE_LINES, 1024), (Reg.CELLAR, 0), (Reg.CELLAR_LINES, 1024)] with pub := (⟨0, 0, [⟨1, 0, 0, 1, 0, 0, 0, false, [(0, 0, 0)]⟩], false⟩), mem := ({ State.reset.mem with capGib := 4, lines := [] }) }),
     0, 0, 0, (⟨1, 0, 0, 1, 0, 0, 0, false, [(0, 0, 0)]⟩), ([]),
      by decide +kernel⟩,
   ⟨0,
     ({ sa [(Reg.ETH_STAT, 1), (Reg.PWR_DOM_STAT + 8 * 36, 0)] [(Reg.PUB_QUEUE_BASE, 0), (Reg.PUB_QUEUE_LINES, 1024), (Reg.CELLAR, 0), (Reg.CELLAR_LINES, 1024)] with pub := (⟨0, 0, [⟨1, 0, 0, 1, 0, 0, 0, false, [(0, 0, 0)]⟩], false⟩), mem := ({ State.reset.mem with capGib := 4, lines := [ln 0 0] }) }),
     0, 0, 0, (⟨1, 0, 0, 1, 0, 0, 0, false, [(0, 0, 0)]⟩), ([]),
      by (conv => zeta); decide +kernel⟩,
   ⟨0, ({ State.reset with ingest := ({ IngestSt.reset with fwq := [rx 1 badIpFrame] }) }), (rx 1 badIpFrame), ([]),
      by decide +kernel⟩,
   ⟨0, ({ State.reset with ingest := ({ IngestSt.reset with fwq := [rx 1 ptpBytes0] }) }), (rx 1 ptpBytes0), ([]),
      by (conv => zeta); decide +kernel⟩,
   ⟨0,
     ({ State.reset with ingest := ({ IngestSt.reset with fwq := [rx 1 ptpBytes8] }), time := ({ TimeSt.reset with servo := { TimeSt.reset.servo with sync := some (0, 0, 0) } }) }),
     (rx 1 ptpBytes8), ([]), 0,
      by (conv => zeta); decide +kernel⟩,
   ⟨0, ({ State.reset with ingest := ({ IngestSt.reset with fwq := [rx 1 ptpBytes1] }) }), (rx 1 ptpBytes1), ([]),
      by (conv => zeta); decide +kernel⟩,
   ⟨0,
     ({ State.reset with ingest := ({ IngestSt.reset with fwq := [rx 1 ptpBytes9] }), time := ({ TimeSt.reset with servo := { TimeSt.reset.servo with last := some (0, 0, 0), reqs := [(0, (0, 0))] } }) }),
     (rx 1 ptpBytes9), ([]), 0, 0, 0,
      by (conv => zeta); decide +kernel⟩,
   ⟨0, ({ State.reset with ingest := ({ IngestSt.reset with fwq := [rx 1 ptpBytes2] }) }), (rx 1 ptpBytes2), ([]),
      by (conv => zeta); decide +kernel⟩,
   ⟨0, (sr [(Reg.ETH_STAT, 1), (Reg.PWR_DOM_STAT + 8 * 36, 0)]), by decide +kernel⟩,
   ⟨0, (sr [(Reg.PWR_DOM_STAT + 8 * 36, 0)]), by decide +kernel⟩,
   ⟨(sr [(Reg.TIME_SERVO_STAT, 2)]), by decide +kernel⟩,
   ⟨State.reset, by decide +kernel⟩⟩

theorem wit_HeadMessageResults :
  (∃ (p : Idx8) (f : RxFrame) (rest : List RxFrame) (n : HeadId) (s : State) (i : Instr), takeFirst (fun f : RxFrame =>
    f.cls == 3 && f.port == p.val) s.ingest.fwq = some (f, rest) ∧ ctlJudge s f = .drop n ∧ i ∈ [Instr.hello p, .ident p,
    .response p, .configEcho p, .health p, .life p]) ∧
  (∃ (p : Idx8) (f : RxFrame) (rest : List RxFrame) (n : HeadId) (seq : Nat) (body : List Nat) (s : State),
    let st := headState s n.val
    takeFirst (fun f : RxFrame => f.cls == 3 && f.port == p.val) s.ingest.fwq = some (f, rest) ∧ ctlJudge s f = .take n 1
      seq body ∧ st ≠ 0 ∧ st ≠ 5) ∧
  (∃ (p : Idx8) (f : RxFrame) (rest : List RxFrame) (n : HeadId) (seq : Nat) (body : List Nat) (s : State),
    let h := s.head n
    let st := headState s n.val
    takeFirst (fun f : RxFrame => f.cls == 3 && f.port == p.val) s.ingest.fwq = some (f, rest) ∧ ctlJudge s f = .take n 2
      seq body ∧ st = 2 ∧ h.nonce = none ∧ leAt body 1 1 = h.nFrag.getD (leAt body 1 1) ∧ leAt body 0 1 < leAt body 1 1 ∧
      sget (leAt body 0 1) h.frags = none) ∧
  (∃ (p : Idx8) (f : RxFrame) (rest : List RxFrame) (n : HeadId) (seq : Nat) (body : List Nat) (s : State) (nonce : _),
    let h := s.head n
    let st := headState s n.val
    takeFirst (fun f : RxFrame => f.cls == 3 && f.port == p.val) s.ingest.fwq = some (f, rest) ∧ ctlJudge s f = .take n 4
      seq body ∧ st = 2 ∧ h.nonce = some nonce) ∧
  (∃ (p : Idx8) (f : RxFrame) (rest : List RxFrame) (n : HeadId) (seq : Nat) (body : List Nat) (s : State), takeFirst (fun
    f : RxFrame => f.cls == 3 && f.port == p.val) s.ingest.fwq = some (f, rest) ∧ ctlJudge s f = .take n 5 seq body) ∧
  (∃ (p : Idx8) (f : RxFrame) (rest : List RxFrame) (n : HeadId) (seq : Nat) (body : List Nat) (s : State), takeFirst (fun
    f : RxFrame => f.cls == 3 && f.port == p.val) s.ingest.fwq = some (f, rest) ∧ ctlJudge s f = .take n 8 seq body) ∧
  (∃ (p : Idx8) (f : RxFrame) (rest : List RxFrame) (n : HeadId) (seq : Nat) (body : List Nat) (s : State),
    let st := headState s n.val
    takeFirst (fun f : RxFrame => f.cls == 3 && f.port == p.val) s.ingest.fwq = some (f, rest) ∧ ctlJudge s f = .take n 9
      seq body ∧ st ≠ 4) :=
   ⟨⟨0, (rx 3 shortBytes), ([]), 0,
     ({ sa [(Reg.HEAD_SLOT_STAT, 1), (Reg.PWR_DOM_STAT + 8 * 36, 0)] [(Reg.HEAD_SLOT_CFG, 1), (Reg.HEAD_SLOT_ADDR, 0)] with ingest := ({ IngestSt.reset with fwq := [rx 3 shortBytes] }) }),
     (.hello 0),
      by decide +kernel⟩,
   ⟨0, (rx 3 helloBytes), ([]), 0, 1, ([1, 0, 0, 0]),
     ({ sa [(Reg.HEAD_SLOT_STAT, 1), (Reg.PWR_DOM_STAT + 8 * 36, 0)] [(Reg.HEAD_SLOT_CFG, 1), (Reg.HEAD_SLOT_ADDR, 0)] with ingest := ({ IngestSt.reset with fwq := [rx 3 helloBytes] }) }),
      by (conv => zeta); decide +kernel⟩,
   ⟨0, (rx 3 identBytes), ([]), 0, 1, ([0, 1, 7]),
     ({ sa [(Reg.HEAD_SLOT_STAT, 2), (Reg.PWR_DOM_STAT + 8 * 36, 0)] [(Reg.HEAD_SLOT_CFG, 1), (Reg.HEAD_SLOT_ADDR, 0)] with ingest := ({ IngestSt.reset with fwq := [rx 3 identBytes] }) }),
      by (conv => zeta); decide +kernel⟩,
   ⟨0, (rx 3 responseBytes), ([]), 0, 1, ([]),
     ({ sa [(Reg.HEAD_SLOT_STAT, 2), (Reg.PWR_DOM_STAT + 8 * 36, 0)] [(Reg.HEAD_SLOT_CFG, 1), (Reg.HEAD_SLOT_ADDR, 0)] with ingest := ({ IngestSt.reset with fwq := [rx 3 responseBytes], slots := IngestSt.reset.slots.set 0 { HeadSt.reset with nonce := some [1] } }) }),
     ([1]),
      by (conv => zeta); decide +kernel⟩,
   ⟨0, (rx 3 echoBytes), ([]), 0, 1, ([]),
     ({ sa [(Reg.HEAD_SLOT_STAT, 3), (Reg.PWR_DOM_STAT + 8 * 36, 0)] [(Reg.HEAD_SLOT_CFG, 1), (Reg.HEAD_SLOT_ADDR, 0)] with ingest := ({ IngestSt.reset with fwq := [rx 3 echoBytes] }) }),
      by decide +kernel⟩,
   ⟨0, (rx 3 healthBytes), ([]), 0, 1, ([0, 0, 0, 0, 0, 0]),
     ({ sa [(Reg.HEAD_SLOT_STAT, 3), (Reg.PWR_DOM_STAT + 8 * 36, 0)] [(Reg.HEAD_SLOT_CFG, 1), (Reg.HEAD_SLOT_ADDR, 0)] with ingest := ({ IngestSt.reset with fwq := [rx 3 healthBytes] }) }),
      by decide +kernel⟩,
   ⟨0, (rx 3 lifeBytes), ([]), 0, 1, ([5, 0, 0, 0]),
     ({ sa [(Reg.HEAD_SLOT_STAT, 3), (Reg.PWR_DOM_STAT + 8 * 36, 0)] [(Reg.HEAD_SLOT_CFG, 1), (Reg.HEAD_SLOT_ADDR, 0)] with ingest := ({ IngestSt.reset with fwq := [rx 3 lifeBytes] }) }),
      by (conv => zeta); decide +kernel⟩⟩

theorem wit_HeadTimerResults :
  (∃ (n : HeadId) (s : State) (i : Instr),
    let h := s.head n
    ((i = Instr.identTimeout n ∧ h.nonce = none) ∨ (i = .responseTimeout n ∧ h.nonce.isSome = true)) ∧ headState s n.val =
      2 ∧ headFails s n < 2) ∧
  (∃ (n : HeadId) (s : State) (i : Instr),
    let h := s.head n
    ((i = Instr.identTimeout n ∧ h.nonce = none) ∨ (i = .responseTimeout n ∧ h.nonce.isSome = true)) ∧ headState s n.val =
      2 ∧ 2 ≤ headFails s n) ∧
  (∃ (n : HeadId) (s : State) (i : Instr), i ∈ [Instr.identTimeout n, .responseTimeout n] ∧ headState s n.val ≠ 2) ∧
  (∃ (n : HeadId) (s : State) (k : _),
    let h := s.head n
    h.echo = some k ∧ k < 3) ∧
  (∃ (n : HeadId) (s : State) (k : _),
    let h := s.head n
    h.echo = some k ∧ 3 ≤ k) ∧
  (∃ (n : HeadId) (s : State) (start : _), headOn s n.val = true ∧ s.actF (headOff Reg.HEAD_SLOT_CFG n.val) 9 8 = 2 ∧
    ((headState s n.val = 3 ∨ headState s n.val = 4)) ∧ s.nowNs + 1000000 ≤ start) ∧
  (∃ (s : State), s.ingest.tick < s.time.cyc / 5000000 ∧ ((∀ m : HeadId, (s.head m).onTick = false))) ∧
  (∃ (n : HeadId) (s : State),
    let h := s.head n
    s.ingest.tick < s.time.cyc / 5000000 ∧ h.onTick = true ∧ ((∀ m : HeadId, m ≠ n → (s.head m).onTick = false)) ∧
      headState s n.val ≠ 4) ∧
  (∃ (n : HeadId) (s : State) (shutdown : Bool) (key : Nat) (dev : Nat) (r : LifeRec),
    let h := s.head n
    h.key = some key ∧ devCount h = some dev ∧ ((shutdown = true ∨ h.saved + 90000 ≤ h.ticks)) ∧ (s.flash.life.find? fun r
      => r.key == key) = some r) :=
   ⟨⟨0, ({ sa [(Reg.HEAD_SLOT_STAT, 10)] [(Reg.HEAD_SLOT_CFG, 1)] with ingest := ({ IngestSt.reset with tick := 0 }) }),
     (.identTimeout 0),
      by (conv => zeta); decide +kernel⟩,
   ⟨0,
     ({ sa [(Reg.HEAD_SLOT_STAT, 18)] [(Reg.HEAD_SLOT_CFG, 1)] with ingest := ({ IngestSt.reset with slots := IngestSt.reset.slots.set 0 { HeadSt.reset with nonce := some [1] } }) }),
     (.responseTimeout 0),
      by (conv => zeta); decide +kernel⟩,
   ⟨0, ({ sa [(Reg.HEAD_SLOT_STAT, 3)] [(Reg.HEAD_SLOT_CFG, 1)] with ingest := ({ IngestSt.reset with tick := 0 }) }),
     (.responseTimeout 0),
      by decide +kernel⟩,
   ⟨0,
     ({ sa [(Reg.HEAD_SLOT_STAT, 3)] [(Reg.HEAD_SLOT_CFG, 1)] with ingest := ({ IngestSt.reset with slots := IngestSt.reset.slots.set 0 { HeadSt.reset with echo := some 2 } }) }),
     2,
      by (conv => zeta); decide +kernel⟩,
   ⟨0,
     ({ sa [(Reg.HEAD_SLOT_STAT, 3)] [(Reg.HEAD_SLOT_CFG, 1)] with ingest := ({ IngestSt.reset with slots := IngestSt.reset.slots.set 0 { HeadSt.reset with echo := some 3 } }) }),
     3,
      by (conv => zeta); decide +kernel⟩,
   ⟨0, ({ sa [(Reg.HEAD_SLOT_STAT, 4)] [(Reg.HEAD_SLOT_CFG, 0x201)] with ingest := ({ IngestSt.reset with tick := 0 }) }),
     1000000,
      by decide +kernel⟩,
   ⟨({ sa [(Reg.HEAD_SLOT_STAT, 0)] [(Reg.HEAD_SLOT_CFG, 1)] with ingest := ({ IngestSt.reset with tick := 0 }), time := (tm 5000000 none none) }),
      by decide +kernel⟩,
   ⟨0,
     ({ sa [(Reg.HEAD_SLOT_STAT, 3)] [(Reg.HEAD_SLOT_CFG, 1)] with ingest := ({ IngestSt.reset with slots := IngestSt.reset.slots.set 0 { HeadSt.reset with onTick := true } }), time := (tm 5000000 none none) }),
      by (conv => zeta); decide +kernel⟩,
   ⟨0,
     ({ sa [(Reg.HEAD_SLOT_STAT, 4)] [(Reg.HEAD_SLOT_CFG, 1)] with ingest := ({ IngestSt.reset with slots := IngestSt.reset.slots.set 0 { HeadSt.reset with key := some 5, base := some 0, ticks := 90000 } }), flash := ({ FlashSt.blank with life := [⟨5, none, 0, true⟩] }) }),
     false, 5, 900, (⟨5, none, 0, true⟩),
      by (conv => zeta); decide +kernel⟩⟩

theorem wit_FrameCommitResults :
  (∃ (s : State) (c : CoreId) (m : Msg) (u : State) (f : SlotFrame),
    let f' := { f with got := f.got ++ [c] }
    s.receive .commit (.core c) .sys = some (m, u) ∧ ((s.slotFrames m.slot).find? fun f => f.frame == m.frame) = some f ∧
      f.ready = false ∧ f.got.contains c = false ∧ (f.place.all fun d => f'.got.contains d) = false) ∧
  (∃ (s : State) (c : CoreId) (m : Msg) (u : State) (f : SlotFrame),
    let f' := { f with got := f.got ++ [c] }
    s.receive .commit (.core c) .sys = some (m, u) ∧ ((s.slotFrames m.slot).find? fun f => f.frame == m.frame) = some f ∧
      f.ready = false ∧ f.got.contains c = false ∧ (f.place.all fun d => f'.got.contains d) = true ∧ slotDevices s m.slot
      = []) ∧
  (∃ (s : State) (c : CoreId) (m : Msg) (u : State) (f : SlotFrame),
    let f' := { f with got := f.got ++ [c] }
    s.receive .commit (.core c) .sys = some (m, u) ∧ ((s.slotFrames m.slot).find? fun f => f.frame == m.frame) = some f ∧
      f.ready = false ∧ f.got.contains c = false ∧ (f.place.all fun d => f'.got.contains d) = true ∧ slotDevices s m.slot
      ≠ [] ∧ coordinates s m.slot = false) ∧
  (∃ (s : State) (m : Msg) (u : State) (f : SlotFrame), sysTake .ready s = some (m, u) ∧ ((s.slotFrames m.slot).find? fun
    f => f.frame == m.frame) = some f ∧ coordinates s m.slot = true) ∧
  (∃ (s : State) (m : Msg) (u : State) (f : SlotFrame), sysTake .decision s = some (m, u) ∧ ((s.slotFrames m.slot).find?
    fun f => f.frame == m.frame) = some f) ∧
  (∃ (k : Nat), k < 8) ∧
  (∃ (s : State) (c : CoreId), (s.core c).loftCopy = true) ∧
  (∃ (s : State) (c : CoreId), (s.core c).loftCopy = false) :=
   ⟨⟨({ State.reset with net := [{ kind := .commit, src := .core 1, dst := .sys, slot := 7, frame := 1 }], frames := State.reset.frames.set 7 [⟨1, 0, 0, 0, 0, [0, 1, 2], [0], false, []⟩] }),
     1, ({ kind := .commit, src := .core 1, dst := .sys, slot := 7, frame := 1 }),
     ({ State.reset with net := [], frames := State.reset.frames.set 7 [⟨1, 0, 0, 0, 0, [0, 1, 2], [0], false, []⟩] }),
     (⟨1, 0, 0, 0, 0, [0, 1, 2], [0], false, []⟩),
      by (conv => zeta); exact ⟨rfl, by decide +kernel⟩⟩,
   ⟨({ State.reset with net := [{ kind := .commit, src := .core 1, dst := .sys, slot := 7, frame := 1 }], frames := State.reset.frames.set 7 [⟨1, 0, 0, 0, 0, [0, 1], [0], false, []⟩] }),
     1, ({ kind := .commit, src := .core 1, dst := .sys, slot := 7, frame := 1 }),
     ({ State.reset with net := [], frames := State.reset.frames.set 7 [⟨1, 0, 0, 0, 0, [0, 1], [0], false, []⟩] }), (⟨1,
     0, 0, 0, 0, [0, 1], [0], false, []⟩),
      by (conv => zeta); exact ⟨rfl, by decide +kernel⟩⟩,
   ⟨({ State.reset with net := [{ kind := .commit, src := .core 1, dst := .sys, slot := 7, frame := 1 }], frames := State.reset.frames.set 7 [⟨1, 0, 0, 0, 0, [0, 1], [0], false, []⟩], trunks := State.reset.trunks.set 7 { TrunkSt.empty with devices := [(9, 9)] } }),
     1, ({ kind := .commit, src := .core 1, dst := .sys, slot := 7, frame := 1 }),
     ({ State.reset with net := [], frames := State.reset.frames.set 7 [⟨1, 0, 0, 0, 0, [0, 1], [0], false, []⟩], trunks := State.reset.trunks.set 7 { TrunkSt.empty with devices := [(9, 9)] } }),
     (⟨1, 0, 0, 0, 0, [0, 1], [0], false, []⟩),
      by (conv => zeta); exact ⟨rfl, by decide +kernel⟩⟩,
   ⟨({ State.reset with net := [{ kind := .ready, src := .dev 1 0 0, dst := .sys, slot := 7, frame := 1 }], frames := State.reset.frames.set 7 [⟨1, 0, 0, 0, 0, [0], [0], false, []⟩], trunks := State.reset.trunks.set 7 { TrunkSt.empty with devices := [State.reset.here, (1, 0)] } }),
     ({ kind := .ready, src := .dev 1 0 0, dst := .sys, slot := 7, frame := 1 }),
     ({ State.reset with net := [], frames := State.reset.frames.set 7 [⟨1, 0, 0, 0, 0, [0], [0], false, []⟩], trunks := State.reset.trunks.set 7 { TrunkSt.empty with devices := [State.reset.here, (1, 0)] } }),
     (⟨1, 0, 0, 0, 0, [0], [0], false, []⟩),
      by exact ⟨rfl, by decide +kernel⟩⟩,
   ⟨({ State.reset with net := [{ kind := .decision, src := .dev 1 0 0, dst := .sys, slot := 7, frame := 1 }], frames := State.reset.frames.set 7 [⟨1, 0, 0, 0, 0, [0], [0], false, []⟩], trunks := State.reset.trunks.set 7 { TrunkSt.empty with devices := [(1, 0)] } }),
     ({ kind := .decision, src := .dev 1 0 0, dst := .sys, slot := 7, frame := 1 }),
     ({ State.reset with net := [], frames := State.reset.frames.set 7 [⟨1, 0, 0, 0, 0, [0], [0], false, []⟩], trunks := State.reset.trunks.set 7 { TrunkSt.empty with devices := [(1, 0)] } }),
     (⟨1, 0, 0, 0, 0, [0], [0], false, []⟩),
      by exact ⟨rfl, by decide +kernel⟩⟩,
   ⟨7, by decide +kernel⟩,
   ⟨(c0 { CoreSt.reset with loftCopy := true }), 0, by decide +kernel⟩,
   ⟨State.reset, 0, by decide +kernel⟩⟩

theorem wit_FrameAbortResults :
  (∃ (s : State) (k : Idx8) (f : SlotFrame), ((s.slotFrames k.val).find? fun f => decide (f.dead ≤ s.time.cyc)) = some f ∧
    slotDevices s k.val = []) ∧
  (∃ (s : State) (k : Idx8), ((s.slotFrames k.val).find? fun f => decide (f.dead ≤ s.time.cyc)) = none) ∧
  (∃ (s : State) (c : CoreId) (m : Msg) (u : State), s.receive .trapReport (.core c) .sys = some (m, u) ∧ m.k ≠ 3 ∧ m.k ≠
    4 ∧ slotDevices s m.slot = [] ∧ ((s.slotFrames m.slot).any fun f => f.frame == m.frame) = true) ∧
  (∃ (s : State) (c : CoreId) (m : Msg) (u : State), s.receive .trapReport (.core c) .sys = some (m, u) ∧ m.k ≠ 3 ∧ m.k ≠
    4 ∧ ((s.slotFrames m.slot).any fun f => f.frame == m.frame) = false ∧ (s.core c).issue = .trapped) ∧
  (∃ (s : State) (src : Agent) (m : Msg) (u : State), s.receive .poisonReport src .sys = some (m, u) ∧ slotDevices s
    m.slot = [] ∧ ((s.slotFrames m.slot).any fun f => f.frame == m.frame) = true) ∧
  (∃ (s : State) (m : Msg) (u : State) (f : SlotFrame), sysTake .abortMsg s = some (m, u) ∧ coordinates s m.slot = false ∧
    ((s.slotFrames m.slot).find? fun f => f.frame == m.frame) = some f) ∧
  (∃ (s : State) (req : Requester) (k : Idx8) (f : SlotFrame), ((reqFn req = some 0 ∨ reqFn req = some (slotOwner s
    k.val))) ∧ trunkState s k.val = 4 ∧ (s.slotFrames k.val).getLast? = some f ∧ slotDevices s k.val = []) ∧
  (∃ (s : State) (k : Idx8), (trunkState s k.val ≠ 4 ∨ s.slotFrames k.val = [])) ∧
  (∃ (k : Nat), k < 8) ∧
  (∃ (s : State) (k : Nat) (n : BitVec 32), k < 8 ∧ ((s.slotFrames k).any fun f => f.frame == n) = false) :=
   ⟨⟨({ State.reset with frames := State.reset.frames.set 7 [⟨1, 0, 0, 0, 0, [0], [0], false, []⟩] }), 7, (⟨1, 0, 0, 0, 0,
     [0], [0], false, []⟩),
      by decide +kernel⟩,
   ⟨State.reset, 7, by decide +kernel⟩,
   ⟨({ State.reset with net := [{ kind := .trapReport, src := .core 1, dst := .sys, slot := 7, frame := 1, k := 1 }], frames := State.reset.frames.set 7 [⟨1, 0, 0, 0, 0, [0], [0], false, []⟩] }),
     1, ({ kind := .trapReport, src := .core 1, dst := .sys, slot := 7, frame := 1, k := 1 }),
     ({ State.reset with net := [], frames := State.reset.frames.set 7 [⟨1, 0, 0, 0, 0, [0], [0], false, []⟩] }),
      by exact ⟨rfl, by decide +kernel⟩⟩,
   ⟨({ c0 { CoreSt.reset with issue := .trapped } with net := ([{ kind := .trapReport, src := .core 0, dst := .sys, slot := 7, frame := 1, k := 2 }]) }),
     0, ({ kind := .trapReport, src := .core 0, dst := .sys, slot := 7, frame := 1, k := 2 }), (c0
     { CoreSt.reset with issue := .trapped }),
      by exact ⟨rfl, by decide +kernel⟩⟩,
   ⟨({ State.reset with net := [{ kind := .poisonReport, src := .mem, dst := .sys, slot := 7, frame := 1 }], frames := State.reset.frames.set 7 [⟨1, 0, 0, 0, 0, [0], [0], false, []⟩] }),
     .mem, ({ kind := .poisonReport, src := .mem, dst := .sys, slot := 7, frame := 1 }),
     ({ State.reset with net := [], frames := State.reset.frames.set 7 [⟨1, 0, 0, 0, 0, [0], [0], false, []⟩] }),
      by exact ⟨rfl, by decide +kernel⟩⟩,
   ⟨({ State.reset with net := [{ kind := .abortMsg, src := .dev 1 0 0, dst := .sys, slot := 7, frame := 1 }], frames := State.reset.frames.set 7 [⟨1, 0, 0, 0, 0, [0], [0], false, []⟩] }),
     ({ kind := .abortMsg, src := .dev 1 0 0, dst := .sys, slot := 7, frame := 1 }),
     ({ State.reset with net := [], frames := State.reset.frames.set 7 [⟨1, 0, 0, 0, 0, [0], [0], false, []⟩] }), (⟨1, 0,
     0, 0, 0, [0], [0], false, []⟩),
      by exact ⟨rfl, by decide +kernel⟩⟩,
   ⟨({ sr [(Reg.TRUNK_STAT + 0xE0, 4)] with frames := State.reset.frames.set 7 [⟨1, 0, 0, 0, 0, [0], [0], false, []⟩] }),
     .pf, 7, (⟨1, 0, 0, 0, 0, [0], [0], false, []⟩),
      by decide +kernel⟩,
   ⟨State.reset, 7, by decide +kernel⟩,
   ⟨7, by decide +kernel⟩,
   ⟨State.reset, 7, 1, by decide +kernel⟩⟩

theorem wit_SafeStateResults :
  (∃ (req : Requester), reqFn req ≠ some 0) ∧
  (∃ (s : State) (req : Requester), reqFn req = some 0 ∧ s.test.causes = [] ∧ isSafe s = false) ∧
  (∃ (s : State) (req : Requester), reqFn req = some 0 ∧ isSafe s = true ∧ s.test.causes.contains 5 = false) ∧
  (∃ (s : State) (req : Requester), reqFn req = some 0 ∧ s.test.causes.contains 5 = true) ∧
  (∃ (s : State) (req : Requester), reqFn req = some 0 ∧ ((∀ c, c ∈ s.test.causes → c = 5)) ∧ isSafe s = true ∧ toutOffNow
    s = false) ∧
  (∃ (s : State) (t : Int), t < s.regF Reg.TEMP_CFG 15 8) ∧
  (∃ (s : State) (t : Int), s.regF Reg.TEMP_CFG 15 8 ≤ t) ∧
  (∃ (s : State) (t : Int), s.regF Reg.TEMP_CFG 7 0 ≤ t ∧ s.test.hot = false) ∧
  (∃ (s : State) (t : Int), (t < s.regF Reg.TEMP_CFG 7 0 ∨ s.test.hot = true)) ∧
  (∃ (s : State) (t : Int), (s.regF Reg.TEMP_CFG 15 8 : Int) - 10 ≤ t) ∧
  (∃ (s : State) (t : Int), t < (s.regF Reg.TEMP_CFG 15 8 : Int) - 10) :=
   ⟨⟨(.vf 0), by decide +kernel⟩,
   ⟨State.reset, .pf, by decide +kernel⟩,
   ⟨(sr [(Reg.SAFE_STAT, 0x80000000)]), .pf, by decide +kernel⟩,
   ⟨({ sr [(Reg.SAFE_STAT, 0x80000000)] with test := ({ TestSt.reset with causes := [5] }) }), .pf, by decide +kernel⟩,
   ⟨({ sr [(Reg.SAFE_STAT, 0x80000000), (Reg.SAFE_CFG, 0)] with test := ({ TestSt.reset with causes := [5] }) }), .pf,
      by decide +kernel⟩,
   ⟨(sr [(Reg.TEMP_CFG, 0x7869)]), 119, by decide +kernel⟩,
   ⟨(sr [(Reg.TEMP_CFG, 0x7869)]), 120, by decide +kernel⟩,
   ⟨(sr [(Reg.TEMP_CFG, 0x7869)]), 105, by decide +kernel⟩,
   ⟨(sr [(Reg.TEMP_CFG, 0x7869)]), 104, by decide +kernel⟩,
   ⟨(sr [(Reg.TEMP_CFG, 0x7869)]), 110, by decide +kernel⟩,
   ⟨(sr [(Reg.TEMP_CFG, 0x7869)]), 109, by decide +kernel⟩⟩

theorem wit_RemoteResults :
  (∃ (src : Agent) (c : CoreId) (m : Msg) (s : State) (u : State),
    let t := if !reachable u c then trapDenied else if m.addr ≠ 0 then 0 else shelfCheck u c m.shelf m.slot m.idx 1 false
    let t := if t = 0 && m.addr = 0 && readsFault u c m.shelf m.idx 1 then trapRbFault else t
    s.receive .readReq src (.core c) = some (m, u) ∧ t ≠ 0) ∧
  (∃ (src : Agent) (c : CoreId) (m : Msg) (s : State) (u : State),
    let t := if !reachable u c then trapDenied else if m.addr ≠ 0 then 0 else shelfCheck u c m.shelf m.slot m.idx 1 false
    let t := if t = 0 && m.addr = 0 && readsFault u c m.shelf m.idx 1 then trapRbFault else t
    let r := if m.addr ≠ 0 then windowRead c (m.addr % 0x1000000 / 64) 9 u else shelfRead c m.shelf m.idx 9 u
    s.receive .readReq src (.core c) = some (m, u) ∧ t = 0 ∧ r.2.1 = true) ∧
  (∃ (src : Agent) (c : CoreId) (m : Msg) (s : State) (u : State),
    let t := if !reachable u c then trapDenied else if m.addr ≠ 0 then 0 else shelfCheck u c m.shelf m.slot m.idx 1 false
    let t := if t = 0 && m.addr = 0 && readsFault u c m.shelf m.idx 1 then trapRbFault else t
    let r := if m.addr ≠ 0 then windowRead c (m.addr % 0x1000000 / 64) 9 u else shelfRead c m.shelf m.idx 9 u
    s.receive .readReq src (.core c) = some (m, u) ∧ t = 0 ∧ r.2.1 = false) ∧
  (∃ (src : Agent) (c : CoreId) (m : Msg) (s : State) (u : State), s.receive .write src (.core c) = some (m, u) ∧
    reachable s c = true ∧ spendGrant (poolOf (s.core c) m.pool) src m.stamp = none) ∧
  (∃ (src : Agent) (c : CoreId) (m : Msg) (s : State) (u : State) (p : _),
    let v := u.modCore c fun k => setPool k m.pool p
    let t := shelfCheck v c m.shelf m.slot m.idx 1 true
    s.receive .write src (.core c) = some (m, u) ∧ reachable s c = true ∧ spendGrant (poolOf (s.core c) m.pool) src
      m.stamp = some p ∧ t ≠ 0) ∧
  (∃ (src : Agent) (c : CoreId) (m : Msg) (s : State) (u : State) (p : _),
    let v := u.modCore c fun k => setPool k m.pool p
    let t := shelfCheck v c m.shelf m.slot m.idx 1 true
    let cd := m.cd && seLoft (shelfEnt u c m.shelf) == 2
    s.receive .write src (.core c) = some (m, u) ∧ reachable s c = true ∧ spendGrant (poolOf (s.core c) m.pool) src
      m.stamp = some p ∧ t = 0 ∧ sePool (shelfEnt u c m.shelf) = m.pool ∧ cd = true) ∧
  (∃ (src : Agent) (c : CoreId) (m : Msg) (s : State) (u : State) (p : _),
    let v := u.modCore c fun k => setPool k m.pool p
    let t := shelfCheck v c m.shelf m.slot m.idx 1 true
    let cd := m.cd && seLoft (shelfEnt u c m.shelf) == 2
    s.receive .write src (.core c) = some (m, u) ∧ reachable s c = true ∧ spendGrant (poolOf (s.core c) m.pool) src
      m.stamp = some p ∧ t = 0 ∧ sePool (shelfEnt u c m.shelf) = m.pool ∧ cd = false ∧ src ≠ .grid) ∧
  (∃ (src : Agent) (c : CoreId) (m : Msg) (s : State) (u : State) (a : _), s.receive .readRsp src (.core c) = some (m, u)
    ∧ findActive (s.core c) m.seq = some a ∧ m.err ≠ 0) ∧
  (∃ (src : Agent) (c : CoreId) (m : Msg) (s : State) (u : State) (a : _), s.receive .readRsp src (.core c) = some (m, u)
    ∧ findActive (s.core c) m.seq = some a ∧ m.err = 0) ∧
  (∃ (src : Agent) (c : CoreId) (m : Msg) (s : State) (u : State) (a : _), s.receive .writeAck src (.core c) = some (m, u)
    ∧ findActive (s.core c) m.seq = some a) ∧
  (∃ (src : Agent) (c : CoreId) (m : Msg) (s : State) (u : State),
    let p := poolOf (s.core c) m.pool
    s.receive .creditReq src (.core c) = some (m, u) ∧ ((poolCap s c m.pool ≠ 0 ∧ fld (poolCfg s c m.pool) 20 18 =
      m.slot)) ∧ m.k ≤ poolCap s c m.pool ∧ p.queue.length < 64) ∧
  (∃ (src : Agent) (c : CoreId) (m : Msg) (s : State) (u : State), s.receive .creditReq src (.core c) = some (m, u) ∧
    ((poolCap s c m.pool ≠ 0 ∧ fld (poolCfg s c m.pool) 20 18 = m.slot)) ∧ poolCap s c m.pool < m.k) ∧
  (∃ (src : Agent) (c : CoreId) (m : Msg) (s : State) (u : State),
    let p := poolOf (s.core c) m.pool
    s.receive .creditReq src (.core c) = some (m, u) ∧ ((poolCap s c m.pool ≠ 0 ∧ fld (poolCfg s c m.pool) 20 18 =
      m.slot)) ∧ m.k ≤ poolCap s c m.pool ∧ 64 ≤ p.queue.length) ∧
  (∃ (c : CoreId) (s : State) (pool : Nat) (r : PoolReq) (rest : List PoolReq),
    let p := poolOf (s.core c) pool
    (poolOf (s.core c) pool).queue = r :: rest ∧ r.k ≤ p.avail) ∧
  (∃ (c : CoreId) (s : State) (pool : Nat) (r : PoolReq) (rest : List PoolReq),
    let p := poolOf (s.core c) pool
    (poolOf (s.core c) pool).queue = r :: rest ∧ p.avail < r.k) ∧
  (∃ (c : CoreId) (s : State) (pool : Nat) (i : Nat) (r : PoolReq), (poolOf (s.core c) pool).queue[i]? = some r) ∧
  (∃ (c : CoreId) (m : Msg) (s : State) (u : State) (t : CoreId) (a : Active), s.receive .creditAns (.core c) (.core t) =
    some (m, u) ∧ findActive (s.core t) m.seq = some a ∧ m.err ≠ 0) ∧
  (∃ (c : CoreId) (m : Msg) (s : State) (u : State) (t : CoreId) (a : Active), s.receive .creditAns (.core c) (.core t) =
    some (m, u) ∧ findActive (s.core t) m.seq = some a ∧ m.err = 0 ∧ m.k ≠ 0) ∧
  (∃ (src : Agent) (c : CoreId) (m : Msg) (s : State) (u : State), s.receive .signal src (.core c) = some (m, u) ∧ m.err ≠
    0) ∧
  (∃ (src : Agent) (c : CoreId) (m : Msg) (s : State) (u : State), s.receive .signal src (.core c) = some (m, u) ∧ m.err =
    0) ∧
  (∃ (c : CoreId) (m : Msg) (s : State) (u : State), s.receive .gateReport (.core c) .sys = some (m, u) ∧ u.receive
    .gateReport (.core c) .sys = none) :=
   ⟨⟨(.core 1), 0, ({ kind := .readReq, src := .core 1, dst := .core 0, shelf := 1 }),
     ({ atx 0 0x2001000100001 [] [] (CoreSt.reset) 0 0 with net := ([{ kind := .readReq, src := .core 1, dst := .core 0, shelf := 1 }]) }),
     (atx 0 0x2001000100001 [] [] (CoreSt.reset) 0 0),
      by (conv => zeta); exact ⟨rfl, by decide +kernel⟩⟩,
   ⟨(.core 1), 0, ({ kind := .readReq, src := .core 1, dst := .core 0, shelf := 1 }),
     ({ atx 0 0x2001000100001 [] [(coreOff Reg.CORE_STAT 0, 1)] ({ CoreSt.reset with spad := [(64, ⟨5, 1⟩)] }) 0 0 with net := ([{ kind := .readReq, src := .core 1, dst := .core 0, shelf := 1 }]) }),
     (atx 0 0x2001000100001 [] [(coreOff Reg.CORE_STAT 0, 1)] ({ CoreSt.reset with spad := [(64, ⟨5, 1⟩)] }) 0 0),
      by (conv => zeta); exact ⟨rfl, by decide +kernel⟩⟩,
   ⟨(.core 1), 0, ({ kind := .readReq, src := .core 1, dst := .core 0, shelf := 1 }),
     ({ atx 0 0x2001000100001 [] [(coreOff Reg.CORE_STAT 0, 1)] ({ CoreSt.reset with spad := [put 64 5] }) 0 0 with net := ([{ kind := .readReq, src := .core 1, dst := .core 0, shelf := 1 }]) }),
     (atx 0 0x2001000100001 [] [(coreOff Reg.CORE_STAT 0, 1)] ({ CoreSt.reset with spad := [put 64 5] }) 0 0),
      by (conv => zeta); exact ⟨rfl, by decide +kernel⟩⟩,
   ⟨(.core 1), 0, ({ kind := .write, src := .core 1, dst := .core 0, shelf := 1, pool := 1 }),
     ({ atx 0 0x2001000100001 [] [(coreOff Reg.CORE_STAT 0, 1)] (CoreSt.reset) 0 0 with net := ([{ kind := .write, src := .core 1, dst := .core 0, shelf := 1, pool := 1 }]) }),
     (atx 0 0x2001000100001 [] [(coreOff Reg.CORE_STAT 0, 1)] (CoreSt.reset) 0 0),
      by exact ⟨rfl, by decide +kernel⟩⟩,
   ⟨(.core 1), 0, ({ kind := .write, src := .core 1, dst := .core 0, shelf := 2, pool := 1 }),
     ({ atx 0 0x2001000100001 [] [(coreOff Reg.CORE_STAT 0, 1)] ({ CoreSt.reset with pools := CoreSt.reset.pools.set 1 ⟨0, [], [⟨.core 1, 0, 2⟩]⟩ }) 0 0 with net := ([{ kind := .write, src := .core 1, dst := .core 0, shelf := 2, pool := 1 }]) }),
     (atx 0 0x2001000100001 [] [(coreOff Reg.CORE_STAT 0, 1)]
     ({ CoreSt.reset with pools := CoreSt.reset.pools.set 1 ⟨0, [], [⟨.core 1, 0, 2⟩]⟩ }) 0 0), (⟨0, [], [⟨.core 1, 0,
     1⟩]⟩),
      by (conv => zeta); exact ⟨rfl, by decide +kernel⟩⟩,
   ⟨(.core 1), 0, ({ kind := .write, src := .core 1, dst := .core 0, shelf := 1, pool := 1, cd := true }),
     ({ atx 0 0x2001000100021 [] [(coreOff Reg.CORE_STAT 0, 1)] ({ CoreSt.reset with pools := CoreSt.reset.pools.set 1 ⟨0, [], [⟨.core 1, 0, 2⟩]⟩ }) 0 0 with net := ([{ kind := .write, src := .core 1, dst := .core 0, shelf := 1, pool := 1, cd := true }]) }),
     (atx 0 0x2001000100021 [] [(coreOff Reg.CORE_STAT 0, 1)]
     ({ CoreSt.reset with pools := CoreSt.reset.pools.set 1 ⟨0, [], [⟨.core 1, 0, 2⟩]⟩ }) 0 0), (⟨0, [], [⟨.core 1, 0,
     1⟩]⟩),
      by (conv => zeta); exact ⟨rfl, by decide +kernel⟩⟩,
   ⟨(.core 1), 0, ({ kind := .write, src := .core 1, dst := .core 0, shelf := 1, pool := 1, idx := 31 }),
     ({ atx 0 0x2001000100001 [] [(coreOff Reg.CORE_STAT 0, 1)] ({ CoreSt.reset with pools := CoreSt.reset.pools.set 1 ⟨0, [], [⟨.core 1, 0, 2⟩]⟩ }) 0 0 with net := ([{ kind := .write, src := .core 1, dst := .core 0, shelf := 1, pool := 1, idx := 31 }]) }),
     (atx 0 0x2001000100001 [] [(coreOff Reg.CORE_STAT 0, 1)]
     ({ CoreSt.reset with pools := CoreSt.reset.pools.set 1 ⟨0, [], [⟨.core 1, 0, 2⟩]⟩ }) 0 0), (⟨0, [], [⟨.core 1, 0,
     1⟩]⟩),
      by (conv => zeta); exact ⟨rfl, by decide +kernel⟩⟩,
   ⟨(.core 1), 0, ({ kind := .readRsp, src := .core 1, dst := .core 0, err := 1 }),
     ({ atx 0 0x2001000100001 [] [(coreOff Reg.CORE_STAT 0, 1)] ({ CoreSt.reset with active := [⟨⟨.wait, 5, 0, 0, 0x3FC01C5, 0, 0, 0, 0, 0, 0, 0, true, true⟩, [], 1, []⟩] }) 0 0 with net := ([{ kind := .readRsp, src := .core 1, dst := .core 0, err := 1 }]) }),
     (atx 0 0x2001000100001 [] [(coreOff Reg.CORE_STAT 0, 1)]
     ({ CoreSt.reset with active := [⟨⟨.wait, 5, 0, 0, 0x3FC01C5, 0, 0, 0, 0, 0, 0, 0, true, true⟩, [], 1, []⟩] }) 0 0),
     (⟨⟨.wait, 5, 0, 0, 0x3FC01C5, 0, 0, 0, 0, 0, 0, 0, true, true⟩, [], 1, []⟩),
      by exact ⟨rfl, by decide +kernel⟩⟩,
   ⟨.mem, 0, ({ kind := .readRsp, src := .mem, dst := .core 0 }),
     ({ atx 0 0x2001000100001 [] [(coreOff Reg.CORE_STAT 0, 1)] ({ CoreSt.reset with active := [⟨⟨.wait, 5, 0, 0, 0x3FC01C5, 0, 0, 0, 0, 0, 0, 0, true, true⟩, [], 1, []⟩] }) 0 0 with net := ([{ kind := .readRsp, src := .mem, dst := .core 0 }]) }),
     (atx 0 0x2001000100001 [] [(coreOff Reg.CORE_STAT 0, 1)]
     ({ CoreSt.reset with active := [⟨⟨.wait, 5, 0, 0, 0x3FC01C5, 0, 0, 0, 0, 0, 0, 0, true, true⟩, [], 1, []⟩] }) 0 0),
     (⟨⟨.wait, 5, 0, 0, 0x3FC01C5, 0, 0, 0, 0, 0, 0, 0, true, true⟩, [], 1, []⟩),
      by exact ⟨rfl, by decide +kernel⟩⟩,
   ⟨(.core 1), 0, ({ kind := .writeAck, src := .core 1, dst := .core 0 }),
     ({ atx 0 0x2001000100001 [] [(coreOff Reg.CORE_STAT 0, 1)] ({ CoreSt.reset with active := [⟨⟨.wait, 5, 0, 0, 0x3FC01C5, 0, 0, 0, 0, 0, 0, 0, true, true⟩, [], 1, []⟩] }) 0 0 with net := ([{ kind := .writeAck, src := .core 1, dst := .core 0 }]) }),
     (atx 0 0x2001000100001 [] [(coreOff Reg.CORE_STAT 0, 1)]
     ({ CoreSt.reset with active := [⟨⟨.wait, 5, 0, 0, 0x3FC01C5, 0, 0, 0, 0, 0, 0, 0, true, true⟩, [], 1, []⟩] }) 0 0),
     (⟨⟨.wait, 5, 0, 0, 0x3FC01C5, 0, 0, 0, 0, 0, 0, 0, true, true⟩, [], 1, []⟩),
      by exact ⟨rfl, by decide +kernel⟩⟩,
   ⟨(.core 1), 0, ({ kind := .creditReq, src := .core 1, dst := .core 0, pool := 1, k := 100 }),
     ({ atx 0 0x2001000100001 [(coreOff Reg.CREDIT_POOL 0, 100)] [(coreOff Reg.CORE_STAT 0, 1)] (CoreSt.reset) 0 0 with net := ([{ kind := .creditReq, src := .core 1, dst := .core 0, pool := 1, k := 100 }]) }),
     (atx 0 0x2001000100001 [(coreOff Reg.CREDIT_POOL 0, 100)] [(coreOff Reg.CORE_STAT 0, 1)] (CoreSt.reset) 0 0),
      by (conv => zeta); exact ⟨rfl, by decide +kernel⟩⟩,
   ⟨(.core 1), 0, ({ kind := .creditReq, src := .core 1, dst := .core 0, pool := 1, k := 101 }),
     ({ atx 0 0x2001000100001 [(coreOff Reg.CREDIT_POOL 0, 100)] [(coreOff Reg.CORE_STAT 0, 1)] (CoreSt.reset) 0 0 with net := ([{ kind := .creditReq, src := .core 1, dst := .core 0, pool := 1, k := 101 }]) }),
     (atx 0 0x2001000100001 [(coreOff Reg.CREDIT_POOL 0, 100)] [(coreOff Reg.CORE_STAT 0, 1)] (CoreSt.reset) 0 0),
      by exact ⟨rfl, by decide +kernel⟩⟩,
   ⟨(.core 1), 0, ({ kind := .creditReq, src := .core 1, dst := .core 0, pool := 1, k := 100 }),
     ({ atx 0 0x2001000100001 [(coreOff Reg.CREDIT_POOL 0, 100)] [(coreOff Reg.CORE_STAT 0, 1)] ({ CoreSt.reset with pools := CoreSt.reset.pools.set 1 ⟨0, (List.replicate 64 ⟨.core 1, 0, 0, 5⟩), []⟩ }) 0 0 with net := ([{ kind := .creditReq, src := .core 1, dst := .core 0, pool := 1, k := 100 }]) }),
     (atx 0 0x2001000100001 [(coreOff Reg.CREDIT_POOL 0, 100)] [(coreOff Reg.CORE_STAT 0, 1)]
     ({ CoreSt.reset with pools := CoreSt.reset.pools.set 1 ⟨0, (List.replicate 64 ⟨.core 1, 0, 0, 5⟩), []⟩ }) 0 0),
      by (conv => zeta); exact ⟨rfl, by decide +kernel⟩⟩,
   ⟨0, (c0 { CoreSt.reset with pools := CoreSt.reset.pools.set 1 ⟨5, [⟨.core 1, 0, 0, 5⟩], []⟩ }), 1, (⟨.core 1, 0, 0,
     5⟩), ([]),
      by (conv => zeta); decide +kernel⟩,
   ⟨0, (c0 { CoreSt.reset with pools := CoreSt.reset.pools.set 1 ⟨4, [⟨.core 1, 0, 0, 5⟩], []⟩ }), 1, (⟨.core 1, 0, 0,
     5⟩), ([]),
      by (conv => zeta); decide +kernel⟩,
   ⟨0, (c0 { CoreSt.reset with pools := CoreSt.reset.pools.set 1 ⟨0, [⟨.core 1, 0, 0, 5⟩], []⟩ }), 1, 0, (⟨.core 1, 0, 0,
     5⟩),
      by decide +kernel⟩,
   ⟨1, ({ kind := .creditAns, src := .core 1, dst := .core 0, err := 1 }),
     ({ c0 { CoreSt.reset with active := [⟨⟨.wait, 5, 0, 0, 0x3FC01C5, 0, 0, 0, 0, 0, 0, 0, true, true⟩, [], 1, []⟩] } with net := ([{ kind := .creditAns, src := .core 1, dst := .core 0, err := 1 }]) }),
     (c0 { CoreSt.reset with active := [⟨⟨.wait, 5, 0, 0, 0x3FC01C5, 0, 0, 0, 0, 0, 0, 0, true, true⟩, [], 1, []⟩] }), 0,
     (⟨⟨.wait, 5, 0, 0, 0x3FC01C5, 0, 0, 0, 0, 0, 0, 0, true, true⟩, [], 1, []⟩),
      by exact ⟨rfl, by decide +kernel⟩⟩,
   ⟨1, ({ kind := .creditAns, src := .core 1, dst := .core 0, k := 1 }),
     ({ c0 { CoreSt.reset with active := [⟨⟨.wait, 5, 0, 0, 0x3FC01C5, 0, 0, 0, 0, 0, 0, 0, true, true⟩, [], 1, []⟩] } with net := ([{ kind := .creditAns, src := .core 1, dst := .core 0, k := 1 }]) }),
     (c0 { CoreSt.reset with active := [⟨⟨.wait, 5, 0, 0, 0x3FC01C5, 0, 0, 0, 0, 0, 0, 0, true, true⟩, [], 1, []⟩] }), 0,
     (⟨⟨.wait, 5, 0, 0, 0x3FC01C5, 0, 0, 0, 0, 0, 0, 0, true, true⟩, [], 1, []⟩),
      by exact ⟨rfl, by decide +kernel⟩⟩,
   ⟨(.core 1), 0, ({ kind := .signal, src := .core 1, dst := .core 0, err := 1 }),
     ({ atx 0 0x2001000100001 [] [(coreOff Reg.CORE_STAT 0, 1)] (CoreSt.reset) 0 0 with net := ([{ kind := .signal, src := .core 1, dst := .core 0, err := 1 }]) }),
     (atx 0 0x2001000100001 [] [(coreOff Reg.CORE_STAT 0, 1)] (CoreSt.reset) 0 0),
      by exact ⟨rfl, by decide +kernel⟩⟩,
   ⟨(.core 1), 0, ({ kind := .signal, src := .core 1, dst := .core 0 }),
     ({ atx 0 0x2001000100001 [] [(coreOff Reg.CORE_STAT 0, 1)] (CoreSt.reset) 0 0 with net := ([{ kind := .signal, src := .core 1, dst := .core 0 }]) }),
     (atx 0 0x2001000100001 [] [(coreOff Reg.CORE_STAT 0, 1)] (CoreSt.reset) 0 0),
      by exact ⟨rfl, by decide +kernel⟩⟩,
   ⟨35, ({ kind := .gateReport, src := .core 35, dst := .sys }),
     ({ State.reset with net := [{ kind := .gateReport, src := .core 35, dst := .sys }] }),
     ({ State.reset with net := [] }),
      by exact ⟨rfl, by decide +kernel⟩⟩⟩

theorem wit_HostInterfaceResults :
  (∃ (s : State) (q : QueueId) (v : Half), (hqOn s q.val = false ∨ v.toNat % 4096 < hqSize s q.val)) ∧
  (∃ (s : State) (q : QueueId) (v : Half), hqOn s q.val = true ∧ hqSize s q.val ≤ v.toNat % 4096) ∧
  (∃ (s : State) (q : QueueId) (b : List Nat), hqCan s q.val = true ∧ hqMine s q.val = [] ∧ ((List.range 64).any fun r =>
    r != q.val && hqCan s r && (hqMine s r).isEmpty && hqBefore s r q.val) = false ∧ leAt b 0 1 ≠ 3) ∧
  (∃ (s : State) (q : QueueId) (d : HqDesc) (r : List HqDesc), hqMine s q.val = d :: r ∧ hqRoom s q.val = true ∧ (d.status
    = 1 ∨ d.status = 2 ∨ d.op = 4)) ∧
  (∃ (s : State) (q : QueueId) (d : HqDesc) (r : List HqDesc), hqMine s q.val = d :: r ∧ hqRoom s q.val = true ∧ d.status
    = 0 ∧ d.op = 1 ∧ d.hostErr = none ∧ hqHeld s d = false) ∧
  (∃ (s : State) (q : QueueId) (d : HqDesc) (r : List HqDesc), hqMine s q.val = d :: r ∧ hqRoom s q.val = true ∧ d.status
    = 0 ∧ d.op = 2 ∧ hqHeld s d = false) ∧
  (∃ (s : State) (q : QueueId), hqMine s q.val = []) ∧
  (∃ (s : State) (f : Fin 9), ((∀ q, q < 64 → hqOwner s q ≠ f.val)) ∧ ((∀ k : Idx8, f.val ≠ 0 → slotOwner s k.val ≠
    f.val))) ∧
  (∃ (s : State), s.pcie.inReset = false ∧ domRun s 43 = true ∧ bitOf (s.reg Reg.CLK_STAT) 12 = true) ∧
  (∃ (s : State) (off : Nat) (data : List Nat), s.pcie.linkUp = true ∧ s.regF Reg.SEC_BOOT_STAT 2 0 ≠ 2 ∧ bar2Addr s off +
    data.length ≤ memBytes s ∧ memHeld s (bar2Addr s off / 64 * 64) (cdiv (bar2Addr s off % 64 + data.length) 64) = false) ∧
  (∃ (s : State) (off : Nat) (n : Nat), s.pcie.linkUp = true ∧ s.regF Reg.SEC_BOOT_STAT 2 0 ≠ 2 ∧ bar2Addr s off + n ≤
    memBytes s ∧ memHeld s (bar2Addr s off / 64 * 64) (cdiv (bar2Addr s off % 64 + n) 64) = false) ∧
  (∃ (s : State) (off : Nat) (data : List Nat), s.pcie.linkUp = true ∧ s.regF Reg.SEC_BOOT_STAT 2 0 ≠ 2 ∧ memBytes s <
    bar2Addr s off + data.length) ∧
  (∃ (s : State) (off : Nat) (n : Nat), s.pcie.linkUp = true ∧ s.regF Reg.SEC_BOOT_STAT 2 0 ≠ 2 ∧ memBytes s < bar2Addr s
    off + n) ∧
  (∃ (s : State) (req : Requester) (c : CoreId) (v : Word), (req = .pf ∨ req = .sc) ∧ domState s c.val < 2 ∧ shelfLayoutOk
    (v &&& 0x1FFFFFFFFFFFFF) = true ∧ bitOf (s.reg Reg.FRAME_STAT) 1 = false) ∧
  (∃ (s : State) (src : Agent) (c : CoreId) (line : Nat) (i : Nat) (j : Nat) (q : Pool), reachable s c = true ∧ line <
    131072 ∧ pooledAt s c line = some (i, j) ∧ spendGrant (poolOf (s.core c) (sePool (shelfEnt s c i))) src (frameStamp s)
    = some q) ∧
  (∃ (s : State) (c : CoreId) (line : Nat), pooledAt s c line = none) :=
   ⟨⟨State.reset, 63, 0, by decide +kernel⟩,
   ⟨(sr [(hqOff Reg.HQ_CFG 0, 0x80000040), (hqOff Reg.HQ_SQ_HEAD 0, 0), (hqOff Reg.HQ_SQ_TAIL 0, 1), (hqOff Reg.HQ_CQ_TAIL
     0, 0), (hqOff Reg.HQ_CQ_HEAD 0, 1)]), 0, 64,
      by decide +kernel⟩,
   ⟨({ sr [(hqOff Reg.HQ_CFG 0, 0x80000040), (hqOff Reg.HQ_SQ_HEAD 0, 0), (hqOff Reg.HQ_SQ_TAIL 0, 1), (hqOff Reg.HQ_CQ_TAIL 0, 0), (hqOff Reg.HQ_CQ_HEAD 0, 1), (Reg.PWR_DOM_STAT + 8 * 43, 0)] with pcie := ({ State.reset.pcie with linkUp := true }), hq := ({ HqSt.reset with descs := [] }) }),
     0, (List.replicate 64 1),
      by decide +kernel⟩,
   ⟨({ sr [(hqOff Reg.HQ_CFG 0, 0x80000040), (hqOff Reg.HQ_SQ_HEAD 0, 0), (hqOff Reg.HQ_SQ_TAIL 0, 1), (hqOff Reg.HQ_CQ_TAIL 0, 0), (hqOff Reg.HQ_CQ_HEAD 0, 1), (Reg.PWR_DOM_STAT + 8 * 41, 0), (Reg.PWR_DOM_STAT + 8 * 42, 0)] with pcie := ({ State.reset.pcie with linkUp := true }), hq := ({ HqSt.reset with descs := [⟨0, 0, 0, 4, 0, 0, 1, 0, 0, 0, 0, [], none, [], 0, 0, 0, 0, false⟩] }), mem := ({ State.reset.mem with capGib := 4 }) }),
     0, (⟨0, 0, 0, 4, 0, 0, 1, 0, 0, 0, 0, [], none, [], 0, 0, 0, 0, false⟩), ([]),
      by decide +kernel⟩,
   ⟨({ sr [(hqOff Reg.HQ_CFG 0, 0x80000040), (hqOff Reg.HQ_SQ_HEAD 0, 0), (hqOff Reg.HQ_SQ_TAIL 0, 1), (hqOff Reg.HQ_CQ_TAIL 0, 0), (hqOff Reg.HQ_CQ_HEAD 0, 1), (Reg.PWR_DOM_STAT + 8 * 41, 0), (Reg.PWR_DOM_STAT + 8 * 42, 0)] with pcie := ({ State.reset.pcie with linkUp := true }), hq := ({ HqSt.reset with descs := [⟨0, 0, 0, 1, 0, 0, 1, 0, 0, 0, 0, [], none, [], 0, 0, 0, 0, false⟩] }), mem := ({ State.reset.mem with capGib := 4 }) }),
     0, (⟨0, 0, 0, 1, 0, 0, 1, 0, 0, 0, 0, [], none, [], 0, 0, 0, 0, false⟩), ([]),
      by decide +kernel⟩,
   ⟨({ sr [(hqOff Reg.HQ_CFG 0, 0x80000040), (hqOff Reg.HQ_SQ_HEAD 0, 0), (hqOff Reg.HQ_SQ_TAIL 0, 1), (hqOff Reg.HQ_CQ_TAIL 0, 0), (hqOff Reg.HQ_CQ_HEAD 0, 1), (Reg.PWR_DOM_STAT + 8 * 41, 0), (Reg.PWR_DOM_STAT + 8 * 42, 0)] with pcie := ({ State.reset.pcie with linkUp := true }), hq := ({ HqSt.reset with descs := [⟨0, 0, 0, 2, 0, 0, 1, 0, 0, 0, 0, [], none, [], 0, 0, 0, 0, false⟩] }), mem := ({ State.reset.mem with capGib := 4 }) }),
     0, (⟨0, 0, 0, 2, 0, 0, 1, 0, 0, 0, 0, [], none, [], 0, 0, 0, 0, false⟩), ([]),
      by decide +kernel⟩,
   ⟨State.reset, 63, by decide +kernel⟩,
   ⟨State.reset, 8, by decide +kernel⟩,
   ⟨({ sr [(Reg.PWR_DOM_STAT + 8 * 43, 0), (Reg.CLK_STAT, 0x1000)] with pcie := ({ State.reset.pcie with inReset := false }) }),
      by decide +kernel⟩,
   ⟨({ sr [(Reg.PWR_DOM_STAT + 8 * 41, 0), (Reg.PWR_DOM_STAT + 8 * 42, 0)] with pcie := ({ State.reset.pcie with linkUp := true }), hq := ({ HqSt.reset with descs := [] }), mem := ({ State.reset.mem with capGib := 4 }) }),
     0, ([1, 2]),
      by decide +kernel⟩,
   ⟨({ sr [(Reg.PWR_DOM_STAT + 8 * 41, 0), (Reg.PWR_DOM_STAT + 8 * 42, 0)] with pcie := ({ State.reset.pcie with linkUp := true }), hq := ({ HqSt.reset with descs := [] }), mem := ({ State.reset.mem with capGib := 4 }) }),
     0, 64,
      by decide +kernel⟩,
   ⟨({ sr [(Reg.PWR_DOM_STAT + 8 * 41, 0), (Reg.PWR_DOM_STAT + 8 * 42, 0)] with pcie := ({ State.reset.pcie with linkUp := true }), hq := ({ HqSt.reset with descs := [] }) }),
     0, ([1]),
      by decide +kernel⟩,
   ⟨({ sr [(Reg.PWR_DOM_STAT + 8 * 41, 0), (Reg.PWR_DOM_STAT + 8 * 42, 0)] with pcie := ({ State.reset.pcie with linkUp := true }), hq := ({ HqSt.reset with descs := [] }) }),
     0, 1,
      by decide +kernel⟩,
   ⟨(sr [(Reg.PWR_DOM_STAT + 8 * 35, 1)]), .pf, 35, 0x2001000100001, by decide +kernel⟩,
   ⟨(atx 0 0x2001000100001 [] [(coreOff Reg.CORE_STAT 0, 1)]
     ({ CoreSt.reset with pools := CoreSt.reset.pools.set 1 ⟨0, [], [⟨.core 1, 0, 1⟩]⟩ }) 0 0), (.core 1), 0, 95, 1, 31,
     (⟨0, [], []⟩),
      by decide +kernel⟩,
   ⟨State.reset, 35, 0, by decide +kernel⟩⟩

theorem wit_TrunkResults :
  (∃ (s : State) (f : Nat) (rest : List Nat),
    let bs := mboxBytes s f
    let code := leAt bs 0 2
    s.mbox = f :: rest ∧ code ∉ mboxCodes) ∧
  (∃ (s : State) (f : Nat) (rest : List Nat),
    let bs := mboxBytes s f
    let code := leAt bs 0 2
    s.mbox = f :: rest ∧ code = 0x0001) ∧
  (∃ (s : State) (f : Nat) (rest : List Nat),
    let bs := mboxBytes s f
    let code := leAt bs 0 2
    s.mbox = f :: rest ∧ code = 0x0050 ∧ f = 0 ∧ leAt bs 8 1 ≤ 15) ∧
  (∃ (s : State) (f : Nat) (rest : List Nat),
    let bs := mboxBytes s f
    let code := leAt bs 0 2
    s.mbox = f :: rest ∧ code = 0x0050 ∧ f ≠ 0) ∧
  (∃ (s : State) (f : Nat) (rest : List Nat),
    let bs := mboxBytes s f
    let code := leAt bs 0 2
    s.mbox = f :: rest ∧ code = 0x0014 ∧ leAt bs 8 1 ≤ 7) ∧
  (∃ (s : State) (f : Nat) (rest : List Nat) (k : Idx8),
    let bs := mboxBytes s f
    let code := leAt bs 0 2
    s.mbox = f :: rest ∧ leAt bs 8 1 = k.val ∧ f ≠ 0 ∧ slotOwner s k.val ≠ f ∧ code = 0x0010) ∧
  (∃ (s : State) (f : Nat) (rest : List Nat) (k : Idx8),
    let bs := mboxBytes s f
    let code := leAt bs 0 2
    s.mbox = f :: rest ∧ leAt bs 8 1 = k.val ∧ f ≠ 0 ∧ slotOwner s k.val ≠ f ∧ code = 0x0011) ∧
  (∃ (s : State) (f : Nat) (rest : List Nat) (k : Idx8),
    let bs := mboxBytes s f
    let code := leAt bs 0 2
    s.mbox = f :: rest ∧ leAt bs 8 1 = k.val ∧ f ≠ 0 ∧ slotOwner s k.val ≠ f ∧ code = 0x0012) ∧
  (∃ (s : State) (f : Nat) (rest : List Nat) (k : Idx8),
    let bs := mboxBytes s f
    let code := leAt bs 0 2
    s.mbox = f :: rest ∧ leAt bs 8 1 = k.val ∧ f ≠ 0 ∧ slotOwner s k.val ≠ f ∧ code = 0x0013) ∧
  (∃ (s : State) (f : Nat) (rest : List Nat) (k : Idx8),
    let bs := mboxBytes s f
    let code := leAt bs 0 2
    s.mbox = f :: rest ∧ leAt bs 8 1 = k.val ∧ (f = 0 ∨ slotOwner s k.val = f) ∧ code = 0x0010 ∧ leAt bs 16 8 + leAt bs 24
      4 ≤ memBytes s ∧ trunkState s k.val = 0) ∧
  (∃ (s : State) (f : Nat) (rest : List Nat) (k : Idx8) (v : _) (place : _),
    let bs := mboxBytes s f
    let code := leAt bs 0 2
    s.mbox = f :: rest ∧ leAt bs 8 1 = k.val ∧ (f = 0 ∨ slotOwner s k.val = f) ∧ code = 0x0011 ∧ trunkState s k.val = 2 ∧
      s.loftLost.contains k.val = false ∧ chooseVariant s k = .inr v ∧ choosePlace s k v = some place) ∧
  (∃ (s : State) (f : Nat) (rest : List Nat) (k : Idx8),
    let bs := mboxBytes s f
    let code := leAt bs 0 2
    s.mbox = f :: rest ∧ leAt bs 8 1 = k.val ∧ (f = 0 ∨ slotOwner s k.val = f) ∧ code = 0x0012 ∧ trunkState s k.val = 4) ∧
  (∃ (s : State) (f : Nat) (rest : List Nat) (k : Idx8),
    let bs := mboxBytes s f
    let code := leAt bs 0 2
    s.mbox = f :: rest ∧ leAt bs 8 1 = k.val ∧ (f = 0 ∨ slotOwner s k.val = f) ∧ code = 0x0012 ∧ trunkState s k.val ≠ 4) ∧
  (∃ (s : State) (f : Nat) (rest : List Nat) (k : Idx8),
    let bs := mboxBytes s f
    let code := leAt bs 0 2
    s.mbox = f :: rest ∧ leAt bs 8 1 = k.val ∧ (f = 0 ∨ slotOwner s k.val = f) ∧ code = 0x0013 ∧ trunkState s k.val = 2) ∧
  (∃ (s : State) (k : Idx8), trunkState s k.val = 3 ∧ (s.trunk k).copied = false ∧ ((s.trunk k).place.all fun c => domRun
    s c.val) = true ∧ (s.trunk k).devices = []) ∧
  (∃ (s : State) (k : Idx8), trunkState s k.val = 3 ∧ (s.trunk k).copied = false ∧ ((s.trunk k).place.all fun c => domRun
    s c.val) = true ∧ (s.trunk k).devices = [] ∧ (s.trunk k).fresh = []) :=
   ⟨⟨({ sr [(mboxOff 0 0, 153), (mboxOff 0 2, 7)] with mbox := ([0]) }), 0, ([]), by (conv => zeta); decide +kernel⟩,
   ⟨({ sr [(mboxOff 0 0, 1), (mboxOff 0 2, 7)] with mbox := ([0]) }), 0, ([]), by (conv => zeta); decide +kernel⟩,
   ⟨({ sr [(mboxOff 0 0, 80), (mboxOff 0 2, 15)] with mbox := ([0]) }), 0, ([]), by (conv => zeta); decide +kernel⟩,
   ⟨({ sr [(mboxOff 1 0, 80), (mboxOff 1 2, 7)] with mbox := ([1]) }), 1, ([]), by (conv => zeta); decide +kernel⟩,
   ⟨({ sr [(mboxOff 0 0, 20), (mboxOff 0 2, 7)] with mbox := ([0]) }), 0, ([]), by (conv => zeta); decide +kernel⟩,
   ⟨({ sr [(mboxOff 1 0, 16), (mboxOff 1 2, 7)] with mbox := ([1]) }), 1, ([]), 7, by (conv => zeta); decide +kernel⟩,
   ⟨({ sr [(mboxOff 1 0, 17), (mboxOff 1 2, 7)] with mbox := ([1]) }), 1, ([]), 7, by (conv => zeta); decide +kernel⟩,
   ⟨({ sr [(mboxOff 1 0, 18), (mboxOff 1 2, 7)] with mbox := ([1]) }), 1, ([]), 7, by (conv => zeta); decide +kernel⟩,
   ⟨({ sr [(mboxOff 1 0, 19), (mboxOff 1 2, 7)] with mbox := ([1]) }), 1, ([]), 7, by (conv => zeta); decide +kernel⟩,
   ⟨({ sr [(mboxOff 0 0, 16), (mboxOff 0 2, 7)] with mbox := ([0]) }), 0, ([]), 7, by (conv => zeta); decide +kernel⟩,
   ⟨({ sr [(mboxOff 0 0, 17), (mboxOff 0 2, 7), (Reg.TRUNK_STAT + 0xE0, 2)] with mbox := ([0]), trunks := State.reset.trunks.set 7 { TrunkSt.empty with nLog := [0] } }),
     0, ([]), 7, 0, ([]),
      by (conv => zeta); decide +kernel⟩,
   ⟨({ sr [(mboxOff 0 0, 18), (mboxOff 0 2, 7), (Reg.TRUNK_STAT + 0xE0, 4)] with mbox := ([0]) }), 0, ([]), 7,
      by (conv => zeta); decide +kernel⟩,
   ⟨({ sr [(mboxOff 0 0, 18), (mboxOff 0 2, 7)] with mbox := ([0]) }), 0, ([]), 7, by (conv => zeta); decide +kernel⟩,
   ⟨({ sr [(mboxOff 0 0, 19), (mboxOff 0 2, 7), (Reg.TRUNK_STAT + 0xE0, 2)] with mbox := ([0]) }), 0, ([]), 7,
      by (conv => zeta); decide +kernel⟩,
   ⟨(sr [(Reg.TRUNK_STAT + 0xE0, 3)]), 7, by decide +kernel⟩,
   ⟨(sr [(Reg.TRUNK_STAT + 0xE0, 3)]), 7, by decide +kernel⟩⟩

theorem wit_MapStoreResults :
  (∃ (s : State) (m : Msg) (rest : List Msg) (c : CoreId) (o : Op), domRun s 39 = true ∧ s.map.loading = false ∧
    s.map.ctx.length < 8 ∧
    (takeFirst (fun m : Msg => m.kind == .gather && (match gatherOp s m with | some (_, o) => !s.map.clearing.contains (fld o.w1 4 0) | none => true)) s.net = some (m, rest))
    ∧ gatherOp s m = some (c, o)) ∧
  (∃ (s : State) (i : Nat) (p : Nat) (sel : Nat) (no : Nat) (k : MapCtx) (fly : List (Nat × Nat × Nat)),
    let a := mdAddr k.w0 ((k.idx[p]?).getD 0) sel
    s.map.ctx = [k] ∧ i = 0 ∧ k.rest = [] ∧ takeFirst (fun f : Nat × Nat × Nat => f.1 == p) k.fly = some ((p, sel, no),
      fly) ∧ memHeld s a (mdLines k.w0) = false) ∧
  (∃ (s : State) (base : Nat) (n : Nat),
    let h := s.regF Reg.MAP_UPD_HEAD 15 0
    let g := memGet (base + 16 * h) 16 s
    let t := leAt g.1 4 1
    let d := mapDir s (t % 32)
    updRing s = some (base, n) ∧ domRun s 39 = true ∧ s.map.loading = false ∧ s.map.upd = none ∧ h ≠ s.regF
      Reg.MAP_UPD_TAIL 15 0 % n ∧ memHeld s (base + 16 * h - (base + 16 * h) % 64) 1 = false ∧ s.map.clearing.contains t =
      false ∧ (g.2.1 = true ∨ updBad g.2.2 g.1 d = true)) ∧
  (∃ (s : State) (base : Nat) (n : Nat),
    let h := s.regF Reg.MAP_UPD_HEAD 15 0
    let g := memGet (base + 16 * h) 16 s
    let row := leAt g.1 0 4
    let t := leAt g.1 4 1
    let src := leAt g.1 8 8
    let d := mapDir s (t % 32)
    let job : UpdJob := ⟨row, t, d.1, d.2, src, false⟩
    let u := g.2.2.modMap fun m => { m with upd := some job }
    let dst := mdAddr d.1 row (1 - mapSel u d.1 d.2 row)
    updRing s = some (base, n) ∧ domRun s 39 = true ∧ s.map.loading = false ∧ s.map.upd = none ∧ h ≠ s.regF
      Reg.MAP_UPD_TAIL 15 0 % n ∧ memHeld s (base + 16 * h - (base + 16 * h) % 64) 1 = false ∧ s.map.clearing.contains t =
      false ∧ g.2.1 = false ∧ updBad g.2.2 g.1 d = false ∧ slotBusy u dst = true) ∧
  (∃ (s : State) (base : Nat) (n : Nat),
    let h := s.regF Reg.MAP_UPD_HEAD 15 0
    let g := memGet (base + 16 * h) 16 s
    let row := leAt g.1 0 4
    let t := leAt g.1 4 1
    let src := leAt g.1 8 8
    let d := mapDir s (t % 32)
    let ls := mdLines d.1
    let job : UpdJob := ⟨row, t, d.1, d.2, src, false⟩
    let u := g.2.2.modMap fun m => { m with upd := some job }
    let dst := mdAddr d.1 row (1 - mapSel u d.1 d.2 row)
    let x := memReadN src ls u
    updRing s = some (base, n) ∧ domRun s 39 = true ∧ s.map.loading = false ∧ s.map.upd = none ∧ h ≠ s.regF
      Reg.MAP_UPD_TAIL 15 0 % n ∧ memHeld s (base + 16 * h - (base + 16 * h) % 64) 1 = false ∧ s.map.clearing.contains t =
      false ∧ g.2.1 = false ∧ updBad g.2.2 g.1 d = false ∧ slotBusy u dst = false ∧ memHeld u src ls = false ∧ memHeld u
      dst ls = false ∧ (x.1.any (·.poison)) = true) ∧
  (∃ (s : State) (base : Nat) (n : Nat),
    let h := s.regF Reg.MAP_UPD_HEAD 15 0
    let g := memGet (base + 16 * h) 16 s
    let row := leAt g.1 0 4
    let t := leAt g.1 4 1
    let src := leAt g.1 8 8
    let d := mapDir s (t % 32)
    let ls := mdLines d.1
    let job : UpdJob := ⟨row, t, d.1, d.2, src, false⟩
    let u := g.2.2.modMap fun m => { m with upd := some job }
    let dst := mdAddr d.1 row (1 - mapSel u d.1 d.2 row)
    let x := memReadN src ls u
    updRing s = some (base, n) ∧ domRun s 39 = true ∧ s.map.loading = false ∧ s.map.upd = none ∧ h ≠ s.regF
      Reg.MAP_UPD_TAIL 15 0 % n ∧ memHeld s (base + 16 * h - (base + 16 * h) % 64) 1 = false ∧ s.map.clearing.contains t =
      false ∧ g.2.1 = false ∧ updBad g.2.2 g.1 d = false ∧ slotBusy u dst = false ∧ memHeld u src ls = false ∧ memHeld u
      dst ls = false ∧ (x.1.any (·.poison)) = false ∧ s.map.flips.length < 1024) ∧
  (∃ (s : State), s.map.loading = true ∧ domRun s 39 = true ∧ s.regF Reg.MAP_SEL_MIRROR 39 0 = 0) ∧
  (∃ (s : State), s.map.loading = true ∧ domRun s 39 = true ∧ s.regF Reg.MAP_SEL_MIRROR 39 0 ≠ 0) :=
   ⟨⟨({ sa [(Reg.PWR_DOM_STAT + 8 * 39, 0)] [] with map := ({ MapSt.reset with loading := false }), net := ([{ kind := .gather, src := .core 0, dst := .map }]), cores := State.reset.cores.set 0 { CoreSt.reset with active := [⟨⟨.wait, 5, 0, 0, 0x3FC01C5, 0, 0, 0, 0, 0, 0, 0, true, true⟩, [], 1, []⟩] } }),
     ({ kind := .gather, src := .core 0, dst := .map }), ([]), 0, (⟨.wait, 5, 0, 0, 0x3FC01C5, 0, 0, 0, 0, 0, 0, 0, true,
     true⟩),
      by decide +kernel⟩,
   ⟨({ sa [(Reg.PWR_DOM_STAT + 8 * 39, 0), (Reg.PWR_DOM_STAT + 8 * 41, 0), (Reg.PWR_DOM_STAT + 8 * 42, 0)] [] with map := ({ MapSt.reset with ctx := [⟨0, 0, 0, 0, 0x4000000001000, 1, 0, [0], [], [], [], [(0, 0, 0)], [], [], false, false, false⟩] }), mem := ({ State.reset.mem with capGib := 4, lines := [ln 0x1000 5] }) }),
     0, 0, 0, 0, (⟨0, 0, 0, 0, 0x4000000001000, 1, 0, [0], [], [], [], [(0, 0, 0)], [], [], false, false, false⟩), ([]),
      by (conv => zeta); decide +kernel⟩,
   ⟨({ sa [(Reg.PWR_DOM_STAT + 8 * 39, 0), (Reg.PWR_DOM_STAT + 8 * 41, 0), (Reg.PWR_DOM_STAT + 8 * 42, 0), (Reg.MAP_UPD_CFG, 0x80000040), (Reg.MAP_UPD_BASE, 0), (Reg.MAP_UPD_HEAD, 0), (Reg.MAP_UPD_TAIL, 1)] [(Reg.MAP_DIR0, 0xC404000001000), (Reg.MAP_DIR1, 1)] with map := ({ MapSt.reset with loading := false }), mem := ({ State.reset.mem with capGib := 4, lines := [(0, ⟨5, 1⟩)] }) }),
     0, 64,
      by (conv => zeta); decide +kernel⟩,
   ⟨({ sa [(Reg.PWR_DOM_STAT + 8 * 39, 0), (Reg.PWR_DOM_STAT + 8 * 41, 0), (Reg.PWR_DOM_STAT + 8 * 42, 0), (Reg.MAP_UPD_CFG, 0x80000040), (Reg.MAP_UPD_BASE, 0), (Reg.MAP_UPD_HEAD, 0), (Reg.MAP_UPD_TAIL, 1)] [(Reg.MAP_DIR0, 0xC404000001000), (Reg.MAP_DIR1, 1)] with map := ({ MapSt.reset with ctx := [⟨0, 0, 0, 0, 0xC404000001000, 1, 0, [0], [], [], [], [(0, 1, 0)], [], [], false, false, false⟩] }), mem := ({ State.reset.mem with capGib := 4, lines := [ln 0 0x400000000000000000] }) }),
     0, 64,
      by (conv => zeta); decide +kernel⟩,
   ⟨({ sa [(Reg.PWR_DOM_STAT + 8 * 39, 0), (Reg.PWR_DOM_STAT + 8 * 41, 0), (Reg.PWR_DOM_STAT + 8 * 42, 0), (Reg.MAP_UPD_CFG, 0x80000040), (Reg.MAP_UPD_BASE, 0), (Reg.MAP_UPD_HEAD, 0), (Reg.MAP_UPD_TAIL, 1)] [(Reg.MAP_DIR0, 0xC404000001000), (Reg.MAP_DIR1, 1)] with map := ({ MapSt.reset with loading := false }), mem := ({ State.reset.mem with capGib := 4, lines := [ln 0 0x400000000000000000, (1, ⟨5, 0⟩)] }) }),
     0, 64,
      by (conv => zeta); decide +kernel⟩,
   ⟨({ sa [(Reg.PWR_DOM_STAT + 8 * 39, 0), (Reg.PWR_DOM_STAT + 8 * 41, 0), (Reg.PWR_DOM_STAT + 8 * 42, 0), (Reg.MAP_UPD_CFG, 0x80000040), (Reg.MAP_UPD_BASE, 0), (Reg.MAP_UPD_HEAD, 0), (Reg.MAP_UPD_TAIL, 1)] [(Reg.MAP_DIR0, 0xC404000001000), (Reg.MAP_DIR1, 1)] with map := ({ MapSt.reset with loading := false }), mem := ({ State.reset.mem with capGib := 4, lines := [ln 0 0x400000000000000000, ln 64 5] }) }),
     0, 64,
      by (conv => zeta); decide +kernel⟩,
   ⟨({ sa [(Reg.PWR_DOM_STAT + 8 * 39, 0)] [] with map := ({ MapSt.reset with loading := true }) }), by decide +kernel⟩,
   ⟨({ sa [(Reg.PWR_DOM_STAT + 8 * 39, 0), (Reg.MAP_SEL_MIRROR, 64)] [] with map := ({ MapSt.reset with loading := true }) }),
      by decide +kernel⟩⟩

theorem wit_RulebookResults :
  (∃ (s : State) (r : RbRun),
    let j := rbJob s r.job
    let cons := rbConsumers j r.place
    bitOf (s.reg Reg.FRAME_STAT) 3 = false ∧ domRun s 37 = true ∧ rbTurn s = some r ∧ (rbRunnable s j = false ∨ cons =
      [])) ∧
  (∃ (s : State) (r : RbRun),
    let j := rbJob s r.job
    let cons := rbConsumers j r.place
    let term := r.term || r.fault || rbOcc (s.gbuf s.computing) j == 0
    let dst := if term || j.bcast then cons else (cons.drop (r.tile % cons.length)).take 1
    let need := (dst.map (·.2)).filter fun c => !(r.held.any (·.1 == c)) && !(r.asked.any (·.1 == c))
    bitOf (s.reg Reg.FRAME_STAT) 3 = false ∧ domRun s 37 = true ∧ rbTurn s = some r ∧ rbRunnable s j = true ∧ cons ≠ [] ∧
      need ≠ []) ∧
  (∃ (s : State) (r : RbRun),
    let j := rbJob s r.job
    let cons := rbConsumers j r.place
    let term := r.term || r.fault || rbOcc (s.gbuf s.computing) j == 0
    let dst := if term || j.bcast then cons else (cons.drop (r.tile % cons.length)).take 1
    let need := (dst.map (·.2)).filter fun c => !(r.held.any (·.1 == c)) && !(r.asked.any (·.1 == c))
    bitOf (s.reg Reg.FRAME_STAT) 3 = false ∧ domRun s 37 = true ∧ rbTurn s = some r ∧ rbRunnable s j = true ∧ cons ≠ [] ∧
      need = [] ∧ (dst.all fun e => r.held.any (·.1 == e.2)) = false) ∧
  (∃ (s : State) (r : RbRun),
    let j := rbJob s r.job
    let cons := rbConsumers j r.place
    let term := r.term || r.fault || rbOcc (s.gbuf s.computing) j == 0
    let dst := if term || j.bcast then cons else (cons.drop (r.tile % cons.length)).take 1
    bitOf (s.reg Reg.FRAME_STAT) 3 = false ∧ domRun s 37 = true ∧ rbTurn s = some r ∧ rbRunnable s j = true ∧ cons ≠ [] ∧
      (dst.all fun e => r.held.any (·.1 == e.2)) = true) ∧
  (∃ (s : State), s.rb.tiles = []) ∧
  (∃ (s : State) (c : CoreId) (x : RbTile), s.rb.tiles = [x] ∧ x.core = c ∧ x.left = 0 ∧ x.mem = 0 ∧ x.hold = [] ∧ ((∀ m,
    m ∈ s.net → m.kind ≠ .writeAck))) ∧
  (∃ (s : State) (j : Nat) (w : Nat), j < 256 ∧ w < 4 ∧ rbNamed s j = false) ∧
  (∃ (s : State) (j : Nat) (w : Nat), j < 256 ∧ w < 4 ∧ rbNamed s j = true) :=
   ⟨⟨({ sr [(Reg.PWR_DOM_STAT + 8 * 37, 0)] with rb := ({ RbSt.reset with runs := [⟨0, 0, 1, 0, false, [0], [], 0, false, [], [], false, false⟩] }) }),
     (⟨0, 0, 1, 0, false, [0], [], 0, false, [], [], false, false⟩),
      by (conv => zeta); refine ⟨?_, ?_, ?_, Or.inr (by decide +kernel)⟩ <;> decide +kernel⟩,
   ⟨({ sr [(Reg.PWR_DOM_STAT + 8 * 37, 0), (Reg.RB_JOB, 0x100000000), (Reg.RB_JOB + 8, 0x20002)] with rb := ({ RbSt.reset with runs := [⟨0, 0, 1, 0, false, [0], [], 0, false, [], [], false, false⟩] }) }),
     (⟨0, 0, 1, 0, false, [0], [], 0, false, [], [], false, false⟩),
      by (conv => zeta); decide +kernel⟩,
   ⟨({ sr [(Reg.PWR_DOM_STAT + 8 * 37, 0), (Reg.RB_JOB, 0x100000000), (Reg.RB_JOB + 8, 0x20002)] with rb := ({ RbSt.reset with runs := [⟨0, 0, 1, 0, false, [0], [], 0, false, [(0, 1)], [], false, false⟩] }) }),
     (⟨0, 0, 1, 0, false, [0], [], 0, false, [(0, 1)], [], false, false⟩),
      by (conv => zeta); decide +kernel⟩,
   ⟨({ sr [(Reg.PWR_DOM_STAT + 8 * 37, 0), (Reg.RB_JOB, 0x100000000), (Reg.RB_JOB + 8, 0x20002)] with rb := ({ RbSt.reset with runs := [⟨0, 0, 1, 0, false, [0], [], 0, false, [], [(0, 1)], false, false⟩] }) }),
     (⟨0, 0, 1, 0, false, [0], [], 0, false, [], [(0, 1)], false, false⟩),
      by (conv => zeta); decide +kernel⟩,
   ⟨State.reset, by decide +kernel⟩,
   ⟨({ State.reset with rb := ({ RbSt.reset with tiles := [⟨0, 35, 0, 0, 0, 0, []⟩] }) }), 35, (⟨0, 35, 0, 0, 0, 0, []⟩),
      by refine ⟨?_, ?_, ?_, ?_, ?_, by intro m hm; cases hm⟩ <;> decide +kernel⟩,
   ⟨State.reset, 255, 3, by decide +kernel⟩,
   ⟨(sr [(Reg.RB_LIST, 0x300FF)]), 255, 3, by decide +kernel⟩⟩

theorem wit_LinkResults :
  (∃ (p : Idx4) (s : State) (f : Flit), linkState s p = 2 ∧ domRun s (44 + p.val) = true ∧ f.crcOk = false) ∧
  (∃ (p : Idx4) (s : State) (f : Flit), linkState s p = 2 ∧ domRun s (44 + p.val) = true ∧ f.crcOk = true ∧ f.type = 2 ∧
    f.credits = []) ∧
  (∃ (p : Idx4) (s : State) (f : Flit),
    let l := s.link p
    linkState s p = 2 ∧ domRun s (44 + p.val) = true ∧ f.crcOk = true ∧ f.type = 1 ∧ f.credits = [] ∧ l.unacked = [] ∧
      f.seq % 2 ^ 16 ≠ l.rxNext ∧ l.nakSent = true) ∧
  (∃ (p : Idx4) (s : State) (f : Flit),
    let l := s.link p
    linkState s p = 2 ∧ domRun s (44 + p.val) = true ∧ f.crcOk = true ∧ f.type = 1 ∧ f.credits = [] ∧ l.unacked = [] ∧
      l.queue = [] ∧ f.seq % 2 ^ 16 = l.rxNext ∧ f.packets = [] ∧ l.owed < 15) ∧
  (∃ (p : Idx4) (s : State), linkState s p = 2 ∧ (s.link p).unacked = [] ∧ (s.link p).queue = [] ∧ (s.link p).replays <
    15) ∧
  (∃ (p : Idx4) (s : State), linkState s p = 2) ∧
  (∃ (p : Idx4) (s : State), linkState s p ≠ 2) ∧
  (∃ (p : Idx4) (s : State), (s.link p).unacked = [] ∧ (s.link p).queue = []) ∧
  (∃ (p : Idx4) (s : State), linkState s p = 1 ∧ domRun s (44 + p.val) = true) ∧
  (∃ (s : State), ((∀ q : Idx4, linkState s q = 0))) ∧
  (∃ (p : Idx4) (s : State), linkState s p ≠ 0) :=
   ⟨⟨0,
     ({ sr [(Reg.LXL_STAT, 2), (Reg.PWR_DOM_STAT + 8 * 44, 0)] with links := State.reset.links.set 0 { LinkPort.fresh with owed := 0 } }),
     (⟨false, 1, 0, 0, [], []⟩),
      by decide +kernel⟩,
   ⟨0,
     ({ sr [(Reg.LXL_STAT, 2), (Reg.PWR_DOM_STAT + 8 * 44, 0)] with links := State.reset.links.set 0 { LinkPort.fresh with owed := 0 } }),
     (⟨true, 2, 0, 0, [], []⟩),
      by decide +kernel⟩,
   ⟨0,
     ({ sr [(Reg.LXL_STAT, 2), (Reg.PWR_DOM_STAT + 8 * 44, 0)] with links := State.reset.links.set 0 { LinkPort.fresh with nakSent := true } }),
     (⟨true, 1, 1, 0, [], []⟩),
      by (conv => zeta); decide +kernel⟩,
   ⟨0,
     ({ sr [(Reg.LXL_STAT, 2), (Reg.PWR_DOM_STAT + 8 * 44, 0)] with links := State.reset.links.set 0 { LinkPort.fresh with owed := 14 } }),
     (⟨true, 1, 0, 0, [], []⟩),
      by (conv => zeta); decide +kernel⟩,
   ⟨0,
     ({ sr [(Reg.LXL_STAT, 2), (Reg.PWR_DOM_STAT + 8 * 44, 0)] with links := State.reset.links.set 0 { LinkPort.fresh with replays := 14 } }),
      by decide +kernel⟩,
   ⟨0,
     ({ sr [(Reg.LXL_STAT, 2), (Reg.PWR_DOM_STAT + 8 * 44, 0)] with links := State.reset.links.set 0 { LinkPort.fresh with owed := 0 } }),
      by decide +kernel⟩,
   ⟨3, State.reset, by decide +kernel⟩,
   ⟨3, State.reset, by decide +kernel⟩,
   ⟨0,
     ({ sr [(Reg.LXL_STAT, 1), (Reg.PWR_DOM_STAT + 8 * 44, 0)] with links := State.reset.links.set 0 { LinkPort.fresh with owed := 0 } }),
      by decide +kernel⟩,
   ⟨State.reset, by decide +kernel⟩,
   ⟨0,
     ({ sr [(Reg.LXL_STAT, 2), (Reg.PWR_DOM_STAT + 8 * 44, 0)] with links := State.reset.links.set 0 { LinkPort.fresh with owed := 0 } }),
      by decide +kernel⟩⟩

theorem wit_PowerDomainResults :
  (∃ (s : State) (d : Fin 48), domMoving s d.val = true) ∧
  (∃ (s : State) (d : Fin 48) (v : Half),
    let t := fld v 1 0
    domMoving s d.val = false ∧ domQueued s d.val = true ∧ t ≠ 0) ∧
  (∃ (s : State) (d : Fin 48) (v : Half),
    let st := domState s d.val
    let t := fld v 1 0
    domMoving s d.val = false ∧ domQueued s d.val = false ∧ t = st) ∧
  (∃ (s : State) (d : Fin 48) (v : Half),
    let st := domState s d.val
    let t := fld v 1 0
    domMoving s d.val = false ∧ domQueued s d.val = false ∧ t ≠ st ∧ t = 0) ∧
  (∃ (s : State) (d : Fin 48) (v : Half),
    let st := domState s d.val
    let t := fld v 1 0
    domMoving s d.val = false ∧ domQueued s d.val = false ∧ t ≠ 0 ∧ st = 0) ∧
  (∃ (s : State) (d : Fin 48) (v : Half),
    let st := domState s d.val
    let t := fld v 1 0
    domMoving s d.val = false ∧ domQueued s d.val = false ∧ t ≠ 0 ∧ st ≠ 0 ∧ t ≠ st ∧ domDirect st t = true) ∧
  (∃ (s : State) (d : Fin 48) (v : Half),
    let st := domState s d.val
    let t := fld v 1 0
    domMoving s d.val = false ∧ domQueued s d.val = false ∧ t ≠ 0 ∧ st ≠ 0 ∧ t ≠ st ∧ domDirect st t = false) ∧
  (∃ (s : State) (d : Fin 48), domState s d.val = 0 ∧ domMoving s d.val = false ∧ domTarget s d.val ≠ 0) ∧
  (∃ (s : State) (d : Fin 48) (t : DomTrans), sget d.val s.pwr.trans = some t) ∧
  (∃ (s : State) (d : Fin 48), sget d.val s.pwr.trans = none) ∧
  (∃ (s : State) (r : Idx4) (d : Nat) (x : Nat),
    let need := if domState s d = 1 then ungateQa s d else wakeQa s d
    railHead s r.val = some (d, x) ∧ staticQa s r.val + need ≤ railBudget s r.val ∧ ((s.pwr.lastAdmit[r.val] = none ∨ ∃ t,
      s.pwr.lastAdmit[r.val] = some t ∧ t + 1000 ≤ s.time.cyc))) ∧
  (∃ (s : State) (r : Idx4) (d : Nat) (x : Nat),
    let need := if domState s d = 1 then ungateQa s d else wakeQa s d
    railHead s r.val = some (d, x) ∧ railBudget s r.val < staticQa s r.val + need) ∧
  (∃ (s : State) (d : Fin 48) (w : Nat), wakeWaited s d.val = some w ∧ 0 < s.regF Reg.PWR_WAKE_CFG 15 0 ∧ s.regF
    Reg.PWR_WAKE_CFG 15 0 ≤ w ∧ s.pwr.slow.contains d.val = false) ∧
  (∃ (s : State) (want : List CoreId), want ≠ [] ∧ want.Nodup ∧ ((∀ c, c ∈ want → inService s c = true)) ∧ s.actF
    Reg.PWR_ARRAY 7 0 ≠ 0 ∧ allowFloor s ≤ allowRaw s want.length) :=
   ⟨⟨({ sa [] [] with pwr := ({ PwrSt.reset with trans := [(47, ⟨0, 3, true⟩)] }) }), 47, by decide +kernel⟩,
   ⟨({ sa [] [] with pwr := ({ PwrSt.reset with queue := [(47, 0)] }) }), 47, 1, by (conv => zeta); decide +kernel⟩,
   ⟨State.reset, 47, 3, by (conv => zeta); decide +kernel⟩,
   ⟨State.reset, 47, 0, by (conv => zeta); decide +kernel⟩,
   ⟨(sr [(Reg.PWR_DOM_STAT + 8 * 47, 0)]), 47, 1, by (conv => zeta); decide +kernel⟩,
   ⟨(sr [(Reg.PWR_DOM_STAT + 8 * 47, 1)]), 47, 2, by (conv => zeta); decide +kernel⟩,
   ⟨(sr [(Reg.PWR_DOM_STAT + 8 * 47, 2)]), 47, 1, by (conv => zeta); decide +kernel⟩,
   ⟨(sr [(Reg.PWR_DOM_STAT + 8 * 47, 0), (Reg.PWR_DOM_CTRL + 8 * 47, 3)]), 47, by decide +kernel⟩,
   ⟨({ sa [] [] with pwr := ({ PwrSt.reset with trans := [(47, ⟨0, 3, true⟩)] }) }), 47, (⟨0, 3, true⟩), by decide +kernel⟩,
   ⟨State.reset, 47, by decide +kernel⟩,
   ⟨({ sa [] [] with pwr := ({ PwrSt.reset with queue := [(0, 0)] }) }), 0, 0, 0,
      by (conv => zeta); exact ⟨by decide +kernel, by decide +kernel, Or.inl (by decide +kernel)⟩⟩,
   ⟨({ sa [] [(Reg.PWR_BUDGET0, 1)] with pwr := ({ PwrSt.reset with queue := [(0, 0)] }) }), 0, 0, 0,
      by (conv => zeta); decide +kernel⟩,
   ⟨({ sa [(Reg.PWR_WAKE_CFG, 10)] [] with pwr := ({ PwrSt.reset with queue := [(47, 0)] }), time := (tm 5000 none none) }),
     47, 10,
      by decide +kernel⟩,
   ⟨(sr [(coreOff Reg.CORE_STAT 0, 1)]), ([0]), by decide +kernel⟩⟩

theorem wit_ClockResults :
  (∃ (s : State) (q : OpSeq), s.pwr.seq = some q ∧ avsWaits q = true) ∧
  (∃ (s : State) (q : OpSeq), s.pwr.seq = some q ∧ q.locked = false) ∧
  (∃ (s : State) (q : OpSeq), s.pwr.seq = some q ∧ q.locked = true ∧ q.switched = false ∧ q.up = false) ∧
  (∃ (s : State) (q : OpSeq), s.pwr.seq = some q ∧ q.locked = true ∧ q.switched = false ∧ q.up = true ∧ q.acked = true) ∧
  (∃ (s : State) (q : OpSeq), s.pwr.seq = some q ∧ q.locked = true ∧ q.switched = false ∧ q.up = true ∧ q.acked = false) ∧
  (∃ (s : State) (q : OpSeq), s.pwr.seq = some q ∧ q.up = false ∧ q.switched = true ∧ q.acked = true) ∧
  (∃ (s : State), s.pwr.standby = false) ∧
  (∃ (s : State) (src : Fin 3), s.pwr.standby = true ∧ bitOf (s.reg Reg.PWR_WAKE_SRC) src.val = true ∧ ((src.val = 2 →
    s.regF Reg.PWR_WAKE_TIME 47 0 ≤ s.time.sec))) ∧
  (∃ (s : State) (f : Nat) (rest : List Nat), s.mbox = f :: rest ∧ leAt (mboxBytes s f) 0 2 = 0x0030 ∧ f ≠ 0) ∧
  (∃ (s : State) (f : Nat) (rest : List Nat),
    let bs := mboxBytes s f
    s.mbox = f :: rest ∧ leAt (mboxBytes s f) 0 2 = 0x0030 ∧ f = 0 ∧ 3 ≤ leAt bs 8 1 ∧ leAt bs 8 1 ≠ 0xFF) ∧
  (∃ (s : State) (f : Nat) (rest : List Nat),
    let bs := mboxBytes s f
    s.mbox = f :: rest ∧ leAt (mboxBytes s f) 0 2 = 0x0030 ∧ f = 0 ∧ leAt bs 8 1 = 0xFF ∧ leAt bs 9 1 = 0xFF ∧ leAt bs 12
      4 = 0) ∧
  (∃ (s : State) (count : Nat), bitOf (s.reg Reg.CLK_STAT) 0 = false ∧ s.pwr.coast.contains 0 = false ∧ ((s.regF
    Reg.CLK_XTAL_WIN 15 0 ≤ count ∧ count ≤ s.regF Reg.CLK_XTAL_WIN 31 16)) ∧ s.pwr.good < 7 ∧ s.pwr.windows + 1 ≠ 256) ∧
  (∃ (s : State) (count : Nat), bitOf (s.reg Reg.CLK_STAT) 0 = false ∧ s.pwr.coast.contains 0 = false ∧ ((s.regF
    Reg.CLK_XTAL_WIN 15 0 ≤ count ∧ count ≤ s.regF Reg.CLK_XTAL_WIN 31 16)) ∧ 7 ≤ s.pwr.good) ∧
  (∃ (s : State) (count : Nat), bitOf (s.reg Reg.CLK_STAT) 0 = false ∧ s.pwr.coast.contains 0 = false ∧ (¬ (s.regF
    Reg.CLK_XTAL_WIN 15 0 ≤ count ∧ count ≤ s.regF Reg.CLK_XTAL_WIN 31 16)) ∧ s.pwr.windows + 1 ≠ 256) ∧
  (∃ (s : State) (count : Nat), bitOf (s.reg Reg.CLK_STAT) 0 = false ∧ s.pwr.coast.contains 0 = false ∧ (¬ (s.regF
    Reg.CLK_XTAL_WIN 15 0 ≤ count ∧ count ≤ s.regF Reg.CLK_XTAL_WIN 31 16)) ∧ s.pwr.windows + 1 = 256) ∧
  (∃ (s : State) (r : Fin 3), s.pwr.coast.contains r.val = false) ∧
  (∃ (s : State), s.pwr.coast.contains 0 = true ∧ s.pwr.back.contains 0 = false) ∧
  (∃ (s : State), s.pwr.coast.contains 2 = true ∧ s.pwr.back.contains 2 = false) ∧
  (∃ (s : State), s.pwr.back = [1] ∧ s.pwr.standby = false) ∧
  (∃ (s : State), s.pwr.back = [0] ∧ s.pwr.standby = false) ∧
  (∃ (s : State) (gclk : Bool) (v : Half),
    let hi := if gclk then 40 else 48
    ((∀ d, d < 48 → domState s d = 3 ∧ domMoving s d = false)) ∧ 16 ≤ fld v 5 0 ∧ fld v 5 0 ≤ hi) ∧
  (∃ (s : State) (v : Half), ((∀ d, d < 48 → domState s d = 3 ∧ domMoving s d = false)) ∧ fld v 5 0 < 16) ∧
  (∃ (s : State) (gclk : Bool) (v : Half),
    let hi := if gclk then 40 else 48
    ((∀ d, d < 48 → domState s d = 3 ∧ domMoving s d = false)) ∧ hi < fld v 5 0) ∧
  (∃ (s : State) (d : _), d < 48 ∧ (domState s d ≠ 3 ∨ domMoving s d = true)) :=
   ⟨⟨({ sa [] [] with pwr := ({ PwrSt.reset with seq := some ⟨0, true, false, false, false⟩ }) }), (⟨0, true, false, false,
     false⟩),
      by decide +kernel⟩,
   ⟨({ sa [] [] with pwr := ({ PwrSt.reset with seq := some ⟨0, true, false, false, false⟩ }) }), (⟨0, true, false, false,
     false⟩),
      by decide +kernel⟩,
   ⟨({ sa [] [] with pwr := ({ PwrSt.reset with seq := some ⟨0, false, false, true, false⟩ }) }), (⟨0, false, false, true,
     false⟩),
      by decide +kernel⟩,
   ⟨({ sa [] [] with pwr := ({ PwrSt.reset with seq := some ⟨0, true, true, true, false⟩ }) }), (⟨0, true, true, true,
     false⟩),
      by decide +kernel⟩,
   ⟨({ sa [] [] with pwr := ({ PwrSt.reset with seq := some ⟨0, true, false, true, false⟩ }) }), (⟨0, true, false, true,
     false⟩),
      by decide +kernel⟩,
   ⟨({ sa [] [] with pwr := ({ PwrSt.reset with seq := some ⟨0, false, true, true, true⟩ }) }), (⟨0, false, true, true,
     true⟩),
      by decide +kernel⟩,
   ⟨State.reset, by decide +kernel⟩,
   ⟨({ sa [(Reg.PWR_WAKE_SRC, 7)] [] with pwr := ({ PwrSt.reset with standby := true }) }), 2, by decide +kernel⟩,
   ⟨({ sr [(mboxOff 1 0, 48), (mboxOff 1 2, 7)] with mbox := ([1]) }), 1, ([]), by decide +kernel⟩,
   ⟨({ sr [(mboxOff 0 0, 48), (mboxOff 0 2, 3)] with mbox := ([0]) }), 0, ([]), by (conv => zeta); decide +kernel⟩,
   ⟨({ sr [(mboxOff 0 0, 48), (mboxOff 0 2, 65535)] with mbox := ([0]) }), 0, ([]), by (conv => zeta); decide +kernel⟩,
   ⟨({ sa [(Reg.CLK_XTAL_WIN, 0x14000A)] [] with pwr := ({ PwrSt.reset with good := 6, windows := 0 }) }), 20,
      by decide +kernel⟩,
   ⟨({ sa [(Reg.CLK_XTAL_WIN, 0x14000A)] [] with pwr := ({ PwrSt.reset with good := 7, windows := 0 }) }), 10,
      by decide +kernel⟩,
   ⟨({ sa [(Reg.CLK_XTAL_WIN, 0x14000A)] [] with pwr := ({ PwrSt.reset with good := 7, windows := 0 }) }), 21,
      by decide +kernel⟩,
   ⟨({ sa [(Reg.CLK_XTAL_WIN, 0x14000A)] [] with pwr := ({ PwrSt.reset with good := 7, windows := 255 }) }), 9,
      by decide +kernel⟩,
   ⟨State.reset, 2, by decide +kernel⟩,
   ⟨({ sa [] [] with pwr := ({ PwrSt.reset with coast := [0] }) }), by decide +kernel⟩,
   ⟨({ sa [] [] with pwr := ({ PwrSt.reset with coast := [2] }) }), by decide +kernel⟩,
   ⟨({ sa [] [] with pwr := ({ PwrSt.reset with back := [1] }) }), by decide +kernel⟩,
   ⟨({ sa [] [] with pwr := ({ PwrSt.reset with back := [0] }) }), by decide +kernel⟩,
   ⟨State.reset, true, 40, by (conv => zeta); decide +kernel⟩,
   ⟨State.reset, 15, by decide +kernel⟩,
   ⟨State.reset, false, 49, by (conv => zeta); decide +kernel⟩,
   ⟨(sr [(Reg.PWR_DOM_STAT + 8 * 47, 0)]), 47, by decide +kernel⟩⟩

theorem wit_TestResults :
  (∃ (s : State) (m : RotMove) (f : Nat), s.test.move = some m ∧ s.time.lastFence = some f ∧ m.copying = false ∧ m.copied
    = false ∧ m.step = frameNum s + 1 ∧ hostsTrunk s m.out = true ∧ domRun s m.inc.val = true ∧ s.test.phase = 0 ∧ f + 32
    * s.actF Reg.ROT_CFG 31 11 ≤ s.time.cyc) ∧
  (∃ (s : State) (m : RotMove), s.test.move = some m ∧ m.copying = true) ∧
  (∃ (s : State) (m : RotMove), s.test.move = some m ∧ m.copying = false) ∧
  (∃ (s : State) (m : RotMove), s.test.move = some m ∧ m.copied = true ∧ m.moved = false ∧ rotIdle s m.out = true) ∧
  (∃ (s : State) (c : CoreId) (sig : Half),
    let o := Reg.ROT_SLICE + 4 * c.val
    let sl := s.regF o 2 0
    let ref := s.reg (Reg.TEST_REF + 4 * sl)
    coreOf (rotCore s) = some c ∧ domRun s c.val = true ∧ s.test.phase = 1 ∧ ref ≠ sig.zeroExtend 64) ∧
  (∃ (s : State) (c : CoreId) (sig : Half),
    let o := Reg.ROT_SLICE + 4 * c.val
    let sl := s.regF o 2 0
    let ref := s.reg (Reg.TEST_REF + 4 * sl)
    coreOf (rotCore s) = some c ∧ domRun s c.val = true ∧ s.test.phase = 1 ∧ ref = sig.zeroExtend 64) ∧
  (∃ (s : State) (c : CoreId) (sig : Half),
    let o := Reg.ROT_SLICE + 4 * c.val
    let sl := s.regF o 2 0
    let ref := s.reg (Reg.TEST_REF + 4 * sl)
    coreOf (rotCore s) = some c ∧ domRun s c.val = true ∧ s.test.phase = 2 ∧ ref = sig.zeroExtend 64) ∧
  (∃ (s : State) (c : CoreId) (sig : Half),
    let o := Reg.ROT_SLICE + 4 * c.val
    let sl := s.regF o 2 0
    let ref := s.reg (Reg.TEST_REF + 4 * sl)
    coreOf (rotCore s) = some c ∧ domRun s c.val = true ∧ s.test.phase = 2 ∧ ref ≠ sig.zeroExtend 64) ∧
  (∃ (s : State) (c : CoreId), coreOf (rotCore s) = some c ∧ domRun s c.val = true ∧ s.test.phase = 3 ∧ (s.core c).repairQ
    = [] ∧ s.test.move = none) ∧
  (∃ (s : State) (f : Nat) (rest : List Nat),
    let bs := mboxBytes s f
    let code := leAt bs 0 2
    s.mbox = f :: rest ∧ f ≠ 0 ∧ code = 0x0020) ∧
  (∃ (s : State) (f : Nat) (rest : List Nat),
    let bs := mboxBytes s f
    let code := leAt bs 0 2
    s.mbox = f :: rest ∧ f ≠ 0 ∧ code = 0x0021) ∧
  (∃ (s : State) (f : Nat) (rest : List Nat) (m : _),
    let bs := mboxBytes s f
    let code := leAt bs 0 2
    s.mbox = f :: rest ∧ f = 0 ∧ code = 0x0020 ∧ s.test.move = some m) ∧
  (∃ (s : State) (f : Nat) (rest : List Nat) (c : _),
    let bs := mboxBytes s f
    let code := leAt bs 0 2
    s.mbox = f :: rest ∧ f = 0 ∧ code = 0x0020 ∧ s.test.move = none ∧ rotPick s = some c ∧ inService s c = true ∧
      rotPeriod s = 0) ∧
  (∃ (s : State) (f : Nat) (rest : List Nat),
    let bs := mboxBytes s f
    let code := leAt bs 0 2
    s.mbox = f :: rest ∧ f = 0 ∧ code = 0x0021 ∧ 36 ≤ leAt bs 8 1) ∧
  (∃ (s : State) (f : Nat) (rest : List Nat) (c : _),
    let bs := mboxBytes s f
    let code := leAt bs 0 2
    s.mbox = f :: rest ∧ f = 0 ∧ code = 0x0021 ∧ coreOf (leAt bs 8 1) = some c ∧ isFenced s c = true) ∧
  (∃ (s : State) (f : Nat) (rest : List Nat) (c : _),
    let bs := mboxBytes s f
    let code := leAt bs 0 2
    s.mbox = f :: rest ∧ f = 0 ∧ code = 0x0021 ∧ coreOf (leAt bs 8 1) = some c ∧ isFenced s c = false ∧ c.val ≠ rotCore s
      ∧ s.test.move = none ∧ s.test.reqs.contains c = false ∧ rotPeriod s ≠ 0) ∧
  (∃ (s : State), popcnt 4 (scHealthy s) ≤ 2) ∧
  (∃ (s : State), 2 < popcnt 4 (scHealthy s)) ∧
  (∃ (s : State) (h : Fin 4), (scHealthy s).testBit h.val = false) ∧
  (∃ (s : State) (h : Fin 4), (scHealthy s).testBit h.val = true) ∧
  (∃ (req : Requester), reqFn req = some 0) ∧
  (∃ (req : Requester), reqFn req ≠ some 0) ∧
  (∃ (s : State),
    let h := (s.reg Reg.FAULT_LOG_HEAD).toNat
    s.logCopied ≤ h ∧ h < 2 ^ 32 ∧ h ≤ s.logCopied + 256) :=
   ⟨⟨({ sr [(Reg.PWR_DOM_STAT + 8 * 1, 0), (Reg.TRUNK_STAT, 4)] with test := ({ TestSt.reset with move := some ⟨0, 1, 1, 100, false, false, false⟩ }), trunks := State.reset.trunks.set 0 { TrunkSt.empty with place := [0] }, time := (tm 100000000 (some 0) none) }),
     (⟨0, 1, 1, 100, false, false, false⟩), 0,
      by decide +kernel⟩,
   ⟨({ sr [] with test := ({ TestSt.reset with move := some ⟨0, 1, 1, 100, true, false, false⟩ }) }), (⟨0, 1, 1, 100,
     true, false, false⟩),
      by decide +kernel⟩,
   ⟨({ sr [] with test := ({ TestSt.reset with move := some ⟨0, 1, 1, 100, false, false, false⟩ }) }), (⟨0, 1, 1, 100,
     false, false, false⟩),
      by decide +kernel⟩,
   ⟨({ c0 { CoreSt.reset with issue := .frameWait 0 0 0 } with test := ({ TestSt.reset with move := some ⟨0, 1, 1, 100, false, true, false⟩ }) }),
     (⟨0, 1, 1, 100, false, true, false⟩),
      by decide +kernel⟩,
   ⟨({ sr [(Reg.ROT_STAT, 1), (Reg.PWR_DOM_STAT + 8 * 1, 0), (Reg.TEST_REF, 5)] with test := ({ TestSt.reset with phase := 1 }) }),
     1, 6,
      by (conv => zeta); decide +kernel⟩,
   ⟨({ sr [(Reg.ROT_STAT, 1), (Reg.PWR_DOM_STAT + 8 * 1, 0), (Reg.TEST_REF, 5)] with test := ({ TestSt.reset with phase := 1 }) }),
     1, 5,
      by (conv => zeta); decide +kernel⟩,
   ⟨({ sr [(Reg.ROT_STAT, 1), (Reg.PWR_DOM_STAT + 8 * 1, 0), (Reg.TEST_REF, 5)] with test := ({ TestSt.reset with phase := 2 }) }),
     1, 5,
      by (conv => zeta); decide +kernel⟩,
   ⟨({ sr [(Reg.ROT_STAT, 1), (Reg.PWR_DOM_STAT + 8 * 1, 0), (Reg.TEST_REF, 5)] with test := ({ TestSt.reset with phase := 2 }) }),
     1, 6,
      by (conv => zeta); decide +kernel⟩,
   ⟨({ sr [(Reg.ROT_STAT, 1), (Reg.PWR_DOM_STAT + 8 * 1, 0)] with test := ({ TestSt.reset with phase := 3 }) }), 1,
      by decide +kernel⟩,
   ⟨({ sr [(mboxOff 1 0, 32), (mboxOff 1 2, 0)] with test := ({ TestSt.reset with phase := 0 }), mbox := ([1]) }), 1,
     ([]),
      by (conv => zeta); decide +kernel⟩,
   ⟨({ sr [(mboxOff 1 0, 33), (mboxOff 1 2, 0)] with test := ({ TestSt.reset with phase := 0 }), mbox := ([1]) }), 1,
     ([]),
      by (conv => zeta); decide +kernel⟩,
   ⟨({ sr [(mboxOff 0 0, 32), (mboxOff 0 2, 0)] with test := ({ TestSt.reset with move := some ⟨0, 1, 1, 100, false, false, false⟩ }), mbox := ([0]) }),
     0, ([]), (⟨0, 1, 1, 100, false, false, false⟩),
      by (conv => zeta); decide +kernel⟩,
   ⟨({ sa [(mboxOff 0 0, 32), (mboxOff 0 2, 0), (coreOff Reg.CORE_STAT 35, 1)] [(Reg.ROT_CFG, 0)] with test := ({ TestSt.reset with reqs := [35] }), mbox := ([0]) }),
     0, ([]), 35,
      by (conv => zeta); decide +kernel⟩,
   ⟨({ sr [(mboxOff 0 0, 33), (mboxOff 0 2, 36)] with test := ({ TestSt.reset with phase := 0 }), mbox := ([0]) }), 0,
     ([]),
      by (conv => zeta); decide +kernel⟩,
   ⟨({ sr [(mboxOff 0 0, 33), (mboxOff 0 2, 35), (coreOff Reg.CORE_STAT 35, 4)] with test := ({ TestSt.reset with phase := 0 }), mbox := ([0]) }),
     0, ([]), 35,
      by (conv => zeta); decide +kernel⟩,
   ⟨({ sa [(mboxOff 0 0, 33), (mboxOff 0 2, 34)] [(Reg.ROT_CFG, 1)] with test := ({ TestSt.reset with phase := 0 }), mbox := ([0]) }),
     0, ([]), 34,
      by (conv => zeta); decide +kernel⟩,
   ⟨(sr [(Reg.SC_STAT, 3)]), by decide +kernel⟩,
   ⟨(sr [(Reg.SC_STAT, 7)]), by decide +kernel⟩,
   ⟨(sr [(Reg.SC_STAT, 7)]), 3, by decide +kernel⟩,
   ⟨(sr [(Reg.SC_STAT, 15)]), 3, by decide +kernel⟩,
   ⟨.pf, by decide +kernel⟩,
   ⟨(.vf 7), by decide +kernel⟩,
   ⟨(sr [(Reg.FAULT_LOG_HEAD, 256)]), by (conv => zeta); decide +kernel⟩⟩

theorem wit_BootResults :
  (∃ (s : State), (bootState s ≠ 0 ∨ romReady s = false)) ∧
  (∃ (s : State), bootState s = 0 ∧ romReady s = true ∧ s.regF Reg.SEC_BOOT_STAT 4 3 = 1) ∧
  (∃ (s : State) (f : _) (b : _),
    let v := secShow s
    let r := bootSlots (slotOrder v) (setBoot 1 (v.setF Reg.SEC_BOOT_STAT 8 8 (b2n s.flash.slow)))
    bootState s = 0 ∧ romReady s = true ∧ s.regF Reg.SEC_BOOT_STAT 4 3 ≠ 1 ∧ r.1 = some (f, b)) ∧
  (∃ (s : State),
    let v := secShow s
    let r := bootSlots (slotOrder v) (setBoot 1 (v.setF Reg.SEC_BOOT_STAT 8 8 (b2n s.flash.slow)))
    bootState s = 0 ∧ romReady s = true ∧ s.regF Reg.SEC_BOOT_STAT 4 3 = 2 ∧ r.1 = none) ∧
  (∃ (s : State),
    let v := secShow s
    let r := bootSlots (slotOrder v) (setBoot 1 (v.setF Reg.SEC_BOOT_STAT 8 8 (b2n s.flash.slow)))
    bootState s = 0 ∧ romReady s = true ∧ s.regF Reg.SEC_BOOT_STAT 4 3 ≠ 1 ∧ s.regF Reg.SEC_BOOT_STAT 4 3 ≠ 2 ∧ r.1 =
      none) ∧
  (∃ (s : State), bootState s ≠ 2) ∧
  (∃ (s : State) (f : _) (u : _), bootState s = 2 ∧ fwVerify s.sec.staging s = (some f, u)) ∧
  (∃ (s : State) (u : _), bootState s = 2 ∧ fwVerify s.sec.staging s = (none, u)) ∧
  (∃ (req : Requester), req ≠ .sc) ∧
  (∃ (req : Requester) (v : Word), req = .sc ∧ bitOf v 0 = true) ∧
  (∃ (s : State) (f : FwImage), s.sec.fw = some f ∧ bootState s = 3 ∧ s.test.causes.contains 6 = false ∧ f.svnCommit =
    true ∧ f.svn ≤ svnOf s.fuse.fwSvn ∧ f.trunkSvnMin ≤ svnOf s.fuse.trunkSvn) ∧
  (∃ (s : State) (f : FwImage), s.sec.fw = some f ∧ bootState s = 3 ∧ s.test.causes.contains 6 = false ∧ f.svnCommit =
    true ∧ svnOf s.fuse.fwSvn < f.svn ∧ f.svn ≤ 64 ∧ f.trunkSvnMin ≤ svnOf s.fuse.trunkSvn ∧ bitOf (s.reg Reg.SEC_LOCK) 1
    = false ∧ (s.fuse.lifecycle = 1 ∨ s.fuse.lifecycle = 3)) ∧
  (∃ (s : State) (f : Nat) (rest : List Nat), s.mbox = f :: rest ∧ leAt (mboxBytes s f) 0 2 = 0x0040 ∧ deviceKeys s =
    false) ∧
  (∃ (s : State) (f : Nat) (rest : List Nat),
    let bs := mboxBytes s f
    s.mbox = f :: rest ∧ leAt (mboxBytes s f) 0 2 = 0x0040 ∧ deviceKeys s = true ∧ attestFits s f (leAt bs 40 8) (leAt bs
      48 4) = false) ∧
  (∃ (s : State) (f : Nat) (rest : List Nat),
    let bs := mboxBytes s f
    s.mbox = f :: rest ∧ leAt (mboxBytes s f) 0 2 = 0x0040 ∧ deviceKeys s = true ∧ attestFits s f (leAt bs 40 8) (leAt bs
      48 4) = true) ∧
  (∃ (s : State), 4 ≤ s.sec.fails) ∧
  (∃ (s : State) (cert : _) (ed : _) (ml : _), s.sec.fails < 4 ∧ debugVerifies s cert ed ml = false) :=
   ⟨⟨State.reset, by decide +kernel⟩,
   ⟨({ sr [(Reg.CLK_STAT, 0x601), (Reg.SEC_BOOT_STAT, 8)] with fuse := ({ FuseSt.blank with lifecycle := 0 }) }),
      by decide +kernel⟩,
   ⟨({ sr [(Reg.CLK_STAT, 0x601), (Reg.SEC_BOOT_STAT, 0)] with fuse := ({ FuseSt.blank with lifecycle := 0 }), flash := ({ FlashSt.blank with slotA := fwSmall }) }),
     ((fwRead fwSmall).get (by decide +kernel)), false,
      by (conv => zeta); decide +kernel⟩,
   ⟨({ sr [(Reg.CLK_STAT, 0x601), (Reg.SEC_BOOT_STAT, 16)] with fuse := ({ FuseSt.blank with lifecycle := 0 }) }),
      by (conv => zeta); decide +kernel⟩,
   ⟨({ sr [(Reg.CLK_STAT, 0x601), (Reg.SEC_BOOT_STAT, 0)] with fuse := ({ FuseSt.blank with lifecycle := 0 }) }),
      by (conv => zeta); decide +kernel⟩,
   ⟨State.reset, by decide +kernel⟩,
   ⟨({ sr [(Reg.CLK_STAT, 0x601), (Reg.SEC_BOOT_STAT, 2)] with fuse := ({ FuseSt.blank with lifecycle := 0 }), sec := ({ SecSt.reset with staging := fwSmall }) }),
     ((fwRead fwSmall).get (by decide +kernel)),
     ({ sr [(Reg.CLK_STAT, 0x601), (Reg.SEC_BOOT_STAT, 2)] with fuse := ({ FuseSt.blank with lifecycle := 0 }), sec := ({ SecSt.reset with staging := fwSmall }) }),
      by decide +kernel⟩,
   ⟨({ sr [(Reg.CLK_STAT, 0x601), (Reg.SEC_BOOT_STAT, 2)] with fuse := ({ FuseSt.blank with lifecycle := 0 }) }),
     ({ sr [(Reg.CLK_STAT, 0x601), (Reg.SEC_BOOT_STAT, 2)] with fuse := ({ FuseSt.blank with lifecycle := 0 }) }),
      by exact ⟨by decide +kernel, rfl⟩⟩,
   ⟨.pf, by decide +kernel⟩,
   ⟨.sc, 1, by decide +kernel⟩,
   ⟨({ sr [(Reg.CLK_STAT, 0x601), (Reg.SEC_BOOT_STAT, 3)] with fuse := ({ FuseSt.blank with lifecycle := 0 }), sec := ({ SecSt.reset with fw := some ⟨0, 0, true, [], [], [], []⟩ }) }),
     (⟨0, 0, true, [], [], [], []⟩),
      by decide +kernel⟩,
   ⟨({ sr [(Reg.CLK_STAT, 0x601), (Reg.SEC_BOOT_STAT, 3)] with fuse := ({ FuseSt.blank with lifecycle := 3 }), sec := ({ SecSt.reset with fw := some ⟨64, 0, true, [], [], [], []⟩ }) }),
     (⟨64, 0, true, [], [], [], []⟩),
      by decide +kernel⟩,
   ⟨({ sr [(mboxOff 0 0, 0x40), (mboxOff 0 12, 0)] with mbox := ([0]), fuse := ({ FuseSt.blank with lifecycle := 7 }), mem := ({ State.reset.mem with capGib := 4 }) }),
     0, ([]),
      by decide +kernel⟩,
   ⟨({ sr [(mboxOff 0 0, 0x40), (mboxOff 0 12, 14870)] with mbox := ([0]), fuse := ({ FuseSt.blank with lifecycle := 3 }), mem := ({ State.reset.mem with capGib := 4 }) }),
     0, ([]),
      by (conv => zeta); decide +kernel⟩,
   ⟨({ sr [(mboxOff 0 0, 0x40), (mboxOff 0 12, 14871)] with mbox := ([0]), fuse := ({ FuseSt.blank with lifecycle := 3 }), mem := ({ State.reset.mem with capGib := 4 }) }),
     0, ([]),
      by (conv => zeta); decide +kernel⟩,
   ⟨({ State.reset with sec := ({ SecSt.reset with fails := 4 }) }), by decide +kernel⟩,
   ⟨({ State.reset with sec := ({ SecSt.reset with fails := 3 }) }), ([]), ([]), ([]), by decide +kernel⟩⟩

/-- The one hypothesis that turns on a value the spec leaves open (whether the two signatures verify) is met where they do. -/
theorem wit_debug_unlock (h : ∀ alg key msg sig, Config.sigValid alg key msg sig = true) :
    ∃ (s : State) (cert ed ml : List Nat), s.sec.fails < 4 ∧ debugVerifies s cert ed ml = true := by
  refine ⟨{ State.reset with
    fuse := { FuseSt.blank with lifecycle := 0 }
    sec := { SecSt.reset with
      chal := some []
      fw := some ⟨0, 0, false, [], [[0, 0, 0, 0, 0, 8]], [], []⟩ } }, [0, 0, 0, 0, 0, 8], [], [], by decide +kernel, ?_⟩
  have hb : ∀ a b c d, bothSigs a b c d = true := by intros; simp [bothSigs, h]
  simp only [debugVerifies, hb, Bool.and_true]
  decide +kernel

end Sys2Proof.Tests
end

section
/-! SUPPORT. The register map: what is found at an offset (Table 1.8), and no FB register shares an offset with FRAME_STAT. -/

open Sys2Proof Sys2Proof.Machine

namespace Sys2Proof.Machine

/-- A number found in an array's dimensions is that of an element that covers the offset. -/
theorem elemAt_covers {size o e : Nat} {dims : List (Nat × Nat)} {b : Nat} (h : elemAt size o dims b = some e) :
    b ≤ e ∧ e ≤ o ∧ o < e + size := by
  induction dims generalizing b with
  | nil =>
    simp only [elemAt, Option.ite_none_right_eq_some, Option.some.injEq] at h
    omega
  | cons d r ih =>
    obtain ⟨n, st⟩ := d
    simp only [elemAt, Option.ite_none_left_eq_some, Option.ite_none_right_eq_some] at h
    have hb := ih h.2.2
    have := Nat.le_add_right b ((o - b) / st * st)
    omega

theorem elemAt_zero {size o b e : Nat} (h : elemAt size o [] b = some e) : e = b := by
  obtain ⟨-, he⟩ := Option.ite_none_right_eq_some.mp h
  exact (Option.some.inj he).symm

/-- In an array of one dimension the element found is the one whose stride the offset lies in. -/
theorem elemAt_one {size o n st b e : Nat} (h : elemAt size o [(n, st)] b = some e) : e = b + (o - b) / st * st := by
  simp only [elemAt, Option.ite_none_left_eq_some, Option.ite_none_right_eq_some, Option.some.injEq] at h
  exact h.2.2.2.symm

/-- The register found at an offset is one of its block, and the element found covers the offset. -/
theorem regAt_spec {o e : Nat} {r : RegSpec} (h : regAt o = some (r, e)) :
    r ∈ blockRegs o ∧ elemAt (r.width / 8) o r.dims r.base = some e := by
  obtain ⟨x, hx, hf⟩ := List.exists_of_findSome?_eq_some h
  obtain ⟨y, hy, he⟩ := Option.map_eq_some_iff.mp hf
  cases he
  exact ⟨hx, hy⟩

/-- An aperture of a core holds the registers of the CORE block (Table 1.8). -/
theorem blockRegs_coreOff (c : CoreId) {o : Nat} (ho : o / 0x100000 = 16) : blockRegs (coreOff o c) = coreRegs := by
  have hc := c.isLt
  have hq : coreOff o c / 0x100000 = 16 + c.val := by unfold coreOff; omega
  unfold blockRegs
  rw [hq]
  split
  case h_17 => exact if_pos (by omega)
  all_goals omega

theorem mem_allRegs_of_block {o : Nat} {r : RegSpec} (h : r ∈ blockRegs o) : r ∈ allRegs := by
  simp only [allRegs, List.mem_append]
  unfold blockRegs at h
  split at h
  case h_17 =>
    obtain ⟨-, hcore⟩ := List.mem_ite_nil_right.mp h
    exact Or.inr hcore
  all_goals simp only [h, true_or, or_true]

/-- An FB register that starts at or below FRAME_STAT is a single register and is not FRAME_STAT. -/
theorem allRegs_fb_frameStat :
    ∀ r ∈ allRegs, r.acc = .fb → Reg.FRAME_STAT < r.base ∨ (r.dims = [] ∧ r.base ≠ Reg.FRAME_STAT) := by
  decide +kernel

/-- FRAME_STAT is no element of an FB register. -/
theorem fb_ne_frameStat {o e : Nat} {r : RegSpec} (h : regAt o = some (r, e)) (hfb : r.acc = .fb) : e ≠ Reg.FRAME_STAT := by
  obtain ⟨hr, he⟩ := regAt_spec h
  rcases allRegs_fb_frameStat r (mem_allRegs_of_block hr) hfb with hlt | ⟨hdims, hne⟩
  · exact Nat.ne_of_gt (Nat.lt_of_lt_of_le hlt (elemAt_covers he).1)
  · rw [hdims] at he
    rw [elemAt_zero he]
    exact hne

end Sys2Proof.Machine
end

section
/-! SUPPORT. Statistics counters (R9): a counter after a count, by its three fields, and the two things that a count can do. -/

open Sys2Proof Sys2Proof.Machine

namespace Sys2Proof.Machine

/-- A counter after `n` more, as a number: full with its overflow bit, or the sum under the old overflow bit. -/
theorem cntAdd_toNat (v : Word) (n : Nat) :
    (cntAdd v n).toNat = if 2 ^ 48 - 1 ≤ v.toNat % 2 ^ 48 + n then 2 ^ 63 + (2 ^ 48 - 1)
      else (if v.getLsbD 63 then 2 ^ 63 else 0) + (v.toNat % 2 ^ 48 + n) := by
  unfold cntAdd
  dsimp only
  split
  · rfl
  · rw [BitVec.toNat_ofNat, Nat.mod_eq_of_lt]
    split <;> omega

/-- A register's bit 63 is set where its number is at least 2^63. -/
theorem getLsbD_63 (v : Word) : v.getLsbD 63 = decide (2 ^ 63 ≤ v.toNat) :=
  (BitVec.msb_eq_getLsbD_last v).symm.trans (BitVec.msb_eq_decide v)

theorem cntAdd_count (v : Word) (n : Nat) :
    (cntAdd v n).toNat % 2 ^ 48 = min (2 ^ 48 - 1) (v.toNat % 2 ^ 48 + n) := by
  rw [cntAdd_toNat]
  split
  · omega
  · split <;> omega

theorem cntAdd_overflow (v : Word) (n : Nat) :
    (cntAdd v n).getLsbD 63 = (v.getLsbD 63 || decide (2 ^ 48 - 1 ≤ v.toNat % 2 ^ 48 + n)) := by
  rw [getLsbD_63 (cntAdd v n), cntAdd_toNat]
  by_cases hf : 2 ^ 48 - 1 ≤ v.toNat % 2 ^ 48 + n
  · rw [if_pos hf, decide_eq_true hf, Bool.or_true]
    rfl
  · rw [if_neg hf, decide_eq_false hf, Bool.or_false]
    cases v.getLsbD 63
    · exact decide_eq_false (by simp only [Bool.false_eq_true, if_false]; omega)
    · exact decide_eq_true (by simp only [if_true]; omega)

theorem cntAdd_reserved (v : Word) (n : Nat) : (cntAdd v n).toNat / 2 ^ 48 % 2 ^ 15 = 0 := by
  rw [cntAdd_toNat]
  split
  · omega
  · split <;> omega

theorem cntSaturates_iff (v : Word) (n : Nat) :
    cntSaturates v n = true ↔ v.getLsbD 63 = false ∧ 2 ^ 48 - 1 ≤ v.toNat % 2 ^ 48 + n := by
  simp [cntSaturates]

/-- A count that does not saturate the counter changes nothing else. -/
theorem bumpN_of_not_saturates {o n : Nat} {s : State} (hn : 0 < n) (h : cntSaturates (s.reg o) n = false) :
    bumpN o n s = s.setReg o (cntAdd (s.reg o) n) := by
  simp [bumpN, Nat.ne_of_gt hn, h]

/-- The count that saturates a counter raises the overflow event of its block. -/
theorem bumpN_of_saturates {o n : Nat} {s : State} (hn : 0 < n) (h : cntSaturates (s.reg o) n = true) :
    bumpN o n s = raise (ovfEvent o) (s.setReg o (cntAdd (s.reg o) n)) := by
  simp [bumpN, Nat.ne_of_gt hn, h]

end Sys2Proof.Machine

/-- Settles O39: the counter's number gives its three fields, and `cntSaturates` says which of the two outcomes a count has. -/
theorem counterRules : Obligations.CounterRules := by
  intro o n s hn
  refine ⟨cntAdd_count _ n, cntAdd_overflow _ n, cntAdd_reserved _ n, fun h => ?_, fun h63 hsum => ?_⟩
  · refine bumpN_of_not_saturates hn (Bool.eq_false_iff.mpr fun hs => ?_)
    obtain ⟨h63, hsum⟩ := (cntSaturates_iff _ n).mp hs
    rcases h with h | h
    · exact absurd (h63.symm.trans h) Bool.false_ne_true
    · exact absurd hsum (Nat.not_le.mpr h)
  · exact bumpN_of_saturates hn ((cntSaturates_iff _ n).mpr ⟨h63, hsum⟩)
end

section
/-! SUPPORT. The state right after reset: registers at their reset values, and what those are where the spec names them. -/

open Sys2Proof Sys2Proof.Machine

namespace Sys2Proof.Machine

theorem reset_reg (o : Nat) : State.reset.reg o = regReset o := rfl

theorem reset_actReg (o : Nat) : State.reset.actReg o = regReset o := rfl

/-- The CORE registers with an odd reset value, CORE_INFO and SPARSE_CFG, are single registers of 64 bits or fewer. -/
theorem coreRegs_reset_even :
    ∀ r ∈ coreRegs, (r.reset % 2 = 0 ∧ r.base ≠ Reg.CORE_INFO) ∨
      ((r.base = Reg.CORE_INFO ∨ r.base = Reg.SPARSE_CFG) ∧ r.dims = [(36, 0x100000)] ∧ r.width ≤ 64) := by
  decide +kernel

/-- No shelf entry lies in a CORE register with an odd reset value. -/
theorem reset_even_at_shelf (c : CoreId) {i : Nat} (hi : i < 64) {r : RegSpec} {e : Nat}
    (h : regAt (coreOff (Reg.SHELF + 8 * i) c) = some (r, e)) : r.reset % 2 = 0 ∧ r.base ≠ Reg.CORE_INFO := by
  obtain ⟨hr, he⟩ := regAt_spec h
  have hs : Reg.SHELF = 0x1001000 := rfl
  rw [blockRegs_coreOff c (by rw [hs]; omega)] at hr
  rcases coreRegs_reset_even r hr with heven | ⟨hbase, hdims, hwidth⟩
  · exact heven
  · rw [hdims] at he
    have hcover := elemAt_covers he
    have helem := elemAt_one he
    simp only [coreOff, hs] at hcover helem
    rcases hbase with hbase | hbase <;> rw [hbase] at hcover helem
    · have hinfo : Reg.CORE_INFO = 0x1000000 := rfl
      omega
    · have hcfg : Reg.SPARSE_CFG = 0x1006000 := rfl
      omega

/-- Every shelf entry is invalid at reset (R156). -/
theorem reset_shelf_invalid (c : CoreId) {i : Nat} (hi : i < 64) : seValid (shelfEnt State.reset c i) = false := by
  unfold seValid shelfEnt bitOf
  rw [Nat.mod_eq_of_lt hi, reset_actReg]
  unfold regReset
  split
  · rfl
  · rename_i r e h
    obtain ⟨heven, hinfo⟩ := reset_even_at_shelf c hi h
    rw [if_neg hinfo, BitVec.getLsbD_ofNat, Nat.testBit_zero]
    simp [heven]

/-- Every switched domain is in DEEP at reset (R373): the reset value of each domain's own status register. -/
theorem reset_domState : ∀ d : Fin 48, domState State.reset d.val = 3 := by decide +kernel

theorem reset_meas (i : Fin 8) : State.reset.sec.meas[i.val] = 0 := Vector.getElem_replicate i.isLt

theorem reset_core (c : CoreId) : State.reset.core c = CoreSt.reset := Vector.getElem_replicate c.isLt

/-- Unprogrammed fuses are in a state that programming can reach. -/
theorem blank_fuseOk : Safety.FuseOk FuseSt.blank := by decide

end Sys2Proof.Machine

/-- Settles O5: field by field; the domains by their 48 status registers, the shelves because no CORE register that covers a shelf
entry has an odd reset value. -/
theorem resetState : Obligations.ResetState :=
  ⟨rfl, blank_fuseOk, fun o => ⟨reset_reg o, reset_actReg o⟩, rfl, rfl, rfl, reset_domState, reset_meas,
    fun c _ hi => reset_shelf_invalid c hi, rfl, fun c => congrArg CoreSt.spad (reset_core c)⟩
end

section
/-! SUPPORT. What the commands that make, prevent or follow a fence do, one lemma for each case (R12, R30 to R36, R39, R40,
R91). -/

open Sys2Proof Sys2Proof.Machine

namespace Sys2Proof.Machine

theorem fencesOn_of_frameOn {s : State} (h : frameOn s = true ∧ isSafe s = false) : fencesOn s = true := by
  simp [fencesOn, h]

/-- A source event that is not too early is the fence that issues the next number (R30, R34). -/
theorem sourceEvent_fences {s : State} (h : tooEarly s = false) : sourceEvent s = fence (nextNumber s) false s := by
  simp [sourceEvent, h]

/-- A source event that is too early is counted and does nothing else (R31). -/
theorem sourceEvent_early {s : State} (h : tooEarly s = true) : sourceEvent s = bump Reg.FENCE_EARLY_CNT s := by
  simp [sourceEvent, h]

/-- The timer reaches the fence that is due. -/
theorem timerExpire_due {s : State} {d : Nat} (hon : fencesOn s = true) (hsrc : frameSrc s = 0) (hdue : s.time.due = some d)
    (hd : d ≤ s.time.cyc) (he : tooEarly s = false) : timerExpire s = sourceEvent s := by
  simp [timerExpire, hdue, hon, hsrc, he, Nat.not_lt.mpr hd]

/-- A rising edge of the source's pin that is not captured is a source event alone. -/
theorem timeInEdge_source {s : State} {j : Fin 2} (hon : fencesOn s = true) (hsrc : frameSrc s = 1 + j.val)
    (hsel : tinSelects s j true = false) : timeInEdge j true s = sourceEvent s := by
  simp [timeInEdge, hsel, hon, hsrc]

theorem swFence_source {s : State} (hon : fencesOn s = true) (hsrc : frameSrc s = 4) : swFence s = sourceEvent s := by
  simp [swFence, hon, hsrc]

theorem swFence_refused {s : State} (hsrc : frameSrc s ≠ 4) : swFence s = accessError s := by
  simp [swFence, hsrc]

/-- Taking a fence packet changes the messages under way and nothing else. -/
theorem takeFence_rest {p : Idx4} {s u : State} {m : Msg} (h : takeFence p s = some (m, u)) : u = { s with net := u.net } := by
  obtain ⟨r, -, hr⟩ := Option.map_eq_some_iff.mp h
  cases hr
  rfl

/-- A fence packet of the source's port brings the fence with its number (R34, R35). -/
theorem fenceFlit_source {p : Idx4} {s u : State} {m : Msg} (ht : takeFence p s = some (m, u)) (hon : fencesOn s = true)
    (hsrc : frameSrc s = 3) (hport : s.actF Reg.FRAME_SRC 4 3 = p.val) (he : tooEarly s = false) :
    fenceFlit p s = fence m.frame (!later m.frame (frameNum s)) u := by
  have hu := takeFence_rest ht
  have hon' : fencesOn u = true := by rw [hu]; exact hon
  have hsrc' : frameSrc u = 3 := by rw [hu]; exact hsrc
  have hport' : u.actF Reg.FRAME_SRC 4 3 = p.val := by rw [hu]; exact hport
  have he' : tooEarly u = false := by rw [hu]; exact he
  have hnum : frameNum u = frameNum s := by rw [hu]; rfl
  simp [fenceFlit, ht, hon', hsrc', hport', he', hnum]

theorem fenceMissing_due {s : State} (hon : fencesOn s = true) (hsrc : frameSrc s ≠ 0)
    (hm : missBase s + 500000000 ≤ s.time.cyc) :
    fenceMissing s = fence (nextNumber s) false (bump Reg.FENCE_MISSING_CNT s) := by
  simp [fenceMissing, hon, hsrc, Nat.not_lt.mpr hm]

theorem inGuard_iff {s : State} {d : Nat} (hdue : s.time.due = some d) :
    inGuard s = true ↔ fencesOn s = true ∧ frameSrc s = 0 ∧ s.time.cyc < d ∧ d ≤ s.time.cyc + (s.reg Reg.FRAME_GUARD).toNat := by
  simp [inGuard, hdue, and_assoc]

theorem guardStart_inGuard {s : State} (h : inGuard s = true) : guardStart s = s.setF Reg.FRAME_STAT 1 1 1 := by
  simp [guardStart, h]

theorem frameEnable_off {s : State} (h : frameOn s = false) : frameEnable s =
    ((s.modTime fun t => { t with armedAt := t.cyc, due := if frameSrc s = 0 then some (firstDue s) else none }).setF
      Reg.FRAME_CTRL 0 0 1).setF Reg.FRAME_STAT 0 0 0 := by
  simp [frameEnable, h]

theorem frameDisable_on {s : State} (h : frameOn s = true) : frameDisable s =
    guardEnd ((s.modTime fun t => { t with due := none }).setF Reg.FRAME_CTRL 0 0 0) := by
  simp [frameDisable, h]

/-- load_fb captures while frames are disabled and no trunk frame runs (R33). -/
theorem loadFb_idle {s : State} (hoff : frameOn s = false) (hrun : frameRuns s = false) : loadFb s = captureAll s := by
  have hoff' : bitOf (s.reg Reg.FRAME_CTRL) 0 = false := hoff
  simp [loadFb, hoff', hrun]

theorem loadFb_refused {s : State} (h : frameOn s = true ∨ frameRuns s = true) : loadFb s = accessError s := by
  have h' : bitOf (s.reg Reg.FRAME_CTRL) 0 = true ∨ frameRuns s = true := h
  simp [loadFb, h']

theorem handoverDone_idle {s : State} (h : handoverOwed s = false) : handoverDone s = s.setF Reg.FRAME_STAT 3 3 0 := by
  simp [handoverDone, h]

end Sys2Proof.Machine

/-- Settles O34: with fences on and the source selected each event is a source event, which fences or counts by whether it is too
early; the controls follow their guards. -/
theorem fenceSourceResults : Obligations.FenceSourceResults := by
  intro s early num on
  refine ⟨?timer, ?edge, ?edgeEarly, ?software, ?softwareRefused, ?flit, ?missing, ?guard, ?enable, ?disable, ?load,
    ?loadRefused, ?handover⟩
  case timer =>
    intro d hon hsrc hdue hd he
    exact congrArg Host.Outcome.next ((timerExpire_due (fencesOn_of_frameOn hon) hsrc hdue hd he).trans (sourceEvent_fences he))
  case edge =>
    intro j hon hsrc hsel he
    exact congrArg Host.Outcome.next ((timeInEdge_source (fencesOn_of_frameOn hon) hsrc hsel).trans (sourceEvent_fences he))
  case edgeEarly =>
    intro j hon hsrc hsel he
    exact congrArg Host.Outcome.next ((timeInEdge_source (fencesOn_of_frameOn hon) hsrc hsel).trans (sourceEvent_early he))
  case software =>
    intro hon hsrc he
    exact congrArg Host.Outcome.next ((swFence_source (fencesOn_of_frameOn hon) hsrc).trans (sourceEvent_fences he))
  case softwareRefused => exact fun hsrc => congrArg Host.Outcome.next (swFence_refused hsrc)
  case flit =>
    intro p m u ht hon hsrc hport he
    exact congrArg Host.Outcome.next (fenceFlit_source ht (fencesOn_of_frameOn hon) hsrc hport he)
  case missing => exact fun hon hsrc hm => congrArg Host.Outcome.next (fenceMissing_due (fencesOn_of_frameOn hon) hsrc hm)
  case guard =>
    intro d hon hsrc hdue hlt hle
    exact congrArg Host.Outcome.next (guardStart_inGuard ((inGuard_iff hdue).mpr ⟨fencesOn_of_frameOn hon, hsrc, hlt, hle⟩))
  case enable => exact fun hoff => congrArg Host.Outcome.next (frameEnable_off hoff)
  case disable => exact fun hon => congrArg Host.Outcome.next (frameDisable_on hon)
  case load => exact fun hoff hrun => congrArg Host.Outcome.next (loadFb_idle hoff hrun)
  case loadRefused => exact fun h => congrArg Host.Outcome.next (loadFb_refused h)
  case handover => exact fun h => congrArg Host.Outcome.next (handoverDone_idle h)
end

section
/-! SUPPORT. Register accesses (R4 to R11, R22): which register an access reaches, and what a write or a read of that
register does. -/

open Sys2Proof Sys2Proof.Machine

namespace Sys2Proof.Machine

/-! ### Writes of one register -/

section
variable {req : Requester} {o : Nat} {w : Width} {v : Word} {s : State} {p : Piece}

/-- A write of a core that is denied traps it, and sets nothing going. -/
theorem accessWrite_denied {c : CoreId} (hd : coreDenied req o true = some c) :
    accessWrite req o w v s = seqTrap c trapDenied (s.core c).pc 0 s := by
  simp [accessWrite, setsGo, busWrite, hd]

/-- A write of an unoccupied offset is ignored and reported (R8). -/
theorem accessWrite_unoccupied (hd : coreDenied req o true = none) (hp : pieces o w = [(none, 0)]) :
    accessWrite req o w v s = accessError s := by
  simp [accessWrite, setsGo, busWrite, hd, hp]

/-- So is one of a register beyond its requester's reach. -/
theorem accessWrite_unreached (hd : coreDenied req o true = none) (hp : pieces o w = [(some p, 0)])
    (hr : reaches s req true p = false) : accessWrite req o w v s = accessError s := by
  simp [accessWrite, setsGo, busWrite, hd, hp, Option.filter, hr]

/-- A write that reaches one register, not SEC_BOOT_CTRL itself, is that register's write. -/
theorem accessWrite_piece (hd : coreDenied req o true = none) (hp : pieces o w = [(some p, 0)])
    (hr : reaches s req true p = true) (hgo : p.r.base ≠ Reg.SEC_BOOT_CTRL ∨ p.mirror = true) :
    accessWrite req o w v s = writePiece req p (pieceData p v 0) s := by
  have hgo' : setsGo req o w v s = false := by
    rcases hgo with h | h <;> simp [setsGo, hd, hp, Option.filter, hr, h]
  simp [accessWrite, hgo', busWrite, hd, hp, Option.filter, hr]

/-! ### Where a write of one register goes -/

theorem writePiece_mirror (hm : p.mirror = true) : writePiece req p v s = s := by
  simp [writePiece, hm]

theorem writePiece_clear {c : Nat} (hm : p.mirror = false) (hc : clearBase p.r.base = some c) :
    writePiece req p v s = clearCounters p v s := by
  simp [writePiece, hm, hc]

theorem writeSys_plain (h1 : p.r.base ≠ Reg.FRAME_CTRL) (h2 : p.r.base ≠ Reg.FRAME_GUARD) :
    writeSys p v s = plainWrite p v s := by
  rw [writeSys, if_neg h1, if_neg h2]

theorem writeTest_plain (h1 : p.r.base ≠ Reg.TEST_REF) (h2 : p.r.base ≠ Reg.FENCE_REQ) (h3 : p.r.base ≠ Reg.FENCE_CLEAR)
    (h4 : p.r.base ≠ Reg.SAFE_CTRL) (h5 : p.r.base ≠ Reg.SAFE_CFG) : writeTest req p v s = plainWrite p v s := by
  rw [writeTest, if_neg h1, if_neg h2, if_neg h3, if_neg h4, if_neg h5]

theorem writeCore_plain {c : CoreId} (h : p.r.base ≠ Reg.SHELF) : writeCore req c p v s = plainWrite p v s := by
  rw [writeCore, if_neg h]

/-- The registers with an effect of their own in the blocks SYS and TEST and in the cores, and SEC_BOOT_CTRL. -/
def ownEffect : List Nat :=
  [Reg.FRAME_CTRL, Reg.FRAME_GUARD, Reg.TEST_REF, Reg.FENCE_REQ, Reg.FENCE_CLEAR, Reg.SAFE_CTRL, Reg.SAFE_CFG, Reg.SHELF,
    Reg.SEC_BOOT_CTRL]

/-- A register of SYS, TEST, EVT or a core without an effect of its own takes a plain write. -/
theorem writePiece_plain (hm : p.mirror = false) (hc : clearBase p.r.base = none)
    (hblk : p.o / 0x100000 ∉ [1, 2, 3, 4, 5, 6, 7, 8, 10, 11, 12, 14]) (hown : p.r.base ∉ ownEffect) :
    writePiece req p v s = plainWrite p v s := by
  simp only [ownEffect, List.mem_cons, List.not_mem_nil, or_false, not_or] at hown
  obtain ⟨hctrl, hguard, href, hreq, hclear, hsctrl, hscfg, hshelf, -⟩ := hown
  simp only [writePiece, hm, hc, Bool.false_eq_true, if_false, Option.isSome_none]
  split
  case h_1 => exact writeSys_plain hctrl hguard
  case h_13 => exact writeTest_plain href hreq hclear hsctrl hscfg
  case h_15 =>
    split
    · exact writeCore_plain hshelf
    · rfl
  all_goals
    rename_i hk
    exact absurd hblk (by simp [hk])

/-! ### Plain writes -/

/-- The bits that a piece of the data leaves in a register are those of the data where it is writable. -/
theorem merged_pieceData (p : Piece) (old v : Word) :
    merged p old (pieceData p v 0) = (old &&& ~~~(BitVec.ofNat 64 p.r.mask &&& p.m)) |||
      ((if p.m = highMask then v <<< 32 else v) &&& (BitVec.ofNat 64 p.r.mask &&& p.m)) := by
  unfold merged pieceData
  split
  · rfl
  · simp only [BitVec.ushiftRight_zero]
    rw [BitVec.and_assoc v p.m, BitVec.and_comm p.m, BitVec.and_assoc _ p.m p.m, BitVec.and_self]

/-- Where a mask of the piece's bits is laid on it, a piece of the data is the data moved to the register's bits. -/
theorem pieceData_masked (p : Piece) (v x : Word) :
    pieceData p v 0 &&& p.m &&& x = (if p.m = highMask then v <<< 32 else v) &&& p.m &&& x := by
  unfold pieceData
  rw [BitVec.ushiftRight_zero]
  split
  · rfl
  · rw [BitVec.and_assoc v, BitVec.and_self]

end

/-- What occupies an offset and is no mirror is the register there. -/
theorem occupant_register {o e f : Nat} {r : RegSpec} (h : occupant o = some (r, e, f, false)) : regAt o = some (r, e) := by
  unfold occupant at h
  split at h
  · cases h; assumption
  · split at h <;> cases h

theorem regAt_of_pieceHalf {o : Nat} {p : Piece} (h : pieceHalf o = some p) (hm : p.mirror = false) :
    regAt o = some (p.r, p.o) := by
  obtain ⟨⟨r, e, f, act⟩, hx, rfl⟩ := Option.map_eq_some_iff.mp h
  cases hm
  exact occupant_register hx

theorem regAt_of_pieceWhole {o : Nat} {p : Piece} (h : pieceWhole o = some p) (hm : p.mirror = false) :
    regAt o = some (p.r, p.o) := by
  unfold pieceWhole at h
  split at h
  · obtain ⟨-, hp⟩ := Option.ite_none_right_eq_some.mp h
    cases hp
    cases hm
    exact occupant_register ‹_›
  · cases h

/-- An access that comes to one register, not to a mirror, reaches the register at its offset. -/
theorem regAt_of_pieces {o : Nat} {w : Width} {p : Piece} (h : pieces o w = [(some p, 0)]) (hm : p.mirror = false) :
    regAt o = some (p.r, p.o) := by
  unfold pieces at h
  split at h
  · split at h
    · exact regAt_of_pieceHalf (by simpa using h) hm
    · cases h
  · split at h
    · cases h
    · split at h
      · rename_i hw
        cases h
        exact regAt_of_pieceWhole hw hm
      · simp at h
  · cases h

/-- A plain write of an RW register: the bits written where its mask has them, and its W1C bits cleared where ones are written. -/
theorem plainWrite_rw {p : Piece} (h : p.r.acc = .rw) (v : Word) (s : State) : plainWrite p v s =
    s.setReg p.o (merged p (s.reg p.o) v &&& ~~~(v &&& p.m &&& BitVec.ofNat 64 p.r.w1c)) := by
  simp only [plainWrite, h]

/-- A plain write of an FB register changes its pending value, and counts where it comes in the guard interval (R37, R40). -/
theorem plainWrite_fb {p : Piece} (h : p.r.acc = .fb) (hne : p.o ≠ Reg.FRAME_STAT) (v : Word) (s : State) : plainWrite p v s =
    if bitOf (s.reg Reg.FRAME_STAT) 1 then bump Reg.FB_LATE_WRITE_CNT (s.setReg p.o (merged p (s.reg p.o) v))
    else s.setReg p.o (merged p (s.reg p.o) v) := by
  simp only [plainWrite, h, fbPut, reg_setReg_ne _ s hne.symm]

/-! ### Counters: cleared and read -/

theorem zeroExtend_and_lowMask (h : Half) : h.zeroExtend 64 &&& lowMask = h.zeroExtend 64 := by
  have hlow : lowMask.toNat = 2 ^ 32 - 1 := rfl
  have hh := h.isLt
  apply BitVec.eq_of_toNat_eq
  rw [BitVec.toNat_and, hlow, Nat.and_two_pow_sub_one_eq_mod, BitVec.zeroExtend_eq_setWidth, BitVec.toNat_setWidth]
  omega

/-- SEC_BOOT_CTRL is no counter-clear register. -/
theorem clearBase_bootCtrl {c : Nat} : clearBase Reg.SEC_BOOT_CTRL ≠ some c := by
  have hnone : clearBase Reg.SEC_BOOT_CTRL = none := by decide
  rw [hnone]
  exact nofun

/-- A 32-bit write of a counter-clear register zeroes the counters named (R11). -/
theorem clearCounters_half {p : Piece} {c : Nat} (hm : p.m = lowMask) (hc : clearBase p.r.base = some c) (h : Half)
    (s : State) : clearCounters p (pieceData p (h.zeroExtend 64) 0) s =
      (bitsSet 32 (h.zeroExtend 64 &&& BitVec.ofNat 64 p.r.mask).toNat).foldl
        (fun s i => s.setReg (c + (p.o - p.r.base) + 8 * i) 0) s := by
  have hlow : lowMask ≠ highMask := by decide
  have hdata : ones p (pieceData p (h.zeroExtend 64) 0) = h.zeroExtend 64 := by
    unfold ones pieceData
    rw [hm, if_neg hlow, BitVec.ushiftRight_zero, zeroExtend_and_lowMask, zeroExtend_and_lowMask]
  simp only [clearCounters, hc, hdata]

/-- A read of a counter's low half latches the high half for its reader (R10). -/
theorem readCount_low {req : Requester} {p : Piece} (hm : p.m = lowMask) (s : State) :
    readCount req p s = ((timedCount p s).reg p.o &&& lowMask, { timedCount p s with
      latch := (req, p.o, ((timedCount p s).reg p.o >>> 32).truncate 32) ::
        (timedCount p s).latch.filter fun e => !(e.1 == req && e.2.1 == p.o) }) := by
  have hlow : lowMask ≠ highMask := by decide
  simp only [readCount, hm, hlow, false_and, if_false, if_true]

theorem readPiece_count {req : Requester} {p : Piece} (hacc : p.r.acc = .cnt)
    (hb : p.r.base ∉ [Reg.TIME_NOW_SEC, Reg.TIME_NOW_NS, Reg.TIME_NOW_FRAC, Reg.TIN_CAP_NS]) (s : State) :
    readPiece req p s = readCount req p s := by
  simp only [List.mem_cons, List.not_mem_nil, or_false, not_or] at hb
  obtain ⟨hsec, hns, hfrac, hcap⟩ := hb
  simp only [readPiece, hsec, hns, hfrac, hcap, hacc, or_self, if_false, reduceCtorEq, if_true]

/-- A read that reaches one register is that register's read. -/
theorem busRead_piece {req : Requester} {o : Nat} {w : Width} {p : Piece} {s : State} (hd : coreDenied req o false = none)
    (hp : pieces o w = [(some p, 0)]) (hr : reaches s req false p = true) :
    busRead req o w s = { (readPiece req p s).2 with lastRead := (readPiece req p s).1 } := by
  simp [busRead, busReadVal, hd, hp, Option.filter, hr]

/-- A read of an unoccupied offset returns zero and is reported (R8). -/
theorem busRead_unoccupied {req : Requester} {o : Nat} {w : Width} {s : State} (hd : coreDenied req o false = none)
    (hp : pieces o w = [(none, 0)]) : busRead req o w s = { accessError s with lastRead := 0 } := by
  simp [busRead, busReadVal, hd, hp]

/-! ### Accesses at an internal address -/

/-- An address in register space is the access at its offset (R22). -/
theorem addrAccess_regs {req : Requester} {o : Nat} {w : Width} {wr : Bool} {v : Word} {s : State} (ho : o < 0x4000000) :
    addrAccess req (0x1200000000 + o) w wr v s = if wr then accessWrite req o w v s else busRead req o w s := by
  have hin : 0x1200000000 ≤ 0x1200000000 + o ∧ 0x1200000000 + o < 0x1204000000 := by omega
  unfold addrAccess
  rw [if_pos hin, Nat.add_sub_cancel_left]

/-- No unmapped address lies in register space. -/
theorem not_regs_of_unmapped {s : State} {a : Nat} (h : regionOf s a = .unmapped) :
    ¬ (0x1200000000 ≤ a ∧ a < 0x1204000000) := by
  rintro ⟨hlo, hhi⟩
  rw [regionOf, if_neg (by omega), if_neg (by omega), if_neg (by omega), if_neg (by omega), if_pos hhi] at h
  cases h

/-- An unmapped address traps a core (R22). -/
theorem addrAccess_unmapped_core {c : CoreId} {a : Nat} {w : Width} {wr : Bool} {v : Word} {s : State}
    (h : regionOf s a = .unmapped) : addrAccess (.core c) a w wr v s = seqTrap c trapUnmapped (s.core c).pc 0 s := by
  simp only [addrAccess, not_regs_of_unmapped h, h, bne_self_eq_false, Bool.false_eq_true, if_false]

/-- For any other requester it reads zero or ignores the write, and is reported (R8). -/
theorem addrAccess_unmapped {req : Requester} {a : Nat} {w : Width} {wr : Bool} {v : Word} {s : State}
    (h : regionOf s a = .unmapped) (hreq : ∀ c, req ≠ .core c) :
    addrAccess req a w wr v s = if wr then accessError s else { accessError s with lastRead := 0 } := by
  cases req
  case core c => exact absurd rfl (hreq c)
  all_goals simp only [addrAccess, not_regs_of_unmapped h, h, bne_self_eq_false, Bool.false_eq_true, if_false]

end Sys2Proof.Machine

/-- Settles O38: an access comes to the piece it reaches, or to none; what a write of that piece does turns on where its register
stands, what a read does on its access code. -/
theorem registerAccessResults : Obligations.RegisterAccessResults := by
  refine ⟨?write, ?countRead, ?unoccupied, ?unmapped, ?denied⟩
  case write =>
    intro req o w p v s hd hp m d n
    have hn : merged p (s.reg p.o) (pieceData p v 0) = n := merged_pieceData p _ v
    refine ⟨fun hr hm hc hblk hown => ?_, fun hr hm => ?_, fun hr => ?_, fun c h hw hlow hr hm hc => ?_⟩
    · have hgo : p.r.base ≠ Reg.SEC_BOOT_CTRL := fun h => hown (by simp [h])
      have hwr : accessWrite req o w v s = plainWrite p (pieceData p v 0) s :=
        (accessWrite_piece hd hp hr (.inl hgo)).trans (writePiece_plain hm hc hblk hown)
      constructor
      · intro hacc
        rw [plainWrite_rw hacc, hn, pieceData_masked] at hwr
        exact congrArg Host.Outcome.next hwr
      · intro hacc
        rw [plainWrite_fb hacc (fb_ne_frameStat (regAt_of_pieces hp hm) hacc), hn] at hwr
        exact congrArg Host.Outcome.next hwr
    · exact congrArg Host.Outcome.next ((accessWrite_piece hd hp hr (.inr hm)).trans (writePiece_mirror hm))
    · exact congrArg Host.Outcome.next (accessWrite_unreached hd hp hr)
    · subst hw
      have hgo : p.r.base ≠ Reg.SEC_BOOT_CTRL := fun h => clearBase_bootCtrl (h ▸ hc)
      exact congrArg Host.Outcome.next ((accessWrite_piece hd hp hr (.inl hgo)).trans
        ((writePiece_clear hm hc).trans (clearCounters_half hlow hc h s)))
  case countRead =>
    intro req o p s hd hp hr hm hacc hb u
    have hread : readPiece req p s = _ := (readPiece_count hacc hb s).trans (readCount_low hm s)
    refine congrArg Host.Outcome.next ((busRead_piece hd hp hr).trans ?_)
    rw [hread]
  case unoccupied =>
    intro req o w v s hd hp
    refine ⟨congrArg Host.Outcome.next (accessWrite_unoccupied hd hp), fun ho => ?_, fun ho hd' => ?_⟩
    · exact congrArg Host.Outcome.next ((addrAccess_regs ho).trans (accessWrite_unoccupied hd hp))
    · exact congrArg Host.Outcome.next ((addrAccess_regs ho).trans (busRead_unoccupied hd' hp))
  case unmapped =>
    intro req a w v s h
    refine ⟨fun hreq => ⟨?_, ?_⟩, fun c wr hreq => ?_⟩
    · exact congrArg Host.Outcome.next (addrAccess_unmapped h hreq)
    · exact congrArg Host.Outcome.next (addrAccess_unmapped h hreq)
    · subst hreq
      exact congrArg Host.Outcome.next (addrAccess_unmapped_core h)
  case denied =>
    intro req o c w v s hd
    exact ⟨congrArg Host.Outcome.next (accessWrite_denied hd), congrArg Host.Outcome.next (accessWrite_denied hd)⟩
end

section
/-! SUPPORT. The host's ways in, one lemma for each case: the work queues (R351 to R355), a function's reset, BAR2 (R26, R350),
and the ways into a scratchpad from outside (R155 to R157). -/

open Sys2Proof Sys2Proof.Machine

namespace Sys2Proof.Machine

/-! ### Registers of a queue -/

/-- Two registers of one queue that differ share no offset. -/
theorem hqOff_ne {o p : Nat} (h : o ≠ p) (q : Nat) : hqOff o q ≠ hqOff p q := by
  unfold hqOff
  omega

/-- What HQ_CFG says of a queue follows HQ_CFG alone. -/
theorem hqOn_congr {s u : State} {q : Nat} (h : u.reg (hqOff Reg.HQ_CFG q) = s.reg (hqOff Reg.HQ_CFG q)) :
    hqOn u q = hqOn s q := by
  simp [hqOn, hqSize, State.regF, h]

section
variable {o : Nat} (h : Reg.HQ_CFG ≠ o) (q : Nat) (v : Word) (s : State)
include h

theorem hqCfg_setReg : (s.setReg (hqOff o q) v).reg (hqOff Reg.HQ_CFG q) = s.reg (hqOff Reg.HQ_CFG q) :=
  reg_setReg_ne v s (hqOff_ne h q)

theorem hqOn_setReg : hqOn (s.setReg (hqOff o q) v) q = hqOn s q := hqOn_congr (hqCfg_setReg h q v s)

theorem hqSize_setReg : hqSize (s.setReg (hqOff o q) v) q = hqSize s q := by
  simp [hqSize, State.regF, hqCfg_setReg h]

theorem hqPrio_setReg : hqPrio (s.setReg (hqOff o q) v) q = hqPrio s q := by
  simp [hqPrio, State.regF, hqCfg_setReg h]

end

/-! ### Doorbells -/

section
variable {q : Nat} {v : Half} {s : State}

/-- A tail within the ring, or of a queue that is off, is the register's write. -/
theorem hqDoorbell_inRing (h : hqOn s q = false ∨ v.toNat % 4096 < hqSize s q) :
    hqDoorbell q v s = s.setReg (hqOff Reg.HQ_SQ_TAIL q) (BitVec.ofNat 64 (v.toNat % 4096)) := by
  have hin : ¬ (hqOn s q = true ∧ hqSize s q ≤ v.toNat % 4096) := by
    rintro ⟨hon, hle⟩
    rcases h with hoff | hlt
    · exact absurd hon (by simp [hoff])
    · exact absurd hlt (Nat.not_lt.mpr hle)
  simp [hqDoorbell, hqOn_setReg, hqSize_setReg, hin]

/-- A tail beyond the ring of a queue that is on stops it with HQ_ERR. -/
theorem hqDoorbell_beyond (hon : hqOn s q = true) (hle : hqSize s q ≤ v.toNat % 4096) :
    hqDoorbell q v s = raise evHqErr
      ((s.setReg (hqOff Reg.HQ_SQ_TAIL q) (BitVec.ofNat 64 (v.toNat % 4096))).setF (hqOff Reg.HQ_STAT q) 1 1 1) := by
  simp [hqDoorbell, hqOn_setReg, hqSize_setReg, hon, hle]

end

/-! ### Descriptors -/

/-- A queue with none in progress whose turn it is starts its next descriptor, checked; one that is not H2S asks for no
credits. -/
theorem hqStart_first {q : Nat} {b : List Nat} {data : List HostLine} {bad : Option Nat} {s : State} (hcan : hqCan s q = true)
    (hmine : hqMine s q = [])
    (hturn : ((List.range 64).any fun r => r != q && hqCan s r && (hqMine s r).isEmpty && hqBefore s r q) = false)
    (hop : leAt b 0 1 ≠ 3) :
    let idx := (s.reg (hqOff Reg.HQ_SQ_HEAD q)).toNat
    hqStart q b data bad s =
      (s.setReg (hqOff Reg.HQ_SQ_HEAD q) (BitVec.ofNat 64 ((idx + 1) % hqSize s q))).modHq fun h => { h with
        seq := h.seq + 1
        descs := h.descs ++ [{ hqParse s.hq.seq q idx b data bad with status := hqCheck s q b, fin := hqCheck s q b != 0 }]
        last0 := if hqPrio s q = 1 then h.last0 else q
        last1 := if hqPrio s q = 1 then q else h.last1 } := by
  have hnotH2s : (hqParse s.hq.seq q (s.reg (hqOff Reg.HQ_SQ_HEAD q)).toNat b data bad).op ≠ 3 := hop
  simp [hqStart, hcan, hmine, hturn, hnotH2s, hqPrio_setReg, State.modHq]

/-- No line of a transfer changes a descriptor's operation or the failed host read it carries. -/
def sameDesc (d e : HqDesc) : Prop := e.op = d.op ∧ e.hostErr = d.hostErr

theorem sameDesc_note {d e : HqDesc} (code : Nat) (h : sameDesc d e) : sameDesc d (hqNote code e) := h

theorem hqH2d_sameDesc (d : HqDesc) (s : State) : sameDesc d (hqH2d d s).1 :=
  List.foldlRecOn (motive := fun a : HqDesc × State => sameDesc d a.1) _ _ ⟨rfl, rfl⟩ fun _ h _ _ => sameDesc_note _ h

theorem hqD2h_sameDesc (d : HqDesc) (s : State) : sameDesc d (hqD2h d s).1 :=
  List.foldlRecOn (motive := fun a : HqDesc × List Nat × State => sameDesc d a.1) _ _ ⟨rfl, rfl⟩
    fun _ h _ _ => sameDesc_note _ h

/-- A descriptor fails by its host reads only when one failed, it reads host memory, and nothing else ended it first. -/
def hostFails (d : HqDesc) : Bool :=
  d.hostErr.isSome && (d.op == 1 || d.op == 3) && d.status != 1 && d.status != 2 && d.status != 6

/-- A descriptor with room for its entry whose transfer can end does so with its own status, unless a host read failed. -/
theorem hqComplete_ends {q : Nat} {d e : HqDesc} {r : List HqDesc} {es : List MemErr} {errs : List LineErr} {s u : State}
    (hmine : hqMine s q = d :: r) (hroom : hqRoom s q = true) (ht : hqTransfer d es errs s = some (e, u))
    (hok : hostFails e = false) : hqComplete q es errs s = hqFinish e e.status (64 * e.done) u := by
  have hok' : (e.hostErr.isSome && (e.op == 1 || e.op == 3) && e.status != 1 && e.status != 2 && e.status != 6) = false := hok
  simp only [hqComplete, hmine, hroom, ht, hok', Bool.not_true, Bool.false_eq_true, if_false]

section
variable {d : HqDesc} {es : List MemErr} {errs : List LineErr} {s : State}

/-- A descriptor that started with a fault, or that is a barrier, moves nothing. -/
theorem hqTransfer_nothing (h : d.status = 1 ∨ d.status = 2 ∨ d.op = 4) : hqTransfer d es errs s = some (d, s) := by
  unfold hqTransfer
  split
  · rfl
  · next hst =>
    have hop : d.op = 4 := by tauto
    simp [hop]

theorem hqTransfer_h2d (hst : d.status = 0) (hop : d.op = 1) (hheld : hqHeld s d = false) :
    hqTransfer d es errs s = some (hqH2d d (memStrike es s)) := by
  simp [hqTransfer, hst, hop, hheld]

theorem hqTransfer_d2h (hst : d.status = 0) (hop : d.op = 2) (hheld : hqHeld s d = false) :
    hqTransfer d es errs s = some (hqD2h d (strike errs (memStrike es s))) := by
  simp [hqTransfer, hst, hop, hheld]

theorem hostFails_nothing (h : d.status = 1 ∨ d.status = 2 ∨ d.op = 4) : hostFails d = false := by
  rcases h with h | h | h <;> simp [hostFails, h]

theorem hostFails_of_noError (h : d.hostErr = none) : hostFails d = false := by
  simp [hostFails, h]

theorem hostFails_of_d2h (h : d.op = 2) : hostFails d = false := by
  simp [hostFails, h]

end

theorem memStrike_nil (s : State) : memStrike [] s = s := rfl

/-! ### Ending a queue, and a function's reset -/

/-- With no descriptor in progress, stopping a queue discards those not started. -/
theorem hqStop_idle {s : State} {q : Nat} (h : hqMine s q = []) :
    hqStop q s = s.setReg (hqOff Reg.HQ_SQ_HEAD q) (s.reg (hqOff Reg.HQ_SQ_TAIL q)) := by
  simp [hqStop, h]

/-- Disabling such a queue clears its enable and its error as well. -/
theorem hqDisable_idle {s : State} {q : Nat} (h : hqMine s q = []) :
    hqDisable q s = ((s.setF (hqOff Reg.HQ_CFG q) 31 31 0).setReg (hqOff Reg.HQ_SQ_HEAD q)
      (s.reg (hqOff Reg.HQ_SQ_TAIL q))).setF (hqOff Reg.HQ_STAT q) 1 1 0 := by
  have htail : (s.setF (hqOff Reg.HQ_CFG q) 31 31 0).reg (hqOff Reg.HQ_SQ_TAIL q) = s.reg (hqOff Reg.HQ_SQ_TAIL q) :=
    reg_setReg_ne _ s (hqOff_ne (by decide) q)
  have hmine : hqMine (s.setF (hqOff Reg.HQ_CFG q) 31 31 0) q = [] := h
  rw [hqDisable, hqStop_idle hmine, htail]

/-- The clearing of a function's mailbox reaches no register below the mailboxes. -/
theorem reg_mboxPut_below {o : Nat} (ho : o < Reg.MBOX) (f : Nat) (bs : List Nat) (s : State) :
    (mboxPut f bs s).reg o = s.reg o := by
  refine List.foldlRecOn (motive := fun u : State => u.reg o = s.reg o) _ _ rfl fun u hu w _ => ?_
  have hne : o ≠ mboxOff f w := by unfold mboxOff; omega
  exact (reg_setReg_ne _ u hne).trans hu

theorem reg_flrClear_below {o : Nat} (ho : o < Reg.MBOX) (f : Nat) (s : State) : (flrClear f s).reg o = s.reg o := by
  have hlt : Reg.MBOX < Reg.MBOX_STAT := by decide
  have hne : o ≠ Reg.MBOX_STAT + 0x100 * f := by omega
  simp only [flrClear, reg_mk, reg_eta]
  rw [reg_setReg_ne 0 _ hne, reg_mboxPut_below ho]

theorem slotOwner_flrClear (f : Nat) (k : Idx8) (s : State) : slotOwner (flrClear f s) k.val = slotOwner s k.val := by
  have hlt : Reg.TRUNK_CFG + 0x20 * 8 < Reg.MBOX := by decide
  have hbelow : Reg.TRUNK_CFG + 0x20 * k.val < Reg.MBOX := by omega
  simp [slotOwner, State.regF, reg_flrClear_below hbelow]

/-- A function that owns no slot stops no trunk. -/
theorem flrTrunks_noSlot {f : Nat} {s : State} (h : ∀ k : Idx8, f ≠ 0 → slotOwner s k.val ≠ f) : flrTrunks f s = s := by
  unfold flrTrunks
  split
  · rfl
  · next hf =>
    refine List.foldlRecOn (motive := (· = s)) _ _ rfl ?_
    rintro u rfl k -
    simp [h k hf]

/-- A function that owns no queue stops none. -/
theorem hqStops_noQueue {f : Nat} {s : State} (h : ∀ q, q < 64 → hqOwner s q ≠ f) :
    (List.range 64).foldl (fun s q => if hqOwner s q = f then hqStop q s else s) s = s := by
  refine List.foldlRecOn (motive := (· = s)) _ _ rfl ?_
  rintro u rfl q hq
  simp [h q (List.mem_range.mp hq)]

/-- The reset of a function that owns neither a queue nor a slot clears its mailbox and its vectors only. -/
theorem flr_ownsNothing {f : Nat} {s : State} (hq : ∀ q, q < 64 → hqOwner s q ≠ f)
    (hk : ∀ k : Idx8, f ≠ 0 → slotOwner s k.val ≠ f) : flr f s = flrClear f s := by
  have hk' : ∀ k : Idx8, f ≠ 0 → slotOwner (flrClear f s) k.val ≠ f := fun k hf => by
    rw [slotOwner_flrClear]
    exact hk k hf
  rw [flr, hqStops_noQueue hq, flrTrunks_noSlot hk']

/-! ### The PCI Express link -/

/-- Out of reset, powered and with its PLL locked, the link comes up. -/
theorem execPcieLinkUp_ready {s : State} (hreset : s.pcie.inReset = false) (hdom : domRun s 43 = true)
    (hpll : bitOf (s.reg Reg.CLK_STAT) 12 = true) :
    execPcieLinkUp s = .next { s with pcie := { s.pcie with linkUp := true } } := by
  simp [execPcieLinkUp, hreset, hdom, hpll]

theorem execPciePerst_low (s : State) :
    execPciePerst true s = .next { s with pcie := { s.pcie with inReset := true, linkUp := false } } := by
  simp [execPciePerst]

/-- The end of a reset does not bring the link up. -/
theorem execPciePerst_high (s : State) : execPciePerst false s = .next { s with pcie := { s.pcie with inReset := false } } := by
  simp [execPciePerst]

/-! ### BAR2 -/

section
variable {off n : Nat} {data : List Nat} {s : State}

theorem bar2Staged_booted (hb : s.regF Reg.SEC_BOOT_STAT 2 0 ≠ 2) (off : Nat) : bar2Staged s off = false := by
  simp [bar2Staged, hb]

section
variable (hup : s.pcie.linkUp = true) (hb : s.regF Reg.SEC_BOOT_STAT 2 0 ≠ 2)
include hup hb

theorem bar2Access_write (hin : bar2Addr s off + data.length ≤ memBytes s)
    (hheld : memHeld s (bar2Addr s off / 64 * 64) (cdiv (bar2Addr s off % 64 + data.length) 64) = false) :
    bar2Access off n true data false [] s = memSet (bar2Addr s off) data s := by
  simp [bar2Access, hup, bar2Staged_booted hb, Nat.not_lt.mpr hin, hheld, memStrike_nil, bar2Write]

theorem bar2Access_read (hin : bar2Addr s off + n ≤ memBytes s)
    (hheld : memHeld s (bar2Addr s off / 64 * 64) (cdiv (bar2Addr s off % 64 + n) 64) = false) :
    bar2Access off n false data false [] s = bar2Read (bar2Addr s off) n s := by
  simp [bar2Access, hup, bar2Staged_booted hb, Nat.not_lt.mpr hin, hheld, memStrike_nil]

theorem bar2Access_writeBeyond (hout : memBytes s < bar2Addr s off + data.length) :
    bar2Access off n true data false [] s = accessError s := by
  simp [bar2Access, hup, bar2Staged_booted hb, hout]

theorem bar2Access_readBeyond (hout : memBytes s < bar2Addr s off + n) :
    bar2Access off n false data false [] s = (accessError s).emit (.bar2Rsp [] false true) := by
  simp [bar2Access, hup, bar2Staged_booted hb, hout]

end
end

/-! ### Shelves and raw windows -/

/-- A write of an FB register other than FRAME_STAT outside the guard is that register's write. -/
theorem fbPut_onTime {o : Nat} (ho : Reg.FRAME_STAT ≠ o) (v : Word) {s : State} (h : bitOf (s.reg Reg.FRAME_STAT) 1 = false) :
    fbPut o v s = s.setReg o v := by
  simp [fbPut, reg_setReg_ne v s ho, h]

theorem shelfPend_ok {req : Requester} {c : CoreId} {sh : Nat} {v : Word} {s : State} (hreq : req = .pf ∨ req = .sc)
    (hd : domState s c.val < 2) (hl : shelfLayoutOk (v &&& 0x1FFFFFFFFFFFFF) = true)
    (hg : bitOf (s.reg Reg.FRAME_STAT) 1 = false) :
    shelfPend req c sh v s = s.setReg (coreOff (Reg.SHELF + 8 * sh) c) (v &&& 0x1FFFFFFFFFFFFF) := by
  have hlt : Reg.FRAME_STAT < Reg.SHELF := by decide
  have hne : Reg.FRAME_STAT ≠ coreOff (Reg.SHELF + 8 * sh) c := by unfold coreOff; omega
  rcases hreq with rfl | rfl <;>
    simp only [shelfPend, apertureOn, hd, hl, fbPut_onTime hne _ hg, decide_true, Bool.not_true, Bool.false_eq_true, if_false,
      if_true]

/-- A raw write under a credit of the shelf's pool spends it. -/
theorem rawWrite_pooled {src : Agent} {c : CoreId} {line i j : Nat} {d : BitVec 512} {q : Pool} {s : State}
    (hr : reachable s c = true) (hline : line < 131072) (hp : pooledAt s c line = some (i, j))
    (hg : spendGrant (poolOf (s.core c) (sePool (shelfEnt s c i))) src (frameStamp s) = some q) :
    rawWrite src c line d s =
      shelfWrite c i j ⟨d, false⟩ (s.modCore c fun k => setPool k (sePool (shelfEnt s c i)) q) := by
  simp [rawWrite, hr, Nat.not_le.mpr hline, hp, hg]

/-- Outside every pooled shelf a core's raw write traps it, wherever the line lies. -/
theorem rawWrite_unpooled {t c : CoreId} {line : Nat} {d : BitVec 512} {s : State} (hp : pooledAt s c line = none) :
    rawWrite (.core t) c line d s = seqTrap t trapDenied (s.core t).pc 0 s := by
  simp [rawWrite, hp]

end Sys2Proof.Machine

/-- Settles O52: each command goes through the lemma of its case; the descriptor and function-reset cases also use that a
transfer keeps a descriptor's operation, and that clearing mailboxes moves no slot to another owner. -/
theorem hostInterfaceResults : Obligations.HostInterfaceResults := by
  intro s
  refine ⟨?doorbell, ?start, ?complete, ?disable, ?reset, rfl, ?linkUp, ?perstLow, ?perstHigh, ?bar2, ?shelf, ?shelfCore, ?raw,
    ?rawDenied⟩
  case doorbell =>
    exact fun q v => ⟨fun h => congrArg Host.Outcome.next (hqDoorbell_inRing h),
      fun hon hle => congrArg Host.Outcome.next (hqDoorbell_beyond hon hle)⟩
  case start =>
    intro q b data hcan hmine hturn hop
    exact congrArg Host.Outcome.next (hqStart_first hcan hmine hturn hop)
  case complete =>
    intro q d r hmine hroom
    refine ⟨fun h => ?_, fun hst hop herr hheld => ?_, fun hst hop hheld => ?_⟩
    · exact congrArg Host.Outcome.next (hqComplete_ends hmine hroom (hqTransfer_nothing h) (hostFails_nothing h))
    · obtain ⟨-, hkeep⟩ := hqH2d_sameDesc d s
      exact congrArg Host.Outcome.next (hqComplete_ends hmine hroom (hqTransfer_h2d hst hop hheld)
        (hostFails_of_noError (hkeep.trans herr)))
    · obtain ⟨hkeep, -⟩ := hqD2h_sameDesc d s
      exact congrArg Host.Outcome.next (hqComplete_ends hmine hroom (hqTransfer_d2h hst hop hheld)
        (hostFails_of_d2h (hkeep.trans hop)))
  case disable => exact fun q hmine => congrArg Host.Outcome.next (hqDisable_idle hmine)
  case reset => exact fun f hq hk => congrArg Host.Outcome.next (flr_ownsNothing hq hk)
  case linkUp => exact execPcieLinkUp_ready
  case perstLow => exact execPciePerst_low s
  case perstHigh => exact execPciePerst_high s
  case bar2 =>
    intro off n data hup hb
    exact ⟨fun hin hheld => congrArg Host.Outcome.next (bar2Access_write hup hb hin hheld),
      fun hin hheld => congrArg Host.Outcome.next (bar2Access_read hup hb hin hheld),
      fun hout => congrArg Host.Outcome.next (bar2Access_writeBeyond hup hb hout),
      fun hout => congrArg Host.Outcome.next (bar2Access_readBeyond hup hb hout)⟩
  case shelf => exact fun req c sh v hreq hd hl hg => congrArg Host.Outcome.next (shelfPend_ok hreq hd hl hg)
  case shelfCore => exact fun c t sh v => rfl
  case raw => exact fun src c line i j d q hr hl hp hg => congrArg Host.Outcome.next (rawWrite_pooled hr hl hp hg)
  case rawDenied => exact fun t c line d hp => congrArg Host.Outcome.next (rawWrite_unpooled hp)
end

section
/-! SUPPORT. COMMIT on a core (R43, R255): what its unit answers for an instruction alone in its queue. -/

open Sys2Proof Sys2Proof.Machine Sys2Proof.Safety

namespace Sys2Proof.Machine

/-- An instruction alone in the queues of a core that runs nothing has all earlier ones behind it. -/
theorem allBefore_oneOp {c : CoreId} {q : Nat} {o : Op} {s : State} (h : oneOp c q o s) :
    allBefore (s.core c) o.seq = true := by
  obtain ⟨hq, hqs, ha, -⟩ := h
  simp only [allBefore, ha, hqs, List.all_nil, Bool.true_and, Vector.toList_set, List.all_eq_true]
  intro l hl
  rcases List.mem_or_eq_of_mem_set hl with hl | rfl
  · have hnil : l = [] := by simpa using hl
    simp [hnil]
  · simp

section
variable {c : CoreId} {o : Op} {s : State}

theorem startCommit_stale (hstale : o.a ≠ (s.core c).cur.zeroExtend 64) : startCommit c o s = .trap trapCommitStale 0 s := by
  simp [startCommit, hstale]

section
variable (hcur : o.a = (s.core c).cur.zeroExtend 64) (hdone : (s.core c).fwDone = true)
include hcur hdone

/-- A COMMIT that is not the first of its frame has no effect. -/
theorem startCommit_second (hsecond : (s.core c).committed ≠ some o.seq) : startCommit c o s = .done s := by
  simp [startCommit, hcur, hdone, hsecond]

/-- The first one, with nothing issued before it under way, reports the frame. -/
theorem startCommit_first (hfirst : (s.core c).committed = some o.seq) (hall : allBefore (s.core c) o.seq = true) :
    startCommit c o s = .done (sendGateCounts c (s.send
      { kind := .commit, src := .core c, dst := .sys, slot := (s.core c).slot, frame := (s.core c).cur })) := by
  simp [startCommit, hcur, hdone, hfirst, hall]

end
end

/-- The issue of a COMMIT notes it as its frame's first where none was noted. -/
theorem issued_commit_committed (c : CoreId) (w w1 : Word) (s : State) : ((issued c .commit w w1 s).core c).committed =
    if (s.core c).committed.isNone then some (s.core c).nextSeq else (s.core c).committed := by
  rw [issued_core]
  simp only [advance, setQueue, setPending]
  split <;> simp

/-- A COMMIT that nothing holds up comes to what its unit answers. -/
theorem exec_commit {c : CoreId} {w w1 : Word} {s : State} (h : Ready c .commit w w1 s) :
    exec (.commit c []) s = .next (ran c (s.core c).pc w (issued c .commit w w1 s)
      (startCommit c (issuedOp c .commit w w1 s) (issued c .commit w w1 s))) := by
  rw [exec_ran h rfl rfl, startOp, issuedOp_mn]

/-- The operand of a COMMIT is its scalar register's value at issue. -/
theorem issuedOp_commit_a {c : CoreId} {w w1 : Word} {s : State} (h : Ready c .commit w w1 s) :
    (issuedOp c .commit w w1 s).a = rdS (s.core c) (iA w) := by
  rw [ready_short h (by decide) (by decide)]

end Sys2Proof.Machine

/-- Settles O17: the issue notes the first COMMIT of a frame, and its unit compares the operand with the current frame. -/
theorem commitResults : Obligations.CommitResults := by
  intro c w w1 s h k u
  have ha : (issuedOp c .commit w w1 s).a = rdS k (iA w) := issuedOp_commit_a h
  have hseq : (issuedOp c .commit w w1 s).seq = k.nextSeq := issuedOp_seq c .commit w w1 s
  have hcur : (u.core c).cur = k.cur := issued_cur c .commit w w1 s
  have hslot : (u.core c).slot = k.slot := issued_slot c .commit w w1 s
  have hdone : (u.core c).fwDone = true := by
    obtain ⟨-, -, -, -, -, -, hfw, -⟩ := h
    exact (issued_fwDone c .commit w w1 s).trans hfw
  have hnoted : (u.core c).committed = if k.committed.isNone then some k.nextSeq else k.committed :=
    issued_commit_committed c w w1 s
  rw [exec_commit h]
  refine ⟨fun heq hnone => ?first, fun q heq hsome hlt => ?second, fun hne => ?stale⟩
  case first =>
    rw [startCommit_first (by rw [ha, hcur, heq]) hdone (by rw [hnoted, hnone, hseq]; rfl) (allBefore_oneOp (issued_oneOp h)),
      hslot, hcur]
    rfl
  case second =>
    have hother : (u.core c).committed ≠ some (issuedOp c .commit w w1 s).seq := by
      rw [hnoted, hsome, hseq]
      simpa using Nat.ne_of_lt hlt
    rw [startCommit_second (by rw [ha, hcur, heq]) hdone hother]
    rfl
  case stale =>
    rw [startCommit_stale (by rw [ha, hcur]; exact hne)]
    rfl
end

section
/-! SUPPORT. The grid builder, one lemma for each case: blocks (R98, R99, R118), a point out of range (R105), window reads (R39,
R111) and elevation entries (R100). -/

open Sys2Proof Sys2Proof.Machine

namespace Sys2Proof.Machine

/-! ### Grid buffers -/

theorem gbuf_congr {s t : State} (h : t.grid = s.grid) (b : Fin 2) : t.gbuf b = s.gbuf b := by
  unfold State.gbuf
  rw [h]

@[simp] theorem gbuf_setGbuf_self (b : Fin 2) (g : GridBuf) (s : State) : (s.setGbuf b g).gbuf b = g :=
  Vector.getElem_set_self b.isLt

@[simp] theorem gbuf_setGbuf_other (b : Fin 2) (g : GridBuf) (s : State) : (s.setGbuf b g).gbuf (1 - b) = s.gbuf (1 - b) := by
  have hne : b.val ≠ (1 - b).val := by omega
  exact Vector.getElem_set_ne b.isLt (1 - b).isLt hne

@[simp] theorem gbuf_bump (o : Nat) (s : State) (b : Fin 2) : (bump o s).gbuf b = s.gbuf b := gbuf_congr (bump_grid o s) b

/-- A point that is out of range is counted, in the registers and in its buffer, and enters nothing. -/
theorem gridPoint_outOfRange {b : Fin 2} {pt : GridPoint} {s : State} (h : pointKey (s.gbuf b).set pt.p = none) :
    let g := { s.gbuf b with points := sat32 ((s.gbuf b).points + 1) }
    gridPoint b pt s = bump Reg.GRID_DROP_RANGE ((bump Reg.GRID_POINT_CNT (s.setGbuf b g)).setGbuf b
      { g with dropRange := sat32 (g.dropRange + 1) }) := by
  simp [gridPoint, h]

/-! ### Blocks -/

@[simp] theorem actReg_modGrid (f : GridSt → GridSt) (s : State) (o : Nat) : (s.modGrid f).actReg o = s.actReg o := rfl

@[simp] theorem domRun_modGrid (f : GridSt → GridSt) (s : State) (d : Nat) : domRun (s.modGrid f) d = domRun s d := rfl

theorem strikeGrid_nil (s : State) : strikeGrid [] s = s := rfl

section
variable {k : GridBlock} {rest : List GridBlock} {s : State} (hq : s.grid.queue = k :: rest)
include hq

/-- While the builder is off the oldest block is dropped and counted. -/
theorem blockTransform_off (lat : Nat) (hoff : bitOf (s.actReg Reg.GRID_CFG) 0 = false ∨ domRun s 37 = false) :
    blockTransform lat [] [] s = bump Reg.GRID_OFF_DROP (s.modGrid fun g => { g with queue := rest }) := by
  have hoff' : (!bitOf (s.actReg Reg.GRID_CFG) 0 || !domRun s 37) = true := by
    rcases hoff with hoff | hoff <;> simp [hoff]
  simp only [blockTransform, hq, strikeGrid_nil, actReg_modGrid, domRun_modGrid, hoff', if_true]

/-- A block whose lines all pass their check brings its records in, and its latency to GRID_LAT_MAX. -/
theorem blockTransform_good {lat : Nat} (hcfg : bitOf (s.actReg Reg.GRID_CFG) 0 = true) (hdom : domRun s 37 = true)
    (hlat : lat ≤ 900) (hgood : ∀ e, e ∈ k.lines.zipIdx → tagGood (saltBlock k.slot k.seq e.2) e.1 = true) :
    let t := blockPoints k [] (s.modGrid fun g => { g with queue := rest })
    blockTransform lat [] [] s = t.setReg Reg.GRID_LAT_MAX (BitVec.ofNat 64 (max (t.reg Reg.GRID_LAT_MAX).toNat lat)) := by
  have hlines : (k.lines.zipIdx.map fun e => if ([] : List Nat).contains e.2 then { e.1 with tag := e.1.tag ^^^ 2 } else e.1) =
      k.lines := by
    simp
  have hbad : (k.lines.zipIdx.filter fun e => !tagGood (saltBlock k.slot k.seq e.2) e.1) = [] :=
    List.filter_eq_nil_iff.mpr fun e he => by simp [hgood e he]
  have hmin : min 65535 lat = lat := by omega
  simp only [blockTransform, hq, strikeGrid_nil, actReg_modGrid, domRun_modGrid, hcfg, hdom, hlines, hbad, hmin,
    Nat.not_lt.mpr hlat, List.filter_nil, List.foldl_nil, List.map_nil, List.isEmpty_nil, Bool.not_true, Bool.or_self,
    Bool.false_eq_true, if_false, if_true]

end

/-! ### Window reads -/

section
variable {src : Agent} {s : State}

theorem gridWindowRead_stalled (h : handoverPending s = true) : gridWindowRead src [] s = s := by
  simp [gridWindowRead, h]

/-- A read is answered with the computing buffer's line, sealed for its address. -/
theorem gridWindowRead_answered {m : Msg} {u : State} (hnot : handoverPending s = false) (hdom : domRun s 37 = true)
    (hr : s.receive .gridRead src .grid = some (m, u)) :
    gridWindowRead src [] s = post
      { kind := .readRsp, src := .grid, dst := m.src, seq := m.seq, slot := m.slot, dshelf := m.dshelf, didx := m.didx,
        addr := m.addr, line := sealLine (saltAddr m.addr) (gridReadLine (m.addr - 0x1100000000) u).1 }
      (gridReadLine (m.addr - 0x1100000000) u).2 := by
  simp [gridWindowRead, hnot, hdom, hr, strikeGrid_nil]

end

/-! ### Elevation entries -/

section
variable {n : HeadId} {ch : BitVec 8} {v : Word} {s : State}

theorem elevWrite_idle (hoff : headOn s n.val = false) (hnot : handoverPending s = false) :
    elevWrite n ch v s = s.setReg (Reg.GRID_ELEV + 0x800 * n.val + 8 * ch.toNat) v := by
  simp [elevWrite, hoff, hnot]

theorem elevWrite_refused (h : headOn s n.val = true ∨ handoverPending s = true) : elevWrite n ch v s = accessError s := by
  have h' : (headOn s n.val || handoverPending s) = true := Bool.or_eq_true_iff.mpr h
  simp [elevWrite, h']

end

end Sys2Proof.Machine

/-- Settles O42: each command goes through the lemma of its case; a point out of range changes no field of its buffer but two
counts, and writes to one buffer leave the other. -/
theorem gridResults : Obligations.GridResults := by
  intro s
  refine ⟨?block, ?point, ?read, ?stalled, ?elev, rfl⟩
  case block =>
    intro k rest lat hq
    exact ⟨fun hoff => congrArg Host.Outcome.next (blockTransform_off hq lat hoff),
      fun hcfg hdom hlat hgood => congrArg Host.Outcome.next (blockTransform_good hq hcfg hdom hlat hgood)⟩
  case point =>
    intro b pt hout
    rw [gridPoint_outOfRange hout]
    simp
  case read => exact fun src m u hnot hdom hr => congrArg Host.Outcome.next (gridWindowRead_answered hnot hdom hr)
  case stalled => exact fun src h => congrArg Host.Outcome.next (gridWindowRead_stalled h)
  case elev =>
    exact fun n ch v => ⟨fun h hnot => congrArg Host.Outcome.next (elevWrite_idle h hnot),
      fun h => congrArg Host.Outcome.next (elevWrite_refused h)⟩
end

section
/-! SUPPORT. The frames in progress of the trunk slots: what takes a frame out of progress, and the operations that leave all of
them alone. Messages taken at SYS. -/

open Sys2Proof Sys2Proof.Machine

namespace Sys2Proof.Machine

/-! ### Messages taken -/

/-- Taking a message changes the messages under way and nothing else. -/
theorem receive_net {k : MsgKind} {src dst : Agent} {s u : State} {m : Msg} (h : s.receive k src dst = some (m, u)) :
    ∃ net, u = { s with net := net } := by
  unfold State.receive State.takeMsg at h
  split at h
  · split at h
    · cases h
    · cases h
      exact ⟨_, rfl⟩
  · cases h

/-- So does taking one from any agent. -/
theorem sysTake_net {k : MsgKind} {s u : State} {m : Msg} (h : sysTake k s = some (m, u)) : ∃ net, u = { s with net := net } := by
  obtain ⟨r, -, hr⟩ := Option.map_eq_some_iff.mp h
  cases hr
  exact ⟨_, rfl⟩

/-! ### Frames in progress -/

theorem slotFrames_congr {s t : State} (h : t.frames = s.frames) (k : Nat) : t.slotFrames k = s.slotFrames k := by
  unfold State.slotFrames
  rw [h]

theorem slotFrames_setFrames {k : Nat} (hk : k < 8) (l : List SlotFrame) (s : State) : (s.setFrames k l).slotFrames k = l := by
  simp [State.slotFrames, State.setFrames, hk]

/-- A frame that has ended is not in progress. -/
theorem slotFrames_frameEnd {k : Nat} (hk : k < 8) (n : BitVec 32) (s : State) :
    ((frameEnd k n s).slotFrames k).all (fun g => g.frame != n) = true := by
  rw [frameEnd, slotFrames_setFrames hk]
  simp

/-! ### Operations that leave the frames in progress alone -/

theorem frames_foldl {β : Type} (l : List β) {g : State → β → State} (h : ∀ s x, (g s x).frames = s.frames) (s : State) :
    (l.foldl g s).frames = s.frames :=
  List.foldlRecOn (motive := fun t : State => t.frames = s.frames) l g rfl fun t ht x _ => (h t x).trans ht

@[simp] theorem writeHeader_frames (k r : Nat) (f : SlotFrame) (first lines : Nat) (s : State) :
    (writeHeader k r f first lines s).frames = s.frames := by
  simp [writeHeader]

@[simp] theorem pubCommit_frames (k : Nat) (f : SlotFrame) (s : State) : (pubCommit k f s).frames = s.frames := by
  unfold pubCommit
  split <;> rfl

@[simp] theorem ringsCommit_frames (k : Nat) (f : SlotFrame) (s : State) : (ringsCommit k f s).frames = s.frames := by
  simp only [ringsCommit, pubCommit_frames]
  refine (frames_foldl _ ?cellar _).trans (frames_foldl _ ?host s)
  case cellar => exact fun t r => rfl
  case host => exact fun t r => by rw [writeHeader_frames, setReg_frames]

@[simp] theorem ringsClear_frames (k : Nat) (s : State) : (ringsClear k s).frames = s.frames := by rfl

@[simp] theorem roleExchange_frames (c : CoreId) (s : State) : (roleExchange c s).frames = s.frames := by rfl

theorem commitPoint_frames (k : Nat) (f : SlotFrame) (s : State) :
    (commitPoint k f s).frames = (frameEnd k f.frame s).frames := by
  unfold commitPoint
  simp only [raise_frames, bump_frames]
  rw [frames_foldl _ fun s c => roleExchange_frames c s]
  simp

end Sys2Proof.Machine
end

section
/-! SUPPORT. Commit messages, readies and decisions at SYS (R42, R44, R371), and the copy engine of the committed loft (R45). -/

open Sys2Proof Sys2Proof.Machine

namespace Sys2Proof.Machine

/-! ### The commit point -/

@[simp] theorem slotDevices_putFrame (k j : Nat) (f : SlotFrame) (s : State) :
    slotDevices (putFrame k f s) j = slotDevices s j := by
  unfold putFrame State.setFrames
  split <;> rfl

@[simp] theorem here_putFrame (k : Nat) (f : SlotFrame) (s : State) : (putFrame k f s).here = s.here := by
  unfold putFrame State.setFrames
  split <;> rfl

@[simp] theorem otherDevices_putFrame (k j : Nat) (f : SlotFrame) (s : State) :
    otherDevices (putFrame k f s) j = otherDevices s j := by
  simp [otherDevices]

@[simp] theorem coordinates_putFrame (k j : Nat) (f : SlotFrame) (s : State) :
    coordinates (putFrame k f s) j = coordinates s j := by
  simp [coordinates]

/-- On one device a frame whose cores have all committed is at its commit point. -/
theorem localReady_oneDevice {k : Nat} {f : SlotFrame} {s : State} (h : slotDevices s k = []) :
    localReady k f s = commitPoint k f s := by
  simp [localReady, h]

/-- Across devices one that does not coordinate sends ready. -/
theorem localReady_sendsReady {k : Nat} {f : SlotFrame} {s : State} (hd : slotDevices s k ≠ []) (hc : coordinates s k = false) :
    localReady k f s = tellDevices ((slotDevices s k).take 1) 0x09 k 0 f.frame
      (putFrame k { f with ready := true, peers := s.here :: f.peers } s) := by
  simp [localReady, hd, hc]

section
variable {s u : State} {m : Msg} {f : SlotFrame} (hf : ((s.slotFrames m.slot).find? fun f => f.frame == m.frame) = some f)
include hf

/-- A core's commit message is noted in its frame; the last one makes the frame ready here. -/
theorem commitArrive_noted {c : CoreId} (hr : s.receive .commit (.core c) .sys = some (m, u)) (hready : f.ready = false)
    (hgot : f.got.contains c = false) :
    let f' := { f with got := f.got ++ [c] }
    commitArrive c s = if f.place.all fun d => f'.got.contains d then localReady m.slot f' (putFrame m.slot f' u)
      else putFrame m.slot f' u := by
  obtain ⟨net, rfl⟩ := receive_net hr
  have hf' : ((State.slotFrames { s with net := net } m.slot).find? fun f => f.frame == m.frame) = some f := hf
  simp only [commitArrive, hr, hf', hready, hgot, Bool.not_false, Bool.true_and, Bool.false_eq_true, if_false]

/-- The coordinator notes the ready of a device; the last one brings its decision. -/
theorem readyArrive_coordinator (hr : sysTake .ready s = some (m, u)) (hc : coordinates s m.slot = true) :
    let f' := { f with peers := msgDevice s m :: f.peers }
    readyArrive s = if (slotDevices s m.slot).all fun d => f'.peers.contains d then
        commitPoint m.slot f' (tellDevices (otherDevices s m.slot) 0x0A m.slot 1 f.frame (putFrame m.slot f' u))
      else putFrame m.slot f' u := by
  obtain ⟨net, rfl⟩ := sysTake_net hr
  have hf' : ((State.slotFrames { s with net := net } m.slot).find? fun f => f.frame == m.frame) = some f := hf
  have hc' : coordinates { s with net := net } m.slot = true := hc
  simp only [readyArrive, hr, hf', coordinates_putFrame, hc', decide_, slotDevices_putFrame, otherDevices_putFrame, if_true]
  rfl

theorem decisionArrive_decided (hr : sysTake .decision s = some (m, u)) :
    decisionArrive s = if m.k = 1 then commitPoint m.slot f u else abortFrame m.slot m.frame 0x0A 0xFF u := by
  obtain ⟨net, rfl⟩ := sysTake_net hr
  have hf' : ((State.slotFrames { s with net := net } m.slot).find? fun f => f.frame == m.frame) = some f := hf
  simp only [decisionArrive, hr, hf']

end

/-- A frame at its commit point is no longer in progress. -/
theorem commitPoint_ends {k : Nat} (hk : k < 8) (f : SlotFrame) (s : State) :
    ((commitPoint k f s).slotFrames k).all (fun g => g.frame != f.frame) = true := by
  rw [slotFrames_congr (commitPoint_frames k f s)]
  exact slotFrames_frameEnd hk f.frame s

/-! ### The copy engine -/

/-- What the copying of lines of core `c` leaves alone: external memory, the other cores, and the core's loft roles and scalar
registers. -/
structure CopiesLines (c : CoreId) (s t : State) : Prop where
  mem : t.mem = s.mem
  swap : (t.core c).swap = (s.core c).swap
  scalars : (t.core c).s = (s.core c).s
  others : ∀ d, d ≠ c → t.core d = s.core d

namespace CopiesLines

variable {c : CoreId} {s t u : State}

theorem refl (c : CoreId) (s : State) : CopiesLines c s s := ⟨rfl, rfl, rfl, fun _ _ => rfl⟩

theorem trans (h : CopiesLines c s t) (h' : CopiesLines c t u) : CopiesLines c s u :=
  ⟨h'.mem.trans h.mem, h'.swap.trans h.swap, h'.scalars.trans h.scalars, fun d hd => (h'.others d hd).trans (h.others d hd)⟩

/-- An operation that changes neither external memory nor a core. -/
theorem of_cores (hm : t.mem = s.mem := by rfl) (hc : t.cores = s.cores := by rfl) : CopiesLines c s t := by
  have hcore : ∀ d, t.core d = s.core d := fun d => by unfold State.core; rw [hc]
  exact ⟨hm, by rw [hcore], by rw [hcore], fun d _ => hcore d⟩

/-- A change of the core that leaves its loft roles and its scalar registers. -/
theorem modCore {f : CoreSt → CoreSt} (s : State) (hw : ∀ k, (f k).swap = k.swap := by exact fun _ => rfl)
    (hs : ∀ k, (f k).s = k.s := by exact fun _ => rfl) : CopiesLines c s (s.modCore c f) :=
  ⟨rfl, by rw [core_modCore, hw], by rw [core_modCore, hs], fun _ hd => core_modCore_ne s f hd⟩

theorem logFault (ev code inst info : Nat) (s : State) : CopiesLines c s (logFault ev code inst info s) := by
  refine of_cores ?_ ?_ <;> simp [Machine.logFault]

theorem foldl {β : Type} (l : List β) {g : State → β → State} (h : ∀ s x, CopiesLines c s (g s x)) (s : State) :
    CopiesLines c s (l.foldl g s) :=
  List.foldlRecOn (motive := CopiesLines c s) l g (refl c s) fun t ht x _ => ht.trans (h t x)

theorem raise (e : Nat) (s : State) : CopiesLines c s (raise e s) := of_cores (raise_mem e s) (raise_cores e s)

theorem bumpC (o : Nat) (s : State) : CopiesLines c s (bumpC c o s) := of_cores (bumpC_mem c o s) (bumpC_cores c o s)

theorem setReg (o : Nat) (v : Word) (s : State) : CopiesLines c s (s.setReg o v) := of_cores

theorem repairFail (b : Nat) (s : State) : CopiesLines c s (repairFail c b s) := by
  unfold Machine.repairFail
  exact trans of_cores (raise _ _)

theorem queueRow (p : Nat) (s : State) : CopiesLines c s (queueRow c p s) := by
  unfold Machine.queueRow
  dsimp only
  split
  · exact refl c s
  · split
    · exact repairFail _ s
    · exact trans (modCore s) (setReg _ _ _)

theorem noteLost (e : Nat) (l : List Nat) (s : State) : CopiesLines c s (Machine.raise e { s with loftLost := l }) :=
  trans of_cores (raise _ _)

theorem loseLoft (i : Nat) (s : State) : CopiesLines c s (loseLoft c i s) := by
  unfold Machine.loseLoft
  extract_lets k s1
  exact (logFault _ _ _ _ s).trans (noteLost _ _ s1)

theorem loseParked (k i : Nat) (s : State) : CopiesLines c s (loseParked c k i s) := by
  unfold Machine.loseParked
  extract_lets s1
  exact (logFault _ _ _ _ s).trans (noteLost _ _ s1)

theorem uncorrectable (p port : Nat) (d : BitVec 512) (s : State) : CopiesLines c s (uncorrectable c p port d s) := by
  unfold Machine.uncorrectable
  extract_lets s1 o cm pk s2 s3 s4 s5
  have hcount : CopiesLines c s s1 := bumpC _ s
  have hlog : CopiesLines c s1 s2 := by
    simp only [s2]
    split
    · exact refl c s1
    · exact setReg _ _ s1
  have hlost : CopiesLines c s4 s5 := by
    simp only [s5]
    clear_value s4 cm pk
    split
    · exact loseLoft _ s4
    · exact loseParked _ _ s4
    · exact refl c s4
  exact ((((hcount.trans hlog).trans (raise _ s2)).trans (queueRow p s3)).trans hlost).trans
    (modCore s5)

theorem corrected (p : Nat) (s : State) : CopiesLines c s (corrected c p s) := by
  unfold Machine.corrected
  extract_lets s1 n s2
  have hnoted : CopiesLines c s s2 := (bumpC _ s).trans (modCore s1)
  split
  · exact hnoted.trans (queueRow p s2)
  · exact hnoted

theorem spadRead (p port : Nat) (s : State) : CopiesLines c s (spadRead c p port s).2.2 := by
  unfold Machine.spadRead
  extract_lets x l u s1 s2
  have hdrawn : CopiesLines c s s1 := by
    simp only [s1]
    split
    · exact of_cores
    · exact refl c s
  have hcorr : CopiesLines c s s2 := by
    simp only [s2]
    split
    · exact hdrawn.trans (corrected p s1)
    · exact hdrawn
  split
  · exact hdrawn.trans (uncorrectable p port x s1)
  · split
    · exact hcorr
    · split
      · exact hcorr
      · exact hcorr.trans (uncorrectable p port l.data s2)

theorem spadWrite (p : Nat) (d : DLine) (s : State) : CopiesLines c s (spadWrite c p d s) :=
  modCore s

end CopiesLines

/-- The copy engine ends with the core clean. -/
theorem loftCopied_working {c : CoreId} {s : State} (h : (s.core c).loftCopy = true) :
    ((loftCopied c s).core c).loftCopy = false ∧ ((loftCopied c s).core c).dirty = [] ∧ CopiesLines c s (loftCopied c s) := by
  simp only [loftCopied, h, Bool.not_true, Bool.false_eq_true, if_false, core_modCore, true_and]
  exact (CopiesLines.foldl _ (fun t e => (CopiesLines.spadRead _ _ t).trans (CopiesLines.spadWrite _ _ _)) s).trans
    (CopiesLines.modCore _)

theorem loftCopied_idle {c : CoreId} {s : State} (h : (s.core c).loftCopy = false) : loftCopied c s = s := by
  simp [loftCopied, h]

end Sys2Proof.Machine

/-- Settles O48: the messages at SYS by the lemma of each; a commit point takes its frame out of progress and nothing after puts
one back; the copy engine reads and writes lines of its own core. -/
theorem frameCommitResults : Obligations.FrameCommitResults := by
  intro s
  refine ⟨?commit, ?ready, ?decision, ?ends, ?copy, ?noCopy⟩
  case commit =>
    intro c m u f hr hf hready hgot f' v
    have harr : commitArrive c s = if f.place.all fun d => f'.got.contains d then localReady m.slot f' v else v :=
      commitArrive_noted hf hr hready hgot
    obtain ⟨net, rfl⟩ := receive_net hr
    have hdev : slotDevices v m.slot = slotDevices s m.slot := slotDevices_putFrame _ _ _ _
    have hcoord : coordinates v m.slot = coordinates s m.slot := coordinates_putFrame _ _ _ _
    have hhere : v.here = s.here := here_putFrame _ _ _
    refine ⟨fun hall => congrArg Host.Outcome.next (harr.trans ?_), fun hall hd => congrArg Host.Outcome.next (harr.trans ?_),
      fun hall hd hc => congrArg Host.Outcome.next (harr.trans ?_)⟩
    · rw [if_neg (Bool.eq_false_iff.mp hall)]
    · rw [if_pos hall, localReady_oneDevice (hdev.trans hd)]
    · rw [if_pos hall, localReady_sendsReady (ne_of_eq_of_ne hdev hd) (hcoord.trans hc), hdev, hhere]
  case ready => exact fun m u f hr hf hc => congrArg Host.Outcome.next (readyArrive_coordinator hf hr hc)
  case decision => exact fun m u f hr hf => congrArg Host.Outcome.next (decisionArrive_decided hf hr)
  case ends => exact fun k f hk => commitPoint_ends hk f s
  case copy =>
    intro c h
    obtain ⟨hoff, hclean, hcopies⟩ := loftCopied_working h
    exact ⟨loftCopied c s, rfl, hoff, hclean, hcopies.swap, hcopies.scalars, hcopies.mem, hcopies.others⟩
  case noCopy => exact fun c h => congrArg Host.Outcome.next (loftCopied_idle h)
end

section
/-! SUPPORT. Aborts (R46 to R48, R261, R343, R360): an abort takes its frame out of progress and no other, and what each abort
condition comes to for a trunk of one device. -/

open Sys2Proof Sys2Proof.Machine

namespace Sys2Proof.Machine

/-! ### What an abort leaves of the frames in progress -/

@[simp] theorem linkDrain_frames (n : Nat) (p : Idx4) (s : State) : (linkDrain n p s).frames = s.frames := by
  induction n generalizing s with
  | zero => rfl
  | succ n ih =>
    unfold linkDrain
    dsimp only
    split
    · rfl
    · split
      · rfl
      · split
        · rfl
        · rw [ih, bump_frames]
          rfl

@[simp] theorem linkQueue_frames (p : Idx4) (turn : Bool) (k : Packet) (s : State) : (linkQueue p turn k s).frames = s.frames :=
  linkDrain_frames 128 p _

/-- What becomes of a packet, the frames in progress stay. -/
def LinkSend.keepsFrames (x : LinkSend) (s : State) : Prop :=
  match x with
  | .sent t => t.frames = s.frames
  | .outside t => t.frames = s.frames
  | .portDown t => t.frames = s.frames

theorem linkSend_keepsFrames (k : Packet) (s : State) : (linkSend k s).keepsFrames s := by
  unfold linkSend
  split
  · simp [LinkSend.keepsFrames]
  · split
    · rfl
    · split
      · exact linkQueue_frames _ _ _ _
      · rfl

@[simp] theorem post_frames (m : Msg) (s : State) : (post m s).frames = s.frames := by
  unfold post transmit
  split
  · next x y u _ =>
    have hlink := linkSend_keepsFrames (packetOf s m x y u) s
    split <;> rename_i t hsend <;> rw [hsend] at hlink
    · exact hlink
    · exact hlink
    · dsimp only
      split
      · split
        · exact hlink
        · exact hlink
      · exact hlink
  · rfl

@[simp] theorem sendGateCounts_frames (c : CoreId) (s : State) : (sendGateCounts c s).frames = s.frames :=
  frames_foldl _ (g := fun t (_ : Nat × Nat × Nat) => t.send _) (fun _ _ => rfl) s

@[simp] theorem abortCore_frames (c : CoreId) (s : State) : (abortCore c s).frames = s.frames := sendGateCounts_frames c s

@[simp] theorem restorePool_frames (c : CoreId) (p : Nat) (s : State) : (restorePool c p s).frames = s.frames :=
  frames_foldl _ (fun t _ => post_frames _ t) s

@[simp] theorem restorePools_frames (k : Nat) (s : State) : (restorePools k s).frames = s.frames := by
  refine frames_foldl _ (fun t c => frames_foldl _ (fun v p => ?_) t) s
  split
  · exact restorePool_frames c _ v
  · rfl

@[simp] theorem rbStop_frames (k : Nat) (s : State) : (rbStop k s).frames = s.frames :=
  bumpN_frames _ _ (rbDrop k s)

@[simp] theorem smuAbort_frames (cores : List CoreId) (s : State) : (smuAbort cores s).frames = s.frames := by rfl

@[simp] theorem mapAbort_frames (k : Nat) (s : State) : (mapAbort k s).frames = s.frames := by rfl

@[simp] theorem logFault_frames (ev code inst info : Nat) (s : State) : (logFault ev code inst info s).frames = s.frames := by
  simp [logFault]

/-- A frame that is not in progress is not aborted. -/
theorem abortFrame_notRunning {k : Nat} {n : BitVec 32} {s : State} (h : ((s.slotFrames k).any fun f => f.frame == n) = false)
    (cause core : Nat) : abortFrame k n cause core s = s := by
  simp [abortFrame, h]

theorem abortFrame_frames {k : Nat} {n : BitVec 32} {s : State} (h : ((s.slotFrames k).any fun f => f.frame == n) = true)
    (cause core : Nat) : (abortFrame k n cause core s).frames = (frameEnd k n s).frames := by
  simp only [abortFrame, h, Bool.not_true, Bool.false_eq_true, if_false, ite_frames, raise_frames, logFault_frames, setReg_frames,
    bump_frames, ite_self, ringsClear_frames, mapAbort_frames, smuAbort_frames, rbStop_frames, restorePools_frames]
  exact frames_foldl _ (fun t c => abortCore_frames c t) _

/-- After an abort its frame is not in progress. -/
theorem abortFrame_ends {k : Nat} (hk : k < 8) (n : BitVec 32) (cause core : Nat) (s : State) :
    ((abortFrame k n cause core s).slotFrames k).all (fun g => g.frame != n) = true := by
  cases h : (s.slotFrames k).any fun f => f.frame == n
  case false =>
    rw [abortFrame_notRunning h]
    simpa [bne] using h
  case true =>
    rw [slotFrames_congr (abortFrame_frames h cause core)]
    exact slotFrames_frameEnd hk n s

/-! ### Abort conditions -/

/-- A condition of a trunk of one device aborts its frame. -/
theorem recordAbort_oneDevice {k : Nat} {s : State} (hd : slotDevices s k = []) (n : BitVec 32) (cause core : Nat) :
    recordAbort k n cause core s = abortFrame k n cause core s := by
  unfold recordAbort
  split
  · next hnone =>
    refine (abortFrame_notRunning (List.any_eq_false.mpr fun f hf => ?_) cause core).symm
    exact List.find?_eq_none.mp hnone f hf
  · rw [hd, List.isEmpty_nil, if_pos rfl]

section
variable {k : Nat} {s : State}

/-- A deadline that has passed aborts its frame as FRAME_LATE (R46). -/
theorem deadline_passed {f : SlotFrame} (hd : slotDevices s k = [])
    (hf : ((s.slotFrames k).find? fun f => decide (f.dead ≤ s.time.cyc)) = some f) :
    deadline k s = abortFrame k f.frame 0x01 0xFF s := by
  simp only [deadline, hf, recordAbort_oneDevice hd]

theorem deadline_ahead (hf : ((s.slotFrames k).find? fun f => decide (f.dead ≤ s.time.cyc)) = none) : deadline k s = s := by
  simp only [deadline, hf]

/-- The abort of a host that may name the slot aborts the latest frame of a trunk that runs (R360). -/
theorem hostAbort_running {req : Requester} {f : SlotFrame} (hd : slotDevices s k = [])
    (hmay : reqFn req = some 0 ∨ reqFn req = some (slotOwner s k)) (hrun : trunkState s k = 4)
    (hf : (s.slotFrames k).getLast? = some f) : hostAbort req k s = abortFrame k f.frame 0x09 0xFF s := by
  have hmay' : (reqFn req == some 0 || reqFn req == some (slotOwner s k)) = true := by simpa using hmay
  simp only [hostAbort, hmay', hrun, hf, recordAbort_oneDevice hd]

/-- With no frame to abort it is counted as ignored. -/
theorem hostAbort_ignored (req : Requester) (h : trunkState s k ≠ 4 ∨ s.slotFrames k = []) :
    hostAbort req k s = bump Reg.HQ_ABORT_IGN s := by
  unfold hostAbort
  dsimp only
  split
  · next f hrun hf =>
    rcases h with hstate | hnil
    · exact absurd hrun hstate
    · rw [hnil] at hf
      cases hf
  · rfl

end

section
variable {s u : State} {m : Msg}

/-- Only the traps ARRAY_CHECK and BANK_ECC ask for a test of their core (R402). -/
theorem trapAccount_other (c : CoreId) {cause : Nat} (h3 : cause ≠ 3) (h4 : cause ≠ 4) (s : State) :
    trapAccount c cause s = s := by
  simp [trapAccount, h3, h4]

section
variable {c : CoreId} (hr : s.receive .trapReport (.core c) .sys = some (m, u)) (h3 : m.k ≠ 3) (h4 : m.k ≠ 4)
include hr h3 h4

/-- The trap of a core aborts the frame it names (R261). -/
theorem trapArrive_running (hd : slotDevices s m.slot = [])
    (hrun : ((s.slotFrames m.slot).any fun f => f.frame == m.frame) = true) :
    trapArrive (.core c) s = abortFrame m.slot m.frame m.k c.val u := by
  obtain ⟨net, rfl⟩ := receive_net hr
  have hrun' : ((State.slotFrames { s with net := net } m.slot).any fun f => f.frame == m.frame) = true := hrun
  have hd' : slotDevices { s with net := net } m.slot = [] := hd
  simp only [trapArrive, hr, trapAccount_other c h3 h4, hrun', if_true, recordAbort_oneDevice hd', agentCore]

/-- With that frame no longer in progress, the core alone returns to its frame entry state. -/
theorem trapArrive_over (hover : ((s.slotFrames m.slot).any fun f => f.frame == m.frame) = false)
    (htrap : (s.core c).issue = .trapped) : trapArrive (.core c) s = frameEntry c false u := by
  obtain ⟨net, rfl⟩ := receive_net hr
  have hover' : ((State.slotFrames { s with net := net } m.slot).any fun f => f.frame == m.frame) = false := hover
  have htrap' : (State.core { s with net := net } c).issue = .trapped := htrap
  simp only [trapArrive, hr, trapAccount_other c h3 h4, hover', htrap', Bool.false_eq_true, if_false, if_true]

end

/-- A poisoned line written to a commit-discipline target aborts the frame it was written in (R343). -/
theorem poisonArrive_oneDevice {src : Agent} (hr : s.receive .poisonReport src .sys = some (m, u))
    (hd : slotDevices s m.slot = []) : poisonArrive src s = abortFrame m.slot m.frame 0x02 (agentCore src) u := by
  obtain ⟨net, rfl⟩ := receive_net hr
  have hd' : slotDevices { s with net := net } m.slot = [] := hd
  simp only [poisonArrive, hr, recordAbort_oneDevice hd']

/-- An abort packet aborts its frame on a device that does not coordinate, unless that has sent ready (R44). -/
theorem abortArrive_notCoordinator {f : SlotFrame} (hr : sysTake .abortMsg s = some (m, u)) (hc : coordinates s m.slot = false)
    (hf : ((s.slotFrames m.slot).find? fun f => f.frame == m.frame) = some f) :
    abortArrive s = if f.ready then u else abortFrame m.slot m.frame 0x0A 0xFF u := by
  obtain ⟨net, rfl⟩ := sysTake_net hr
  have hc' : coordinates { s with net := net } m.slot = false := hc
  have hf' : ((State.slotFrames { s with net := net } m.slot).find? fun f => f.frame == m.frame) = some f := hf
  simp only [abortArrive, hr, hc', hf', Bool.false_eq_true, if_false]

end

end Sys2Proof.Machine

/-- Settles O49: each condition by its lemma, for a trunk of one device through `recordAbort_oneDevice`; an abort leaves the frames
in progress as ending its frame does. -/
theorem frameAbortResults : Obligations.FrameAbortResults := by
  intro s
  refine ⟨?late, ?notLate, ?trap, ?trapOver, ?poison, ?packet, ?host, ?hostIgnored, ?abort⟩
  case late => exact fun k f hf hd => congrArg Host.Outcome.next (deadline_passed hd hf)
  case notLate => exact fun k hf => congrArg Host.Outcome.next (deadline_ahead hf)
  case trap => exact fun c m u hr h3 h4 hd hrun => congrArg Host.Outcome.next (trapArrive_running hr h3 h4 hd hrun)
  case trapOver => exact fun c m u hr h3 h4 hover htrap => congrArg Host.Outcome.next (trapArrive_over hr h3 h4 hover htrap)
  case poison => exact fun src m u hr hd _ => congrArg Host.Outcome.next (poisonArrive_oneDevice hr hd)
  case packet => exact fun m u f hr hc hf => congrArg Host.Outcome.next (abortArrive_notCoordinator hr hc hf)
  case host => exact fun req k f hmay hrun hf hd => congrArg Host.Outcome.next (hostAbort_running hd hmay hrun hf)
  case hostIgnored => exact fun req k h => congrArg Host.Outcome.next (hostAbort_ignored req h)
  case abort => exact fun k n cause core hk => ⟨abortFrame_ends hk n cause core s, fun h => abortFrame_notRunning h cause core⟩
end

section
/-! SUPPORT. Registers outside the EVT block under events and counts, and the fields of a register under a write of one. -/

open Sys2Proof Sys2Proof.Machine

namespace Sys2Proof.Machine

/-! ### Events and counts -/

/-- Raising an event writes no register below the EVT block's pending bits and counter (R359). -/
theorem reg_raiseN_below {o : Nat} (ho : o < Reg.EVT_PEND) (k e : Nat) (s : State) : (raiseN k e s).reg o = s.reg o := by
  have hdrop : o ≠ Reg.EVT_VEC_DROP := Nat.ne_of_lt (Nat.lt_trans ho (by decide))
  induction k generalizing e s with
  | zero => rfl
  | succ k ih =>
    have hpend : (s.setPend e).reg o = s.reg o := reg_setReg_ne _ _ (Nat.ne_of_lt (Nat.lt_add_right _ ho))
    simp [raiseN, ih, reg_setReg_ne, hdrop, hpend, apply_ite (sget o), apply_ite fun x => Option.getD x (regReset o)]

theorem reg_raise_below {o : Nat} (ho : o < Reg.EVT_PEND) (e : Nat) (s : State) : (raise e s).reg o = s.reg o :=
  reg_raiseN_below ho 2 e s

/-- A count writes its own register and, by the overflow event, the EVT block's (R9). -/
theorem reg_bumpN_other {o c : Nat} (ho : o < Reg.EVT_PEND) (hne : o ≠ c) (n : Nat) (s : State) :
    (bumpN c n s).reg o = s.reg o := by
  simp [bumpN, reg_raise_below ho, reg_setReg_ne _ _ hne]

theorem reg_bump_other {o c : Nat} (ho : o < Reg.EVT_PEND) (hne : o ≠ c) (s : State) : (bump c s).reg o = s.reg o :=
  reg_bumpN_other ho hne 1 s

/-! ### Fields -/

theorem testBit_fld {w : Nat} (v : BitVec w) {hi lo : Nat} (i : Nat) :
    (fld v hi lo).testBit i = (decide (i < hi + 1 - lo) && v.getLsbD (lo + i)) := by
  simp [fld, Nat.testBit_mod_two_pow, Nat.testBit_shiftRight, BitVec.testBit_toNat]

/-- A written field's bits are the value's, and every other bit is as before. -/
theorem getLsbD_setFld {w : Nat} (v : BitVec w) (hi lo x : Nat) {i : Nat} (hi' : i < w) :
    (setFld v hi lo x).getLsbD i = if lo ≤ i ∧ i < hi + 1 then x.testBit (i - lo) else v.getLsbD i := by
  have hin : (decide (i ≥ lo) && decide (i - lo < hi + 1 - lo)) = decide (lo ≤ i ∧ i < hi + 1) := by
    rw [← Bool.decide_and]
    exact decide_eq_decide.mpr (by omega)
  simp only [setFld, BitVec.getLsbD_or, BitVec.getLsbD_and, BitVec.getLsbD_not, BitVec.getLsbD_ofNat, Nat.testBit_shiftLeft,
    Nat.testBit_two_pow_sub_one, Nat.testBit_mod_two_pow, hi', decide_true, Bool.true_and, ← Bool.and_assoc, hin]
  by_cases h : lo ≤ i ∧ i < hi + 1
  · simp [h]
  · simp only [h, decide_false, Bool.not_false, Bool.and_true, Bool.false_and, Bool.or_false, if_false]

/-- A field reads back what was written to it. -/
theorem fld_setFld_self {w : Nat} (v : BitVec w) {hi lo x : Nat} (hw : hi < w) (hx : x < 2 ^ (hi + 1 - lo)) :
    fld (setFld v hi lo x) hi lo = x := by
  refine Nat.eq_of_testBit_eq fun i => ?_
  rw [testBit_fld]
  by_cases h : i < hi + 1 - lo
  · rw [getLsbD_setFld v hi lo x (by omega), if_pos (by omega), decide_eq_true h, Bool.true_and, Nat.add_sub_cancel_left]
  · rw [decide_eq_false h, Bool.false_and]
    exact (Nat.testBit_lt_two_pow (Nat.lt_of_lt_of_le hx (Nat.pow_le_pow_right (by decide) (Nat.le_of_not_lt h)))).symm

/-- A field is as before when another field, above or below it, is written. -/
theorem fld_setFld_other {w : Nat} (v : BitVec w) {hi lo hi' lo' : Nat} (x : Nat) (h : hi < lo' ∨ hi' < lo) :
    fld (setFld v hi' lo' x) hi lo = fld v hi lo := by
  refine Nat.eq_of_testBit_eq fun i => ?_
  rw [testBit_fld, testBit_fld]
  by_cases hlt : i < hi + 1 - lo
  · by_cases hw : lo + i < w
    · rw [getLsbD_setFld v hi' lo' x hw, if_neg (by omega)]
    · rw [BitVec.getLsbD_of_ge _ _ (Nat.le_of_not_lt hw), BitVec.getLsbD_of_ge _ _ (Nat.le_of_not_lt hw)]
  · rw [decide_eq_false hlt, Bool.false_and, Bool.false_and]

theorem reg_setF_ne {o p : Nat} (hi lo x : Nat) (s : State) (h : p ≠ o) : (s.setF o hi lo x).reg p = s.reg p :=
  reg_setReg_ne _ _ h

theorem regF_setF_self {o hi lo x : Nat} (s : State) (hw : hi < 64) (hx : x < 2 ^ (hi + 1 - lo)) :
    (s.setF o hi lo x).regF o hi lo = x := by
  rw [State.regF, State.setF, reg_setReg_self, fld_setFld_self _ hw hx]

theorem regF_setF_other {o hi lo hi' lo' : Nat} (x : Nat) (s : State) (h : hi < lo' ∨ hi' < lo) :
    (s.setF o hi' lo' x).regF o hi lo = s.regF o hi lo := by
  rw [State.regF, State.setF, reg_setReg_self, fld_setFld_other _ _ h]
  rfl

/-! ### Reads of memory -/

/-- Reading memory changes nothing but the count of free values drawn: a line never written is a free value (R339). -/
theorem memReadN_rest (a n : Nat) (s : State) : ∃ k, (memReadN a n s).2 = { s with freeCtr := k } := by
  induction n generalizing a s with
  | zero => exact ⟨_, rfl⟩
  | succ n ih =>
    have hline : ∃ k, (memRead a s).2 = { s with freeCtr := k } := by
      unfold memRead memLine
      split
      · exact ⟨_, rfl⟩
      · exact ⟨_, rfl⟩
    obtain ⟨j, hj⟩ := hline
    obtain ⟨k, hk⟩ := ih (a + 64) (memRead a s).2
    exact ⟨k, hk.trans (by rw [hj])⟩

theorem memGet_rest (a n : Nat) (s : State) : ∃ k, (memGet a n s).2.2 = { s with freeCtr := k } :=
  memReadN_rest _ _ s

end Sys2Proof.Machine
end

section
/-! SUPPORT. The parser on the oldest packet of a port (R64 to R67, R87), and writes of a parser program (R66). -/

open Sys2Proof Sys2Proof.Machine

namespace Sys2Proof.Machine

/-- The UDP port of a slot's blocks: the native one, or that of its parser program. -/
def blockPort (s : State) (n : HeadId) : Nat := if headProg s n.val = 0 then 47611 else progHdr s (headProg s n.val) 0 2

/-- What the parser makes of a slot's packet: a block, or the counter that the packet drops into. -/
def blockParse (s : State) (n : HeadId) (f : RxFrame) : Nat ⊕ ParsedBlock :=
  if headProg s n.val = 0 then parseNative n (udpLen f.bytes - 8) (udpData f.bytes)
  else parseForeign s (headProg s n.val) f (udpData f.bytes)

/-! ### The packet -/

section
variable {p : Idx8} {s : State} {f : RxFrame} {rest : List RxFrame} (hrun : domRun s 36 = true)
  (htake : takeFirst (fun f : RxFrame => f.port == p.val) s.ingest.parserq = some (f, rest))
include hrun htake

theorem pointBlock_beforeStamp (hcyc : s.time.cyc < f.cyc) : pointBlock p s = s := by
  simp [pointBlock, hrun, htake, hcyc]

theorem pointBlock_noSlot (hcyc : f.cyc ≤ s.time.cyc) (hslot : blockSlot s f = none) :
    pointBlock p s = bump (ethOff Reg.RX_UNCLASS_DROP p) (s.modIngest fun g => { g with parserq := rest }) := by
  have hslot' : blockSlot (s.modIngest fun g => { g with parserq := rest }) f = none := hslot
  simp [pointBlock, hrun, htake, Nat.not_lt.mpr hcyc, hslot']

/-- A slot's packet: to another port it has the wrong format; otherwise it is parsed, and a block that results is tested. -/
theorem pointBlock_slot {n : HeadId} (hcyc : f.cyc ≤ s.time.cyc) (hslot : blockSlot s f = some n) :
    pointBlock p s = if udpDst f.bytes ≠ blockPort s n then
        blkDrop Reg.BLK_FORMAT_DROP n (s.modIngest fun g => { g with parserq := rest })
      else (blockParse (s.modIngest fun g => { g with parserq := rest }) n f).elim
        (fun o => blkDrop o n (s.modIngest fun g => { g with parserq := rest }))
        (fun b => blockTest n f b (s.modIngest fun g => { g with parserq := rest })) := by
  have hslot' : blockSlot (s.modIngest fun g => { g with parserq := rest }) f = some n := hslot
  simp only [pointBlock, hrun, htake, Nat.not_lt.mpr hcyc, hslot', Bool.not_true, Bool.false_eq_true, if_false]
  refine if_congr Iff.rfl rfl ?_
  unfold blockParse
  split <;> rename_i h <;> rw [h] <;> rfl

end

/-! ### Steps 5 and 6 of R64 -/

section
variable {n : HeadId} {f : RxFrame} {b : ParsedBlock} {s : State}

theorem blockTest_inactive (h : activeAt s n f.cyc = false) :
    blockTest n f b s = bump (headOff Reg.BLK_UNAUTH_DROP n.val) s := by
  simp [blockTest, h, blkDrop]

theorem blockTest_stale {q r : Nat} (h : activeAt s n f.cyc = true) (hq : b.seq = some q) (hr : (s.head n).blkRef = some r)
    (hlate : laterSeq 32 q r = false) : blockTest n f b s = bump (headOff Reg.BLK_STALE_DROP n.val) s := by
  simp [blockTest, h, hq, hr, hlate, blkDrop]

/-- A block is not stale when it has no number, when its slot has no reference, or when its number is later. -/
theorem blockTest_accepts (h : activeAt s n f.cyc = true) (hseq : b.seq = none ∨ (s.head n).blkRef = none ∨
      ∃ q r, b.seq = some q ∧ (s.head n).blkRef = some r ∧ laterSeq 32 q r = true) :
    blockTest n f b s = blockAccept n f b s := by
  rcases hseq with hq | hr | ⟨q, r, hq, hr, hlater⟩
  · simp [blockTest, h, hq]
  · cases hq : b.seq <;> simp [blockTest, h, hq, hr]
  · simp [blockTest, h, hq, hr, hlater]

end

/-! ### Parser programs -/

section
variable {m : Idx8} {w : Nat} {v : Word} {s : State}

theorem progNamed_iff : ((List.range 16).any fun n => headProg s n == m.val + 1) = true ↔
    ∃ n, n < 16 ∧ headProg s n = m.val + 1 := by
  simp

theorem progWrite_named (h : ∃ n, n < 16 ∧ headProg s n = m.val + 1) : progWrite m w v s = accessError s := by
  simp only [progWrite, progNamed_iff.mpr h, if_true]

theorem progWrite_header (h : ∀ n, n < 16 → headProg s n ≠ m.val + 1) (hw : w < 4)
    (hport : w = 0 → v.toNat % 65536 ∉ [319, 320, 47610]) :
    progWrite m w v s = s.setReg (Reg.PARSE_HDR + 0x100 * m.val + 8 * w)
      (if w = 2 then v &&& 0xFFFF else if w = 3 then 0 else v) := by
  have hn : ¬ ((List.range 16).any fun n => headProg s n == m.val + 1) = true := by
    rw [progNamed_iff]
    exact fun ⟨n, hlt, he⟩ => h n hlt he
  have hp : ¬ (w = 0 ∧ [319, 320, 47610].contains (v.toNat % 65536) = true) :=
    fun ⟨h0, hc⟩ => hport h0 (List.contains_iff_mem.mp hc)
  simp only [progWrite, if_neg hn, if_neg hp, if_pos hw]

theorem progWrite_desc (h : ∀ n, n < 16 → headProg s n ≠ m.val + 1) (hw : 4 ≤ w) (hw' : w < 20) :
    progWrite m w v s = s.setReg (Reg.PARSE_DESC + 0x100 * m.val + 8 * (w - 4)) v := by
  have hn : ¬ ((List.range 16).any fun n => headProg s n == m.val + 1) = true := by
    rw [progNamed_iff]
    exact fun ⟨n, hlt, he⟩ => h n hlt he
  have hp : ¬ (w = 0 ∧ [319, 320, 47610].contains (v.toNat % 65536) = true) := fun ⟨h0, _⟩ => by omega
  simp only [progWrite, if_neg hn, if_neg hp, if_neg (Nat.not_lt.mpr hw), if_pos hw']

end

end Sys2Proof.Machine

/-- Settles O41: a slot's packet goes through `pointBlock_slot` to what `blockParse` makes of it, and a block from there through
steps 5 and 6; a write of a parser program turns on whether a slot names it. -/
theorem pointBlockResults : Obligations.PointBlockResults := by
  intro p s
  refine ⟨?packet, ?write, ?named⟩
  case packet =>
    intro f rest hrun htake u
    refine ⟨fun hcyc => congrArg Host.Outcome.next (pointBlock_beforeStamp hrun htake hcyc),
      fun hcyc hslot => congrArg Host.Outcome.next (pointBlock_noSlot hrun htake hcyc hslot), ?_⟩
    intro n hcyc hslot k m parsed good
    have hblock := pointBlock_slot hrun htake hcyc hslot
    have hgood : good → pointBlock p s = parsed.elim (fun o => blkDrop o n u) (fun b => blockTest n f b u) :=
      fun hg => hblock.trans (if_neg (not_not.mpr hg))
    have hpass : ∀ b, good → parsed = .inr b → pointBlock p s = blockTest n f b u :=
      fun b hg hb => (hgood hg).trans (by rw [hb]; rfl)
    refine ⟨?port, ?refused, ?inactive, ?stale, ?accepted⟩
    case port => exact fun hg => congrArg Host.Outcome.next (hblock.trans (if_pos hg))
    case refused => exact fun o hg ho => congrArg Host.Outcome.next ((hgood hg).trans (by rw [ho]; rfl))
    case inactive => exact fun b hg hb hact => congrArg Host.Outcome.next ((hpass b hg hb).trans (blockTest_inactive hact))
    case stale =>
      exact fun b q r hg hb hact hq hr hl => congrArg Host.Outcome.next ((hpass b hg hb).trans (blockTest_stale hact hq hr hl))
    case accepted =>
      exact fun b hg hb hact hseq => congrArg Host.Outcome.next ((hpass b hg hb).trans (blockTest_accepts hact hseq))
  case write =>
    exact fun w v hn => ⟨fun hw hport => congrArg Host.Outcome.next (progWrite_header hn hw hport),
      fun hw hw' => congrArg Host.Outcome.next (progWrite_desc hn hw hw')⟩
  case named => exact fun w v n hlt he => congrArg Host.Outcome.next (progWrite_named ⟨n, hlt, he⟩)
end

section
/-! SUPPORT. A head slot under the updates of the heads: what it holds, and its state and count of failures (R68, R70). -/

open Sys2Proof Sys2Proof.Machine

namespace Sys2Proof.Machine

/-! ### What a slot holds -/

section
variable (n : HeadId) (f : HeadSt → HeadSt) (s : State)

@[simp] theorem head_modHead : (s.modHead n f).head n = f (s.head n) := by
  simp [State.modHead, State.setHead, State.modIngest, State.head]

theorem head_modHead_other {m : HeadId} (h : m ≠ n) : (s.modHead n f).head m = s.head m := by
  have hne : ¬ n.val = m.val := fun e => h (Fin.ext e.symm)
  simp [State.modHead, State.setHead, State.modIngest, State.head, hne]

/-- Two changes of a slot are one. -/
theorem modHead_modHead (g : HeadSt → HeadSt) : (s.modHead n g).modHead n f = s.modHead n fun h => f (g h) := by
  simp [State.modHead, State.setHead, State.modIngest, State.head]

/-- A change that leaves what a slot holds changes nothing. -/
theorem modHead_unchanged (h : f (s.head n) = s.head n) : s.modHead n f = s := by
  have h' : f s.ingest.slots[n.val] = s.ingest.slots[n.val] := h
  simp [State.modHead, State.setHead, State.modIngest, State.head, h']

@[simp] theorem headState_modHead (m : Nat) : headState (s.modHead n f) m = headState s m := rfl

end

/-! ### HEAD_SLOT_STAT -/

theorem headStat_below (n : HeadId) : headOff Reg.HEAD_SLOT_STAT n.val < Reg.EVT_PEND := by
  have hn := n.isLt
  simp only [headOff, Reg.HEAD_SLOT_STAT, Reg.EVT_PEND]
  omega

/-- A slot's state is that of its status register. -/
theorem headState_congr {s t : State} {n : Nat}
    (h : t.reg (headOff Reg.HEAD_SLOT_STAT n) = s.reg (headOff Reg.HEAD_SLOT_STAT n)) : headState t n = headState s n := by
  simp only [headState, State.regF, h]

/-- The registers of a slot are found at the same place of every slot's block. -/
theorem headOff_inj {o m n : Nat} (h : headOff o m = headOff o n) : m = n := by
  unfold headOff at h
  omega

section
variable (n : HeadId) (s : State)

theorem headState_setFails (k : Nat) : headState (setFails n k s) n.val = headState s n.val :=
  regF_setF_other k s (Or.inl (by decide))

theorem headEnter_reg_other (st : Nat) {o : Nat} (h : o ≠ headOff Reg.HEAD_SLOT_STAT n.val) :
    (headEnter n st s).reg o = s.reg o :=
  reg_setF_ne _ _ _ _ h

theorem headState_headEnter {st : Nat} (h : st < 8) : headState (headEnter n st s) n.val = st :=
  regF_setF_self _ (by decide) h

theorem headState_headEnter_other (st : Nat) {m : HeadId} (h : m ≠ n) : headState (headEnter n st s) m.val = headState s m.val :=
  headState_congr (headEnter_reg_other n s st fun e => h (Fin.ext (headOff_inj e)))

variable {n s}

/-- A move between states other than ACTIVE writes the state alone. -/
theorem headEnter_inactive {st : Nat} (hwas : headState s n.val ≠ 4) (hst : st ≠ 4) :
    headEnter n st s = s.setF (headOff Reg.HEAD_SLOT_STAT n.val) 2 0 st :=
  congrArg (State.setF _ 2 0 st) (modHead_unchanged n _ s (by simp [hwas, hst]))

end

end Sys2Proof.Machine
end

section
/-! SUPPORT. The Ethernet ports: a link that comes up and the slots behind it, the judgement and the class of a received frame,
and firmware ring 0 (R51 to R59, R68). -/

open Sys2Proof Sys2Proof.Machine

namespace Sys2Proof.Machine

/-! ### Link and rate -/

/-- A register of a port lies below the EVT block. -/
theorem ethOff_below (p : Idx8) {o : Nat} (h : o < 0x480000) : ethOff o p < Reg.EVT_PEND := by
  have hp := p.isLt
  simp only [ethOff, Reg.EVT_PEND]
  omega

theorem ethOff_ne {o c : Nat} (h : o ≠ c) (p : Idx8) : ethOff o p ≠ ethOff c p := fun e => h (Nat.add_right_cancel e)

theorem ethStat_ne_headStat (p : Idx8) (n : HeadId) : ethOff Reg.ETH_STAT p ≠ headOff Reg.HEAD_SLOT_STAT n.val := by
  have hp := p.isLt
  simp only [ethOff, headOff, Reg.ETH_STAT, Reg.HEAD_SLOT_STAT]
  omega

/-- A port's link is that of its status register. -/
theorem ethUp_congr {s t : State} {p : Idx8} (h : t.reg (ethOff Reg.ETH_STAT p) = s.reg (ethOff Reg.ETH_STAT p)) :
    ethUp t p.val = ethUp s p.val :=
  congrArg (bitOf · 0) h

section
variable {p : Idx8} {s : State}

theorem portLink_same {up : Bool} (hheld : s.ingest.held.contains p.val = false) (h : up = ethUp s p.val) :
    portLink p up s = s := by
  simp only [portLink, ethSetLink, hheld, h, Bool.not_false, Bool.and_true, beq_self_eq_true, if_true]

/-- A port that is not held comes up: its status register and its event. -/
theorem ethSetLink_up (hheld : s.ingest.held.contains p.val = false) (hdown : ethUp s p.val = false) :
    ethSetLink p true s = raise (evEthLink p.val) (s.setF (ethOff Reg.ETH_STAT p) 0 0 1) := by
  simp only [ethSetLink, hheld, hdown]
  rfl

theorem ethUp_linkUp : ethUp (raise (evEthLink p.val) (s.setF (ethOff Reg.ETH_STAT p) 0 0 1)) p.val = true := by
  refine (ethUp_congr (reg_raise_below (ethOff_below p (by decide)) _ _)).trans ?_
  change ((s.setF (ethOff Reg.ETH_STAT p) 0 0 1).reg (ethOff Reg.ETH_STAT p)).getLsbD 0 = true
  rw [State.setF, reg_setReg_self, getLsbD_setFld _ _ _ _ (by decide)]
  rfl

theorem act_linkUp : (raise (evEthLink p.val) (s.setF (ethOff Reg.ETH_STAT p) 0 0 1)).act = s.act := raise_act _ _

theorem headState_linkUp (n : HeadId) :
    headState (raise (evEthLink p.val) (s.setF (ethOff Reg.ETH_STAT p) 0 0 1)) n.val = headState s n.val :=
  headState_congr ((reg_raise_below (headStat_below n) _ _).trans (reg_setF_ne _ _ _ _ (ethStat_ne_headStat p n).symm))

end

/-- Is a slot behind a port: enabled, and its port is this one? -/
def behind (s : State) (p : Idx8) (n : HeadId) : Bool := headOn s n.val && headPort s n.val == p.val

/-- Slots of a list that are behind a port wait for a head (R68). -/
def slotsWait (p : Idx8) (l : List HeadId) (s : State) : State :=
  l.foldl (fun s n => if behind s p n then headEnter n 1 s else s) s

section
variable (p : Idx8)

theorem slotsWait_keeps {α : Type} (get : State → α) (hget : ∀ n s, get (headEnter n 1 s) = get s) (l : List HeadId)
    (s : State) : get (slotsWait p l s) = get s :=
  List.foldlRecOn l _ (motive := fun t => get t = get s) rfl fun t ht n _ => by
    split
    · exact (hget n t).trans ht
    · exact ht

theorem behind_iff {s : State} {n : HeadId} : behind s p n = true ↔ headOn s n.val = true ∧ headPort s n.val = p.val := by
  simp [behind]

theorem behind_congr {s t : State} (h : t.act = s.act) (n : HeadId) : behind t p n = behind s p n := by
  unfold behind headOn headPort State.actF State.actReg
  rw [h]

theorem behind_headEnter (n m : HeadId) (st : Nat) (s : State) : behind (headEnter n st s) p m = behind s p m := rfl

theorem slotsWait_cons (n : HeadId) (l : List HeadId) (s : State) :
    slotsWait p (n :: l) s = slotsWait p l (if behind s p n then headEnter n 1 s else s) := rfl

/-- A slot of the list that is behind the port is in WAIT; every other slot is where it was. -/
theorem headState_slotsWait (l : List HeadId) (m : HeadId) (s : State) :
    headState (slotsWait p l s) m.val = if m ∈ l ∧ behind s p m = true then 1 else headState s m.val := by
  induction l generalizing s with
  | nil => simp [slotsWait]
  | cons n l ih =>
    rw [slotsWait_cons, ih]
    by_cases hn : behind s p n = true
    · rw [if_pos hn, behind_headEnter]
      by_cases hm : m = n
      · subst hm
        simp [hn, headState_headEnter]
      · simp [hm, headState_headEnter_other n s 1 hm]
    · rw [if_neg hn]
      by_cases hm : m = n
      · subst hm
        simp [hn]
      · simp [hm]

end

/-- A link that comes up brings the slots behind its port to WAIT. -/
theorem portLink_up {p : Idx8} {s : State} (hheld : s.ingest.held.contains p.val = false) (hdown : ethUp s p.val = false) :
    portLink p true s = slotsWait p allHeads (raise (evEthLink p.val) (s.setF (ethOff Reg.ETH_STAT p) 0 0 1)) := by
  simp [portLink, ethSetLink_up hheld hdown, ethUp_linkUp, hdown, slotsWait, behind]

theorem rateChange_listed {p : Idx8} {mbps code : Nat} {s : State} (hauto : bitOf (s.reg (ethOff Reg.ETH_CFG p)) 3 = true)
    (hmode : ethMode s p ≠ 0) (hrate : usxRate mbps = some code) :
    rateChange p mbps s = (s.setF (ethOff Reg.ETH_STAT p) 3 1 code).modIngest fun g =>
      { g with held := g.held.filter (· != p.val) } := by
  simp [rateChange, hauto, hmode, hrate]

/-! ### Reception -/

/-- The parser's header bytes are registers of the PARSE block. -/
theorem progHdr_congr {s t : State} {k : Nat} (hk : k ≤ 8)
    (h : ∀ o, Reg.PARSE_HDR ≤ o → o < Reg.EVT_PEND → t.reg o = s.reg o) (i n : Nat) : progHdr t k i n = progHdr s k i n := by
  have hw : ∀ w ∈ List.range 4,
      t.reg (Reg.PARSE_HDR + 0x100 * (k - 1) + 8 * w) = s.reg (Reg.PARSE_HDR + 0x100 * (k - 1) + 8 * w) := by
    intro w hw
    have hlt := List.mem_range.mp hw
    refine h _ (by omega) ?_
    simp only [Reg.PARSE_HDR, Reg.EVT_PEND]
    omega
  unfold progHdr
  rw [List.flatMap_congr fun w hmem => by rw [hw w hmem]]

theorem headProg_le (s : State) (n : Nat) : headProg s n ≤ 8 := by
  unfold headProg
  dsimp only
  split <;> omega

/-- The class of a frame is that of the active values, the port's address and mode and the parser's programs. -/
theorem rxClass_congr {s t : State} {p : Idx8} (hact : t.act = s.act)
    (hip : t.reg (ethOff Reg.ETH_IPV4 p) = s.reg (ethOff Reg.ETH_IPV4 p))
    (hcfg : t.reg (ethOff Reg.ETH_CFG p) = s.reg (ethOff Reg.ETH_CFG p))
    (hprog : ∀ o, Reg.PARSE_HDR ≤ o → o < Reg.EVT_PEND → t.reg o = s.reg o) (b : List Nat) : rxClass t p b = rxClass s p b := by
  have hreg : t.actReg = s.actReg := funext fun o => by unfold State.actReg; rw [hact]
  have hon : headOn t = headOn s := by unfold headOn; rw [hreg]
  have hport : headPort t = headPort s := by unfold headPort State.actF; rw [hreg]
  have hk : headProg t = headProg s := by unfold headProg State.actF; rw [hreg]
  have hports : progPorts t p.val = progPorts s p.val := by
    simp only [progPorts, hon, hport, hk, progHdr_congr (headProg_le s _) hprog]
  simp only [rxClass, hip, hcfg, hports]

theorem rxClass_counted (p : Idx8) (b : List Nat) (s : State) :
    rxClass (bump (ethOff Reg.RX_FRAMES_CNT p) s) p b = rxClass s p b := by
  have hp := p.isLt
  refine rxClass_congr (bump_act _ _) (reg_bump_other (ethOff_below p (by decide)) (ethOff_ne (by decide) p) _)
    (reg_bump_other (ethOff_below p (by decide)) (ethOff_ne (by decide) p) _) (fun o hlo hhi => reg_bump_other hhi ?_ _) b
  simp only [ethOff, Reg.RX_FRAMES_CNT, Reg.PARSE_HDR] at *
  omega

/-- A frame without its FCS. -/
def rxBody (b : List Nat) : List Nat := b.take (b.length - 4)

/-- A received frame as the parser is handed it: its stamp is the device time of its start, corrected by the port's latency, and
its cycle that of its end (R87). -/
def rxBlock (s : State) (p : Idx8) (b : List Nat) (ago : Nat) : RxFrame :=
  let lat := sfld (s.reg (ethOff Reg.ETH_TS_LAT p)) 15 0
  let st := stampAt (s.nowNs - ago) lat
  ⟨p.val, 2, rxBody b, st.1, st.2, stampCyc s lat⟩

theorem rxJudge_length {p : Idx8} {b : List Nat} {s : State} (h : b.length < 64 ∨ 9216 < b.length) :
    rxJudge s p b = some Reg.RX_LEN_DROP := by
  simp [rxJudge, h]

theorem rxJudge_fcs {p : Idx8} {b : List Nat} {s : State} (hlo : 64 ≤ b.length) (hhi : b.length ≤ 9216)
    (h : leAt b (b.length - 4) 4 ≠ (crc32Ieee (rxBody b)).toNat) : rxJudge s p b = some Reg.RX_FCS_DROP := by
  rw [rxBody] at h
  simp [rxJudge, Nat.not_lt.mpr hlo, Nat.not_lt.mpr hhi, h]

section
variable {p : Idx8} {b : List Nat} {ago : Nat} {s : State} (hon : bitOf (s.reg (ethOff Reg.ETH_CFG p)) 7 = true)
  (hup : ethUp s p.val = true) (hrun : domRun s 36 = true)
include hon hup hrun

theorem ethReceive_noRoom : ethReceive p b ago true s = bump (ethOff Reg.RX_BUF_DROP p) s := by
  simp [ethReceive, hon, hup, hrun]

theorem ethReceive_dropped {o : Nat} (h : rxJudge s p b = some o) : ethReceive p b ago false s = bump (ethOff o p) s := by
  simp [ethReceive, hon, hup, hrun, h]

/-! A frame that is not dropped at the MAC is counted, then classed; its stamp and class are those of before the count. -/

section
variable (hjudge : rxJudge s p b = none)
include hjudge

theorem ethReceive_block (hcls : rxClass s p (rxBody b) = 2) (hip : ipOk (rxBody b) = true) :
    ethReceive p b ago false s = (bump (ethOff Reg.RX_FRAMES_CNT p) s).modIngest fun g =>
      { g with parserq := g.parserq ++ [rxBlock s p b ago] } := by
  have hlat : (bump (ethOff Reg.RX_FRAMES_CNT p) s).reg (ethOff Reg.ETH_TS_LAT p) = s.reg (ethOff Reg.ETH_TS_LAT p) :=
    reg_bump_other (ethOff_below p (by decide)) (ethOff_ne (by decide) p) _
  rw [rxBody] at hcls hip
  simp [ethReceive, hon, hup, hrun, hjudge, rxClass_counted, hcls, hip, hlat, State.nowNs, stampCyc, rxBlock, rxBody]

theorem ethReceive_badIp (hcls : rxClass s p (rxBody b) = 2) (hip : ipOk (rxBody b) = false) :
    ethReceive p b ago false s = bump (ethOff Reg.RX_IP_DROP p) (bump (ethOff Reg.RX_FRAMES_CNT p) s) := by
  rw [rxBody] at hcls hip
  simp [ethReceive, hon, hup, hrun, hjudge, rxClass_counted, hcls, hip]

theorem ethReceive_unclassified (hcls : rxClass s p (rxBody b) = 6) :
    ethReceive p b ago false s = bump (ethOff Reg.RX_UNCLASS_DROP p) (bump (ethOff Reg.RX_FRAMES_CNT p) s) := by
  rw [rxBody] at hcls
  simp [ethReceive, hon, hup, hrun, hjudge, rxClass_counted, hcls]

end

end

/-! ### Transmission -/

/-- The end of a transmit descriptor that asks for no stamp: its write-back, and the ring's head past it (R58). -/
def txDone (p : Idx8) (i base size head status : Nat) (s : State) : State :=
  ringAdvance p i size head (memSet (base + 32 * (head % size) + 14)
    ([0, 0, status, 0x80, 0, 0] ++ bytesLE 4 0 ++ bytesLE 6 0 ++ [0, 0]) s)

/-- The descriptor at the head of a ring, fetched: its bytes, whether they are poisoned, the state after. -/
def txFetch (base size head : Nat) (s : State) : List Nat × Bool × State := memGet (base + 32 * (head % size)) 32 s

/-- The length that the descriptor gives its frame. -/
def txLen (base size head : Nat) (s : State) : Nat := leAt (txFetch base size head s).1 8 2

/-- The descriptor's frame, read on its way out: its bytes, how many lines are bad, the state after. -/
def txFrame (base size head : Nat) (s : State) : List Nat × Nat × State :=
  memExit (leAt (txFetch base size head s).1 0 5) (txLen base size head s) (txFetch base size head s).2.2

theorem ethUp_memGet (a n : Nat) (s : State) (p : Nat) : ethUp (memGet a n s).2.2 p = ethUp s p := by
  obtain ⟨k, hk⟩ := memGet_rest a n s
  rw [hk]
  rfl

/-- Firmware ring 0 goes before the publisher and the host's ring (R59). -/
theorem ethTransmit_firmware {p : Idx8} {s t : State} (hlive : macLive s p = true) (h : txRing p 2 s = some t) :
    ethTransmit p s = t := by
  simp [ethTransmit, hlive, h]

section
variable {p : Idx8} {i base size head tail : Nat} {s : State} (hring : ethRing s p i = some (base, size, head, tail))
  (hne : head ≠ tail)
include hring hne

theorem txRing_badLength (hlen : txLen base size head s < 60 ∨ 9212 < txLen base size head s) :
    txRing p i s = some (txDone p i base size head 2 (txFetch base size head s).2.2) := by
  unfold txLen txFetch at hlen
  simp [txRing, hring, hne, hlen, txDone, txFetch]

section
variable (hlo : 60 ≤ txLen base size head s) (hhi : txLen base size head s ≤ 9212)
include hlo hhi

theorem txRing_linkDown (hup : ethUp s p.val = false) :
    txRing p i s = some (txDone p i base size head 1 (bump (ethOff Reg.TX_LINK_DROP p) (txFetch base size head s).2.2)) := by
  unfold txLen txFetch at hlo hhi
  simp [txRing, hring, hne, Nat.not_lt.mpr hlo, Nat.not_lt.mpr hhi, ethUp_memGet, hup, txDone, txFetch]

/-- A descriptor that asks for neither tag nor stamp sends its bytes as they stand. -/
theorem txRing_sent (hup : ethUp s p.val = true) (hflags : leAt (txFetch base size head s).1 10 1 % 4 = 0)
    (hgood : (txFrame base size head s).2.1 = 0) :
    txRing p i s = some (txDone p i base size head 0
      (ethSend p.val (txFrame base size head s).1 false (txFrame base size head s).2.2)) := by
  have hstamp : (leAt (txFetch base size head s).1 10 1).testBit 0 = false := by
    rw [Nat.testBit_zero]
    exact decide_eq_false (by omega)
  have htag : (leAt (txFetch base size head s).1 10 1).testBit 1 = false := by
    rw [Nat.testBit_succ, Nat.testBit_zero]
    exact decide_eq_false (by omega)
  unfold txFrame txLen txFetch at *
  simp [txRing, hring, hne, Nat.not_lt.mpr hlo, Nat.not_lt.mpr hhi, ethUp_memGet, hup, hstamp, htag, hgood, txDone]

end
end

end Sys2Proof.Machine

/-- Settles O44: a link that comes up writes its status and moves the slots behind its port, read off by `headState_slotsWait`; a
received frame goes by its judgement and then its class; firmware ring 0 by its descriptor's length, the link and its flags. -/
theorem ethernetResults : Obligations.EthernetResults := by
  intro p s
  refine ⟨?linkUp, ?linkSame, ?rate, ?receive, fun r v => rfl, ?transmit⟩
  case linkUp =>
    intro hlive hheld hdown
    have hbehind : ∀ n, behind (raise (evEthLink p.val) (s.setF (ethOff Reg.ETH_STAT p) 0 0 1)) p n = true ↔
        headOn s n.val = true ∧ headPort s n.val = p.val := fun n => by rw [behind_congr p act_linkUp, behind_iff]
    refine ⟨_, congrArg Host.Outcome.next ((if_pos hlive).trans (portLink_up hheld hdown)), ?up, ?moved, ?others, ?act, ?mem⟩
    case up =>
      have hkeep := slotsWait_keeps p (State.reg · (ethOff Reg.ETH_STAT p)) fun n s =>
        headEnter_reg_other n s 1 (ethStat_ne_headStat p n)
      exact (ethUp_congr (hkeep _ _)).trans ethUp_linkUp
    case moved =>
      intro n hon hport
      rw [headState_slotsWait, if_pos ⟨List.mem_finRange n, (hbehind n).mpr ⟨hon, hport⟩⟩]
    case others =>
      intro n hout
      rw [headState_slotsWait, if_neg, headState_linkUp]
      rintro ⟨-, hb⟩
      obtain ⟨hon, hport⟩ := (hbehind n).mp hb
      exact hout.elim (fun h => Bool.false_ne_true (h.symm.trans hon)) fun h => h hport
    case act => exact (slotsWait_keeps p State.act (fun _ _ => rfl) _ _).trans act_linkUp
    case mem => exact (slotsWait_keeps p State.mem (fun _ _ => rfl) _ _).trans (raise_mem _ _)
  case linkSame => exact fun up hlive hheld h => congrArg Host.Outcome.next ((if_pos hlive).trans (portLink_same hheld h))
  case rate => exact fun mbps code hauto hmode hrate => congrArg Host.Outcome.next (rateChange_listed hauto hmode hrate)
  case receive =>
    intro b ago hon hup hrun body st u
    refine ⟨?room, ?length, ?fcs, ?block, ?badIp, ?unclassified⟩
    case room => exact congrArg Host.Outcome.next (ethReceive_noRoom hon hup hrun)
    case length => exact fun h => congrArg Host.Outcome.next (ethReceive_dropped hon hup hrun (rxJudge_length h))
    case fcs => exact fun hlo hhi h => congrArg Host.Outcome.next (ethReceive_dropped hon hup hrun (rxJudge_fcs hlo hhi h))
    case block => exact fun hj hcls hip => congrArg Host.Outcome.next (ethReceive_block hon hup hrun hj hcls hip)
    case badIp => exact fun hj hcls hip => congrArg Host.Outcome.next (ethReceive_badIp hon hup hrun hj hcls hip)
    case unclassified => exact fun hj hcls => congrArg Host.Outcome.next (ethReceive_unclassified hon hup hrun hj hcls)
  case transmit =>
    intro base size head tail hlive hring hne d r len r2 done
    have hsent : ∀ t, txRing p 2 s = some t → exec (.ethTransmit p) s = .next t :=
      fun t h => congrArg Host.Outcome.next (ethTransmit_firmware hlive h)
    exact ⟨fun hlen => hsent _ (txRing_badLength hring hne hlen),
      fun hlo hhi hup => hsent _ (txRing_linkDown hring hne hlo hhi hup),
      fun hlo hhi hup hflags hgood => hsent _ (txRing_sent hring hne hlo hhi hup hflags hgood)⟩
end

section
/-! SUPPORT. The heads' timers (R70, R71, R75): a failed attempt, a missing echo, SCAN_SYNC, the tick and the life record. -/

open Sys2Proof Sys2Proof.Machine

namespace Sys2Proof.Machine

/-! ### Authentication -/

/-- The slot with the attempt under way forgotten. -/
def headForget (n : HeadId) (s : State) : State := s.modHead n fun h => { h with nFrag := none, frags := [], nonce := none }

section
variable {n : HeadId} {s : State}

/-- A failed attempt forgets what it had gathered, counts, and leaves AUTH for WAIT, or FAILED at the third in a row. -/
theorem headFail_auth (hst : headState s n.val = 2) : headFail n s = if 3 ≤ headFails s n + 1
    then raise (evHead n.val 0)
      ((setFails n (min 3 (headFails s n + 1)) (headForget n s)).setF (headOff Reg.HEAD_SLOT_STAT n.val) 2 0 5)
    else (setFails n (min 3 (headFails s n + 1)) (headForget n s)).setF (headOff Reg.HEAD_SLOT_STAT n.val) 2 0 1 := by
  have hwas : headState (setFails n (min 3 (headFails s n + 1)) (headForget n s)) n.val ≠ 4 := by
    rw [headState_setFails, headForget, headState_modHead, hst]
    decide
  rw [← headEnter_inactive hwas (by decide), ← headEnter_inactive hwas (by decide)]
  rfl

theorem headFail_again (hst : headState s n.val = 2) (hfew : headFails s n < 2) :
    headFail n s = ((headForget n s).setF (headOff Reg.HEAD_SLOT_STAT n.val) 4 3 (headFails s n + 1)).setF
      (headOff Reg.HEAD_SLOT_STAT n.val) 2 0 1 := by
  rw [headFail_auth hst, if_neg (by omega), Nat.min_eq_right (by omega), setFails]

theorem headFail_third (hst : headState s n.val = 2) (hmany : 2 ≤ headFails s n) :
    headFail n s = raise (evHead n.val 0) (((headForget n s).setF (headOff Reg.HEAD_SLOT_STAT n.val) 4 3 3).setF
      (headOff Reg.HEAD_SLOT_STAT n.val) 2 0 5) := by
  rw [headFail_auth hst, if_pos (by omega), Nat.min_eq_left (by omega), setFails]

/-- Each of the two timeouts fails the attempt in its own half of the exchange: before the challenge, and after it. -/
theorem authTimeout_fails {i : Instr} (hst : headState s n.val = 2) (hi : (i = .identTimeout n ∧ (s.head n).nonce = none) ∨
      (i = .responseTimeout n ∧ (s.head n).nonce.isSome = true)) : exec i s = .next (headFail n s) := by
  rcases hi with ⟨rfl, hn⟩ | ⟨rfl, hn⟩
  · exact congrArg Host.Outcome.next (if_pos ⟨hst, hn⟩)
  · exact congrArg Host.Outcome.next (if_pos ⟨hst, Option.isSome_iff_ne_none.mp hn⟩)

theorem authTimeout_idle {i : Instr} (hi : i ∈ [Instr.identTimeout n, .responseTimeout n]) (hst : headState s n.val ≠ 2) :
    exec i s = .next s := by
  simp only [List.mem_cons, List.not_mem_nil, or_false] at hi
  rcases hi with rfl | rfl <;> exact congrArg Host.Outcome.next (if_neg fun h => hst h.1)

end

/-! ### Head control -/

section
variable {n : HeadId} {s : State} {k : Nat} (hecho : (s.head n).echo = some k)
include hecho

theorem echoTimeout_resent (hk : k < 3) :
    echoTimeout n s = configSend n (k + 1) (bump (headOff Reg.HEAD_CTL_DROP n.val) s) := by
  simp [echoTimeout, hecho, hk, ctlDrop]

theorem echoTimeout_fault (hk : 3 ≤ k) : echoTimeout n s = raise (evHead n.val 5)
    ((bump (headOff Reg.HEAD_CTL_DROP n.val) s).modHead n fun h => { h with echo := none }) := by
  simp [echoTimeout, hecho, Nat.not_lt.mpr hk, ctlDrop]

end

theorem scanSync_inTime {n : HeadId} {s : State} {start period sweep : Nat} (hon : headOn s n.val = true)
    (hmode : s.actF (headOff Reg.HEAD_SLOT_CFG n.val) 9 8 = 2) (hst : headState s n.val = 3 ∨ headState s n.val = 4)
    (htime : s.nowNs + 1000000 ≤ start) :
    scanSync n start period sweep s = ctlSend n 6 (bytesLE 6 (start / 1000000000) ++ bytesLE 4 (start % 1000000000) ++
      bytesLE 4 period ++ [sweep % 16]) s :=
  if_pos ⟨hon, hmode, by omega, by omega, htime⟩

/-! ### Life accounts -/

/-- R73 judges ACTIVE slots alone. -/
theorem lifeJudge_inactive {n : HeadId} {s : State} (h : headState s n.val ≠ 4) : lifeJudge n s = s := by
  unfold lifeJudge
  dsimp only
  split
  · exact if_pos h
  · rfl

/-- The tick's count of one slot. -/
def tickSlot (s : State) (n : HeadId) : State :=
  if (s.head n).onTick then
    lifeJudge n (bump (headOff Reg.HEAD_ONTIME n.val) (s.modHead n fun h => { h with onTick := false, ticks := h.ticks + 1 }))
  else s

theorem ontimeTick_due {s : State} (h : s.ingest.tick < s.time.cyc / 5000000) :
    ontimeTick s = allHeads.foldl tickSlot (s.modIngest fun g => { g with tick := s.time.cyc / 5000000 }) :=
  if_neg (Nat.not_le.mpr h)

theorem tickSlot_idle {s : State} {n : HeadId} (h : (s.head n).onTick = false) : tickSlot s n = s :=
  if_neg (Bool.eq_false_iff.mp h)

/-- Slots that accepted no block count nothing. -/
theorem tickSlots_idle {l : List HeadId} {s : State} (h : ∀ m ∈ l, (s.head m).onTick = false) : l.foldl tickSlot s = s := by
  induction l with
  | nil => rfl
  | cons m l ih =>
    rw [List.foldl_cons, tickSlot_idle (h m List.mem_cons_self)]
    exact ih fun k hk => h k (List.mem_cons_of_mem _ hk)

/-- A slot that is not ACTIVE counts its tick. -/
theorem tickSlot_inactive {s : State} {n : HeadId} (htick : (s.head n).onTick = true) (hst : headState s n.val ≠ 4) :
    tickSlot s n = bump (headOff Reg.HEAD_ONTIME n.val)
      (s.modHead n fun h => { h with onTick := false, ticks := h.ticks + 1 }) := by
  rw [tickSlot, if_pos htick, lifeJudge_inactive]
  have hne : headOff Reg.HEAD_SLOT_STAT n.val ≠ headOff Reg.HEAD_ONTIME n.val := fun e =>
    absurd (Nat.add_right_cancel e) (by decide)
  rwa [headState_congr (reg_bump_other (headStat_below n) hne _)]

/-- One slot of the list alone ticks: what the tick leaves is what that slot's count leaves. -/
theorem tickSlots_one {n : HeadId} {l : List HeadId} {s t : State} (hmem : n ∈ l) (hs : tickSlot s n = t)
    (hbefore : ∀ m, m ≠ n → (s.head m).onTick = false) (hafter : ∀ m, (t.head m).onTick = false) : l.foldl tickSlot s = t := by
  induction l with
  | nil => exact absurd hmem (List.not_mem_nil)
  | cons m l ih =>
    rw [List.foldl_cons]
    by_cases hm : m = n
    · subst hm
      rw [hs]
      exact tickSlots_idle fun k _ => hafter k
    · rw [tickSlot_idle (hbefore m hm)]
      exact ih ((List.mem_cons.mp hmem).resolve_left (Ne.symm hm))

theorem head_bump (c : Nat) (s : State) (m : HeadId) : (bump c s).head m = s.head m := by
  simp only [State.head, bump_ingest]

theorem lifeWrite_record {n : HeadId} {s : State} {shutdown : Bool} {key dev : Nat} {r : LifeRec}
    (hkey : (s.head n).key = some key) (hdev : devCount (s.head n) = some dev)
    (hdue : shutdown = true ∨ (s.head n).saved + 90000 ≤ (s.head n).ticks)
    (hrec : (s.flash.life.find? fun r => r.key == key) = some r) :
    lifeWrite n shutdown s = (lifePut key (some dev) r.last s).modHead n fun h => { h with saved := h.ticks } := by
  have hdue' : shutdown = true ∨ (s.head n).ticks ≥ (s.head n).saved + 90000 := hdue
  simp only [lifeWrite, hkey, hdev, if_pos hdue', hrec]

end Sys2Proof.Machine

/-- Settles O47: both timeouts fail the attempt by `headFail_auth`, whose count decides between WAIT and FAILED; the tick counts
slot by slot, and where one slot alone has ticked it leaves what that slot's count leaves. -/
theorem headTimerResults : Obligations.HeadTimerResults := by
  intro n s h off failed
  refine ⟨?fails, ?idle, ?resent, ?fault, ?sync, ?noTick, ?tick, ?record⟩
  case fails =>
    exact fun i hi hst => ⟨fun hfew => (authTimeout_fails hst hi).trans (congrArg Host.Outcome.next (headFail_again hst hfew)),
      fun hmany => (authTimeout_fails hst hi).trans (congrArg Host.Outcome.next (headFail_third hst hmany))⟩
  case idle => exact fun i hi hst => authTimeout_idle hi hst
  case resent => exact fun k hecho hk => congrArg Host.Outcome.next (echoTimeout_resent hecho hk)
  case fault => exact fun k hecho hk => congrArg Host.Outcome.next (echoTimeout_fault hecho hk)
  case sync =>
    exact fun start period sweep hon hmode hst htime => congrArg Host.Outcome.next (scanSync_inTime hon hmode hst htime)
  case noTick =>
    exact fun hdue hnone => congrArg Host.Outcome.next ((ontimeTick_due hdue).trans (tickSlots_idle fun m _ => hnone m))
  case tick =>
    intro hdue hon hothers hst
    refine congrArg Host.Outcome.next ((ontimeTick_due hdue).trans
      (tickSlots_one (List.mem_finRange n) (tickSlot_inactive hon hst) hothers fun m => ?_))
    rw [head_bump]
    by_cases hm : m = n
    · subst hm
      rw [head_modHead]
    · rw [head_modHead_other _ _ _ hm]
      exact hothers m hm
  case record =>
    exact fun shutdown key dev r hkey hdev hdue hrec => congrArg Host.Outcome.next (lifeWrite_record hkey hdev hdue hrec)
end

section
/-! SUPPORT. Control messages of the heads (R60, R61, R69 to R73, R77, R440): what the firmware takes from a port, and what each
message does with its slot. -/

open Sys2Proof Sys2Proof.Machine

namespace Sys2Proof.Machine

/-! ### Taking a message -/

/-- A message accepted for a slot: taken from the queue, its number and its sender noted (R440, R441). -/
def ctlAccept (f : RxFrame) (rest : List RxFrame) (n : HeadId) (seq : Nat) (s : State) : State :=
  (s.modIngest fun g => { g with fwq := rest }).modHead n fun h =>
    { h with ctlRef := some seq, mac := leAt f.bytes 6 6, tagged := isTagged f.bytes }

theorem head_ctlAccept (f : RxFrame) (rest : List RxFrame) (n : HeadId) (seq : Nat) (s : State) :
    (ctlAccept f rest n seq s).head n =
      { s.head n with ctlRef := some seq, mac := leAt f.bytes 6 6, tagged := isTagged f.bytes } :=
  head_modHead n _ _

/-- Each of the heads' messages is a taking of its type. -/
theorem exec_headMessage {p : Idx8} {i : Instr} (s : State)
    (hi : i ∈ [Instr.hello p, .ident p, .response p, .configEcho p, .health p, .life p]) :
    ∃ type k, exec i s = .next (ctlTake p type k s) := by
  simp only [List.mem_cons, List.not_mem_nil, or_false] at hi
  rcases hi with rfl | rfl | rfl | rfl | rfl | rfl <;> exact ⟨_, _, rfl⟩

section
variable {p : Idx8} {f : RxFrame} {rest : List RxFrame} {n : HeadId} {k : HeadId → List Nat → State → State} {s : State}
  (htake : takeFirst (fun f : RxFrame => f.cls == 3 && f.port == p.val) s.ingest.fwq = some (f, rest))
include htake

theorem ctlTake_dropped (type : Nat) (hj : ctlJudge s f = .drop n) :
    ctlTake p type k s = bump (headOff Reg.HEAD_CTL_DROP n.val) (s.modIngest fun g => { g with fwq := rest }) := by
  simp [ctlTake, htake, hj, ctlDrop]

theorem ctlTake_accepted {type seq : Nat} {body : List Nat} (hj : ctlJudge s f = .take n type seq body) (h7 : type ≠ 7) :
    ctlTake p type k s = k n body (ctlAccept f rest n seq s) := by
  simp [ctlTake, htake, hj, h7, ctlAccept]

end

/-! ### The messages -/

section
variable {n : HeadId} {body : List Nat} {s : State}

theorem helloIn_starts (h0 : headState s n.val ≠ 0) (h5 : headState s n.val ≠ 5) :
    helloIn n body s = headEnter n 2 (s.modHead n fun h => { h with
      txSeq := 0, model := leAt body 0 4, nFrag := none, frags := [], chain := [], nonce := none, key := none, rated := 0,
      echo := none, blkRef := none }) :=
  if_neg (not_or.mpr ⟨h0, h5⟩)

/-- The slot with these chain fragments gathered, of the number that the message gives. -/
def withFragments (n : HeadId) (body : List Nat) (frags : Store (List Nat)) (s : State) : State :=
  s.modHead n fun h => { h with nFrag := some (leAt body 1 1), frags := frags }

/-- A fragment that agrees with the first on their number and was not there before is gathered; the last one completes the
chain. -/
theorem identIn_gathers {frags : Store (List Nat)} (hst : headState s n.val = 2) (hnonce : (s.head n).nonce = none)
    (hcnt : leAt body 1 1 = (s.head n).nFrag.getD (leAt body 1 1)) (hidx : leAt body 0 1 < leAt body 1 1)
    (hnew : sget (leAt body 0 1) (s.head n).frags = none)
    (hfrags : frags = sput (leAt body 0 1) (body.drop 2) (s.head n).frags) :
    identIn n body s = if frags.length = leAt body 1 1 then chainDone n (withFragments n body frags s)
      else withFragments n body frags s := by
  have hadd : withFragments n body frags s = (s.modHead n fun h => { h with nFrag := some (leAt body 1 1) }).modHead n fun h =>
      { h with frags := frags } := by
    rw [modHead_modHead]
    rfl
  rw [hadd, hfrags]
  simp [identIn, hst, hnonce, ← hcnt, Nat.not_le.mpr hidx, hnew]

theorem responseIn_judged {nonce : List Nat} (hst : headState s n.val = 2) (hnonce : (s.head n).nonce = some nonce) :
    responseIn n body s = if bothSigs (s.head n).chain (nonce ++ bytesLE 16 s.fuse.serial.toNat ++ [n.val]) (sub body 0 64)
      (sub body 64 3309) then headVerified n s else headFail n s := by
  simp [responseIn, hnonce, hst]

theorem lifeIn_inactive (hst : headState s n.val ≠ 4) : lifeIn n body s = s.modHead n fun h =>
    { h with life := some (leAt body 0 4), base := some (h.base.getD (leAt body 0 4)) } :=
  lifeJudge_inactive hst

end

end Sys2Proof.Machine

/-- Settles O46: a message is dropped or accepted by its judgement; accepted, it goes to the handler of its type, which finds the
slot as it was but for its number and sender. -/
theorem headMessageResults : Obligations.HeadMessageResults := by
  intro p f rest n seq body s htake u0 u h st
  have hu : u.head n = { h with ctlRef := some seq, mac := leAt f.bytes 6 6, tagged := isTagged f.bytes } :=
    head_ctlAccept f rest n seq s
  refine ⟨?drop, ?hello, ?ident, ?response, ?echo, ?health, ?life⟩
  case drop =>
    intro hj i hi
    obtain ⟨type, k, hexec⟩ := exec_headMessage s hi
    exact hexec.trans (congrArg Host.Outcome.next (ctlTake_dropped htake type hj))
  case hello =>
    exact fun hj h0 h5 => congrArg Host.Outcome.next ((ctlTake_accepted htake hj (by decide)).trans (helloIn_starts h0 h5))
  case ident =>
    intro hj hst hnonce hcnt hidx hnew fr v
    exact congrArg Host.Outcome.next ((ctlTake_accepted htake hj (by decide)).trans
      (identIn_gathers (s := u) hst (by rw [hu, hnonce]) (by rwa [hu]) hidx (by rw [hu, hnew]) (by rw [hu])))
  case response =>
    intro nonce hj hst hnonce
    refine congrArg Host.Outcome.next ((ctlTake_accepted htake hj (by decide)).trans ?_)
    have hjudged := responseIn_judged (body := body) (s := u) hst (by rw [hu, hnonce])
    rwa [hu] at hjudged
  case echo => exact fun hj => congrArg Host.Outcome.next (ctlTake_accepted htake hj (by decide))
  case health => exact fun hj => congrArg Host.Outcome.next (ctlTake_accepted htake hj (by decide))
  case life =>
    exact fun hj hst => congrArg Host.Outcome.next ((ctlTake_accepted htake hj (by decide)).trans (lifeIn_inactive hst))
end

section
/-! SUPPORT. The publisher's next datagram (R79 to R81), and the PTP messages of a port with the servo that they drive (R88,
R89). -/

open Sys2Proof Sys2Proof.Machine

namespace Sys2Proof.Machine

/-! ### The publisher -/

/-- Reading a datagram's lines changes nothing but the count of free values drawn. -/
theorem pubLines_rest (first n : Nat) (s : State) : ∃ k, (pubLines first n s).2.2 = { s with freeCtr := k } := by
  induction n generalizing first s with
  | zero => exact ⟨_, rfl⟩
  | succ n ih =>
    obtain ⟨j, hj⟩ := memGet_rest ((pubQueue s).1 + 64 * (first % (pubQueue s).2)) 64 s
    obtain ⟨k, hk⟩ := ih ((first + 1) % 2 ^ 32) (memGet ((pubQueue s).1 + 64 * (first % (pubQueue s).2)) 64 s).2.2
    exact ⟨k, hk.trans (by rw [hj])⟩

/-- Lines in the next datagram of a frame for a destination. -/
def pubCount (s : State) (d : Nat) (f : PubFrame) (line : Nat) : Nat := min (pubMax s d) (f.lines - line)

/-- Is the next datagram of a frame for a destination its last one? -/
def pubLast (s : State) (d : Nat) (f : PubFrame) (line : Nat) : Bool := decide (f.lines ≤ line + pubCount s d f line)

/-- The lines of the next datagram, read: their bytes, how many are bad, the state after. -/
def pubRead (s : State) (d : Nat) (f : PubFrame) (line : Nat) : List Nat × Nat × State :=
  pubLines ((f.first + line) % 2 ^ 32) (pubCount s d f line) s

/-- The publisher's message: header and lines under their check (Table 3.9). -/
def pubMessage (s : State) (d : Nat) (f : PubFrame) (frag line : Nat) : List Nat :=
  let m := pubHeader f frag (pubCount s d f line) (pubLast s d f line) ++ (pubRead s d f line).1
  m ++ bytesLE 4 (crc32c m)

/-- The next datagram of a frame for a destination on a port (R80, R441). -/
def pubDatagram (s : State) (p : Nat) (d : Nat) (f : PubFrame) (frag line : Nat) : List Nat :=
  datagram (pubRead s d f line).2.2 p (fld (pubLo s d) 47 0) (fld (pubHi s d) 31 0) (fld (pubHi s d) 47 32)
    (if fld (pubLo s d) 63 52 = 0 then none else some (fld (pubLo s d) 63 52)) (pubMessage s d f frag line)

section
variable {d : Nat} {p : Idx8} {s : State}

theorem portOf_pubPort (hport : pubPort s d = p.val) :
    ((List.finRange 8).find? fun q => q.val == pubPort s d) = some p := by
  rw [hport, List.find?_eq_some_iff_getElem]
  refine ⟨beq_self_eq_true _, p.val, by simp, by simp, fun j hj => ?_⟩
  simpa using Nat.ne_of_lt hj

/-- A live port without a descriptor in firmware ring 0 takes the publisher's datagram (R59). -/
theorem publish_ready {t : State} (hport : pubPort s d = p.val) (hlive : macLive s p = true) (hwait : txWaits s p 2 = false)
    (h : pubSend d s = some t) : publish d s = t := by
  simp [publish, portOf_pubPort hport, hlive, hwait, h]

variable {frag line : Nat} {f : PubFrame} {r : List PubFrame} (hport : pubPort s d = p.val) (hframes : s.pub.frames = f :: r)
  (htodo : (f.todo.find? fun e => e.1 == d) = some (d, frag, line)) (howner : (pubOwner s).isSome = true)
  (hsafe : isSafe s = false)
include hport hframes htodo howner hsafe

theorem pubSend_linkDown (hup : ethUp s p.val = false) : pubSend d s = some (pubAdvance d (frag + 1)
    (line + pubCount s d f line) (pubLast s d f line) (bump Reg.PUB_LINK_DROP s)) := by
  have hmay : ¬ ((pubOwner s).isNone || isSafe s) = true := by simp [hsafe, Option.isSome_iff_ne_none.mp howner]
  simp only [pubSend, hframes, htodo, hport, hup, if_neg hmay]
  rfl

/-- A datagram whose lines are good goes out; reading them has left the destination's registers as they were. -/
theorem pubSend_sent (hup : ethUp s p.val = true) (hgood : (pubRead s d f line).2.1 = 0) : pubSend d s = some (pubAdvance d
    (frag + 1) (line + pubCount s d f line) (pubLast s d f line)
    (ethSend p.val (pubDatagram s p.val d f frag line) false (pubRead s d f line).2.2)) := by
  have hmay : ¬ ((pubOwner s).isNone || isSafe s) = true := by simp [hsafe, Option.isSome_iff_ne_none.mp howner]
  obtain ⟨k, hk⟩ := pubLines_rest ((f.first + line) % 2 ^ 32) (pubCount s d f line) s
  have hlo : pubLo (pubRead s d f line).2.2 d = pubLo s d := by rw [pubRead, hk]; rfl
  have hhi : pubHi (pubRead s d f line).2.2 d = pubHi s d := by rw [pubRead, hk]; rfl
  have hnone : ∀ u, bumpN Reg.E2E_EXIT_FAIL 0 u = u := fun _ => rfl
  unfold pubRead pubCount at hgood hlo hhi
  simp only [pubSend, hframes, htodo, hport, hup, if_neg hmay, hgood, hnone, hlo, hhi, Bool.not_true, Bool.false_eq_true,
    if_false, ne_eq, not_true_eq_false]
  rfl

end

/-! ### PTP -/

section
variable {p : Idx8} {s : State} {f : RxFrame} {rest : List RxFrame}

/-- The firmware takes a PTP packet; one whose IPv4 header fails its checks goes no further. -/
theorem ptpMessage_taken (slave peer : Bool)
    (htake : takeFirst (fun f : RxFrame => f.cls == 1 && f.port == p.val) s.ingest.fwq = some (f, rest)) :
    ptpMessage p slave peer s = if isIp f.bytes && !ipOk f.bytes then s.modIngest fun g => { g with fwq := rest }
      else ptpHandle p slave peer f (s.modIngest fun g => { g with fwq := rest }) := by
  simp only [ptpMessage, htake]

/-- The type of a PTP message. -/
def ptpType (f : RxFrame) : Nat := leAt (ptpBytes f.bytes) 0 1 % 16

/-- The sequence number of a PTP message. -/
def ptpSeq (f : RxFrame) : Nat := beAt (ptpBytes f.bytes) 30 2

/-- The peer-delay mechanism answers its own three types alone. -/
theorem ptpPeer_other {type : Nat} (h2 : type ≠ 2) (h3 : type ≠ 3) (h10 : type ≠ 10) (sq : Nat) (m : List Nat) :
    ptpPeer p type sq f m s = s := by
  unfold ptpPeer
  split
  · exact absurd rfl h2
  · exact absurd rfl h3
  · exact absurd rfl h10
  · rfl

theorem ptpHandle_slave (peer : Bool) : ptpHandle p true peer f s =
    if peer then ptpPeer p (ptpType f) (ptpSeq f) f (ptpBytes f.bytes)
      (ptpSlave p peer (ptpType f) (ptpSeq f) (f.sec * 1000000000 + f.ns) (ptpBytes f.bytes) s)
    else ptpSlave p peer (ptpType f) (ptpSeq f) (f.sec * 1000000000 + f.ns) (ptpBytes f.bytes) s := by
  simp only [ptpHandle, ptpType, ptpSeq, if_true]

/-- On a slave port a message of another type goes to the slave's half, whatever the port's delay mechanism. -/
theorem ptpHandle_slaveOnly (peer : Bool) (h2 : ptpType f ≠ 2) (h3 : ptpType f ≠ 3) (h10 : ptpType f ≠ 10) :
    ptpHandle p true peer f s =
      ptpSlave p peer (ptpType f) (ptpSeq f) (f.sec * 1000000000 + f.ns) (ptpBytes f.bytes) s := by
  rw [ptpHandle_slave, ptpPeer_other h2 h3 h10, ite_self]

/-- A Sync on a slave port is noted with its receive stamp. -/
theorem ptpHandle_sync (peer : Bool) (h : ptpType f = 0) : ptpHandle p true peer f s =
    modServo (fun v => { v with sync := some (p.val, ptpSeq f, f.sec * 1000000000 + f.ns) }) s := by
  rw [ptpHandle_slaveOnly peer (by omega) (by omega) (by omega), h]
  simp only [ptpSlave]

/-- The servo once the Follow_Up of a Sync has come. -/
def synced (p : Idx8) (t : Nat) (f : RxFrame) (s : State) : State :=
  modServo (fun v => { v with sync := none, last := some (p.val, t, ptpTime (ptpBytes f.bytes)) }) s

theorem ptpHandle_followUp (peer : Bool) {t : Nat} (h : ptpType f = 8) (hsync : s.time.servo.sync = some (p.val, ptpSeq f, t)) :
    ptpHandle p true peer f s = delayAsk p peer (servoOffset p.val t
      ((ptpTime (ptpBytes f.bytes) : Int) + pathDelay (synced p t f s) p).toNat (synced p t f s)) := by
  rw [ptpHandle_slaveOnly peer (by omega) (by omega) (by omega), h]
  simp only [ptpSlave, hsync, beq_self_eq_true, Bool.and_self, if_true, synced]

/-- A Delay_Req is answered by a port that is no slave. -/
theorem ptpHandle_delayReq (h : ptpType f = 1) :
    ptpHandle p false false f s = ptpSend p 9 (ptpSeq f) f.sec f.ns (servoFree p s) := by
  unfold ptpType at h
  simp only [ptpHandle, h, ptpSeq, Bool.false_eq_true, Bool.not_false, and_self, if_false, if_true]

theorem ptpHandle_delayResp {t1 t2 t3 : Nat} (h : ptpType f = 9) (hlast : s.time.servo.last = some (p.val, t2, t1))
    (hreq : sget p.val s.time.servo.reqs = some (ptpSeq f, t3)) : ptpHandle p true false f s =
      delaySet p (((t2 : Int) - t1) + (((ptpStamp (ptpBytes f.bytes) : Int) - ptpCorr (ptpBytes f.bytes)) - t3)) s := by
  rw [ptpHandle_slaveOnly false (by omega) (by omega) (by omega), h]
  simp only [ptpSlave, hlast, hreq, beq_self_eq_true, Bool.not_false, Bool.and_self, if_true]

/-- A Pdelay_Req is answered with its receive stamp, and then with the stamp of that answer. -/
theorem ptpHandle_pdelayReq (h : ptpType f = 2) : ptpHandle p true true f s =
    ptpSend p 10 (ptpSeq f) (txStamp s p).1 (txStamp s p).2 (ptpSend p 3 (ptpSeq f) f.sec f.ns s) := by
  rw [ptpHandle_slave, if_pos rfl, h]
  simp only [ptpSlave, ptpPeer]

theorem ptpSync_sent (hlive : macLive s p = true) (hup : ethUp s p.val = true) :
    ptpSync p s = bumpN (ethOff Reg.TX_FRAMES_CNT p) 2 (((modServo (fun v =>
      { v with txSeq := sput p.val (((sget p.val s.time.servo.txSeq).getD 0 + 1) % 65536) v.txSeq }) s).emit
        (.ptp p.val 0 ((sget p.val s.time.servo.txSeq).getD 0) 0 0)).emit
        (.ptp p.val 8 ((sget p.val s.time.servo.txSeq).getD 0) (txStamp s p).1 (txStamp s p).2)) := by
  simp [ptpSync, hlive, hup]

theorem ptpSync_linkDown (hlive : macLive s p = true) (hup : ethUp s p.val = false) :
    ptpSync p s = bumpN (ethOff Reg.TX_LINK_DROP p) 2 s := by
  simp [ptpSync, hlive, hup]

end

section
variable {s : State}

theorem servoHoldover_locked (h : servoState s = 2) : servoHoldover s =
    modServo (fun v => { v with streak := 0, prev := none, freq := none, phase := 0 })
      (raise evTimeServo (s.setF Reg.TIME_SERVO_STAT 1 0 3)) := by
  simp [servoHoldover, servoEnter, h]

theorem servoHoldover_notLocked (h : servoState s ≠ 2) : servoHoldover s = s := if_neg h

end

end Sys2Proof.Machine

/-- Settles O45: a datagram goes by the port's link, for reading its lines leaves the registers as they were; a PTP packet that is
not discarded goes by its type and the port's role, and the servo's half and the peer's do not meet on one type. -/
theorem publisherAndPtpResults : Obligations.PublisherAndPtpResults := by
  intro p s
  refine ⟨?publish, ?message, ?sync, ?syncDown, ?holdover, ?noHoldover⟩
  case publish =>
    intro d frag line f r hport hlive hwait hframes htodo howner hsafe n last q m vid
    exact ⟨fun hup => congrArg Host.Outcome.next
        (publish_ready hport hlive hwait (pubSend_linkDown hport hframes htodo howner hsafe hup)),
      fun hup hgood => congrArg Host.Outcome.next
        (publish_ready hport hlive hwait (pubSend_sent hport hframes htodo howner hsafe hup hgood))⟩
  case message =>
    intro f rest htake u m type sq
    refine ⟨fun slave peer hip hbad => ?bad, fun hip => ?good⟩
    case bad =>
      exact congrArg Host.Outcome.next ((ptpMessage_taken slave peer htake).trans (if_pos (by rw [hip, hbad]; rfl)))
    case good =>
      have hhandled : ∀ slave peer t, ptpHandle p slave peer f u = t → exec (.ptpMessage p slave peer) s = .next t := by
        intro slave peer t ht
        refine congrArg Host.Outcome.next ((ptpMessage_taken slave peer htake).trans ((if_neg ?_).trans ht))
        cases h : isIp f.bytes
        · simp
        · simp [hip h]
      exact ⟨fun peer h => hhandled _ _ _ (ptpHandle_sync peer h),
        fun peer t h hsync => hhandled _ _ _ (ptpHandle_followUp peer h hsync),
        fun h => hhandled _ _ _ (ptpHandle_delayReq h),
        fun t1 t2 t3 h hlast hreq => hhandled _ _ _ (ptpHandle_delayResp h hlast hreq),
        fun h => hhandled _ _ _ (ptpHandle_pdelayReq h)⟩
  case sync => exact fun hlive hup => congrArg Host.Outcome.next (ptpSync_sent hlive hup)
  case syncDown => exact fun hlive hup => congrArg Host.Outcome.next (ptpSync_linkDown hlive hup)
  case holdover => exact fun h => congrArg Host.Outcome.next (servoHoldover_locked h)
  case noHoldover => exact fun h => congrArg Host.Outcome.next (servoHoldover_notLocked h)
end

section
/-! SUPPORT. Device time (R82 to R86): the increment, the rate, the step and the reads, and what they leave to the
timed outputs. -/

open Sys2Proof Sys2Proof.Machine

namespace Sys2Proof.Machine

/-! ### The time base under a change of a pin -/

section
variable (i : Idx4) (p : ToutPin) (s : State)

@[simp] theorem pin_setPin_self : (s.setPin i p).pin i = p := Vector.getElem_set_self _

theorem pin_setPin_ne {i j : Idx4} (h : j ≠ i) : (s.setPin i p).pin j = s.pin j :=
  Vector.getElem_set_ne i.isLt j.isLt fun hv => h (Fin.ext hv.symm)

theorem pin_congr {s t : State} (h : t.time = s.time) (j : Idx4) : t.pin j = s.pin j :=
  congrArg (fun x : TimeSt => x.pins[j.val]) h

@[simp] theorem time_toutMiss (n : Nat) : (toutMiss i n s).time = s.time := by
  simp [toutMiss]

end

/-! ### A pin planned anew (R93) -/

section
variable (s : State) (i : Idx4)

/-- A pin as its registers name it, nothing scheduled. -/
def plannedPin : ToutPin :=
  { cfg := (s.reg (toutOff Reg.TOUT_CFG i)).truncate 32, start := toutTime s i,
    period := s.regF (toutOff Reg.TOUT_PERIOD_NS i) 31 0, wrote := false, edges := [], ends := none }

/-- The pin so set, and driven at its present level. -/
def planned : State := toutDrive i (s.setPin i (plannedPin s i))

theorem pin_planned : (planned s i).pin i = plannedPin s i := pin_setPin_self _ _ _

/-- The registers name an edge in modes 1 and 2 alone (Table 4.1); the reserved codes are no mode. -/
theorem toutMode_planned : (toutMode (planned s i) i = 1 ∨ toutMode (planned s i) i = 2) ↔
    (fld (plannedPin s i).cfg 2 0 = 1 ∨ fld (plannedPin s i).cfg 2 0 = 2) := by
  simp only [toutMode, pin_planned]
  split <;> omega

theorem toutReplan_eq : toutReplan i s =
    if fld (plannedPin s i).cfg 2 0 = 1 ∨ fld (plannedPin s i).cfg 2 0 = 2 then
      toutArm i (plannedPin s i).start (planned s i)
    else planned s i := by
  have hmode : toutReplan i s = if toutMode (planned s i) i = 1 ∨ toutMode (planned s i) i = 2 then
      toutArm i ((planned s i).pin i).start (planned s i)
    else planned s i := rfl
  simp only [hmode, toutMode_planned, pin_planned]

end

/-- Of the time base nothing but its pins changed; active values, memory and cores stand, and so does the rate in effect. -/
structure PinsOnly (s t : State) : Prop where
  time : t.time = { s.time with pins := t.time.pins }
  rate : t.reg Reg.TIME_RATE_ACT = s.reg Reg.TIME_RATE_ACT
  act : t.act = s.act
  mem : t.mem = s.mem
  cores : t.cores = s.cores

namespace PinsOnly

variable {s t u : State}

theorem refl (s : State) : PinsOnly s s := ⟨rfl, rfl, rfl, rfl, rfl⟩

theorem trans (h : PinsOnly s t) (k : PinsOnly t u) : PinsOnly s u :=
  ⟨by rw [k.time, h.time], k.rate.trans h.rate, k.act.trans h.act, k.mem.trans h.mem, k.cores.trans h.cores⟩

theorem setPin (i : Idx4) (p : ToutPin) (s : State) : PinsOnly s (s.setPin i p) := ⟨rfl, rfl, rfl, rfl, rfl⟩

theorem toutDrive (i : Idx4) (s : State) : PinsOnly s (toutDrive i s) := ⟨rfl, rfl, rfl, rfl, rfl⟩

theorem toutMiss (i : Idx4) (n : Nat) (s : State) : PinsOnly s (toutMiss i n s) := by
  have hbelow : Reg.TIME_RATE_ACT < Reg.EVT_PEND := by decide
  have hne : Reg.TIME_RATE_ACT ≠ Reg.TOUT_MISS + 8 * i.val := Nat.ne_of_lt (Nat.lt_add_right _ (by decide))
  unfold Machine.toutMiss
  split
  · exact refl s
  · exact ⟨by simp, (reg_raise_below hbelow _ _).trans (reg_bumpN_other hbelow hne n s), by simp, by simp, by simp⟩

theorem toutArm (i : Idx4) (t : Nat) (s : State) : PinsOnly s (toutArm i t s) := by
  unfold Machine.toutArm
  dsimp only
  split
  · exact setPin _ _ s
  · split
    · exact (setPin _ _ s).trans (toutMiss _ _ _)
    · exact toutMiss _ _ s

theorem toutReplan (i : Idx4) (s : State) : PinsOnly s (toutReplan i s) := by
  have hplan : PinsOnly s (planned s i) := (setPin i (plannedPin s i) s).trans (toutDrive i _)
  rw [toutReplan_eq]
  split
  · exact hplan.trans (toutArm _ _ _)
  · exact hplan

end PinsOnly

/-! ### The increment (R83) -/

section
variable (t : TimeSt) (r : Int)

/-- The units of 2^-32 ns that a cycle adds to device time, with the fraction before it. -/
def stepUnits : Nat := ((t.frac : Int) + 2 * 2 ^ 32 + r).toNat

/-- The nanoseconds after the increment, before their carry. -/
def stepNs : Nat := t.ns + stepUnits t r / 2 ^ 32

/-- The increment by its one carry: into the seconds, where the nanoseconds reach 1,000,000,000. -/
theorem advance_eq : t.advance r = { t with
    frac := stepUnits t r % 2 ^ 32, cyc := t.cyc + 1,
    ns := if 1000000000 ≤ stepNs t r then stepNs t r - 1000000000 else stepNs t r,
    sec := if 1000000000 ≤ stepNs t r then t.sec + 1 else t.sec } := by
  by_cases h : 1000000000 ≤ stepNs t r
  · rw [if_pos h, if_pos h]
    exact if_pos h
  · rw [if_neg h, if_neg h]
    exact if_neg h

/-- The increment adds its units to device time, in units of 2^-32 ns. -/
theorem advance_units : ((t.advance r).sec * 1000000000 + (t.advance r).ns) * 2 ^ 32 + (t.advance r).frac =
    (t.sec * 1000000000 + t.ns) * 2 ^ 32 + stepUnits t r := by
  rw [advance_eq]
  unfold stepNs
  split <;> (dsimp only; omega)

theorem advance_frac_lt : (t.advance r).frac < 2 ^ 32 := by
  rw [advance_eq]
  exact Nat.mod_lt _ (by decide)

/-- At any 32-bit rate the increment is below 4 ns, so that one carry keeps the nanoseconds below a second. -/
theorem advance_ns_lt (hr : r < 2 ^ 31) (hf : t.frac < 2 ^ 32) (hn : t.ns < 1000000000) : (t.advance r).ns < 1000000000 := by
  have hu : stepUnits t r < 4 * 2 ^ 32 := by unfold stepUnits; omega
  rw [advance_eq]
  unfold stepNs
  split <;> (dsimp only; omega)

theorem advance_cyc : (t.advance r).cyc = t.cyc + 1 := by rw [advance_eq]

theorem advance_pins : (t.advance r).pins = t.pins := by rw [advance_eq]

end

theorem rateAct_lt (s : State) : s.rateAct < 2 ^ 31 := by
  unfold State.rateAct sfld
  dsimp only
  split
  · omega
  · have : fld (s.reg Reg.TIME_RATE_ACT) 31 0 < 2 ^ 32 := Nat.mod_lt _ (by decide)
    omega

/-! ### TIME_ADVANCE -/

/-- The time base one cycle later, its pins not yet looked at. -/
def ticked (s : State) : State := (s.modTime fun t => t.advance s.rateAct).setReg Reg.TIME_RATE_ACT (s.reg Reg.TIME_RATE)

/-- A pin as the registers of a write take effect (R93). -/
def replanWritten (s : State) (i : Idx4) : State := if (s.pin i).wrote then toutReplan i s else s

theorem timeAdvance_eq (s : State) : timeAdvance s = allPins.foldl replanWritten (ticked s) := rfl

theorem ticked_time (s : State) : (ticked s).time = s.time.advance s.rateAct := rfl

theorem pin_ticked (s : State) (i : Idx4) : (ticked s).pin i = s.pin i :=
  congrArg (fun x : Vector ToutPin 4 => x[i.val]) (advance_pins s.time s.rateAct)

theorem ticked_rateAct (s : State) : (ticked s).reg Reg.TIME_RATE_ACT = s.reg Reg.TIME_RATE := reg_setReg_self _ _ _

theorem reg_ticked {o : Nat} (h : o ≠ Reg.TIME_RATE_ACT) (s : State) : (ticked s).reg o = s.reg o :=
  reg_setReg_ne _ _ h

/-- Pins of which none was written stay as they are. -/
theorem foldl_replanWritten_none {l : List Idx4} {s : State} (h : ∀ j ∈ l, (s.pin j).wrote = false) :
    l.foldl replanWritten s = s := by
  induction l with
  | nil => rfl
  | cons j r ih =>
    have hj : replanWritten s j = s := by simp [replanWritten, h j]
    rw [List.foldl_cons, hj, ih fun k hk => h k (List.mem_cons_of_mem j hk)]

theorem foldl_replanWritten_pinsOnly (l : List Idx4) (s : State) : PinsOnly s (l.foldl replanWritten s) :=
  List.foldlRecOn l replanWritten (motive := PinsOnly s) (PinsOnly.refl s) fun t ht i _ => by
    unfold replanWritten
    split
    · exact ht.trans (PinsOnly.toutReplan i t)
    · exact ht

/-- TIME_ADVANCE is the increment, then a change of pins alone. -/
theorem timeAdvance_pinsOnly (s : State) : PinsOnly (ticked s) (timeAdvance s) := foldl_replanWritten_pinsOnly _ _

theorem timeAdvance_unwritten {s : State} (h : ∀ i, (s.pin i).wrote = false) : timeAdvance s = ticked s :=
  foldl_replanWritten_none fun j _ => (congrArg ToutPin.wrote (pin_ticked s j)).trans (h j)

/-! ### Rate and step -/

theorem rateWrite_below {r : Int} (h : r < -8589934) (s : State) :
    rateWrite r s = (s.setReg Reg.TIME_RATE (i32 (-8589934))).setF Reg.TIME_STAT 1 1 1 := by
  have hclamp : max (-8589934) (min 8589934 r) = -8589934 := by omega
  simp only [rateWrite, hclamp, if_neg (show ¬ -8589934 = r by omega)]

theorem rateWrite_above {r : Int} (h : 8589934 < r) (s : State) :
    rateWrite r s = (s.setReg Reg.TIME_RATE (i32 8589934)).setF Reg.TIME_STAT 1 1 1 := by
  have hclamp : max (-8589934) (min 8589934 r) = 8589934 := by omega
  simp only [rateWrite, hclamp, if_neg (show ¬ 8589934 = r by omega)]

theorem rateWrite_within {r : Int} (hlo : -8589934 ≤ r) (hhi : r ≤ 8589934) (s : State) :
    rateWrite r s = s.setReg Reg.TIME_RATE (i32 r) := by
  have hclamp : max (-8589934) (min 8589934 r) = r := by omega
  simp only [rateWrite, hclamp, if_true]

section
variable {s : State}

theorem stepAllowed_unlocked (hl : bitOf (s.reg Reg.TIME_STAT) 0 = false) (hn : s.regF Reg.TIME_STEP_NS 29 0 < 1000000000) :
    stepAllowed s = true := by
  simp [stepAllowed, hl, hn]

theorem stepAllowed_locked (hl : bitOf (s.reg Reg.TIME_STAT) 0 = true) : stepAllowed s = false := by
  simp [stepAllowed, hl]

/-- An absolute step that is allowed sets seconds and nanoseconds as the registers name them. -/
theorem stepAbsolute_allowed (h : stepAllowed s = true) (hn : s.regF Reg.TIME_STEP_NS 29 0 < 1000000000) :
    stepAbsolute s = toutAfterStep
      (decide (s.regF Reg.TIME_STEP_SEC 47 0 * 1000000000 + s.regF Reg.TIME_STEP_NS 29 0 < s.nowNs))
      ((s.modTime fun t => { t with sec := s.regF Reg.TIME_STEP_SEC 47 0, ns := s.regF Reg.TIME_STEP_NS 29 0, frac := 0 }).setF
        Reg.TIME_STAT 0 0 1) := by
  have hsec : (s.regF Reg.TIME_STEP_SEC 47 0 * 1000000000 + s.regF Reg.TIME_STEP_NS 29 0) / 1000000000 =
      s.regF Reg.TIME_STEP_SEC 47 0 := by omega
  have hns : (s.regF Reg.TIME_STEP_SEC 47 0 * 1000000000 + s.regF Reg.TIME_STEP_NS 29 0) % 1000000000 =
      s.regF Reg.TIME_STEP_NS 29 0 := by omega
  simp only [stepAbsolute, h, if_true, stepTo, TimeSt.setNs, hsec, hns]

theorem stepAbsolute_refused (h : stepAllowed s = false) : stepAbsolute s = stepRefused s := by
  simp [stepAbsolute, h]

/-- The device time that an offset step leads to, in ns. -/
def offsetNs (s : State) : Int :=
  (s.nowNs : Int) + sfld (s.reg Reg.TIME_STEP_SEC) 47 0 * 1000000000 + s.regF Reg.TIME_STEP_NS 29 0

/-- An offset step that is allowed and stays within the 48-bit seconds keeps the fraction. -/
theorem stepOffset_allowed (h : stepAllowed s = true) (hlo : 0 ≤ offsetNs s) (hhi : offsetNs s < 2 ^ 48 * 1000000000) :
    stepOffset s = toutAfterStep (decide (offsetNs s < (s.nowNs : Int))) ((s.modTime fun t =>
      { t with sec := (offsetNs s).toNat / 1000000000, ns := (offsetNs s).toNat % 1000000000 }).setF Reg.TIME_STAT 0 0 1) := by
  have hback : decide ((offsetNs s).toNat < s.nowNs) = decide (offsetNs s < (s.nowNs : Int)) := decide_eq_decide.mpr (by omega)
  have hstep : stepOffset s = stepTo (offsetNs s).toNat s.time.frac s :=
    if_pos (by rw [h]; simp only [Bool.true_and, Bool.and_eq_true, decide_eq_true_eq]; exact ⟨hlo, hhi⟩)
  rw [hstep, stepTo, hback]
  rfl

theorem stepOffset_refused (h : stepAllowed s = false) : stepOffset s = stepRefused s := by
  simp [stepOffset, h]

end

/-! ### Reads (R86) -/

theorem takeLatch_latchPut (r : Requester) (v : Nat) (l : List (Requester × Nat)) : takeLatch r (latchPut r v l) = some v := by
  simp [takeLatch, latchPut]

theorem pieces_nowSec :
    pieces Reg.TIME_NOW_SEC .w64 =
      [(some ⟨⟨Reg.TIME_NOW_SEC, [], 64, 0x0, .ro, 0x0, 0x0, 0x0, none⟩, Reg.TIME_NOW_SEC, lowMask ||| highMask, false⟩, 0)] := by
  decide +kernel

theorem pieces_nowFrac :
    pieces Reg.TIME_NOW_FRAC .w32 =
      [(some ⟨⟨Reg.TIME_NOW_FRAC, [], 32, 0x0, .ro, 0x0, 0x0, 0x0, none⟩, Reg.TIME_NOW_FRAC, lowMask, false⟩, 0)] := by
  decide +kernel

/-- A requester that may read one register of the time base, and is no virtual function, may read all of them. -/
theorem timeReader {r : Requester} (hd : coreDenied r Reg.TIME_NOW_SEC false = none) (hvf : ∀ f, r ≠ .vf f) :
    r = .pf ∨ r = .sc := by
  cases r with
  | pf => exact .inl rfl
  | sc => exact .inr rfl
  | vf f => exact absurd rfl (hvf f)
  | core c =>
    have haperture : apertureCore Reg.TIME_NOW_SEC = none := rfl
    exact absurd hd (by simp [coreDenied, haperture])

section
variable {r : Requester} (hr : r = .pf ∨ r = .sc) (s : State)
include hr

/-- Such a requester reaches a register outside the cores' apertures. -/
theorem busReadVal_timeReader {o : Nat} {w : Width} {p : Piece} (hp : pieces o w = [(some p, 0)])
    (haperture : apertureCore p.o = none) : busReadVal r o w s = readPiece r p s := by
  have hreach : reaches s r false p = true := by rcases hr with rfl | rfl <;> simp [reaches, haperture]
  have hden : coreDenied r o false = none := by rcases hr with rfl | rfl <;> rfl
  simp [busReadVal, hden, hp, Option.filter, hreach]

theorem busReadVal_nowSec : (busReadVal r Reg.TIME_NOW_SEC .w64 s).1 =
    BitVec.ofNat 64 ((takeLatch r s.time.nowSec).getD s.time.sec % 2 ^ 48) := by
  have hread := busReadVal_timeReader hr s pieces_nowSec rfl
  have hhigh : lowMask ||| highMask ≠ highMask := by decide
  have hlow : lowMask ||| highMask ≠ lowMask := by decide
  have hall : lowMask ||| highMask = BitVec.allOnes 64 := by decide
  have hns : Reg.TIME_NOW_SEC ≠ Reg.TIME_NOW_NS := by decide
  have hfrac : Reg.TIME_NOW_SEC ≠ Reg.TIME_NOW_FRAC := by decide
  simp only [hread, readPiece, readNow, halfOf, true_or, if_true, hns, hfrac, hhigh, hlow, if_false]
  rw [hall, BitVec.and_allOnes]

theorem busReadVal_nowFrac : (busReadVal r Reg.TIME_NOW_FRAC .w32 s).1 =
    BitVec.ofNat 64 ((takeLatch r s.time.nowFrac).getD s.time.frac) &&& lowMask := by
  have hread := busReadVal_timeReader hr s pieces_nowFrac rfl
  have hhigh : lowMask ≠ highMask := by decide
  have hns : Reg.TIME_NOW_FRAC ≠ Reg.TIME_NOW_NS := by decide
  simp only [hread, readPiece, readNow, halfOf, or_true, if_true, hns, hhigh, if_false]

end

end Sys2Proof.Machine

/-- Settles O32: TIME_ADVANCE is the increment and then a change of pins alone; a written rate falls below, above or within the
limit; a step goes by whether one is allowed; a read of TIME_NOW_SEC or TIME_NOW_FRAC comes to that one register. -/
theorem timeBaseResults : Obligations.TimeBaseResults := by
  intro s
  refine ⟨?advance, ?rate, ?absolute, ?offset, ?refused, ?read, ?latched⟩
  case advance =>
    obtain ⟨htime, hrate, hact, hmem, hcores⟩ := timeAdvance_pinsOnly s
    rw [ticked_time] at htime
    refine ⟨timeAdvance s, rfl, ?_, ?_, ?_, ?_, hrate.trans (ticked_rateAct s), ?_, hact, hmem, hcores⟩
    · rw [State.nowNs, htime]
      exact advance_units s.time s.rateAct
    · rw [htime]
      exact advance_frac_lt s.time s.rateAct
    · rw [htime]
      exact advance_ns_lt s.time s.rateAct (rateAct_lt s)
    · rw [htime]
      exact advance_cyc s.time s.rateAct
    · intro hunwritten o ho
      rw [timeAdvance_unwritten hunwritten, reg_ticked ho]
  case rate =>
    intro v
    refine congrArg Host.Outcome.next ?_
    split
    · exact rateWrite_below ‹_› s
    · split
      · exact rateWrite_above ‹_› s
      · exact rateWrite_within (by omega) (by omega) s
  case absolute =>
    exact fun hl hn => congrArg Host.Outcome.next (stepAbsolute_allowed (stepAllowed_unlocked hl hn) hn)
  case offset =>
    exact fun hl hn hlo hhi => congrArg Host.Outcome.next (stepOffset_allowed (stepAllowed_unlocked hl hn) hlo hhi)
  case refused =>
    exact fun hl => ⟨congrArg Host.Outcome.next (stepAbsolute_refused (stepAllowed_locked hl)),
      congrArg Host.Outcome.next (stepOffset_refused (stepAllowed_locked hl))⟩
  case read =>
    exact fun r => ⟨nowRead r s, rfl, rfl, takeLatch_latchPut r _ _, takeLatch_latchPut r _ _, rfl⟩
  case latched =>
    intro r hd hvf
    have hr := timeReader hd hvf
    refine ⟨(busReadVal_nowSec hr s).trans ?_, (busReadVal_nowFrac hr s).trans ?_⟩
    · cases takeLatch r s.time.nowSec <;> rfl
    · cases takeLatch r s.time.nowFrac <;> rfl
end

section
/-! SUPPORT. The timed outputs and inputs (R92 to R97): edges, pulses and writes of a pin; captures and their reads. -/

open Sys2Proof Sys2Proof.Machine

namespace Sys2Proof.Machine

/-! ### Edges and pulses -/

section
variable {i : Idx4} {s : State}

/-- A pin whose edge has come: its pulse runs by the pin's width, and mode 2 has its next edge. -/
def pulsing (s : State) (i : Idx4) (t : Nat) (r : List (Nat × Bool)) : ToutPin :=
  { s.pin i with
    edges := if toutMode s i = 2 then edgePut (t + toutPeriod s i, false) r else r
    ends := some (t + toutWidth s i) }

theorem toutEdge_reached {t : Nat} {k : Bool} {r : List (Nat × Bool)} (he : (s.pin i).edges = (t, k) :: r) (ht : t ≤ s.nowNs)
    (hl : edgeLate s i (t, k) = false) : toutEdge i s = toutDrive i (s.setPin i (pulsing s i t r)) := by
  simp only [toutEdge, he, hl, Nat.not_lt.mpr ht, decide_false, Bool.or_false, Bool.false_eq_true, if_false]
  unfold pulsing
  split <;> rfl

theorem toutEdge_ahead {t : Nat} {k : Bool} {r : List (Nat × Bool)} (he : (s.pin i).edges = (t, k) :: r) (ht : s.nowNs < t) :
    toutEdge i s = s := by
  simp [toutEdge, he, ht]

theorem toutEnd_reached {t : Nat} (hs : toutStop s i = some t) (ht : t ≤ s.nowNs) :
    toutEnd i s = toutDrive i (s.setPin i { s.pin i with ends := none }) := by
  simp only [toutEnd, hs, Nat.not_lt.mpr ht, if_false]

end

/-! ### Writes of a pin's registers (R93) -/

theorem toutWrite_cfg (i : Idx4) {v : Word} (h : fld v 2 0 ≤ 4) (s : State) : toutWrite i 0 v s =
    (s.setPin i { s.pin i with wrote := true }).setReg (toutOff Reg.TOUT_CFG i) (v &&& 0xFFFFFF1F) :=
  if_neg (Nat.not_lt.mpr h)

/-- No register of a pin is TIME_RATE_ACT. -/
theorem plannedPin_ticked (s : State) (i : Idx4) : plannedPin (ticked s) i = plannedPin s i := by
  have hreg : ∀ o, Reg.TIME_RATE_ACT < o → (ticked s).reg (toutOff o i) = s.reg (toutOff o i) := fun o ho =>
    reg_ticked (Nat.ne_of_gt (Nat.lt_add_right _ ho)) s
  simp only [plannedPin, toutTime, State.regF, hreg Reg.TOUT_CFG (by decide), hreg Reg.TOUT_TIME_SEC (by decide),
    hreg Reg.TOUT_TIME_NS (by decide), hreg Reg.TOUT_PERIOD_NS (by decide)]

section
variable {i : Idx4} {s : State}

theorem toutReplan_unscheduled (h1 : fld (plannedPin s i).cfg 2 0 ≠ 1) (h2 : fld (plannedPin s i).cfg 2 0 ≠ 2) :
    toutReplan i s = toutDrive i (s.setPin i (plannedPin s i)) := by
  rw [toutReplan_eq, if_neg (not_or.mpr ⟨h1, h2⟩)]
  rfl

/-- A start that is not past is scheduled. -/
theorem toutReplan_scheduled (h : fld (plannedPin s i).cfg 2 0 = 1 ∨ fld (plannedPin s i).cfg 2 0 = 2)
    (hnow : s.nowNs ≤ (plannedPin s i).start) : toutReplan i s =
      (toutDrive i (s.setPin i (plannedPin s i))).setPin i { plannedPin s i with edges := [((plannedPin s i).start, false)] } := by
  have harm : toutArm i (plannedPin s i).start (planned s i) = (planned s i).setPin i
      { (planned s i).pin i with edges := edgePut ((plannedPin s i).start, false) ((planned s i).pin i).edges } := if_pos hnow
  rw [toutReplan_eq, if_pos h, harm, pin_planned]
  rfl

theorem pin_toutArm_ne {j : Idx4} (h : j ≠ i) (t : Nat) : (toutArm i t s).pin j = s.pin j := by
  unfold toutArm
  dsimp only
  split
  · exact pin_setPin_ne _ _ h
  · split
    · exact (pin_congr (time_toutMiss _ _ _) j).trans (pin_setPin_ne _ _ h)
    · exact pin_congr (time_toutMiss _ _ _) j

theorem pin_toutReplan_ne {j : Idx4} (h : j ≠ i) : (toutReplan i s).pin j = s.pin j := by
  have hplan : (planned s i).pin j = s.pin j := pin_setPin_ne _ _ h
  rw [toutReplan_eq]
  split
  · exact (pin_toutArm_ne h _).trans hplan
  · exact hplan

/-- Where one pin was written, that pin alone is planned anew: those before it and those after it stand. -/
theorem foldl_replanWritten_one (h : ∀ j, (s.pin j).wrote = decide (j = i)) :
    allPins.foldl replanWritten s = toutReplan i s := by
  obtain ⟨pre, post, hsplit⟩ := List.append_of_mem (List.mem_finRange i)
  have hnodup : (pre ++ i :: post).Nodup := hsplit ▸ List.nodup_finRange 4
  obtain ⟨-, hpost, hdisj⟩ := List.nodup_append.mp hnodup
  have hpre : pre.foldl replanWritten s = s := foldl_replanWritten_none fun j hj => by
    rw [h j, decide_eq_false (hdisj j hj i List.mem_cons_self)]
  have hi : replanWritten s i = toutReplan i s := by simp [replanWritten, h i]
  have hrest : post.foldl replanWritten (toutReplan i s) = toutReplan i s := foldl_replanWritten_none fun j hj => by
    have hj : j ≠ i := fun e => (List.nodup_cons.mp hpost).1 (e ▸ hj)
    rw [pin_toutReplan_ne hj, h j, decide_eq_false hj]
  rw [allPins, hsplit, List.foldl_append, List.foldl_cons, hpre, hi, hrest]

theorem timeAdvance_one (h : ∀ j, (s.pin j).wrote = decide (j = i)) : timeAdvance s = toutReplan i (ticked s) :=
  (timeAdvance_eq s).trans <| foldl_replanWritten_one fun j => (congrArg ToutPin.wrote (pin_ticked s j)).trans (h j)

end

/-! ### Captures (R96, R97) -/

section
variable {j : Fin 2} {s : State}

/-- A selected edge is its capture alone while frames are disabled. -/
theorem timeInEdge_captured {rising : Bool} (hsel : tinSelects s j rising = true) (hoff : frameOn (tinCapture j s) = false) :
    timeInEdge j rising s = tinCapture j s := by
  simp [timeInEdge, hsel, fencesOn, hoff]

theorem tinCapture_room (hroom : (s.caps j).length < 4) (hnow : 4 ≤ s.nowNs) : tinCapture j s =
    s.setCaps j (s.caps j ++ [((s.nowNs - 4) / 1000000000, (s.nowNs - 4) % 1000000000)]) := by
  simp only [tinCapture, if_neg (Nat.not_le.mpr hroom), if_neg (Nat.not_lt.mpr hnow)]

theorem tinCapture_full (hfull : 4 ≤ (s.caps j).length) :
    tinCapture j s = raise (evTinOvf j.val) (bump (Reg.TIN_OVF + 8 * j.val) s) := if_pos hfull

/-- The count of a lost capture leaves FRAME_CTRL alone. -/
theorem frameOn_tinCapture_full (hfull : 4 ≤ (s.caps j).length) : frameOn (tinCapture j s) = frameOn s := by
  have hbelow : Reg.FRAME_CTRL < Reg.EVT_PEND := by decide
  have hne : Reg.FRAME_CTRL ≠ Reg.TIN_OVF + 8 * j.val := Nat.ne_of_lt (Nat.lt_add_right _ (by decide))
  rw [tinCapture_full hfull, frameOn, reg_raise_below hbelow, reg_bump_other hbelow hne]
  rfl

theorem tinCapRead_oldest {x : Nat × Nat} {r : List (Nat × Nat)} (h : s.caps j = x :: r) : tinCapRead j s =
    { ((s.setCaps j r).setReg (Reg.TIN_CAP_SEC + 0x40 * j.val) (BitVec.ofNat 64 x.1)) with
      lastRead := BitVec.ofNat 64 x.2 } := by
  simp only [tinCapRead, h]

theorem tinCapRead_empty (h : s.caps j = []) : tinCapRead j s = { s with lastRead := 0 } := by
  simp only [tinCapRead, h]

end

end Sys2Proof.Machine

/-- Settles O33: an edge and a pulse's end go by whether device time has reached them; TIME_ADVANCE plans the one pin written and
passes over the others; a selected edge of TIME_IN is its capture, by the room in the queue. -/
theorem timedPinResults : Obligations.TimedPinResults := by
  intro s
  refine ⟨?edge, ?ahead, ?pulseEnd, ?cfg, ?timeNs, ?plan, ?capture, ?full, ?read, ?empty⟩
  case edge => exact fun i t k r he ht hl => congrArg Host.Outcome.next (toutEdge_reached he ht hl)
  case ahead => exact fun i t k r he ht => congrArg Host.Outcome.next (toutEdge_ahead he ht)
  case pulseEnd =>
    intro i t hends hdue
    exact congrArg Host.Outcome.next (toutEnd_reached (congrArg _ hends) hdue)
  case cfg => exact fun i v h => congrArg Host.Outcome.next (toutWrite_cfg i h s)
  case timeNs => exact fun i v => rfl
  case plan =>
    intro i hone u p
    have hp : plannedPin (ticked s) i = p := plannedPin_ticked s i
    have hadv := timeAdvance_one hone
    constructor
    · intro h1 h2
      rw [← hp] at h1 h2 ⊢
      exact congrArg Host.Outcome.next (hadv.trans (toutReplan_unscheduled h1 h2))
    · intro hmode hnow
      rw [← hp] at hmode hnow ⊢
      exact congrArg Host.Outcome.next (hadv.trans (toutReplan_scheduled hmode hnow))
  case capture =>
    intro j rising hsel hoff hroom hnow
    have hcap := tinCapture_room hroom hnow
    exact congrArg Host.Outcome.next ((timeInEdge_captured hsel (by rw [hcap]; exact hoff)).trans hcap)
  case full =>
    intro j rising hsel hoff hfull
    exact congrArg Host.Outcome.next
      ((timeInEdge_captured hsel ((frameOn_tinCapture_full hfull).trans hoff)).trans (tinCapture_full hfull))
  case read => exact fun j x r h => congrArg Host.Outcome.next (tinCapRead_oldest h)
  case empty => exact fun j h => congrArg Host.Outcome.next (tinCapRead_empty h)
end

section
/-! SUPPORT. The rulebook engine (R125 to R132): a turn of RB_TILE by what its run still needs, acknowledgements of RB_TILE_SIGNAL,
and writes of the job table. -/

open Sys2Proof Sys2Proof.Machine

namespace Sys2Proof.Machine

/-! ### A turn of RB_TILE (R125, R128, R129, R132) -/

section
variable {s : State} {r : RbRun}

/-- Is a run's next output headers alone: terminal ones, or those of a failed list? -/
def rbEnding (s : State) (r : RbRun) : Bool := r.term || r.fault || rbOcc (s.gbuf s.computing) (rbJob s r.job) == 0

/-- The consumers of a run's next output. -/
def rbDest (s : State) (r : RbRun) : List (Nat × CoreId) :=
  let cons := rbConsumers (rbJob s r.job) r.place
  if rbEnding s r || (rbJob s r.job).bcast then cons else (cons.drop (r.tile % cons.length)).take 1

/-- The cores whose credits the next output needs and that have neither granted them nor been asked. -/
def rbNeed (s : State) (r : RbRun) : List CoreId :=
  ((rbDest s r).map (·.2)).filter fun c => !(r.held.any (·.1 == c)) && !(r.asked.any (·.1 == c))

/-- A run's next output, once its credits are held; `u` is the state that it leaves from. -/
def rbOutput (s : State) (r : RbRun) (u : State) : State :=
  if r.fault then rbFaultStop r (rbJob s r.job) u
  else if rbEnding s r then rbJobDone (rbTerminal r (rbJob s r.job) 1 0 u).1 (rbTerminal r (rbJob s r.job) 1 0 u).2
  else rbTileWrite r (rbJob s r.job) (rbDest s r) u

/-- What RB_TILE does with the run whose turn it is. -/
theorem rbStep_turn (hready : handoverPending s = false) (hrun : domRun s 37 = true) (hturn : rbTurn s = some r) (wait : Nat) :
    rbStep wait [] s =
      if !rbRunnable s (rbJob s r.job) ∨ (rbConsumers (rbJob s r.job) r.place).isEmpty then rbJobDone r s
      else if !(rbNeed s r).isEmpty then rbAsk r (rbJob s r.job) (rbNeed s r) (rbBegin r (rbJob s r.job) s)
      else if !rbHolds r (rbDest s r) then bumpN Reg.RB_CREDIT_WAIT wait s
      else rbOutput s r ((bumpN Reg.RB_CREDIT_WAIT wait s).modRb fun b => { b with last := r.slot }) := by
  simp only [rbStep, hready, hrun, hturn, strikeGrid_nil]
  rfl

/-- A run that holds the credits of its next output has none to ask for. -/
theorem rbNeed_of_holds (h : rbHolds r (rbDest s r) = true) : rbNeed s r = [] := by
  refine List.filter_eq_nil_iff.mpr fun c hc => ?_
  obtain ⟨e, he, rfl⟩ := List.mem_map.mp hc
  simp [List.all_eq_true.mp h e he]

section
variable (hready : handoverPending s = false) (hrun : domRun s 37 = true) (hturn : rbTurn s = some r) (wait : Nat)
include hready hrun hturn

/-- A job that the loader would have refused is passed over at its turn: the model's choice (SPEC.md, log 75). -/
theorem rbStep_skipped (h : rbRunnable s (rbJob s r.job) = false ∨ rbConsumers (rbJob s r.job) r.place = []) :
    rbStep wait [] s = rbJobDone r s := by
  rw [rbStep_turn hready hrun hturn, if_pos]
  simpa using h

variable (hjob : rbRunnable s (rbJob s r.job) = true) (hcons : rbConsumers (rbJob s r.job) r.place ≠ [])
include hjob hcons

theorem rbStep_asks (h : rbNeed s r ≠ []) :
    rbStep wait [] s = rbAsk r (rbJob s r.job) (rbNeed s r) (rbBegin r (rbJob s r.job) s) := by
  simp [rbStep_turn hready hrun hturn, hjob, hcons, h]

theorem rbStep_waits (hneed : rbNeed s r = []) (h : rbHolds r (rbDest s r) = false) :
    rbStep wait [] s = bumpN Reg.RB_CREDIT_WAIT wait s := by
  simp [rbStep_turn hready hrun hturn, hjob, hcons, hneed, h]

theorem rbStep_outputs (h : rbHolds r (rbDest s r) = true) : rbStep wait [] s =
    rbOutput s r ((bumpN Reg.RB_CREDIT_WAIT wait s).modRb fun b => { b with last := r.slot }) := by
  simp [rbStep_turn hready hrun hturn, hjob, hcons, rbNeed_of_holds h, h]

end

end

/-! ### RB_TILE_SIGNAL (R129) -/

/-- Is a message an acknowledgement from `src` to the engine? -/
def ackOf (src : Agent) (m : Msg) : Bool := m.kind == .writeAck && m.src == src && m.dst == .grid

/-- With no tile in flight, acknowledgements are taken and change nothing. -/
theorem rbAcks_noTiles {s : State} (h : s.rb.tiles = []) (src : Agent) :
    rbAcks src s = { s with net := s.net.filter fun m => !ackOf src m, rb := { s.rb with tiles := [] } } := by
  simp only [rbAcks, h, List.filter_nil, List.map_nil, List.append_nil]
  rfl

theorem ackOf_other {m : Msg} (h : m.kind ≠ .writeAck) (src : Agent) : ackOf src m = false := by
  simp [ackOf, h]

/-- With no acknowledgement under way, every tile stands as it was. -/
theorem rbAcks_noAcks {s : State} (h : ∀ m, m ∈ s.net → m.kind ≠ .writeAck) (src : Agent) : rbAcks src s = s := by
  have hmine : ∀ m ∈ s.net, ackOf src m = false := fun m hm => ackOf_other (h m hm) src
  have hrest : (s.net.filter fun m => !ackOf src m) = s.net := List.filter_eq_self.mpr fun m hm => by rw [hmine m hm]; rfl
  have hcnt : ∀ q, (s.net.countP fun m => ackOf src m && m.seq == q) = 0 := fun q =>
    List.countP_eq_zero.mpr fun m hm => by simp [hmine m hm]
  have hfail : ∀ q, (s.net.any fun m => ackOf src m && m.seq == q && m.err != 0) = false := fun q =>
    List.any_eq_false.mpr fun m hm => by simp [hmine m hm]
  simp only [ackOf] at hrest hcnt hfail
  simp only [rbAcks, hrest, hcnt, hfail, Nat.sub_zero, ite_self, List.map_id_fun', id_eq, Bool.and_false, List.filter_false,
    List.map_nil, List.append_nil]

/-- With no tile in flight, RB_TILE_SIGNAL takes the acknowledgements of memory and of the core. -/
theorem rbSignal_noTiles {s : State} (h : s.rb.tiles = []) (c : CoreId) :
    rbSignal c s = { s with
      net := (s.net.filter fun m => !ackOf .mem m).filter fun m => !ackOf (.core c) m, rb := { s.rb with tiles := [] } } := by
  have hacks := rbAcks_noTiles (s := rbAcks .mem s) (by rw [rbAcks_noTiles h]) (.core c)
  rw [rbAcks_noTiles h] at hacks
  simp [rbSignal, rbAcks_noTiles h, hacks, sendAll, State.modRb]

/-- A tile acknowledged in full signals its consumer and is in flight no more. -/
theorem rbSignal_acknowledged {s : State} {x : RbTile} (htiles : s.rb.tiles = [x]) (hleft : x.left = 0) (hmem : x.mem = 0)
    (hhold : x.hold = []) (hnet : ∀ m, m ∈ s.net → m.kind ≠ .writeAck) :
    rbSignal x.core s = { s with rb := { s.rb with tiles := [] }, net := s.net ++
      [{ kind := .signal, src := .grid, dst := .core x.core, slot := x.slot, idx := x.sem, k := 1, stamp := frameStamp s }] } := by
  simp [rbSignal, rbAcks_noAcks hnet, htiles, hleft, hmem, hhold, sendAll, State.modRb]

/-! ### Writes of the job table (R125) -/

/-- Word `w` of job `j` is written to its unreserved fields while no enabled list names the job. -/
theorem rbJobWrite_job {j w : Nat} (hj : j < 256) (hw : w < 4) (v : Word) (s : State) :
    rbJobWrite (Reg.RB_JOB + 0x20 * j + 8 * w) v s =
      if rbNamed s j then accessError s else s.setReg (Reg.RB_JOB + 0x20 * j + 8 * w) (v &&& jobMask w) := by
  have hbase : Reg.RB_JOB % 0x20 = 0 := rfl
  have hin : Reg.RB_JOB ≤ Reg.RB_JOB + 0x20 * j + 8 * w ∧ Reg.RB_JOB + 0x20 * j + 8 * w < Reg.RB_JOB + 0x2000 ∧
      (Reg.RB_JOB + 0x20 * j + 8 * w) % 8 = 0 := by omega
  have hidx : (Reg.RB_JOB + 0x20 * j + 8 * w - Reg.RB_JOB) / 0x20 = j := by omega
  have hword : (Reg.RB_JOB + 0x20 * j + 8 * w) % 0x20 / 8 = w := by omega
  simp only [rbJobWrite, if_pos hin, hidx, hword]

end Sys2Proof.Machine

/-- Settles O55: a turn of RB_TILE goes by what the run's next output still needs; acknowledgements that concern no tile change none,
and a tile acknowledged in full signals; a job's word is written or refused by `rbJobWrite_job`. -/
theorem rulebookResults : Obligations.RulebookResults := by
  intro s
  refine ⟨?turn, ?noTiles, ?signal, ?job⟩
  case turn =>
    intro r hready hrun hturn
    refine ⟨?skipped, ?asks, ?waits, ?outputs⟩
    case skipped => exact fun h wait => congrArg Host.Outcome.next (rbStep_skipped hready hrun hturn wait h)
    case asks => exact fun hj hc h wait => congrArg Host.Outcome.next (rbStep_asks hready hrun hturn wait hj hc h)
    case waits => exact fun hj hc hn h wait => congrArg Host.Outcome.next (rbStep_waits hready hrun hturn wait hj hc hn h)
    case outputs => exact fun hj hc h wait => congrArg Host.Outcome.next (rbStep_outputs hready hrun hturn wait hj hc h)
  case noTiles =>
    intro c h
    refine ⟨rbSignal c s, rfl, ?_⟩
    rw [rbSignal_noTiles h]
    exact ⟨rfl, rfl, rfl⟩
  case signal =>
    rintro c x htiles rfl hleft hmem hhold hnet
    exact congrArg Host.Outcome.next (rbSignal_acknowledged htiles hleft hmem hhold hnet)
  case job =>
    intro j w v hj hw
    have hwrite := rbJobWrite_job hj hw v s
    exact ⟨fun h => congrArg Host.Outcome.next (hwrite.trans (if_neg (Bool.eq_false_iff.mp h))),
      fun h => congrArg Host.Outcome.next (hwrite.trans (if_pos h))⟩
end

section
/-! SUPPORT. Online calibration (R139 to R148): a candidate judged, a solution of the closed buffer, what software writes and
freezing withdraws, and one change made to all sixteen slots. -/

open Sys2Proof Sys2Proof.Machine

namespace Sys2Proof.Machine

/-! ### Slots under a change -/

section
variable (n m : HeadId) (f : CalSlot → CalSlot) (s : State)

theorem calSlot_modSlot : (s.modSlot n f).calSlot m = if m = n then f (s.calSlot m) else s.calSlot m := by
  by_cases h : m = n
  · subst h
    rw [if_pos rfl]
    exact Vector.getElem_set_self _
  · rw [if_neg h]
    exact Vector.getElem_set_ne n.isLt m.isLt fun hv => h (Fin.ext hv.symm)

@[simp] theorem calSlot_modSlot_self : (s.modSlot n f).calSlot n = f (s.calSlot n) :=
  (calSlot_modSlot n n f s).trans (if_pos rfl)

/-- A change of a slot counts by what it makes of that slot. -/
theorem modSlot_congr {n : HeadId} {f g : CalSlot → CalSlot} {s : State} (h : f (s.calSlot n) = g (s.calSlot n)) :
    s.modSlot n f = s.modSlot n g :=
  congrArg (fun c => s.modCal fun e => { e with slots := e.slots.set n.val c }) h

/-- One change made to every slot, and to nothing else. -/
def slotsMapped : State := s.modCal fun c => { c with slots := c.slots.map f }

theorem calSlot_slotsMapped : (slotsMapped f s).calSlot n = f (s.calSlot n) := Vector.getElem_map ..

/-- Changes of slots, one after another, leave all but the slots as they were. -/
theorem modSlots_rest (l : List HeadId) : l.foldl (fun s n => s.modSlot n f) s =
    s.modCal fun c => { c with slots := (l.foldl (fun s n => s.modSlot n f) s).cal.slots } := by
  induction l generalizing s with
  | nil => rfl
  | cons n l ih => exact ih (s.modSlot n f)

theorem calSlot_modSlots {l : List HeadId} (hl : l.Nodup) :
    (l.foldl (fun s n => s.modSlot n f) s).calSlot m = if m ∈ l then f (s.calSlot m) else s.calSlot m := by
  induction l generalizing s with
  | nil => rfl
  | cons n l ih =>
    obtain ⟨hn, hl⟩ := List.nodup_cons.mp hl
    rw [List.foldl_cons, ih _ hl, calSlot_modSlot]
    by_cases hm : m = n
    · subst hm
      simp [hn]
    · simp [hm]

/-- A change made slot by slot is one change of them all. -/
theorem modSlots_all : allHeads.foldl (fun s n => s.modSlot n f) s = slotsMapped f s := by
  have hslots : (allHeads.foldl (fun s n => s.modSlot n f) s).cal.slots = s.cal.slots.map f := by
    refine Vector.ext fun i hi => ?_
    rw [Vector.getElem_map]
    exact (calSlot_modSlots ⟨i, hi⟩ f s (List.nodup_finRange 16)).trans (if_pos (List.mem_finRange _))
  rw [modSlots_rest, hslots]
  rfl

end

/-! ### A candidate judged (R140, R141) -/

section
variable (s : State) (k : CalCand)

/-- The neighbours of a candidate's key, looked up in the filling buffer. -/
def candLooks : List (Option (Int × Int × Int) × Nat) :=
  (neighbours k.key).map (lookNeighbour (s.gbuf s.grid.filling) s.grid.filling.val k.a)

/-- The points of a candidate's plane: the representative superseded and those of its neighbours. -/
def candPlane : List (Int × Int × Int) :=
  repPos (s.gbuf s.grid.filling).set k.key k.off :: (candLooks s k).filterMap (·.1)

/-- A candidate's point in 1/256 mm. -/
def candPoint : Int × Int × Int := (k.p.1 * 16, k.p.2.1 * 16, k.p.2.2 * 16)

/-- A candidate's distance from its plane. -/
def candResid : Int := planeResid (planeNormal (candPlane s k)) (candPlane s k) (candPoint k)

/-- A candidate taken from the queue, `rest` left in it. -/
def candTaken (rest : List CalCand) : State := { s with cal := { s.cal with queue := rest, taken := s.cal.taken + 1 } }

/-- Entries of the neighbours' buckets that fail their check are counted and raised one by one (R140). -/
def candE2e (u : State) : State :=
  (List.range ((candLooks s k).foldl (fun n x => n + x.2) 0)).foldl
    (fun t _ => raise evCalE2e (bump Reg.CAL_E2E_FAIL t)) u

/-- A candidate's sample joins those of the filling buffer. -/
def candAccept (u : State) : State := bump Reg.CAL_SAMPLE_CNT (u.modCal fun c => { c with samples := c.samples ++
  [calAdd u k (candPlane s k) (planeNormal (candPlane s k)) (candPoint k) (candResid s k)] })

/-- The two gates: a plane of six points that fits, and a residual within CAL_CFG.max_resid_mm, in exact
arithmetic (SPEC.md, log 19). -/
def candJudge (u : State) : State :=
  if (candPlane s k).length < 6 ∨ !planeFits (candPlane s k) then bump Reg.CAL_REJECT_PLANE u
  else if (candResid s k).natAbs * 1000 > u.actF Reg.CAL_CFG 31 24 * 2 ^ 40 then bump Reg.CAL_REJECT_RESID u
  else candAccept s k u

end

section
variable {s : State} {k : CalCand} {rest : List CalCand}

/-- While the engine runs and has room, CAL_SAMPLE takes the oldest candidate and judges it by the filling buffer as it stands. -/
theorem calSample_judges (hq : s.cal.queue = k :: rest) (hon : calOn s = true) (hroom : s.cal.taken < calMax s) :
    calSample [] s = candJudge s k (candE2e s k (candTaken s rest)) := by
  have hruns : ¬((!calOn s) = true ∨ s.cal.taken ≥ calMax s) := by simp [hon, hroom]
  unfold calSample
  rw [hq]
  exact if_neg hruns

theorem candE2e_none (h : ∀ x, x ∈ candLooks s k → x.2 = 0) (u : State) : candE2e s k u = u := by
  have hsum : (candLooks s k).foldl (fun n x => n + x.2) 0 = 0 :=
    (List.foldl_ext _ (fun n _ => n) 0 fun n x hx => by rw [h x hx, Nat.add_zero]).trans (List.foldl_fixed _)
  rw [candE2e, hsum]
  rfl

variable {u : State}

theorem candJudge_noPlane (h : (candPlane s k).length < 6 ∨ planeFits (candPlane s k) = false) :
    candJudge s k u = bump Reg.CAL_REJECT_PLANE u :=
  if_pos (h.imp_right fun hfit => by rw [hfit]; rfl)

variable (hlen : 6 ≤ (candPlane s k).length) (hfit : planeFits (candPlane s k) = true)
include hlen hfit

theorem candJudge_plane : candJudge s k u =
    if (candResid s k).natAbs * 1000 > u.actF Reg.CAL_CFG 31 24 * 2 ^ 40 then bump Reg.CAL_REJECT_RESID u
    else candAccept s k u :=
  if_neg (by rw [hfit]; simpa using hlen)

theorem candJudge_far (h : u.actF Reg.CAL_CFG 31 24 * 2 ^ 40 < (candResid s k).natAbs * 1000) :
    candJudge s k u = bump Reg.CAL_REJECT_RESID u := (candJudge_plane hlen hfit).trans (if_pos h)

theorem candJudge_near (h : (candResid s k).natAbs * 1000 ≤ u.actF Reg.CAL_CFG 31 24 * 2 ^ 40) :
    candJudge s k u = candAccept s k u := (candJudge_plane hlen hfit).trans (if_neg (Nat.not_lt.mpr h))

end

/-! ### A solution of the closed buffer (R142, R143) -/

section
variable (n : HeadId) (s : State)

/-- The RMS residual that a solution reports; that of no samples is free (SPEC.md, log 72). -/
def calRms : Nat := if (calRows s n.val).isEmpty then (s.free 72 16).toNat else min 65535 (rmsMicro (calRows s n.val))

/-- A slot's solution begun: no longer due, its RMS reported. -/
def calSolved : State :=
  (s.modSlot n fun c => { c with solve := false }).drawn.setF (Reg.CAL_SLOT_STAT + 0x100 * n.val) 47 32 (calRms n s)

theorem calSolved_hist : ((calSolved n s).calSlot n).hist = (s.calSlot n).hist := by
  have hslot : (calSolved n s).calSlot n = { s.calSlot n with solve := false } :=
    calSlot_modSlot_self n (fun c => { c with solve := false }) s
  rw [hslot]

/-- A slot whose pose the samples do not determine is DEGENERATE. -/
def calDegenerate : State :=
  raise (evCalDegenerate n.val) (bump Reg.CAL_DEGENERATE_CNT (s.modSlot n fun c => { c with hist := [], state := 4 }))

/-- An estimate joins a slot's history, of which seven older ones at most stay. -/
def calEstimated : State := s.drawn.modSlot n fun c =>
  { c with hist := (c.hist ++ [calEstimate s n.val]).drop (c.hist.length - 7), state := if c.state = 4 then 1 else c.state }

/-- An estimate joins a slot's whole history. -/
def calJoined : State := s.drawn.modSlot n fun c =>
  { c with hist := c.hist ++ [calEstimate s n.val], state := if c.state = 4 then 1 else c.state }

theorem calJoined_hist : ((calJoined n s).calSlot n).hist = (s.calSlot n).hist ++ [calEstimate s n.val] :=
  congrArg CalSlot.hist (calSlot_modSlot_self n _ s.drawn)

theorem calEstimated_room {n : HeadId} {s : State} (h : (s.calSlot n).hist.length ≤ 7) : calEstimated n s = calJoined n s := by
  have hdrop : (s.drawn.calSlot n).hist.length - 7 = 0 := Nat.sub_eq_zero_of_le h
  exact modSlot_congr (by rw [hdrop, List.drop_zero])

end

section
variable {n : HeadId} {s : State}
variable (hsolve : (s.calSlot n).solve = true) (hon : calOn s = true)
include hsolve hon

theorem calProposal_solves : calProposal n s =
    if (calRows s n.val).length < 8 * s.actF Reg.CAL_CFG 23 16 then histClear n (calSolved n s)
    else if poseIll (calRows s n.val) then calDegenerate n (calSolved n s)
    else if ((calEstimated n (calSolved n s)).calSlot n).hist.length < 8 then calEstimated n (calSolved n s)
    else calPropose n (calEstimated n (calSolved n s)) :=
  if_neg (by simp [hsolve, hon])

theorem calProposal_few (h : (calRows s n.val).length < 8 * s.actF Reg.CAL_CFG 23 16) :
    calProposal n s = histClear n (calSolved n s) :=
  (calProposal_solves hsolve hon).trans (if_pos h)

variable (hrows : 8 * s.actF Reg.CAL_CFG 23 16 ≤ (calRows s n.val).length)
include hrows

theorem calProposal_ill (h : poseIll (calRows s n.val) = true) : calProposal n s = calDegenerate n (calSolved n s) := by
  rw [calProposal_solves hsolve hon, if_neg (Nat.not_lt.mpr hrows), if_pos h]

/-- While a history has room, a further estimate joins it and proposes nothing. -/
theorem calProposal_estimates (h : poseIll (calRows s n.val) = false) (hroom : (s.calSlot n).hist.length < 7) :
    calProposal n s = calJoined n (calSolved n s) := by
  have hold : ((calSolved n s).calSlot n).hist = (s.calSlot n).hist := calSolved_hist n s
  have hjoin : calEstimated n (calSolved n s) = calJoined n (calSolved n s) := calEstimated_room (by rw [hold]; exact hroom.le)
  have hlen : ((calJoined n (calSolved n s)).calSlot n).hist.length < 8 := by
    rw [calJoined_hist, List.length_append, hold]
    exact Nat.succ_lt_succ hroom
  rw [calProposal_solves hsolve hon, if_neg (Nat.not_lt.mpr hrows), if_neg (Bool.eq_false_iff.mp h), hjoin, if_pos hlen]

end

/-! ### Software's write (R145) -/

/-- FRAME_STAT is no calibration register of a slot. -/
theorem frameStat_ne_calOff (n i : Nat) : Reg.FRAME_STAT ≠ ((calOffs n)[i]?).getD 0 := by
  cases h : (calOffs n)[i]? with
  | none => decide
  | some o =>
    have hmem : o ∈ calOffs n := List.mem_of_getElem? h
    simp only [calOffs, List.mem_append, List.mem_map, List.mem_singleton] at hmem
    simp only [Option.getD_some, Reg.FRAME_STAT, Reg.CAL_ROT0, Reg.CAL_TRANS, Reg.CAL_RB_GAIN] at hmem ⊢
    omega

/-- Outside the guard software's write is the pending value, and the register is no longer the engine's. -/
theorem calSoftWrite_onTime (n : HeadId) (idx : Fin 13) (v : Half) {s : State} (h : bitOf (s.reg Reg.FRAME_STAT) 1 = false) :
    calSoftWrite n idx v s = calSoft n [idx.val]
      (s.setReg (((calOffs n.val)[idx.val]?).getD 0) (v.zeroExtend 64 &&& calMask idx.val)) :=
  congrArg (calSoft n [idx.val]) (fbPut_onTime (frameStat_ne_calOff n.val idx.val) _ h)

/-! ### Freezing, unfreezing, disabling (R146 to R148) -/

theorem calWithdraw_none {n : HeadId} {s : State} (h : (s.calSlot n).mine = []) : calWithdraw n s = s :=
  if_pos (List.isEmpty_iff.mpr h)

theorem calWithdraw_some {n : HeadId} {s : State} (h : (s.calSlot n).mine ≠ []) : calWithdraw n s =
    (setMine n [] ((s.calSlot n).mine.foldl (fun s i =>
      s.setReg (((calOffs n.val)[i]?).getD 0) (s.actReg (((calOffs n.val)[i]?).getD 0))) s)).modSlot n
        fun c => { c with skip := false, state := if c.state = 2 then 1 else c.state } :=
  if_neg (mt List.isEmpty_iff.mp h)

theorem calFreeze_none {s : State} (h : ∀ n : HeadId, (s.calSlot n).mine = []) : calFreeze s = s.setF Reg.CAL_CTRL 1 1 1 :=
  List.foldl_fixed' (fun n => calWithdraw_none (s := s.setF Reg.CAL_CTRL 1 1 1) (h n)) allHeads

theorem calUnfreeze_eq (s : State) :
    calUnfreeze s = slotsMapped (fun c => { c with hist := [] }) (s.setF Reg.CAL_CTRL 1 1 0) := modSlots_all _ _

theorem calStop_eq (s : State) : calStop s =
    slotsMapped (fun c => { c with hist := [], state := 0, solve := false, skip := false })
      (s.modCal fun c => { c with queue := [], taken := 0, samples := [], closed := [] }) := by
  unfold calStop
  exact modSlots_all _ _

end Sys2Proof.Machine

/-- Settles O43: a candidate taken meets the gates of `candJudge` and a solution those of `calProposal_solves`; software writes a
register other than FRAME_STAT; freezing withdraws slot by slot; unfreezing and disabling make one change to every slot. -/
theorem calibrationResults : Obligations.CalibrationResults := by
  intro s
  refine ⟨?sample, ?solution, ?software, ?freeze, ?withdraw, ?unfreeze, ?disable⟩
  case sample =>
    intro k rest hq hon hroom u g r pts q hgood d
    have hjudge : exec (.calSample []) s = .next (candJudge s k u) := congrArg Host.Outcome.next
      ((calSample_judges hq hon hroom).trans (congrArg (candJudge s k) (candE2e_none hgood u)))
    rw [hjudge]
    refine ⟨?plane, ?far, ?near⟩
    case plane => exact fun h => congrArg Host.Outcome.next (candJudge_noPlane h)
    case far => exact fun hlen hfit h => congrArg Host.Outcome.next (candJudge_far hlen hfit h)
    case near => exact fun hlen hfit h => congrArg Host.Outcome.next (candJudge_near hlen hfit h)
  case solution =>
    intro n hsolve hon
    refine ⟨?few, ?ill, ?estimate⟩
    case few => exact fun h => congrArg Host.Outcome.next (calProposal_few hsolve hon h)
    case ill => exact fun hrows h => congrArg Host.Outcome.next (calProposal_ill hsolve hon hrows h)
    case estimate => exact fun hrows h hroom => congrArg Host.Outcome.next (calProposal_estimates hsolve hon hrows h hroom)
  case software => exact fun n idx v hguard => congrArg Host.Outcome.next (calSoftWrite_onTime n idx v hguard)
  case freeze => exact fun h => congrArg Host.Outcome.next (calFreeze_none h)
  case withdraw => exact fun n => calWithdraw_some
  case unfreeze =>
    refine ⟨calUnfreeze s, rfl, ?_⟩
    rw [calUnfreeze_eq]
    exact ⟨rfl, rfl, fun n => calSlot_slotsMapped n _ _⟩
  case disable =>
    refine ⟨calStop (s.setF Reg.CAL_CTRL 0 0 0), rfl, ?_⟩
    rw [calStop_eq]
    exact ⟨rfl, rfl, rfl, rfl, rfl, fun n => calSlot_slotsMapped n _ _⟩
end

section
/-! SUPPORT. What reaches a core over the mesh, one lemma for each outcome of a message taken: remote reads and writes (R157, R162),
their answers (R248, R269, R271), credits (R164 to R167, R270), signals (R251) and a core's gate counts (R232). -/

open Sys2Proof Sys2Proof.Machine

namespace Sys2Proof.Machine

/-! ### The state that a message was taken from -/

section
variable {k : MsgKind} {src dst : Agent} {s u : State} {m : Msg} (hr : s.receive k src dst = some (m, u))
include hr

theorem core_received (c : CoreId) : u.core c = s.core c := by
  obtain ⟨net, rfl⟩ := receive_net hr
  rfl

theorem reg_received (o : Nat) : u.reg o = s.reg o := by
  obtain ⟨net, rfl⟩ := receive_net hr
  rfl

theorem reachable_received (c : CoreId) : reachable u c = reachable s c := by
  obtain ⟨net, rfl⟩ := receive_net hr
  rfl

theorem poolCfg_received (c : CoreId) (p : Nat) : poolCfg u c p = poolCfg s c p := by
  obtain ⟨net, rfl⟩ := receive_net hr
  rfl

theorem poolCap_received (c : CoreId) (p : Nat) : poolCap u c p = poolCap s c p := by
  simp only [poolCap, poolCfg_received hr]

end

/-! ### Remote reads (R157, R162) -/

/-- The trap that answers a remote read, or 0 for a read that is allowed (Table 8.5, R132). -/
def remoteReadTrap (u : State) (c : CoreId) (m : Msg) : Nat :=
  let t := if !reachable u c then trapDenied else if m.addr ≠ 0 then 0 else shelfCheck u c m.shelf m.slot m.idx 1 false
  if t = 0 && m.addr = 0 && readsFault u c m.shelf m.idx 1 then trapRbFault else t

/-- The line that a remote read takes from the core's scratchpad. -/
def remoteReadLine (c : CoreId) (m : Msg) (u : State) : DLine × Bool × State :=
  if m.addr ≠ 0 then windowRead c (m.addr % 0x1000000 / 64) 9 u else shelfRead c m.shelf m.idx 9 u

section
variable {src : Agent} {c : CoreId} {m : Msg} {s u : State} (hr : s.receive .readReq src (.core c) = some (m, u))
include hr

theorem serveRead_eq : serveRead src c [] s =
    if remoteReadTrap u c m ≠ 0 then post { replyTo m .readRsp with err := remoteReadTrap u c m } u
    else if (remoteReadLine c m u).2.1 then post { replyTo m .readRsp with err := trapBankEcc } (remoteReadLine c m u).2.2
    else post { replyTo m .readRsp with
      line := sealLine (requesterSalt u src m.dshelf m.didx m.slot) (remoteReadLine c m u).1 }
        (bumpC c Reg.REMOTE_RD_CNT (remoteReadLine c m u).2.2) := by
  simp only [serveRead, hr, strike_nil]
  rfl

theorem serveRead_refused (ht : remoteReadTrap u c m ≠ 0) :
    serveRead src c [] s = post { replyTo m .readRsp with err := remoteReadTrap u c m } u :=
  (serveRead_eq hr).trans (if_pos ht)

theorem serveRead_uncorrectable (ht : remoteReadTrap u c m = 0) (he : (remoteReadLine c m u).2.1 = true) :
    serveRead src c [] s = post { replyTo m .readRsp with err := trapBankEcc } (remoteReadLine c m u).2.2 := by
  rw [serveRead_eq hr, if_neg (not_not.mpr ht), if_pos he]

theorem serveRead_served (ht : remoteReadTrap u c m = 0) (he : (remoteReadLine c m u).2.1 = false) :
    serveRead src c [] s = post { replyTo m .readRsp with
      line := sealLine (requesterSalt u src m.dshelf m.didx m.slot) (remoteReadLine c m u).1 }
        (bumpC c Reg.REMOTE_RD_CNT (remoteReadLine c m u).2.2) := by
  rw [serveRead_eq hr, if_neg (not_not.mpr ht), if_neg (Bool.eq_false_iff.mp he)]

end

/-! ### Remote writes (R157, R167, R43) -/

section
variable {src : Agent} {c : CoreId} {m : Msg} {s u : State} (hr : s.receive .write src (.core c) = some (m, u))
  (hreach : reachable s c = true)
include hr hreach

/-- A write whose grant is no longer held is discarded and counted (R167). -/
theorem applyWrite_stale (hgrant : spendGrant (poolOf (s.core c) m.pool) src m.stamp = none) :
    applyWrite src c s = post (replyTo m .writeAck) (bumpC c Reg.CREDIT_STALE u) := by
  rw [← core_received hr] at hgrant
  rw [← reachable_received hr] at hreach
  simp [applyWrite, hr, hreach, hgrant]

section
variable {p : Pool} (hgrant : spendGrant (poolOf (s.core c) m.pool) src m.stamp = some p)
include hgrant

/-- A write that has spent a credit goes through the checks on its shelf. -/
theorem applyWrite_spends : applyWrite src c s =
    let v := u.modCore c fun k => setPool k m.pool p
    let t := shelfCheck v c m.shelf m.slot m.idx 1 true
    let w := shelfWrite c m.shelf m.idx (checked (saltTransit (targetNum v src c) m.shelf m.idx m.slot v.coordX v.coordY) m.line) v
    if t ≠ 0 then post { replyTo m .writeAck with err := t } v
    else if sePool (shelfEnt u c m.shelf) ≠ m.pool then post (replyTo m .writeAck) (bumpC c Reg.CREDIT_STALE v)
    else if m.cd && seLoft (shelfEnt u c m.shelf) == 2 then post { replyTo m .writeAck with err := trapCommitOrder } v
    else post (replyTo m .writeAck) (bumpC c Reg.REMOTE_WR_CNT (if src == .grid && m.k == 1 then
      w.modCore c fun k => { k with faultHdr := (m.shelf % 64, m.idx) :: k.faultHdr } else w)) := by
  rw [← core_received hr] at hgrant
  rw [← reachable_received hr] at hreach
  simp only [applyWrite, hr, hreach, hgrant, Bool.not_true, Bool.false_eq_true, if_false]

theorem applyWrite_refused
    (ht : shelfCheck (u.modCore c fun k => setPool k m.pool p) c m.shelf m.slot m.idx 1 true ≠ 0) :
    applyWrite src c s = post { replyTo m .writeAck with
        err := shelfCheck (u.modCore c fun k => setPool k m.pool p) c m.shelf m.slot m.idx 1 true }
      (u.modCore c fun k => setPool k m.pool p) :=
  (applyWrite_spends hr hreach hgrant).trans (if_pos ht)

variable (ht : shelfCheck (u.modCore c fun k => setPool k m.pool p) c m.shelf m.slot m.idx 1 true = 0)
  (hpool : sePool (shelfEnt u c m.shelf) = m.pool)
include ht hpool

/-- A write that its sender issued after COMMIT does not reach a committed loft shelf (R43). -/
theorem applyWrite_commitOrder (hcd : (m.cd && seLoft (shelfEnt u c m.shelf) == 2) = true) :
    applyWrite src c s = post { replyTo m .writeAck with err := trapCommitOrder } (u.modCore c fun k => setPool k m.pool p) := by
  rw [applyWrite_spends hr hreach hgrant]
  exact (if_neg (not_not.mpr ht)).trans ((if_neg (not_not.mpr hpool)).trans (if_pos hcd))

theorem applyWrite_applied (hcd : (m.cd && seLoft (shelfEnt u c m.shelf) == 2) = false) (hsrc : src ≠ .grid) :
    let v := u.modCore c fun k => setPool k m.pool p
    applyWrite src c s = post (replyTo m .writeAck) (bumpC c Reg.REMOTE_WR_CNT (shelfWrite c m.shelf m.idx
      (checked (saltTransit (targetNum v src c) m.shelf m.idx m.slot v.coordX v.coordY) m.line) v)) := by
  intro v
  have hgrid : (src == .grid) = false := beq_eq_false_iff_ne.mpr hsrc
  rw [applyWrite_spends hr hreach hgrant, hgrid]
  exact (if_neg (not_not.mpr ht)).trans ((if_neg (not_not.mpr hpool)).trans (if_neg (Bool.eq_false_iff.mp hcd)))

end

end

/-! ### Answers to the instruction that waits for them (R248, R269, R271) -/

section
variable {src : Agent} {c : CoreId} {m : Msg} {s u : State} {a : Active} (hwait : findActive (s.core c) m.seq = some a)
include hwait

section
variable (hr : s.receive .readRsp src (.core c) = some (m, u))
include hr

theorem takeReadRsp_failed (he : m.err ≠ 0) : takeReadRsp src c [] s = activeTrap c m.seq m.err u := by
  rw [← core_received hr] at hwait
  simp [takeReadRsp, hr, strike_nil, hwait, he]

/-- The line of an answer is verified for where it comes from and written. -/
theorem takeReadRsp_written (he : m.err = 0) : takeReadRsp src c [] s = settle c (answered c m.seq
    (shelfWrite c m.dshelf m.didx (checked (if src == .mem || src == .grid then saltAddr m.addr
      else saltTransit c.val m.dshelf m.didx m.slot u.coordX u.coordY) m.line) u)) := by
  rw [← core_received hr] at hwait
  simp only [takeReadRsp, hr, strike_nil, hwait, he, ne_eq, not_true, if_false]

end

theorem takeWriteAck_waiting (hr : s.receive .writeAck src (.core c) = some (m, u)) : takeWriteAck src c [] s =
    if m.err ≠ 0 then activeTrap c m.seq m.err u else settle c (answered c m.seq u) := by
  rw [← core_received hr] at hwait
  simp only [takeWriteAck, hr, strike_nil, hwait]

end

/-! ### Credits (R164 to R167, R270) -/

section
variable {src : Agent} {c : CoreId} {m : Msg} {s u : State} (hr : s.receive .creditReq src (.core c) = some (m, u))
  (hok : poolCap s c m.pool ≠ 0 ∧ fld (poolCfg s c m.pool) 20 18 = m.slot)
include hr hok

/-- A request to a pool of its trunk is refused for its size or for a full queue, and otherwise queued. -/
theorem takeCreditReq_eq : takeCreditReq src c s =
    if poolCap s c m.pool < m.k then post (creditAnswer c src m.seq m.slot m.pool 0 0 trapCreditTimeout)
      (bumpC c Reg.CREDIT_REFUSED (bumpC c Reg.CREDIT_OVERSIZE u))
    else if 64 ≤ (poolOf (s.core c) m.pool).queue.length then
      post (creditAnswer c src m.seq m.slot m.pool 0 0 trapCreditTimeout) (bumpC c Reg.CREDIT_REFUSED u)
    else u.modCore c fun k => setPool k m.pool { poolOf (s.core c) m.pool with
      queue := (poolOf (s.core c) m.pool).queue ++ [⟨src, m.seq, m.slot, m.k⟩] } := by
  obtain ⟨hcap, hslot⟩ := hok
  simp [takeCreditReq, hr, poolCap_received hr, poolCfg_received hr, core_received hr, hcap, hslot]

theorem takeCreditReq_queued (hk : m.k ≤ poolCap s c m.pool) (hroom : (poolOf (s.core c) m.pool).queue.length < 64) :
    takeCreditReq src c s = u.modCore c fun k => setPool k m.pool { poolOf (s.core c) m.pool with
      queue := (poolOf (s.core c) m.pool).queue ++ [⟨src, m.seq, m.slot, m.k⟩] } := by
  rw [takeCreditReq_eq hr hok, if_neg (Nat.not_lt.mpr hk), if_neg (Nat.not_le.mpr hroom)]

theorem takeCreditReq_oversize (hk : poolCap s c m.pool < m.k) :
    takeCreditReq src c s = post (creditAnswer c src m.seq m.slot m.pool 0 0 trapCreditTimeout)
      (bumpC c Reg.CREDIT_REFUSED (bumpC c Reg.CREDIT_OVERSIZE u)) :=
  (takeCreditReq_eq hr hok).trans (if_pos hk)

theorem takeCreditReq_full (hk : m.k ≤ poolCap s c m.pool) (hfull : 64 ≤ (poolOf (s.core c) m.pool).queue.length) :
    takeCreditReq src c s =
      post (creditAnswer c src m.seq m.slot m.pool 0 0 trapCreditTimeout) (bumpC c Reg.CREDIT_REFUSED u) := by
  rw [takeCreditReq_eq hr hok, if_neg (Nat.not_lt.mpr hk), if_pos hfull]

end

section
variable {c : CoreId} {pool : Nat} {s : State} {r : PoolReq} {rest : List PoolReq}
  (hq : (poolOf (s.core c) pool).queue = r :: rest)
include hq

theorem grantHead_granted (hk : r.k ≤ (poolOf (s.core c) pool).avail) :
    grantHead c pool s = post (creditAnswer c r.src r.seq r.slot pool r.k (frameStamp s) 0)
      (s.modCore c fun k => setPool k pool
        ⟨(poolOf (s.core c) pool).avail - r.k, rest, (poolOf (s.core c) pool).grants ++ [⟨r.src, frameStamp s, r.k⟩]⟩) := by
  simp only [grantHead, hq, if_neg (Nat.not_lt.mpr hk)]

theorem grantHead_waits (hk : (poolOf (s.core c) pool).avail < r.k) : grantHead c pool s = s := by
  simp only [grantHead, hq, if_pos hk]

end

theorem refuseWaiting_refused {c : CoreId} {pool i : Nat} {s : State} {r : PoolReq}
    (hq : (poolOf (s.core c) pool).queue[i]? = some r) :
    refuseWaiting c pool i s = post (creditAnswer c r.src r.seq r.slot pool 0 0 trapCreditTimeout)
      (bumpC c Reg.CREDIT_REFUSED (s.modCore c fun k => setPool k pool
        { poolOf k pool with queue := (poolOf k pool).queue.eraseIdx i })) := by
  simp only [refuseWaiting, hq]
  rfl

section
variable {t : CoreId} {src : Agent} {m : Msg} {s u : State} {a : Active}
  (hr : s.receive .creditAns src (.core t) = some (m, u)) (hwait : findActive (s.core t) m.seq = some a)
include hr hwait

theorem takeCreditAns_refused (he : m.err ≠ 0) : takeCreditAns t src [] s = activeTrap t m.seq trapCreditTimeout u := by
  rw [← core_received hr] at hwait
  simp [takeCreditAns, hr, strike_nil, hwait, he]

/-- A grant goes into the ledger of the core that asked (R270). -/
theorem takeCreditAns_granted (he : m.err = 0) (hk : m.k ≠ 0) :
    takeCreditAns t src [] s = settle t (answered t m.seq
      (u.modCore t fun k => ledgerAdd k a.op.a ((iX a.op.w0).testBit 4) (iX a.op.w0 % 16) m.k m.stamp)) := by
  rw [← core_received hr] at hwait
  simp only [takeCreditAns, hr, strike_nil, hwait, he, hk, ne_eq, not_true, if_false]

end

/-! ### Signals (R251) -/

section
variable {src : Agent} {c : CoreId} {m : Msg} {s u : State} (hr : s.receive .signal src (.core c) = some (m, u))
include hr

/-- A signal that another device refused traps its sender while the frame that sent it runs. -/
theorem takeSignal_refused (he : m.err ≠ 0) : takeSignal src c s =
    if m.slot = (s.core c).slot && m.stamp % 256 == (s.core c).cur.toNat % 256 && (s.core c).issue != .unplaced then
      seqTrap c m.err (s.core c).pc 0 u else u := by
  simp only [takeSignal, hr, core_received hr, if_pos he]

theorem takeSignal_arrives (he : m.err = 0) :
    takeSignal src c s = settle c (applySignal c (m.idx % 16) m.k (m.stamp % 256) m.slot u) := by
  simp only [takeSignal, hr, he, ne_eq, not_true, if_false]

end

/-! ### Gate counts at the collector (R232) -/

section
variable {o : Nat} (h : o ≠ Reg.MEM_CFG) (v : Word) (s : State)
include h

/-- The ways across the mesh turn on no register but MEM_CFG (R332). -/
theorem stopOf_setReg (addr : Nat) (a : Agent) : stopOf (s.setReg o v) addr a = stopOf s addr a := by
  simp only [stopOf, memPlace, reg_setReg_ne v s h.symm]

theorem wayOf_setReg (m : Msg) : wayOf (s.setReg o v) m = wayOf s m := by
  simp only [wayOf, stopOf_setReg h]

theorem sameWay_setReg : sameWay (s.setReg o v) = sameWay s := by
  funext a b
  unfold sameWay
  rw [wayOf_setReg h, wayOf_setReg h]

/-- A message is taken before or after such a register is written, to the same end. -/
theorem takeMsg_setReg (p : Msg → Bool) :
    (s.setReg o v).takeMsg p = (s.takeMsg p).map fun r => (r.1, r.2.setReg o v) := by
  simp only [State.takeMsg, setReg_net, sameWay_setReg h]
  cases takeFirst p s.net with
  | none => rfl
  | some x =>
    dsimp only
    rw [apply_ite (Option.map _)]
    rfl

theorem receive_setReg_none {k : MsgKind} {src dst : Agent} (hr : s.receive k src dst = none) :
    (s.setReg o v).receive k src dst = none :=
  (takeMsg_setReg h v s _).trans (congrArg (Option.map _) hr)

end

theorem gateStat_ne_memCfg (k g : Nat) : Reg.GATE_STAT + 0x200 * (k % 8) + 8 * (g % 64) ≠ Reg.MEM_CFG := by
  simp only [Reg.GATE_STAT, Reg.MEM_CFG]
  omega

theorem takeGateReport_none {c : CoreId} {s : State} (hr : s.receive .gateReport (.core c) .sys = none) (n : Nat) :
    takeGateReport c n s = s := by
  cases n with
  | zero => rfl
  | succ n => simp only [takeGateReport, hr]

/-- A report of one message adds its counts. -/
theorem takeGateReport_one {c : CoreId} {m : Msg} {s u : State} (hr : s.receive .gateReport (.core c) .sys = some (m, u))
    (hlast : u.receive .gateReport (.core c) .sys = none) (n : Nat) :
    takeGateReport c (n + 1) s = addGateStat (m.slot % 8) (m.idx % 64) m.k m.stamp u := by
  simp only [takeGateReport, hr]
  exact takeGateReport_none (receive_setReg_none (gateStat_ne_memCfg m.slot m.idx) _ u hlast) n

end Sys2Proof.Machine

/-- Settles O51: row by row, each clause is the lemma for its outcome; a message taken leaves the cores and registers, so the
clauses' tests on `s` are those that the row makes on `u`. -/
theorem remoteResults : Obligations.RemoteResults := by
  intro src c m s u
  refine ⟨?read, ?write, ?readAnswer, ?writeAnswer, ?request, ?grant, ?timeout, ?creditAnswer, ?refusedSignal, ?signal, ?gates⟩
  case read =>
    intro hr t t' r
    exact ⟨fun ht => congrArg Host.Outcome.next (serveRead_refused hr ht),
      fun ht he => congrArg Host.Outcome.next (serveRead_uncorrectable hr ht he),
      fun ht he => congrArg Host.Outcome.next (serveRead_served hr ht he)⟩
  case write =>
    intro hr hreach
    refine ⟨fun hgrant => congrArg Host.Outcome.next (applyWrite_stale hr hreach hgrant), ?_⟩
    intro p hgrant v t cd
    exact ⟨fun ht => congrArg Host.Outcome.next (applyWrite_refused hr hreach hgrant ht),
      fun ht hpool hcd => congrArg Host.Outcome.next (applyWrite_commitOrder hr hreach hgrant ht hpool hcd),
      fun ht hpool hcd hsrc => congrArg Host.Outcome.next (applyWrite_applied hr hreach hgrant ht hpool hcd hsrc)⟩
  case readAnswer =>
    intro a hr hwait
    exact ⟨fun he => congrArg Host.Outcome.next (takeReadRsp_failed hwait hr he),
      fun he => congrArg Host.Outcome.next (takeReadRsp_written hwait hr he)⟩
  case writeAnswer => exact fun a hr hwait => congrArg Host.Outcome.next (takeWriteAck_waiting hwait hr)
  case request =>
    intro hr p ok
    exact ⟨fun hok hk hroom => congrArg Host.Outcome.next (takeCreditReq_queued hr hok hk hroom),
      fun hok hk => congrArg Host.Outcome.next (takeCreditReq_oversize hr hok hk),
      fun hok hk hfull => congrArg Host.Outcome.next (takeCreditReq_full hr hok hk hfull)⟩
  case grant =>
    intro pool r rest hq p
    exact ⟨fun hk => congrArg Host.Outcome.next (grantHead_granted hq hk),
      fun hk => congrArg Host.Outcome.next (grantHead_waits hq hk)⟩
  case timeout => exact fun pool i r hq => congrArg Host.Outcome.next (refuseWaiting_refused hq)
  case creditAnswer =>
    intro t a hr hwait
    exact ⟨fun he => congrArg Host.Outcome.next (takeCreditAns_refused hr hwait he),
      fun he hk => congrArg Host.Outcome.next (takeCreditAns_granted hr hwait he hk)⟩
  case refusedSignal => exact fun hr he => congrArg Host.Outcome.next (takeSignal_refused hr he)
  case signal => exact fun hr he => congrArg Host.Outcome.next (takeSignal_arrives hr he)
  case gates =>
    intro hr hlast o v
    rw [show v = u.reg o from (reg_received hr o).symm]
    exact congrArg Host.Outcome.next (takeGateReport_one hr hlast 63)
end

section
/-! SUPPORT. The matrix array (R169 to R189, R199, R212 to R219, R229, R275, R276): what WLOAD, the products, ACC_INIT, ACC_DRAIN
and PART answer once their checks have passed. -/

open Sys2Proof Sys2Proof.Machine Sys2Proof.Safety

namespace Sys2Proof.Machine

/-! ### Operands of an instruction of two words -/

section
variable {c : CoreId} {m : Mn} {w w1 : Word} {s : State}

/-- The operands of an instruction of two words are the values of its line and count registers at issue (R245, R265). -/
theorem issuedOp_long (h : Ready c m w w1 s) (hm : m ∈ longMns) :
    (issuedOp c m w w1 s).a = rdS (s.core c) (lRa w) ∧ (issuedOp c m w w1 s).b = rdS (s.core c) (lRb w) ∧
      (issuedOp c m w w1 s).c = rdS (s.core c) (lRc w) ∧ (issuedOp c m w w1 s).n = rdS (s.core c) (lRn w) := by
  have hlong : iLong w = true := (ready_long h).trans (decide_eq_true hm)
  have hsigr : m ≠ .sigr := fun e => absurd (e ▸ hm) (by decide)
  simp [issuedOp, capture, hlong, hsigr]

end

/-! ### Counting leaves the cores alone -/

section
variable (n : Nat) (c : CoreId) (s : State)

theorem raiseN_setCore (e : Nat) (k : CoreSt) : raiseN n e (s.setCore c k) = (raiseN n e s).setCore c k := by
  induction n generalizing e s with
  | zero => rfl
  | succ n ih =>
    have hpend (s : State) : (s.setCore c k).setPend e = (s.setPend e).setCore c k := rfl
    have hreg (o : Nat) (v : Word) (s : State) : (s.setCore c k).setReg o v = (s.setReg o v).setCore c k := rfl
    have hemit (o : Out) (s : State) : (s.setCore c k).emit o = (s.emit o).setCore c k := rfl
    have his (s : State) : (s.setCore c k).isPend e = s.isPend e := rfl
    simp only [raiseN, his, hpend, reg_setCore, setCore_pcie, hreg, hemit, ih]
    (repeat' split) <;> rfl

theorem bumpN_setCore (o : Nat) (k : CoreSt) : bumpN o n (s.setCore c k) = (bumpN o n s).setCore c k := by
  have hreg (v : Word) : (s.setCore c k).setReg o v = (s.setReg o v).setCore c k := rfl
  simp only [bumpN, reg_setCore, hreg, raise, raiseN_setCore]
  (repeat' split) <;> rfl

/-- A count and a change of a core may change places. -/
theorem bumpN_modCore (o : Nat) (f : CoreSt → CoreSt) : bumpN o n (s.modCore c f) = (bumpN o n s).modCore c f := by
  rw [State.modCore, State.modCore, bumpN_setCore, bumpN_core]

end

/-! ### Writes of lines leave the array alone -/

section
variable (c : CoreId) (i j : Nat) (s : State)

@[simp] theorem shelfWrite_array (d : DLine) : ((shelfWrite c i j d s).core c).array = (s.core c).array := by
  unfold shelfWrite
  simp only [core_ite, core_modCore, core_send, spadWrite]
  (repeat' split) <;> rfl

@[simp] theorem shelfWriteN_array (l : List DLine) : ((shelfWriteN c i j l s).core c).array = (s.core c).array := by
  induction l generalizing j s with
  | nil => rfl
  | cons d l ih => rw [shelfWriteN, ih, shelfWrite_array]

@[simp] theorem arrayFailed_writeBits (n bits : Nat) (poison : Nat → Bool) :
    arrayFailed (writeBits c i j n bits poison s) c = arrayFailed s c := by
  simp [arrayFailed, writeBits]

end

/-! ### WLOAD (R171, R212, R213, R229) -/

/-- The array takes a WLOAD (R171, R266): operands and format pass, the partition exists, and one of four partitions takes an 8-bit
MX tile in the packed mode only. -/
structure LoadOk (a : ArraySt) (o : Op) : Prop where
  running : a.stopped = false
  lineA : upperZero o.a = true
  lineC : upperZero o.c = true
  count : upperZero o.n = true
  set : fld o.w1 6 5 ≠ 3
  fmt : arrayFmt (fld o.w1 4 0) = true
  notFp32 : fld o.w1 8 7 = 1 → fmtClass (fld o.w1 4 0) ≠ 0
  part : fld o.w1 25 24 < partCount a.mode
  notMx : fld o.w1 8 7 = 1 ∨ a.mode ≠ 2 ∨ fmtMx (fld o.w1 4 0) = false ∨ fmtClass (fld o.w1 4 0) ≠ 2

/-- The weight set that a WLOAD loads. -/
def loadedSet (a : ArraySt) (o : Op) : Nat := (pickSet a (fld o.w1 6 5) true).getD 0

section
variable {c : CoreId} {o : Op} {s : State}

section
variable {a : ArraySt} (ha : (s.core c).array = a) (h : LoadOk a o)
include ha h

/-- Past the checks that all modes share, a WLOAD is the load of its mode. -/
theorem startWload_ok : startWload c o s =
    (let f := fld o.w1 4 0
     let q := fld o.w1 25 24
     let set := loadedSet a o
     if fld o.w1 8 7 = 0 then
       if fld o.w1 15 9 = 0 || fld o.w1 15 9 > 64 || fld o.w1 23 16 > kLimit f a.mode then .trap trapArrayShape 0 s
       else wloadDense c o f q set s
     else if fld o.w1 8 7 = 3 then wloadGated c o f q set s
     else if bitOf o.w1 26 then wloadTransposed c o f q set s
     else wloadPacked c o f (fld o.w1 8 7) q set s) := by
  obtain ⟨hrun, hA, hC, hN, hset, hfmt, hfp, hpart, hmx⟩ := h
  have hFmt : ¬(!arrayFmt (fld o.w1 4 0) || (fld o.w1 8 7 = 1 && fmtClass (fld o.w1 4 0) = 0)) = true := by
    simpa [hfmt] using hfp
  have hShape : ¬(fld o.w1 25 24 ≥ partCount a.mode ||
      (fld o.w1 8 7 ≠ 1 && a.mode = 2 && fmtMx (fld o.w1 4 0) && fmtClass (fld o.w1 4 0) = 2)) = true := by
    rcases hmx with h | h | h | h <;> simp [hpart, h]
  unfold startWload
  simp only [ha, hrun, hA, hC, hN, hset, if_neg hFmt, if_neg hShape]
  rfl

theorem startWload_dense (hmode : fld o.w1 8 7 = 0) (hpos : 0 < fld o.w1 15 9) (hwide : fld o.w1 15 9 ≤ 64)
    (hrows : fld o.w1 23 16 ≤ kLimit (fld o.w1 4 0) a.mode) :
    startWload c o s = wloadDense c o (fld o.w1 4 0) (fld o.w1 25 24) (loadedSet a o) s := by
  have hShape : ¬(fld o.w1 15 9 = 0 || fld o.w1 15 9 > 64 || fld o.w1 23 16 > kLimit (fld o.w1 4 0) a.mode) = true := by
    simp only [gt_iff_lt, Bool.or_eq_true, decide_eq_true_eq]
    omega
  rw [startWload_ok ha h]
  simp only [if_pos hmode, if_neg hShape]

theorem startWload_gated (hmode : fld o.w1 8 7 = 3) :
    startWload c o s = wloadGated c o (fld o.w1 4 0) (fld o.w1 25 24) (loadedSet a o) s := by
  rw [startWload_ok ha h]
  simp [hmode]

section
variable (hmode : fld o.w1 8 7 = 1 ∨ fld o.w1 8 7 = 2)
include hmode

theorem startWload_transposed (hT : bitOf o.w1 26 = true) :
    startWload c o s = wloadTransposed c o (fld o.w1 4 0) (fld o.w1 25 24) (loadedSet a o) s := by
  rw [startWload_ok ha h]
  rcases hmode with hmode | hmode <;> simp [hmode, hT]

theorem startWload_packed (hplain : bitOf o.w1 26 = false) :
    startWload c o s = wloadPacked c o (fld o.w1 4 0) (fld o.w1 8 7) (fld o.w1 25 24) (loadedSet a o) s := by
  rw [startWload_ok ha h]
  rcases hmode with hmode | hmode <;> simp [hmode, hplain]

end

end

/-- A load whose lines were all correctable installs its set, scaled and marked by what its scale lines hold. -/
theorem finishLoad_installs {q set k : Nat} {t : WSet} :
    let z := shelfReadN c (lSc o.w0) (low32 o.c) 7 (wScaleLines t.fmt k) s
    z.2.1 = false → finishLoad c o q set t k false s =
      .done (installSet c q set { t with scale := scaleBytes z.1, poison := t.poison || anyPoison z.1 } z.2.2) := by
  intro z hz
  simp [finishLoad, hz, z]

/-- The weight set of a dense tile whose lines are `r` and whose scale lines are `z`. -/
def denseSet (f nLen rows mode : Nat) (r z : List DLine) : WSet :=
  let bits := r.foldr (fun l acc => l.data.toNat + 2 ^ 512 * acc) 0
  { mode := 0, fmt := f, nLen := nLen, expand := 1, chk := [], scale := scaleBytes z, poison := anyPoison r || anyPoison z,
    nonfinite := false,
    w := ((List.range rows).map fun i => (List.range nLen).map fun n => some ((bits >>> weightBit f i n) % 2 ^ fmtBits f)) ++
      zeroRows f mode rows nLen }

/-- A dense tile within its shelf, read without an uncorrectable line, is installed. -/
theorem wloadDense_installs {f q set : Nat} :
    let rows := fld o.w1 23 16
    let r := shelfReadN c (lSa o.w0) (low32 o.a) 7 (tileLines f rows) s
    let z := shelfReadN c (lSc o.w0) (low32 o.c) 7 (wScaleLines f rows) r.2.2
    runCheck s c (lSa o.w0) (low32 o.a) (tileLines f rows) = 0 →
    runCheck s c (lSc o.w0) (low32 o.c) (wScaleLines f rows) = 0 → r.2.1 = false → z.2.1 = false →
    wloadDense c o f q set s =
      .done (installSet c q set (denseSet f (fld o.w1 15 9) rows (s.core c).array.mode r.1 z.1) z.2.2) := by
  intro rows r z hr0 hz0 hr hz
  have hcodes : firstCode [runCheck s c (lSa o.w0) (low32 o.a) (tileLines f rows),
      runCheck s c (lSc o.w0) (low32 o.c) (wScaleLines f rows)] = 0 := by
    rw [hr0, hz0]; rfl
  simp only [rows] at hcodes
  simp only [r, rows] at hr
  simp only [wloadDense, hcodes, hr]
  exact finishLoad_installs hz

/-- The weight set of a packed tile with header `h` and weights `t`, in the packed (1) or the expanded (2) mode of WLOAD. -/
def packedSet (f mode pm : Nat) (h : TileHdr) (t : List (List (Option Nat))) (poison : Bool) (z : List DLine) : WSet :=
  { mode := mode, fmt := f, nLen := h.nLen, expand := 8 / h.n, chk := [], scale := scaleBytes z,
    poison := poison || anyPoison z, nonfinite := false,
    w := if mode = 1 then t else t.map (fun row => row.map fun e => some (e.getD 0)) ++ zeroRows f pm h.rows h.nLen }

/-- The weights of a packed tile: those of a structured tile whose codes ascend, or of a variable or dense packed one. -/
def TileWeights (f : Nat) (h : TileHdr) (payload : Nat) (t : List (List (Option Nat))) : Prop :=
  (h.pack = 0 → codesOk f h.n h.nLen payload = true ∧ t = expandStruct f h.n h.nLen h.rows payload) ∧
    (h.pack ≠ 0 → expandVar f h payload = some t)

/-- A packed weight tile that fits its mode, read without an uncorrectable line, is installed. -/
theorem wloadPacked_installs {f mode q set : Nat} {h : TileHdr} {t : List (List (Option Nat))} (hmode : mode = 1 ∨ mode = 2)
    (hrole : h.role = 0)
    (hstruct : mode = 1 → h.pack = 0 ∧ h.rows ≤ peRows (s.core c).array.mode * (8 / h.n) * (if fmtClass f = 3 then 2 else 1))
    (hexpand : mode = 2 → h.rows ≤ kLimit f (s.core c).array.mode)
    (hz0 : runCheck s c (lSc o.w0) (low32 o.c) (wScaleLines f h.rows) = 0) :
    let r := readTile c (lSa o.w0) (low32 o.a) f 7 s
    let z := shelfReadN c (lSc o.w0) (low32 o.c) 7 (wScaleLines f h.rows) r.2
    r.1.2.1 = some h → r.1.2.2.2.2 = false → TileWeights f h r.1.2.2.1 t → z.2.1 = false →
    wloadPacked c o f mode q set s =
      .done (installSet c q set (packedSet f mode (s.core c).array.mode h t r.1.2.2.2.1 z.1) z.2.2) := by
  intro r z hhdr hr ⟨hcodes, hvar⟩ hz
  have hform : ¬(h.role ≠ 0 || (mode = 1 && h.pack ≠ 0)) = true := by
    simpa [hrole] using fun hm => (hstruct hm).1
  have hfits : ¬h.rows > (if mode = 1 then peRows (s.core c).array.mode * (8 / h.n) * (if fmtClass f = 3 then 2 else 1)
      else kLimit f (s.core c).array.mode) := by
    rcases hmode with rfl | rfl
    · exact Nat.not_lt.mpr (hstruct rfl).2
    · exact Nat.not_lt.mpr (hexpand rfl)
  have hascend : ¬(h.pack = 0 && !codesOk f h.n h.nLen r.1.2.2.1) = true := by
    simpa using fun hp => (hcodes hp).1
  have hweights : (if h.pack = 0 then some (expandStruct f h.n h.nLen h.rows r.1.2.2.1) else expandVar f h r.1.2.2.1) =
      some t := by
    split
    case isTrue hp => rw [(hcodes hp).2]
    case isFalse hp => exact hvar hp
  simp only [r] at hhdr hr hascend hweights
  unfold wloadPacked
  simp only [hhdr, if_neg hform, if_neg hfits, hz0, if_neg hascend, hweights, hr]
  exact finishLoad_installs hz

end

/-- A WLOAD that nothing holds up comes to what the array answers. -/
theorem exec_wload {c : CoreId} {w w1 : Word} {s : State} (h : Ready c .wload w w1 s) :
    exec (.wload c []) s = .next (ran c (s.core c).pc w (issued c .wload w w1 s)
      (startWload c (issuedOp c .wload w w1 s) (issued c .wload w w1 s))) := by
  rw [exec_ran h rfl rfl, startOp, issuedOp_mn]

end Sys2Proof.Machine

/-- Settles O24: past the checks that all modes share, the load of each mode reads its lines and installs the set they hold. -/
theorem weightLoadResults : Obligations.WeightLoadResults := by
  intro c w w1 s hready k u o a cc f mode q set hrun hA hC hN hset hfmt hfp hpart hmx
  have hw0 : o.w0 = w := issuedOp_w0 c .wload w w1 s
  have hw1 : o.w1 = w1 := issuedOp_w1 c .wload w w1 s
  obtain ⟨ha, -, hc, hn⟩ : o.a = rdS k (lRa w) ∧ o.b = _ ∧ o.c = rdS k (lRc w) ∧ o.n = rdS k (lRn w) :=
    issuedOp_long hready (by decide)
  have harr : (u.core c).array = k.array := issued_array c .wload w w1 s
  have hload : LoadOk k.array o :=
    ⟨hrun, by rwa [ha], by rwa [hc], by rwa [hn], by rwa [hw1], by rwa [hw1], by rwa [hw1], by rwa [hw1], by rwa [hw1]⟩
  have hloaded : loadedSet k.array o = set := by rw [loadedSet, hw1]
  rw [exec_wload hready]
  refine ⟨?dense, ?packed, ?transposed, ?gated⟩
  case dense =>
    intro nLen rows r z bits hmode hpos hwide hrows hr0 hz0 hr hz
    have hstart := startWload_dense harr hload (by rwa [hw1]) (by rwa [hw1]) (by rwa [hw1]) (by rwa [hw1])
    have hdone := wloadDense_installs (c := c) (o := o) (s := u) (f := f) (q := q) (set := set)
    simp only [hw0, hw1, ha, hc, harr, u, issued_runCheck] at hdone
    rw [hw1, hloaded] at hstart
    rw [hstart, hdone hr0 hz0 hr hz]
    rfl
  case packed =>
    intro h t r z hmode hplain hhdr hr hrole hstruct hexpand hz0 hcodes hvar hz
    have hstart := startWload_packed harr hload (by rwa [hw1]) (by rwa [hw1])
    have hdone := wloadPacked_installs (c := c) (o := o) (s := u) (f := f) (q := q) (set := set) (t := t) hmode hrole
      (by rwa [harr]) (by rwa [harr]) (by rwa [hw0, hc, issued_runCheck])
    rw [hw0, ha, hc, harr] at hdone
    rw [hw1, hloaded] at hstart
    rw [hstart, hdone hhdr hr ⟨hcodes, hvar⟩ hz]
    rfl
  case transposed =>
    intro hmode hT
    have hstart := startWload_transposed harr hload (by rwa [hw1]) (by rwa [hw1])
    rw [hw1, hloaded] at hstart
    rw [hstart]
  case gated =>
    intro hmode
    have hstart := startWload_gated harr hload (by rwa [hw1])
    rw [hw1, hloaded] at hstart
    rw [hstart]
end

section
/-! SUPPORT. ACC_INIT, ACC_DRAIN and PART (R177, R178, R182, R276): what the array answers once their checks have passed. -/

open Sys2Proof Sys2Proof.Machine Sys2Proof.Safety

namespace Sys2Proof.Machine

section
variable {c : CoreId} {o : Op} {s : State} {a : ArraySt} (ha : (s.core c).array = a) (hrun : a.stopped = false)

section
variable (hA : upperZero o.a = true) (hB : upperZero o.b = true) (hN : upperZero o.n = true)
include ha hrun hA hB hN

/-- ACC_INIT on rows of a bank gives the bank its vectors and the rows their initial state, and makes the bank current. -/
theorem startAccInit_done (hbank : fld o.w1 1 0 ≠ 3) (hrows : fld o.w1 11 2 + low32 o.n ≤ 1024) :
    let la := if lOptB o.w0 0 then 4 else 0
    let lb := if lOptB o.w0 1 then 4 else 0
    let bk := (pickBank a (fld o.w1 1 0) true).getD 0
    let i := shelfReadN c (lSa o.w0) (low32 o.a) 3 la s
    let v := shelfReadN c (lSb o.w0) (low32 o.b) 3 lb i.2.2
    let bi : BankInit := ⟨bitOf o.w1 12, if lOptB o.w0 0 then fourLines i.1 else List.replicate 64 0,
      if lOptB o.w0 1 then fourLines v.1 else List.replicate 64 0x3F800000#32, anyPoison i.1 || anyPoison v.1⟩
    runCheck s c (lSa o.w0) (low32 o.a) la = 0 → runCheck s c (lSb o.w0) (low32 o.b) lb = 0 → i.2.1 = false → v.2.1 = false →
    startAccInit c o s = .done (modArray c (fun x =>
      let x := if bk = 0 then { x with bank0 := some bi } else { x with bank1 := some bi }
      { x with curBank := some bk,
               acc := loopN (low32 o.n) (fun j st => sput (1024 * bk + fld o.w1 11 2 + j) accInitRow st) x.acc }) v.2.2) := by
  intro la lb bk i v bi hi0 hv0 hi hv
  have hRange : ¬(!(upperZero o.a && upperZero o.b && upperZero o.n) || fld o.w1 1 0 = 3) = true := by
    simp [hA, hB, hN, hbank]
  have hShape : ¬(low32 o.n > 1024 || fld o.w1 11 2 + low32 o.n > 1024) = true := by
    simp only [gt_iff_lt, Bool.or_eq_true, decide_eq_true_eq]
    omega
  have hcodes : firstCode [runCheck s c (lSa o.w0) (low32 o.a) la, runCheck s c (lSb o.w0) (low32 o.b) lb] = 0 := by
    rw [hi0, hv0]; rfl
  have hread : ¬(i.2.1 || v.2.1) = true := by simp [hi, hv]
  subst ha
  unfold startAccInit
  exact (if_neg (by rw [hrun]; decide)).trans ((if_neg hRange).trans ((if_neg hShape).trans
    ((if_neg (not_not.mpr hcodes)).trans (if_neg hread))))

/-- Past the checks that both forms share, an ACC_DRAIN is the drain of its form. -/
theorem startAccDrain_ok (hC : upperZero o.c = true) (hbank : fld o.w1 6 5 ≠ 3) (hfmt : arrayFmt (fld o.w1 4 0) = true)
    {bk : Nat} (hpick : pickBank a (fld o.w1 6 5) false = some bk) (hn : low32 o.n ≤ 1024)
    (hrows : bitOf o.w1 19 = false → fld o.w1 16 7 + low32 o.n ≤ 1024) :
    startAccDrain c o s =
      if bitOf o.w1 19 then drainGated c o bk (fld o.w1 4 0) s else drainPlain c o bk (fld o.w1 4 0) s := by
  have hRange : ¬(!(upperZero o.a && upperZero o.b && upperZero o.c && upperZero o.n) || fld o.w1 6 5 = 3) = true := by
    simp [hA, hB, hC, hN, hbank]
  have hShape : ¬(low32 o.n > 1024 || (!bitOf o.w1 19 && fld o.w1 16 7 + low32 o.n > 1024)) = true := by
    simpa [hn] using hrows
  unfold startAccDrain
  simp only [ha, hrun, if_neg hRange, hfmt, hpick, if_neg hShape]
  rfl

end

/-- A plain drain within its shelves whose rows pass their tests, and that meets no uncorrectable line, writes its rows, their
scales and, where asked, the rows touched. -/
theorem drainPlain_done (bk f : Nat) :
    let n := low32 o.n
    let bm := bitOf o.w1 18
    let lines := drainLines f n
    let r := drainRows c bk f (bitOf o.w1 17) n (fld o.w1 16 7) ⟨[], [], [], [], false⟩ s
    let bad (i : Nat) : Bool := (r.1.bad[i]?).getD false
    let t := writeRange c (lSc o.w0) 4
      (fun i => let x := rowsOfLine f i; (List.range (x.2 + 1 - x.1)).any fun j => bad (x.1 + j)) (lines + 1) (low32 o.c) 0 0
      (if fmt6 f then 512 * lines else 64 * fmtBits f * n) (packEls (64 * fmtBits f) r.1.bits) r.2
    let v := writeRange c (lSa o.w0) 4 (fun i => (List.range 32).any fun j => bad (32 * i + j)) (n + 1) (low32 o.a) 0 0
      (if fmtMx f then 16 * n else 0) (packEls 16 (r.1.sc.map (packEls 8))) t.2
    let written := if bm then
      writeBits c (lSb o.w0) (low32 o.b) (cdiv n 512) (packEls 1 (r.1.touch.map b2n)) (fun _ => false) v.2 else v.2
    writeCheck s c o.seq (lSc o.w0) (low32 o.c) lines = 0 →
    writeCheck s c o.seq (lSa o.w0) (low32 o.a) (drainScaleLines f n) = 0 →
    writeCheck s c o.seq (lSb o.w0) (low32 o.b) (if bm then cdiv n 512 else 0) = 0 →
    t.1 = false → v.1 = false → r.1.trap = false → arrayFailed v.2 c = false →
    drainPlain c o bk f s = .done written := by
  intro n bm lines r bad t v written hrows0 hscales0 htouch0 ht hv htrap hfailed
  have hend : arrayFailed written c = false := by
    simp only [written]
    split
    · rw [arrayFailed_writeBits, hfailed]
    · exact hfailed
  have hcodes : firstCode [writeCheck s c o.seq (lSc o.w0) (low32 o.c) lines,
      writeCheck s c o.seq (lSa o.w0) (low32 o.a) (drainScaleLines f n),
      writeCheck s c o.seq (lSb o.w0) (low32 o.b) (if bm then cdiv n 512 else 0)] = 0 := by
    rw [hrows0, hscales0, htouch0]; rfl
  have hread : ¬(t.1 || v.1) = true := by simp [ht, hv]
  have hpassed : ¬(r.1.trap || arrayFailed written c) = true := by
    simp [htrap, hend]
  unfold drainPlain
  exact (if_neg (not_not.mpr hcodes)).trans ((if_neg hread).trans (if_neg hpassed))

include ha hrun in
/-- PART sets the partition mode and what its partitions contain, and leaves no weight set and no mask register. -/
theorem startPart_done (hmode : fld o.w0 33 32 ≠ 3) :
    startPart c o s = .done (s.modCore c fun k => { k with gm := [], array := { k.array with
      mode := fld o.w0 33 32, contain := fld o.w0 37 34, sets := [], curSet := none, curBank := none } }) := by
  unfold startPart
  simp only [ha, hrun, hmode]
  rfl

end

section
variable {c : CoreId} {w w1 : Word} {s : State}

theorem exec_accInit (h : Ready c .accInit w w1 s) : exec (.accInit c []) s = .next (ran c (s.core c).pc w
    (issued c .accInit w w1 s) (startAccInit c (issuedOp c .accInit w w1 s) (issued c .accInit w w1 s))) := by
  rw [exec_ran h rfl rfl, startOp, issuedOp_mn]

theorem exec_accDrain (h : Ready c .accDrain w w1 s) : exec (.accDrain c []) s = .next (ran c (s.core c).pc w
    (issued c .accDrain w w1 s) (startAccDrain c (issuedOp c .accDrain w w1 s) (issued c .accDrain w w1 s))) := by
  rw [exec_ran h rfl rfl, startOp, issuedOp_mn]

theorem exec_part (h : Ready c .part w w1 s) : exec (.part c []) s = .next (ran c (s.core c).pc w
    (issued c .part w w1 s) (startPart c (issuedOp c .part w w1 s) (issued c .part w w1 s))) := by
  rw [exec_ran h rfl rfl, startOp, issuedOp_mn]

end

end Sys2Proof.Machine

/-- Settles O26: past their checks, ACC_INIT and PART are one change of the array, and ACC_DRAIN is the drain of its form. -/
theorem accumulatorResults : Obligations.AccumulatorResults := by
  intro c w w1 s k a b cc n upper
  refine ⟨?init, ?plain, ?gated, ?part⟩
  case init =>
    intro u r0 isInt la lb bk i v bi hready hrun ⟨hA, hB, hN⟩ hbank hrows hi0 hv0 hi hv
    obtain ⟨ha, hb, -, hn⟩ := issuedOp_long hready (by decide)
    have hdone := startAccInit_done (c := c) (s := u) (issued_array c .accInit w w1 s) hrun (by rwa [ha]) (by rwa [hb])
      (by rwa [hn])
    simp only [issuedOp_w0, issuedOp_w1, ha, hb, hn, u, issued_runCheck] at hdone
    rw [exec_accInit hready, hdone hbank hrows hi0 hv0 hi hv]
    rfl
  case plain =>
    intro bk u f r0 bm lines r bad t v hready hrun ⟨hA, hB, hN⟩ hC hbank hfmt hpick hrows hform hrows0 hscales0 htouch0 ht hv
      htrap hfailed
    obtain ⟨ha, hb, hc, hn⟩ := issuedOp_long hready (by decide)
    have hstart := startAccDrain_ok (c := c) (s := u) (issued_array c .accDrain w w1 s) hrun (by rwa [ha]) (by rwa [hb])
      (by rwa [hn]) (by rwa [hc])
    have hdone := drainPlain_done (c := c) (o := issuedOp c .accDrain w w1 s) (s := u) bk f
    simp only [issuedOp_w0, issuedOp_w1, issuedOp_seq, ha, hb, hc, hn, u,
      issued_writeCheck (show Mn.accDrain ≠ .commit by decide)] at hstart hdone
    rw [exec_accDrain hready, hstart hbank hfmt hpick (le_of_add_le_right hrows) (fun _ => hrows),
      if_neg (by rw [hform]; decide), hdone hrows0 hscales0 htouch0 ht hv htrap hfailed]
    rfl
  case gated =>
    intro bk hready hrun ⟨hA, hB, hN⟩ hC hbank hfmt hpick hrows hform
    obtain ⟨ha, hb, hc, hn⟩ := issuedOp_long hready (by decide)
    have hstart := startAccDrain_ok (c := c) (issued_array c .accDrain w w1 s) hrun (by rwa [ha]) (by rwa [hb])
      (by rwa [hn]) (by rwa [hc])
    simp only [issuedOp_w1, hn] at hstart
    rw [exec_accDrain hready, hstart hbank hfmt hpick hrows (fun h => absurd (h.symm.trans hform) (by decide)), if_pos hform]
  case part =>
    intro hready hrun hmode
    rw [exec_part hready, startPart_done (issued_array c .part w w1 s) hrun (by rwa [issuedOp_w0]), issuedOp_w0]
    rfl
end

section
/-! SUPPORT. The products of the matrix array (R169, R170, R172, R173, R185, R186, R199, R214, R219, R275): a product whose checks
pass forms its rows, and what the array answers behind them. -/

open Sys2Proof Sys2Proof.Machine Sys2Proof.Safety

namespace Sys2Proof.Machine

/-! ### The end of a product -/

/-- What the array answers behind the rows of a product: a trap where a check of a row has failed (R172, R183). -/
def behindRows (c : CoreId) (t : State) : Start := if arrayFailed t c then checkTrap c t else .done t

theorem ran_behindRows (c : CoreId) (pc : Nat) (w : Word) (u t : State) :
    ran c pc w u (behindRows c t) = productEnded c pc w t := by
  unfold behindRows productEnded
  split <;> rfl

/-- A product of at least one row, none of them cut short or read from an uncorrectable line. -/
theorem endProduct_behindRows {c : CoreId} {p : Prod} {r0 n : Nat} {e : RunEnd} (hn : 0 < n) (hcode : e.1 = 0)
    (hread : e.2.1 = false) : endProduct c p r0 n e = behindRows c (afterProduct c p e.2.2) := by
  by_cases hk : p.kLen = 0 <;> simp [endProduct, behindRows, afterProduct, hcode, hread, hn.ne', hk]

/-! ### Rows of a product -/

section
variable {c : CoreId} {o : Op} {kind : Nat} {g : Bool} {s : State}

/-- Past its checks a product of the array `a` runs. -/
theorem startProduct_ok {a : ArraySt} {b : Nat} {ws : WSet × WSet} (ha : (s.core c).array = a)
    (h : ProductOk a o kind g b ws) :
    startProduct c o kind g s = productRun c o kind g (productOf a o kind b ws.1 ws.2) s := by
  obtain ⟨hrun, hargs, hbank, hwide, hgated, hsets, hfit⟩ := h
  simp [startProduct, ha, hrun, hargs, hbank, hwide, hgated, hsets, hfit]

variable {p : Prod}

/-- A product of no rows does nothing. -/
theorem productRun_none (hn : low32 o.n = 0) : productRun c o kind g p s = .done s := by
  simp [productRun, hn]

/-- A product on gathered records or on consecutive rows, its input no packed tile, forms its rows. -/
theorem productRun_rows (hn : 0 < low32 o.n)
    (htile : kind = 0 ∨ kind = 3 →
      (if g then tileAt c (lSb o.w0) 0 p.f s else tileAt c (lSa o.w0) (low32 o.a) p.f s) = false)
    (hruns : ProductRunsOk c o g p s) :
    productRun c o kind g p s = endProduct c p (fld o.w1 18 9) (low32 o.n) (productRows c o g p s) := by
  have hplain : ((kind == 0 || kind == 3) &&
      (if g then tileAt c (lSb o.w0) 0 p.f s else tileAt c (lSa o.w0) (low32 o.a) p.f s)) = false := by
    by_cases hk : kind = 0 ∨ kind = 3
    · rw [htile hk, Bool.and_false]
    · obtain ⟨h0, h3⟩ := not_or.mp hk
      simp [h0, h3]
  unfold productRun
  simp only [hplain, hn.ne']
  cases g with
  | true => rfl
  | false =>
    obtain hg | ⟨hlines, hscales⟩ := hruns
    · cases hg
    · simp only [hlines, hscales]
      rfl

/-- MM on a packed input tile forms the rows that the tile holds. -/
theorem productRun_tile {h : TileHdr} {rs : List (List Nat × Bool)} (hn : 0 < low32 o.n)
    (htile : tileAt c (lSa o.w0) (low32 o.a) p.f s = true)
    (hhdr : (readTile c (lSa o.w0) (low32 o.a) p.f 3 s).1.2.1 = some h) (hrole : h.role = 1) (hrows : low32 o.n ≤ h.rows)
    (hscales : runCheck s c (lSc o.w0) (low32 o.c) (inScaleLines p.f (low32 o.n)) = 0)
    (hrs : tileRows p.f h (readTile c (lSa o.w0) (low32 o.a) p.f 3 s).1.2.2.1 = some rs) :
    productRun c o 0 false p s =
      (let t := readTile c (lSa o.w0) (low32 o.a) p.f 3 s
       endProduct c p (fld o.w1 18 9) (low32 o.n) (runPacked c o p t.1.2.2.2.1 (fld o.w1 18 9) (productSpan o false)
         (rs.take (low32 o.n)) 0 t.1.2.2.2.2 t.2)) := by
  have hrun : productRun c o 0 false p s = productTile c o false p s := by
    simp [productRun, hn.ne', htile]
  rw [hrun]
  simp [productTile, hhdr, hrole, hrows, hscales, hrs]

end

/-! ### MMS also counts in MMS_ROW_CNT -/

/-- The rows that a product has counted since `u` in ARRAY_ROW_CNT, counted in MMS_ROW_CNT as well. -/
def countMmsRows (c : CoreId) (u t : State) : State :=
  bumpN (coreOff Reg.MMS_ROW_CNT c)
    ((t.reg (coreOff Reg.ARRAY_ROW_CNT c)).toNat % 2 ^ 48 - (u.reg (coreOff Reg.ARRAY_ROW_CNT c)).toNat % 2 ^ 48) t

/-- MMS counts its rows where its product has formed them, before the trap of a failed check too. -/
theorem startMms_behindRows {c : CoreId} {o : Op} {s t : State}
    (h : startProduct c o 3 (lOptB o.w0 0) s = behindRows c t) : startMms c o s = behindRows c (countMmsRows c s t) := by
  have hfailed : arrayFailed (countMmsRows c s t) c = arrayFailed t c := by
    rw [arrayFailed, countMmsRows, bumpN_core, arrayFailed]
  have htrapped (f : ArraySt → ArraySt) : countMmsRows c s (modArray c f t) = modArray c f (countMmsRows c s t) :=
    bumpN_modCore _ c t _ _
  unfold startMms
  rw [h, behindRows, behindRows, hfailed]
  cases arrayFailed t c with
  | false => rfl
  | true => exact congrArg (Start.trap trapArrayCheck 0) (htrapped _)

/-! ### A product that issues -/

section
variable {c : CoreId} {m : Mn} {w w1 : Word} {s : State} {kind b : Nat} {g : Bool} {ws : WSet × WSet}

theorem ProductRunsOk_issued {o : Op} {p : Prod} (h : ProductRunsOk c o g p s) : ProductRunsOk c o g p (issued c m w w1 s) := by
  simpa [ProductRunsOk] using h

/-- A product of at least one row on gathered records or on consecutive rows, right after its issue. -/
theorem startProduct_issued_rows :
    let u := issued c m w w1 s
    let o := issuedOp c m w w1 s
    let p := productOf (s.core c).array o kind b ws.1 ws.2
    let e := productRows c o g p u
    ProductOk (s.core c).array o kind g b ws → 0 < low32 o.n →
    (kind = 0 ∨ kind = 3 → (if g then tileAt c (lSb w) 0 p.f u else tileAt c (lSa w) (low32 o.a) p.f u) = false) →
    ProductRunsOk c o g p s → e.1 = 0 → e.2.1 = false →
    startProduct c o kind g u = behindRows c (afterProduct c p e.2.2) := by
  intro u o p e hok hn htile hruns hcode hread
  have hw0 : o.w0 = w := issuedOp_w0 c m w w1 s
  rw [startProduct_ok (issued_array c m w w1 s) hok, productRun_rows hn (by rwa [hw0]) (ProductRunsOk_issued hruns),
    endProduct_behindRows hn hcode hread]

end

/-! ### The commands -/

section
variable {c : CoreId} {w w1 : Word} {s : State}

theorem exec_mm (h : Ready c .mm w w1 s) : exec (.mm c []) s = .next (ran c (s.core c).pc w (issued c .mm w w1 s)
    (startMm c (issuedOp c .mm w w1 s) (issued c .mm w w1 s))) := by
  rw [exec_ran h rfl rfl, startOp, issuedOp_mn]

theorem exec_mmg (h : Ready c .mmg w w1 s) : exec (.mmg c []) s = .next (ran c (s.core c).pc w (issued c .mmg w w1 s)
    (startMmg c (issuedOp c .mmg w w1 s) (issued c .mmg w w1 s))) := by
  rw [exec_ran h rfl rfl, startOp, issuedOp_mn]

theorem exec_mms (h : Ready c .mms w w1 s) : exec (.mms c []) s = .next (ran c (s.core c).pc w (issued c .mms w w1 s)
    (startMms c (issuedOp c .mms w w1 s) (issued c .mms w w1 s))) := by
  rw [exec_ran h rfl rfl, startOp, issuedOp_mn]

theorem exec_mmp (h : Ready c .mmp w w1 s) : exec (.mmp c []) s = .next (ran c (s.core c).pc w (issued c .mmp w w1 s)
    (startMmp c (issuedOp c .mmp w w1 s) (issued c .mmp w w1 s))) := by
  rw [exec_ran h rfl rfl, startOp, issuedOp_mn]

end

end Sys2Proof.Machine

/-- Settles O25: past its checks each product forms its rows and ends behind them; MMS adds its count, which no trap disturbs. -/
theorem productResults : Obligations.ProductResults := by
  intro c w w1 s b ws k counted
  refine ⟨?mm, ?tile, ?mmg, ?mms, ?mmp, ?none⟩
  case mm =>
    intro u o p e hready hok hn htile hruns hcode hread
    rw [exec_mm hready, startMm, startProduct_issued_rows hok hn (fun _ => htile) hruns hcode hread, ran_behindRows]
  case tile =>
    intro h rs u o p t e hready hok hn htile hhdr hrole hrows hscales hrs hcode hread
    have hw0 : o.w0 = w := issuedOp_w0 c .mm w w1 s
    have hw1 : o.w1 = w1 := issuedOp_w1 c .mm w w1 s
    have hrun := productRun_tile (c := c) (s := u) (o := o) (p := p) hn (by rwa [hw0]) (by rwa [hw0]) hrole hrows
      (by rwa [hw0, issued_runCheck]) (by rwa [hw0])
    rw [hw0, hw1] at hrun
    rw [exec_mm hready, startMm, startProduct_ok (issued_array c .mm w w1 s) hok, hrun, endProduct_behindRows hn hcode hread,
      ran_behindRows]
  case mmg =>
    intro u o p e hready hok hn htile hcode hread
    rw [exec_mmg hready, startMmg, startProduct_issued_rows hok hn (fun _ => htile) (.inl rfl) hcode hread, ran_behindRows]
  case mms =>
    intro u o g p e hready hok hn htile hruns hcode hread
    have hw0 : o.w0 = w := issuedOp_w0 c .mms w w1 s
    have hrows := startProduct_issued_rows hok hn (fun _ => htile) hruns hcode hread
    rw [exec_mms hready, startMms_behindRows (by rw [hw0]; exact hrows), ran_behindRows]
    rfl
  case mmp =>
    intro u o g kind p e hready hok hn hruns hcode hread
    have hw0 : o.w0 = w := issuedOp_w0 c .mmp w w1 s
    have hw1 : o.w1 = w1 := issuedOp_w1 c .mmp w w1 s
    have hkind : ¬(kind = 0 ∨ kind = 3) := by
      simp only [kind]
      split <;> decide
    have hrows := startProduct_issued_rows hok hn (fun hk => absurd hk hkind) hruns hcode hread
    rw [exec_mmp hready, startMmp, hw0, hw1, hrows, ran_behindRows]
  case none =>
    intro o hready hok hn
    rw [exec_mm hready, startMm, startProduct_ok (issued_array c .mm w w1 s) hok, productRun_none hn]
    rfl
end

section
/-! SUPPORT. The vector unit's instructions on its registers (Tables 14.7 and 14.8, R197, R201, R277): what it answers for them. -/

open Sys2Proof Sys2Proof.Machine Sys2Proof.Safety

namespace Sys2Proof.Machine

/-! ### Vector registers right after an issue -/

section
variable (c : CoreId) (m : Mn) (w w1 : Word) (s : State) (d : Nat)

@[simp] theorem issued_rdV : rdV ((issued c m w w1 s).core c) d = rdV (s.core c) d := by
  simp only [rdV, issued_v]

@[simp] theorem issued_getV : getV (issued c m w w1 s) c d = getV s c d := by
  simp [getV]

@[simp] theorem issued_vPoison : vPoison ((issued c m w w1 s).core c) d = vPoison (s.core c) d := by
  simp [vPoison]

end

/-! ### Instructions that their unit answers at once -/

section
variable {c : CoreId} {m : Mn} {w w1 : Word} {s t : State} {i : Instr} (unit : CoreId → Op → State → Start)
  (h : Ready c m w w1 s) (hi : exec i s = .next (issueStep c [] (some m) s)) (hc : isControl m = false)
  (hu : ∀ (o : Op) (u : State), startOp c { o with mn := m } u = unit c { o with mn := m } u)

include hu in
theorem startOp_unit {o : Op} (hmn : o.mn = m) (u : State) : startOp c o u = unit c o u := by
  subst hmn
  exact hu o u

include h hi hc hu

/-- A queue instruction that nothing holds up comes to what the function of its row answers. -/
theorem exec_unit : exec i s = .next (ran c (s.core c).pc w (issued c m w w1 s)
    (unit c (issuedOp c m w w1 s) (issued c m w w1 s))) := by
  rw [exec_ran h hi hc, startOp_unit unit hu (issuedOp_mn c m w w1 s)]

theorem exec_done (ht : unit c (issuedOp c m w w1 s) (issued c m w w1 s) = .done t) : exec i s = .next (retire c w t) := by
  rw [exec_unit unit h hi hc hu, ht]
  rfl

theorem exec_trapped {code arg : Nat} (ht : unit c (issuedOp c m w w1 s) (issued c m w w1 s) = .trap code arg t) :
    exec i s = .next (trappedAt c code arg (s.core c).pc w t) := by
  rw [exec_unit unit h hi hc hu, ht]
  rfl

end

/-! ### Lane operations, reductions and extracts -/

section
variable {c : CoreId} {o : Op} {s : State}

/-- VALU below CVT: lane by lane, with the poison of `b` where the function has a second operand (Table 14.8). -/
theorem startValu_lanes (hfn : iX o.w0 % 32 < 13) : startValu c o s =
    .done (putV c (iD o.w0) (List.zipWith (valuFn ((iX o.w0).testBit 5) (iX o.w0 % 32)) (getV s c (iA o.w0)) (getV s c (iB o.w0)))
      (vPoison (s.core c) (iA o.w0) || (decide (iX o.w0 % 32 < 11) && vPoison (s.core c) (iB o.w0))) s) := by
  have hbinary : (!decide (iX o.w0 % 32 = 11 ∨ iX o.w0 % 32 = 12 ∨ iX o.w0 % 32 = 13)) = decide (iX o.w0 % 32 < 11) := by
    rw [← decide_not, decide_eq_decide]
    omega
  simp only [startValu, hbinary, if_neg hfn.ne]

section
variable (hfn : iX o.w0 % 32 = 13)
include hfn

theorem startValu_ofInt (hint : (iX o.w0).testBit 5 = false) : startValu c o s =
    .done (putV c (iD o.w0) ((getV s c (iA o.w0)).map fun x => laneOf (fofInt x.toInt)) (vPoison (s.core c) (iA o.w0)) s) := by
  simp [startValu, hfn, hint]

theorem startValu_toInt (hint : (iX o.w0).testBit 5 = true) : startValu c o s =
    .done (putV c (iD o.w0) ((getV s c (iA o.w0)).map fun x => (f32toInt x).1) (vPoison (s.core c) (iA o.w0))
      (countConv c (((getV s c (iA o.w0)).map f32toInt).foldl (fun k r => k.plus r.2) .zero) s)) := by
  simp [startValu, hfn, hint, Function.comp_def]

end

/-- What VRED folds its tree with: a sum, a maximum or a minimum (R277). -/
def vredFn (isInt : Bool) (op : Nat) : BitVec 32 → BitVec 32 → BitVec 32 :=
  if op = 0 then laneAdd isInt
  else if op = 1 then (if isInt then intMinmax true else f32minmax true)
  else if isInt then intMinmax false else f32minmax false

theorem startVred_reduces : startVred c o s = .done (wrS c (iD o.w0) (laneExt ((iX o.w0).testBit 5)
    (reduceTree (vredFn ((iX o.w0).testBit 5) (iX o.w0 % 4)) (getV s c (iA o.w0)))) s) := by
  unfold startVred vredFn
  split
  case h_1 h => simp only [h, if_pos]
  case h_2 h => simp only [h, one_ne_zero, if_neg, not_false_eq_true, if_pos]
  case h_3 h0 h1 => simp only [if_neg h0, if_neg h1]

theorem startVext_lane (hb : o.b.toNat ≤ 63) : startVext c o s = .done (wrS c (iD o.w0)
    (laneExt ((iX o.w0).testBit 5) (lane (rdV (s.core c) (iA o.w0)) o.b.toNat)) s) :=
  if_neg (Nat.not_lt.mpr hb)

theorem startVext_beyond (hb : 63 < o.b.toNat) : startVext c o s = .trap trapRange 0 s :=
  if_pos hb

end

end Sys2Proof.Machine

/-- Settles O22: each instruction comes to what its unit answers, and its issue has left the vector registers and their poison
marks alone; VBCAST and VEXT go by whether their scalar operand is in range. -/
theorem vectorResults : Obligations.VectorResults := by
  intro c w w1 s
  dsimp only
  refine ⟨?lanes, ?ofInt, ?toInt, ?fma, ?special, ?reduce, ?broadcast, ?extract, ?beyond⟩
  case lanes =>
    intro hready hfn
    rw [exec_done startValu hready rfl rfl (fun _ _ => rfl) (startValu_lanes (by rwa [issuedOp_w0]))]
    simp only [issuedOp_w0, issued_getV, issued_vPoison]
  case ofInt =>
    intro hready hfn hint
    rw [exec_done startValu hready rfl rfl (fun _ _ => rfl) (startValu_ofInt (by rwa [issuedOp_w0]) (by rwa [issuedOp_w0]))]
    simp only [issuedOp_w0, issued_getV, issued_vPoison]
  case toInt =>
    intro hready hfn hint
    rw [exec_done startValu hready rfl rfl (fun _ _ => rfl) (startValu_toInt (by rwa [issuedOp_w0]) (by rwa [issuedOp_w0]))]
    simp only [issuedOp_w0, issued_getV, issued_vPoison]
  case fma =>
    intro hready
    rw [exec_done startVfma hready rfl rfl (fun _ _ => rfl) rfl]
    simp only [issuedOp_w0, issued_getV, issued_vPoison]
  case special =>
    intro hready
    rw [exec_done startVsf hready rfl rfl (fun _ _ => rfl) rfl]
    simp only [issuedOp_w0, issued_getV, issued_vPoison]
  case reduce =>
    intro hready
    rw [exec_done startVred hready rfl rfl (fun _ _ => rfl) startVred_reduces]
    simp only [issuedOp_w0, issued_getV]
    rfl
  case broadcast =>
    intro hready
    have ha : (issuedOp c .vbcast w w1 s).a = rdS (s.core c) (iA w) := by rw [ready_short hready (by decide) (by decide)]
    rw [exec_unit startVbcast hready rfl rfl (fun _ _ => rfl), startVbcast, issuedOp_w0, ha]
    cases upperZero (rdS (s.core c) (iA w)) <;> rfl
  case extract =>
    intro hready hb
    have hop : (issuedOp c .vext w w1 s).b = rdS (s.core c) (iB w) := by rw [ready_short hready (by decide) (by decide)]
    rw [exec_done startVext hready rfl rfl (fun _ _ => rfl) (startVext_lane (by rwa [hop]))]
    simp only [issuedOp_w0, hop, issued_rdV]
  case beyond =>
    intro hready hb
    have hop : (issuedOp c .vext w w1 s).b = rdS (s.core c) (iB w) := by rw [ready_short hready (by decide) (by decide)]
    exact exec_trapped startVext hready rfl rfl (fun _ _ => rfl) (startVext_beyond (by rwa [hop]))
end

section
/-! SUPPORT. The vector unit's instructions on the scratchpad (R198, R278, R279): what VLD, VST, VCVT and ARGMAX answer once their
checks have passed. -/

open Sys2Proof Sys2Proof.Machine Sys2Proof.Safety

namespace Sys2Proof.Machine

/-! ### Checks -/

theorem firstCode_eq_zero {l : List Nat} (h : ∀ x ∈ l, x = 0) : firstCode l = 0 := by
  induction l with
  | nil => rfl
  | cons x l ih =>
    obtain ⟨rfl, hl⟩ := List.forall_mem_cons.mp h
    exact ih hl

/-- A check that is made of MX formats only passes where it passes for them. -/
theorem mxCheck_passes {mx : Bool} {code : Nat} (h : mx = true → code = 0) : (if mx then code else 0) = 0 := by
  cases mx with
  | false => rfl
  | true => exact h rfl

/-- VCVT's additional line register is captured with the others (Table 14.1). -/
theorem issuedOp_vcvt_x {c : CoreId} {w w1 : Word} {s : State} (h : Ready c .vcvt w w1 s) :
    (issuedOp c .vcvt w w1 s).x = rdS (s.core c) (fld w1 20 16) := by
  have hlong : iLong w = true := (ready_long h).trans (by decide)
  simp [issuedOp, capture, hlong]

/-! ### Values -/

/-- The lanes that VLD makes of elements and block scales, with what their conversion counts (R198, R278). -/
def loadedLanes (f comp : Nat) (els scs : List Nat) : List (BitVec 32) × ConvCount :=
  if f = 15 then lanesF32 (els.map fun x => fxVal x comp)
  else if fmtInt f then (els.map fun x => BitVec.ofInt 32 (intElem f x), .zero)
  else if f = 0 then (els.map (BitVec.ofNat 32), .zero)
  else lanesF32 (elVals f els scs)

/-- What VCVT makes of the elements and block scales of format `f`: elements and block scales of format `g`, and what both
roundings count (R198, R278). -/
def convertedEls (f g flags : Nat) (els scs : List Nat) : List Nat × List Nat × ConvCount :=
  let vals := cvtVals f els scs
  let mx := if fmtMx g then lanesF32 vals else ([], .zero)
  let vs := if fmtMx g then mx.1.map f32 else vals
  let ws := (triples vs).mapIdx fun j t => fxWord (if f = 15 then ((els[j]?).getD 0) >>> 60 else flags) t
  let v : List Nat × List Nat × ConvCount :=
    if g = 15 then (ws.map (·.1), [], ws.foldl (fun k w => k.plus w.2) .zero) else convVals g vs
  (v.1, v.2.1, v.2.2.plus mx.2)

/-! ### VLD, VST, VCVT and ARGMAX -/

section
variable {c : CoreId} {o : Op} {s : State} (hA : upperZero o.a = true) (hN : upperZero o.n = true)
include hA hN

/-- ARGMAX writes a record for each row and fills its last line. -/
theorem startArgmax_writes :
    let f := fld o.w1 4 0
    let l := fld o.w1 21 5
    let n := low32 o.n
    let rl := cdiv (l * fmtBits f) 512
    let lines := cdiv n 8
    let r := argRows c o f l rl n 0 s
    upperZero o.c = true → n ≤ 1048575 → l ≤ 65536 → selectFmt f = true →
    runCheck s c (lSa o.w0) (low32 o.a) (n * rl) = 0 → writeCheck s c o.seq (lSc o.w0) (low32 o.c) lines = 0 →
    r.2.1 = false →
    startArgmax c o s = .done (writeBits c (lSc o.w0) (low32 o.c) lines
      (packEls 64 (r.1.map (·.1) ++ List.replicate (8 * lines - n) (fillRec f)))
      (fun i => ((r.1.drop (8 * i)).take 8).any (·.2)) r.2.2) := by
  intro f l n rl lines r hC hn hl hfmt hrows hlines hread
  have hRange : ¬(!(upperZero o.a && upperZero o.c && upperZero o.n) || n > 1048575 || l > 65536) = true := by
    simp [hA, hC, hN, hn, hl]
  have hFmt : ¬(!selectFmt f) = true := by simp [hfmt]
  have hcodes : firstCode [runCheck s c (lSa o.w0) (low32 o.a) (n * rl), writeCheck s c o.seq (lSc o.w0) (low32 o.c) lines] = 0 :=
    firstCode_eq_zero (by simp [hrows, hlines])
  have hpassed : ¬r.2.1 = true := by simp [hread]
  unfold startArgmax
  exact (if_neg hRange).trans ((if_neg hFmt).trans ((if_neg (not_not.mpr hcodes)).trans (if_neg hpassed)))

variable (hB : upperZero o.b = true)
include hB

/-- VLD loads the lanes of its elements. -/
theorem startVld_loads :
    let f := fld o.w1 4 0
    let comp := fld o.w1 6 5
    let e := low32 o.n
    let b := fmtBits f
    let p := bitLines (b * e) (b * 64)
    let sp := bitLines (8 * (e / 32)) 16
    let r := readEls c (lSa o.w0) (low32 o.a) 5 b e 64 s
    let q := if fmtMx f then readEls c (lSb o.w0) (low32 o.b) 5 8 (e / 32) 2 r.2.2.2 else ([], false, false, r.2.2.2)
    let lanes := loadedLanes f comp r.1 q.1
    f ≤ 15 → (f = 15 → comp ≠ 3) → (fmtMx f = true → e % 32 = 0) → runCheck s c (lSa o.w0) (low32 o.a + p.1) p.2 = 0 →
    (fmtMx f = true → runCheck s c (lSb o.w0) (low32 o.b + sp.1) sp.2 = 0) → r.2.2.1 = false → q.2.2.1 = false →
    startVld c o s = .done (putV c (lRd o.w0) lanes.1 (r.2.1 || q.2.1) (countConv c lanes.2 q.2.2.2)) := by
  intro f comp e b p sp r q lanes hf hcomp hblock hels hscales hr hq
  have hRange : ¬(!(upperZero o.a && upperZero o.b && upperZero o.n) || (f = 15 && comp = 3) ||
      (fmtMx f && e % 32 ≠ 0)) = true := by
    simpa [hA, hB, hN] using And.intro hcomp hblock
  have hcodes : firstCode [runCheck s c (lSa o.w0) (low32 o.a + p.1) p.2,
      if fmtMx f then runCheck s c (lSb o.w0) (low32 o.b + sp.1) sp.2 else 0] = 0 :=
    firstCode_eq_zero (by simp only [List.forall_mem_cons]; exact ⟨hels, mxCheck_passes hscales, nofun⟩)
  have hread : ¬(r.2.2.1 || q.2.2.1) = true := by simp [hr, hq]
  unfold startVld
  exact (if_neg hRange).trans ((if_neg (Nat.not_lt.mpr hf)).trans ((if_neg (not_not.mpr hcodes)).trans (if_neg hread)))

/-- VST writes its lanes as elements, and for an MX format the two block scales. -/
theorem startVst_stores :
    let f := fld o.w1 4 0
    let e := low32 o.n
    let b := fmtBits f
    let p := bitLines (b * e) (b * 64)
    let sp := bitLines (8 * (e / 32)) 16
    let poison := vPoison (s.core c) (lRd o.w0)
    let v := convVals f ((getV s c (lRd o.w0)).map fun x => if fmtInt f then fofInt x.toInt else f32 x)
    let t := writeRange c (lSa o.w0) 6 (fun _ => poison) (p.2 + 1) (low32 o.a + p.1) 0 (b * e % 512) (b * 64)
      (packEls b v.1) (countConv c v.2.2 s)
    let x := if fmtMx f then writeRange c (lSb o.w0) 6 (fun _ => poison) 2 (low32 o.b + sp.1) 0 (8 * (e / 32) % 512) 16
      (packEls 8 v.2.1) t.2 else (false, t.2)
    f < 15 → (fmtMx f = true → e % 64 = 0) → writeCheck s c o.seq (lSa o.w0) (low32 o.a + p.1) p.2 = 0 →
    (fmtMx f = true → writeCheck s c o.seq (lSb o.w0) (low32 o.b + sp.1) sp.2 = 0) → t.1 = false → x.1 = false →
    startVst c o s = .done x.2 := by
  intro f e b p sp poison v t x hf hblock hels hscales ht hx
  have hRange : ¬(!(upperZero o.a && upperZero o.b && upperZero o.n) || (fmtMx f && e % 64 ≠ 0)) = true := by
    simpa [hA, hB, hN] using hblock
  have hcodes : firstCode [writeCheck s c o.seq (lSa o.w0) (low32 o.a + p.1) p.2,
      if fmtMx f then writeCheck s c o.seq (lSb o.w0) (low32 o.b + sp.1) sp.2 else 0] = 0 :=
    firstCode_eq_zero (by simp only [List.forall_mem_cons]; exact ⟨hels, mxCheck_passes hscales, nofun⟩)
  have hwritten : ¬t.1 = true := by simp [ht]
  unfold startVst
  refine (if_neg (Nat.not_le.mpr hf)).trans ((if_neg hRange).trans ((if_neg (not_not.mpr hcodes)).trans
    ((if_neg hwritten).trans ?_)))
  by_cases hmx : fmtMx f = true
  · simp only [x, if_pos hmx] at hx ⊢
    exact (if_pos hmx).trans (if_neg (by rw [hx]; decide))
  · simp only [x, if_neg hmx]
    exact if_neg hmx

/-- VCVT writes the converted elements, and for an MX destination their block scales. -/
theorem startVcvt_converts :
    let f := fld o.w1 4 0
    let g := fld o.w1 9 5
    let n := low32 o.n
    let nf := if g = 15 && f ≠ 15 then 3 * n else n
    let ng := if f = 15 && g ≠ 15 then 3 * n else n
    let lg := bitLines 0 (fmtBits g * ng)
    let r := readEls c (lSa o.w0) (low32 o.a) 5 (fmtBits f) 0 nf s
    let q := if fmtMx f then readEls c (lSb o.w0) (low32 o.b) 5 8 0 (nf / 32) r.2.2.2 else ([], false, false, r.2.2.2)
    let v := convertedEls f g (fld o.w1 24 21) r.1 q.1
    let t := writeRange c (lSc o.w0) 6 (fun _ => r.2.1 || q.2.1) (lg.2 + 1) (low32 o.c) 0 0 (fmtBits g * ng)
      (packEls (fmtBits g) v.1) (countConv c v.2.2 q.2.2.2)
    let x := if fmtMx g then writeRange c (fld o.w1 15 10) 6 (fun _ => r.2.1 || q.2.1) (cdiv v.2.1.length 64 + 1) (low32 o.x) 0 0
      (8 * v.2.1.length) (packEls 8 v.2.1) t.2 else (false, t.2)
    upperZero o.c = true → upperZero o.x = true → n ≤ 1048575 → f ≤ 15 → g ≤ 15 →
    (fmtMx f = true ∨ fmtMx g = true → n % 32 = 0) →
    runCheck s c (lSa o.w0) (low32 o.a) (bitLines 0 (fmtBits f * nf)).2 = 0 →
    (fmtMx f = true → runCheck s c (lSb o.w0) (low32 o.b) (cdiv (nf / 32) 64) = 0) →
    writeCheck s c o.seq (lSc o.w0) (low32 o.c) lg.2 = 0 →
    (fmtMx g = true → writeCheck s c o.seq (fld o.w1 15 10) (low32 o.x) (cdiv (cdiv ng 32) 64) = 0) →
    r.2.2.1 = false → q.2.2.1 = false → t.1 = false → x.1 = false →
    startVcvt c o s = .done x.2 := by
  intro f g n nf ng lg r q v t x hC hX hn hf hg hblock hels hscales hdst hdstScales hr hq ht hx
  have hRange : ¬(!(upperZero o.a && upperZero o.b && upperZero o.c && upperZero o.n && upperZero o.x) || n > 1048575 ||
      ((fmtMx f || fmtMx g) && n % 32 ≠ 0)) = true := by
    simpa [hA, hB, hC, hN, hX, hn] using hblock
  have hFmt : ¬(f > 15 || g > 15) = true := by simp [hf, hg]
  have hcodes : firstCode [runCheck s c (lSa o.w0) (low32 o.a) (bitLines 0 (fmtBits f * nf)).2,
      if fmtMx f then runCheck s c (lSb o.w0) (low32 o.b) (cdiv (nf / 32) 64) else 0,
      writeCheck s c o.seq (lSc o.w0) (low32 o.c) lg.2,
      if fmtMx g then writeCheck s c o.seq (fld o.w1 15 10) (low32 o.x) (cdiv (cdiv ng 32) 64) else 0] = 0 :=
    firstCode_eq_zero (by
      simp only [List.forall_mem_cons]
      exact ⟨hels, mxCheck_passes hscales, hdst, mxCheck_passes hdstScales, nofun⟩)
  have hread : ¬(r.2.2.1 || q.2.2.1) = true := by simp [hr, hq]
  have hwritten : ¬(t.1 || x.1) = true := by simp [ht, hx]
  unfold startVcvt
  exact (if_neg hRange).trans ((if_neg hFmt).trans ((if_neg (not_not.mpr hcodes)).trans ((if_neg hread).trans (if_neg hwritten))))

end

end Sys2Proof.Machine

/-- Settles O23: each instruction's operands are those its unit takes, its checks read nothing that its issue has changed, and past
them the unit answers by the lemma of its row. -/
theorem vectorMemoryResults : Obligations.VectorMemoryResults := by
  intro c w w1 s k a b cc n f bits p sp upper
  refine ⟨?vld, ?vst, ?vcvt, ?argmax⟩
  case vld =>
    intro u comp r q lanes hready ⟨hA, hB, hN⟩ hf hcomp hblock hels hscales hr hq
    obtain ⟨ha, hb, -, hn⟩ := issuedOp_long hready (by decide)
    have hdone := startVld_loads (c := c) (o := issuedOp c .vld w w1 s) (s := u) (by rwa [ha]) (by rwa [hn]) (by rwa [hb])
    simp only [issuedOp_w0, issuedOp_w1, ha, hb, hn, u, issued_runCheck] at hdone
    exact exec_done startVld hready rfl rfl (fun _ _ => rfl) (hdone hf hcomp hblock hels hscales hr hq)
  case vst =>
    intro u v poison t x hready ⟨hA, hB, hN⟩ hf hblock hels hscales ht hx
    obtain ⟨ha, hb, -, hn⟩ := issuedOp_long hready (by decide)
    have hdone := startVst_stores (c := c) (o := issuedOp c .vst w w1 s) (s := u) (by rwa [ha]) (by rwa [hn]) (by rwa [hb])
    simp only [issuedOp_w0, issuedOp_w1, issuedOp_seq, ha, hb, hn, u, issued_getV, issued_vPoison,
      issued_writeCheck (show Mn.vst ≠ .commit by decide)] at hdone
    exact exec_done startVst hready rfl rfl (fun _ _ => rfl) (hdone hf hblock hels hscales ht hx)
  case vcvt =>
    intro u g y nf ng lg r q vals mx vs ws v t x hready ⟨hA, hB, hN⟩ hC hX hcount hf hg hblock hels hscales hdst hdstScales
      hr hq ht hx
    obtain ⟨ha, hb, hc, hn⟩ := issuedOp_long hready (by decide)
    have hdone := startVcvt_converts (c := c) (o := issuedOp c .vcvt w w1 s) (s := u) (by rwa [ha]) (by rwa [hn]) (by rwa [hb])
    simp only [issuedOp_w0, issuedOp_w1, issuedOp_seq, ha, hb, hc, hn, issuedOp_vcvt_x hready, u, issued_runCheck,
      issued_writeCheck (show Mn.vcvt ≠ .commit by decide)] at hdone
    exact exec_done startVcvt hready rfl rfl (fun _ _ => rfl)
      (hdone hC hX hcount hf hg hblock hels hscales hdst hdstScales hr hq ht hx)
  case argmax =>
    intro u l rl lines r hready hA hC hN hcount hl hfmt hrows hlines hread
    obtain ⟨ha, -, hc, hn⟩ := issuedOp_long hready (by decide)
    have hdone := startArgmax_writes (c := c) (o := issuedOp c .argmax w w1 s) (s := u) (by rwa [ha]) (by rwa [hn])
    simp only [issuedOp_w0, issuedOp_w1, issuedOp_seq, ha, hc, hn, u, issued_runCheck,
      issued_writeCheck (show Mn.argmax ≠ .commit by decide)] at hdone
    exact exec_done startArgmax hready rfl rfl (fun _ _ => rfl) (hdone hC hcount hl hfmt hrows hlines hread)
end

section
/-! SUPPORT. PACK (R208, R209, R222, R280): what it writes once its checks have passed. -/

open Sys2Proof Sys2Proof.Machine Sys2Proof.Safety

namespace Sys2Proof.Machine

/-- Columns of a source row that PACK keeps: those of a weight tile's `nLen` columns, in the 4-bit class of two reduction rows. -/
def packCols (f role nLen : Nat) : Nat :=
  if role = 0 then (if fmtClass f == 3 then 2 * nLen else nLen) else rowElems f

/-- The rows of elements that PACK takes from the source bits `src`: zero beyond the kept columns. -/
def packRows (f role nLen n src : Nat) : List (List Nat) :=
  (List.range (if role = 0 && fmtClass f == 3 then cdiv n 2 else n)).map fun i => (List.range (rowElems f)).map fun e =>
    if e < packCols f role nLen then (src >>> srcBit f role i e) % 2 ^ fmtBits f else 0

/-- PACK's tile of `bytes` payload bytes in dense (`big`) or variable form, with its poisoned lines by `bad`, and its length
in s[rd]. -/
def packWritten (c : CoreId) (o : Op) (f role : Nat) (big : Bool) (bytes payload : Nat) (bad : Nat → Bool)
    (t : State) : State :=
  wrS c (lRd o.w0) (BitVec.ofNat 64 (16 + bytes))
    (writeBits c (lSc o.w0) (low32 o.c) (packedLines bytes)
      (hdrBits ⟨big, 1, 0, false, role, f, fld o.w1 13 7, low32 o.n, bytes⟩ + 2 ^ 128 * payload) bad t)

section
variable {c : CoreId} {o : Op} {s : State}

/-- Past the checks of operands and format, PACK is the form that word 1 names. -/
theorem startPack_ok (hA : upperZero o.a = true) (hB : upperZero o.b = true) (hC : upperZero o.c = true)
    (hN : upperZero o.n = true) (hfmt : arrayFmt (fld o.w1 4 0) = true)
    (hclass : bitOf o.w1 6 = true → fmtClass (fld o.w1 4 0) ≠ 0) :
    startPack c o s = if bitOf o.w1 6 then packRef c o (fld o.w1 4 0) s
      else packVar c o (fld o.w1 4 0) (fld o.w1 5 5) s := by
  have hRange : ¬(!(upperZero o.a && upperZero o.b && upperZero o.c && upperZero o.n)) = true := by simp [hA, hB, hC, hN]
  have hFmt : ¬(!arrayFmt (fld o.w1 4 0) || (bitOf o.w1 6 && fmtClass (fld o.w1 4 0) = 0)) = true := by
    simpa [hfmt] using hclass
  exact (if_neg hRange).trans (if_neg hFmt)

/-- PACK writes the dense payload where the variable form is longer, and the variable form otherwise (R209). -/
theorem packVar_packs {f role : Nat} :
    let n := low32 o.n
    let dense := densePayload f role n
    let r := shelfReadN c (lSa o.w0) (low32 o.a) 7 (srcLines f role n) s
    let src := r.1.foldr (fun l acc => l.data.toNat + 2 ^ 512 * acc) 0
    let els := packRows f role (fld o.w1 13 7) n src
    let v := varTileBits f els
    0 < n → n ≤ (if role = 0 then rowElems f else 1048575) → (role = 0 → 0 < fld o.w1 13 7 ∧ fld o.w1 13 7 ≤ 64) →
    runCheck s c (lSa o.w0) (low32 o.a) (srcLines f role n) = 0 →
    writeCheck s c o.seq (lSc o.w0) (low32 o.c) (packedLines dense) = 0 → r.2.1 = false →
    (v.2 / 8 ≤ dense → packVar c o f role s = .done (packWritten c o f role false (v.2 / 8) v.1
        (variableBad f role (packCols f role (fld o.w1 13 7)) r.1 els) r.2.2)) ∧
      (dense < v.2 / 8 → packVar c o f role s = .done (packWritten c o f role true dense (src % 2 ^ (8 * dense))
        (denseBad r.1 dense) (bumpC c Reg.PACK_DENSE_CNT r.2.2))) := by
  intro n dense r src els v hpos hlim hcols hread hwrite hecc
  have hRange : ¬(n = 0 || n > (if role = 0 then rowElems f else 1048575) ||
      (role = 0 && (fld o.w1 13 7 = 0 || fld o.w1 13 7 > 64))) = true := by
    simp only [Bool.or_eq_true, Bool.and_eq_true, decide_eq_true_eq]
    omega
  have hcodes : firstCode [runCheck s c (lSa o.w0) (low32 o.a) (srcLines f role n),
      writeCheck s c o.seq (lSc o.w0) (low32 o.c) (packedLines dense)] = 0 := firstCode_eq_zero (by simp [hread, hwrite])
  have hpassed : ¬r.2.1 = true := by simp [hecc]
  have hform : packVar c o f role s = .done (let big := decide (v.2 / 8 > dense)
      packWritten c o f role big (if big then dense else v.2 / 8) (if big then src % 2 ^ (8 * dense) else v.1)
        (if big then denseBad r.1 dense else variableBad f role (packCols f role (fld o.w1 13 7)) r.1 els)
        (if big then bumpC c Reg.PACK_DENSE_CNT r.2.2 else r.2.2)) := by
    unfold packVar
    exact (if_neg hRange).trans ((if_neg (not_not.mpr hcodes)).trans (if_neg hpassed))
  rw [hform]
  refine ⟨fun hshort => ?_, fun hlong => ?_⟩
  · rw [decide_eq_false (Nat.not_lt.mpr hshort)]
    rfl
  · rw [decide_eq_true hlong]
    rfl

end

end Sys2Proof.Machine

/-- Settles O27: past its checks PACK is the form that word 1 names, and the dense payload is written where the variable one is
longer. -/
theorem packResults : Obligations.PackResults := by
  intro c w w1 s hready k u o a cc n f role nLen dense lines r src four cols els v out hA hB hC hN hfmt hclass
  obtain ⟨ha, hb, hc, hn⟩ := issuedOp_long hready (by decide)
  have hform := startPack_ok (c := c) (o := o) (s := u) (by rwa [ha]) (by rwa [hb]) (by rwa [hc]) (by rwa [hn])
  simp only [o, issuedOp_w1] at hform
  refine ⟨fun hplain hpos hlim hcols hread hwrite hecc => ?plain, fun href => ?reference⟩
  case plain =>
    have hdone := packVar_packs (c := c) (o := o) (s := u) (f := f) (role := role)
    simp only [o, issuedOp_w0, issuedOp_w1, issuedOp_seq, packWritten, ha, hc, hn, u, issued_runCheck,
      issued_writeCheck (show Mn.pack ≠ .commit by decide)] at hdone
    obtain ⟨hvar, hdense⟩ := hdone hpos hlim hcols hread hwrite hecc
    have hplainForm := (hform hfmt hclass).trans (if_neg (by simp [hplain]))
    refine ⟨fun hshort => ?_, fun hlong => ?_⟩
    · exact exec_done startPack hready rfl rfl (fun _ _ => rfl) (hplainForm.trans (hvar hshort))
    · exact exec_done startPack hready rfl rfl (fun _ _ => rfl) (hplainForm.trans (hdense hlong))
  case reference =>
    rw [exec_unit startPack hready rfl rfl (fun _ _ => rfl), hform hfmt hclass, if_pos href]
end

section
/-! SUPPORT. MATCH (R223 to R225, R280): what its load and probe forms answer once their checks have passed. -/

open Sys2Proof Sys2Proof.Machine Sys2Proof.Safety

namespace Sys2Proof.Machine

/-! ### Reads of lines leave the key memory alone -/

section
variable (c : CoreId) (s : State)

theorem loseLoft_core (i : Nat) (d : CoreId) : (loseLoft c i s).core d = s.core d := by
  simp [loseLoft]

theorem loseParked_core (k i : Nat) (d : CoreId) : (loseParked c k i s).core d = s.core d := by
  simp [loseParked]

theorem queueRow_cam (p : Nat) : ((queueRow c p s).core c).cam = (s.core c).cam := by
  simp only [queueRow, repairFail, core_ite]
  (repeat' split) <;> simp [State.setF]

theorem uncorrectable_cam (p port : Nat) (d : BitVec 512) :
    ((uncorrectable c p port d s).core c).cam = (s.core c).cam := by
  unfold uncorrectable
  extract_lets s1 o cm pk s2 s3 s4 s5
  have hlog : s2.core c = s.core c := by simp [s2, s1]
  have hqueue : (s4.core c).cam = (s.core c).cam := by simp [s4, s3, queueRow_cam, hlog]
  have hlost : s5.core c = s4.core c := by
    simp only [s5]
    clear_value s4 cm pk
    split
    · exact loseLoft_core c s4 _ c
    · exact loseParked_core c s4 _ _ c
    · rfl
  simp [hlost, hqueue]

theorem corrected_cam (p : Nat) : ((corrected c p s).core c).cam = (s.core c).cam := by
  unfold corrected
  extract_lets s1 n s2
  have hnoted : (s2.core c).cam = (s.core c).cam := by simp [s2, s1]
  split
  · rw [queueRow_cam, hnoted]
  · exact hnoted

theorem spadRead_cam (p port : Nat) : ((spadRead c p port s).2.2.core c).cam = (s.core c).cam := by
  unfold spadRead
  extract_lets x l u s1 s2
  have hdrawn : (s1.core c).cam = (s.core c).cam := by simp [s1]
  have hcorr : (s2.core c).cam = (s.core c).cam := by
    simp only [s2]
    split
    · rw [corrected_cam, hdrawn]
    · exact hdrawn
  split
  · exact (uncorrectable_cam c s1 p port x).trans hdrawn
  · split
    · exact hcorr
    · split
      · exact hcorr
      · exact (uncorrectable_cam c s2 p port _).trans hcorr

theorem shelfReadN_cam (i j port n : Nat) : ((shelfReadN c i j port n s).2.2.core c).cam = (s.core c).cam := by
  induction n generalizing j s with
  | zero => rfl
  | succ n ih => rw [shelfReadN, ih, shelfRead, spadRead_cam]

end

/-! ### MATCH_LOAD -/

/-- The key memory after MATCH_LOAD of `n` keys from the lines `ls`: group `g` alone replaced in split mode, all groups filled in
joint mode; a group is poisoned with a line of its own (R223, R225). -/
def loadedCam (cam : CamSt) (split : Bool) (g n : Nat) (ls : List DLine) : CamSt :=
  let keys := ((keyWords ls).take n).mapIdx camKey
  let put (g : Nat) (ks : List CamKey) (st : Store (List CamKey)) := if ks.isEmpty then sdel g st else sput g ks st
  let groups := if split then put g keys (if cam.mode = 1 then [] else cam.groups)
    else loopN 4 (fun g st => put g ((keys.drop (256 * g)).take 256) st) []
  let poison := if split then
      (if anyPoison ls then [g] else []) ++ (if cam.mode = 1 then [] else cam.poison.filter (· != g))
    else (List.range 4).filter fun g => ((ls.drop (32 * g)).take 32).any (·.poison)
  ⟨if groups.isEmpty then 0 else if split then 2 else 1, groups, poison⟩

section
variable {c : CoreId} {o : Op} {s : State} (hA : upperZero o.a = true) (hN : upperZero o.n = true)
include hA hN

/-- MATCH_LOAD reads its lines and then fills the key memory from them. -/
theorem startMatchLoad_loads :
    let n := low32 o.n
    let r := shelfReadN c (lSa o.w0) (low32 o.a) 7 (cdiv n 8) s
    n ≤ (if lOptB o.w0 1 then 256 else 1024) → runCheck s c (lSa o.w0) (low32 o.a) (cdiv n 8) = 0 → r.2.1 = false →
    startMatchLoad c o s = .done (r.2.2.modCore c fun k =>
      { k with cam := loadedCam (s.core c).cam (lOptB o.w0 1) (fld o.w1 1 0) n r.1 }) := by
  intro n r hn hread hecc
  have hRange : ¬(!(upperZero o.a && upperZero o.n)) = true := by simp [hA, hN]
  have hpassed : ¬r.2.1 = true := by simp [hecc]
  rw [← shelfReadN_cam c s (lSa o.w0) (low32 o.a) 7 (cdiv n 8)]
  unfold startMatchLoad
  exact (if_neg hRange).trans ((if_neg (Nat.not_lt.mpr hn)).trans ((if_neg (not_not.mpr hread)).trans (if_neg hpassed)))

/-! ### MATCH_PROBE -/

section
variable (hC : upperZero o.c = true) (hpos : 0 < low32 o.n) (hmax : low32 o.n ≤ 1048576)
include hC hpos hmax

theorem probeOperands_inRange :
    ¬(!(upperZero o.a && upperZero o.c && upperZero o.n) || low32 o.n = 0 || low32 o.n > 1048576) = true := by
  simp [hA, hC, hN, hmax, Nat.ne_of_gt hpos]

/-- In joint mode MATCH_PROBE probes the keys of all groups together and writes one list of records. -/
theorem startMatchProbe_joint :
    let n := low32 o.n
    let d := fld o.w1 20 0
    let cam := (s.core c).cam
    let r := probeGroup c o (cam.groups.flatMap (·.2)) (low32 o.a) n d s
    let x := writeRecords c o (low32 o.c) r.1 (!cam.poison.isEmpty) r.1.bad r.2
    lOptB o.w0 1 = false → runCheck s c (lSa o.w0) (low32 o.a) (cdiv n 8) = 0 →
    writeCheck s c o.seq (lSc o.w0) (low32 o.c) d = 0 → r.1.ecc = false →
    startMatchProbe c o s = .done (wrS c (lRd o.w0) (BitVec.ofNat 64 x.1) x.2) := by
  intro n d cam r x hjoint hread hwrite hecc
  have hcodes : firstCode [runCheck s c (lSa o.w0) (low32 o.a + 0) (cdiv n 8),
      writeCheck s c o.seq (lSc o.w0) (low32 o.c + 0) d] = 0 := firstCode_eq_zero (by simp [hread, hwrite])
  have hpassed : ¬r.1.ecc = true := by simp [hecc]
  unfold startMatchProbe
  rw [hjoint]
  exact (if_neg (probeOperands_inRange hA hN hC hpos hmax)).trans
    ((if_neg (not_not.mpr hcodes)).trans ((if_neg Bool.false_ne_true).trans (if_neg hpassed)))

/-- In split mode MATCH_PROBE probes the groups that hold keys in step and writes a list of records for each. -/
theorem startMatchProbe_split :
    let n := low32 o.n
    let d := fld o.w1 20 0
    let stride := fld o.w1 41 21
    let cam := (s.core c).cam
    let q := probeSplit c o cam n d stride (List.range 4) s
    let y := writeSplit c o cam d (firstPoisoned q.1) q.1 q.2
    let count (i : Nat) : Nat := (y.1[i]?).getD 0
    lOptB o.w0 1 = true →
    (∀ g, g < 4 → (sget g cam.groups).isSome = true → runCheck s c (lSa o.w0) (low32 o.a + g * stride) (cdiv n 8) = 0 ∧
      writeCheck s c o.seq (lSc o.w0) (low32 o.c + g * d) d = 0) →
    (∀ p, p ∈ q.1 → p.2.ecc = false) →
    startMatchProbe c o s = .done (wrS c (lRd o.w0 + 1) (BitVec.ofNat 64 (count 2 + count 3 * 2 ^ 32))
      (wrS c (lRd o.w0) (BitVec.ofNat 64 (count 0 + count 1 * 2 ^ 32)) y.2)) := by
  intro n d stride cam q y count hsplit hchecks hecc
  have hcodes : firstCode (((List.range 4).filter fun g => (sget g cam.groups).isSome).flatMap fun g =>
      [runCheck s c (lSa o.w0) (low32 o.a + g * stride) (cdiv n 8),
        writeCheck s c o.seq (lSc o.w0) (low32 o.c + g * d) d]) = 0 := by
    refine firstCode_eq_zero fun code hcode => ?_
    obtain ⟨g, hg, hcode⟩ := List.mem_flatMap.mp hcode
    obtain ⟨hlt, hkeys⟩ := List.mem_filter.mp hg
    obtain ⟨hread, hwrite⟩ := hchecks g (List.mem_range.mp hlt) hkeys
    rcases List.mem_pair.mp hcode with rfl | rfl
    · exact hread
    · exact hwrite
  have hpassed : ¬(q.1.any (·.2.ecc)) = true := by simpa using hecc
  unfold startMatchProbe
  rw [hsplit]
  exact (if_neg (probeOperands_inRange hA hN hC hpos hmax)).trans
    ((if_neg (not_not.mpr hcodes)).trans ((if_pos rfl).trans (if_neg hpassed)))

end

end

end Sys2Proof.Machine

/-- Settles O28: past its checks each form is what its unit answers; the probe goes by joint or split mode, where every used group's
lists are checked. -/
theorem matchResults : Obligations.MatchResults := by
  intro c w w1 s k a cc n split
  refine ⟨?load, ?probe⟩
  case load =>
    intro u r keys g put groups bad hready hA hN hn hread hecc
    obtain ⟨ha, -, -, hcount⟩ := issuedOp_long hready (by decide)
    have hdone := startMatchLoad_loads (c := c) (o := issuedOp c .matchLoad w w1 s) (s := u) (by rwa [ha]) (by rwa [hcount])
    simp only [issuedOp_w0, issuedOp_w1, ha, hcount, u, issued_runCheck, issued_cam] at hdone
    exact exec_done startMatchLoad hready rfl rfl (fun _ _ => rfl) (hdone hn hread hecc)
  case probe =>
    intro u o d stride r x q y count hready hA hC hN hpos hmax
    obtain ⟨ha, -, hc, hcount⟩ := issuedOp_long hready (by decide)
    refine ⟨fun hjoint hread hwrite hecc => ?joint, fun hsplit hchecks hecc => ?split⟩
    case joint =>
      have hdone := startMatchProbe_joint (c := c) (o := o) (s := u) (by rwa [ha]) (by rwa [hcount]) (by rwa [hc])
        (by rwa [hcount]) (by rwa [hcount])
      simp only [o, issuedOp_w0, issuedOp_w1, issuedOp_seq, ha, hc, hcount, u, issued_runCheck, issued_cam,
        issued_writeCheck (show Mn.matchProbe ≠ .commit by decide)] at hdone
      exact exec_done startMatchProbe hready rfl rfl (fun _ _ => rfl) (hdone hjoint hread hwrite hecc)
    case split =>
      have hdone := startMatchProbe_split (c := c) (o := o) (s := u) (by rwa [ha]) (by rwa [hcount]) (by rwa [hc])
        (by rwa [hcount]) (by rwa [hcount])
      simp only [o, issuedOp_w0, issuedOp_w1, issuedOp_seq, ha, hc, hcount, u, issued_runCheck, issued_cam,
        issued_writeCheck (show Mn.matchProbe ≠ .commit by decide)] at hdone
      exact exec_done startMatchProbe hready rfl rfl (fun _ _ => rfl) (hdone hsplit hchecks hecc)
end

section
/-! SUPPORT. The queue of commands and the fuses over all commands: every command completes and keeps both, save the few of the
system controller that reach the fuse programmer. -/

open Sys2Proof Sys2Proof.Machine Sys2Proof.Safety

namespace Sys2Proof.Machine

/-- The commands that may reach the fuse programmer: firmware's counter advance, and the system controller's fuse command and
register writes (R414). -/
inductive ReachesFuses : Instr → Prop
  | advance : ReachesFuses .svnAdvance
  | command (v : Word) (fail : Bool) : ReachesFuses (.secFuseCmd .sc v fail)
  | write (o : Nat) (w : Width) (v : Word) : ReachesFuses (.registerWrite .sc o w v)
  | fbWrite (o : Nat) (w : Width) (v : Word) : ReachesFuses (.fbRegisterWrite .sc o w v)
  | clear (o : Nat) (v : Half) : ReachesFuses (.counterClear .sc o v)
  | access (a : Nat) (w : Width) (v : Word) : ReachesFuses (.unoccupiedAccess .sc a w true v)

theorem addrAccess_read_kept (req : Requester) (a : Nat) (w : Width) (v : Word) (s : State) :
    kept (addrAccess req a w false v s) = kept s := by
  unfold addrAccess
  (repeat' split) <;> simp_all

/-- A command that does not reach the fuse programmer completes, and keeps the waiting commands and the fuses. -/
theorem exec_keeps (i : Instr) (s : State) (h : ¬ReachesFuses i) : ∃ t, exec i s = .next t ∧ kept t = kept s := by
  cases i
  case registerWrite req o w v =>
    have hreq : req ≠ .sc := by rintro rfl; exact h (.write o w v)
    exact ⟨_, rfl, accessWrite_kept req o w v s hreq⟩
  case fbRegisterWrite req o w v =>
    have hreq : req ≠ .sc := by rintro rfl; exact h (.fbWrite o w v)
    exact ⟨_, rfl, accessWrite_kept req o w v s hreq⟩
  case counterClear req o v =>
    have hreq : req ≠ .sc := by rintro rfl; exact h (.clear o v)
    exact ⟨_, rfl, accessWrite_kept req o .w32 _ s hreq⟩
  case unoccupiedAccess req a w wr v =>
    refine ⟨_, rfl, ?_⟩
    cases wr with
    | false => exact addrAccess_read_kept req a w v s
    | true =>
      have hreq : req ≠ .sc := by rintro rfl; exact h (.access a w v)
      exact addrAccess_kept req a w true v s hreq
  case secFuseCmd req v fail =>
    have hreq : req ≠ .sc := by rintro rfl; exact h (.command v fail)
    exact ⟨_, rfl, fuseCmd_kept req v fail s hreq⟩
  case svnAdvance => exact absurd .advance h
  all_goals exact ⟨_, rfl, by simp⟩

/-- Every command completes, keeps the waiting commands, and leaves fuses that programming can reach from the former ones. -/
theorem exec_go (i : Instr) (s : State) : ∃ t, exec i s = .next t ∧ FuseGo s t := by
  by_cases h : ReachesFuses i
  · cases h with
    | advance => exact ⟨_, rfl, svnAdvance_go s⟩
    | command v fail => exact ⟨_, rfl, fuseCmd_go .sc v fail s⟩
    | write o w v => exact ⟨_, rfl, accessWrite_go .sc o w v s⟩
    | fbWrite o w v => exact ⟨_, rfl, accessWrite_go .sc o w v s⟩
    | clear o v => exact ⟨_, rfl, accessWrite_go .sc o .w32 _ s⟩
    | access a w v => exact ⟨_, rfl, addrAccess_go .sc a w true v s⟩
  · obtain ⟨t, ht, hkept⟩ := exec_keeps i s h
    exact ⟨t, ht, FuseGo_of_kept hkept⟩

theorem exec_reachesFuses {i : Instr} {s t : State} (h : exec i s = .next t) (hfuse : t.fuse ≠ s.fuse) : ReachesFuses i := by
  by_contra hnot
  obtain ⟨u, hu, hkept⟩ := exec_keeps i s hnot
  obtain rfl : u = t := Host.Outcome.next.inj (hu.symm.trans h)
  exact hfuse (congrArg Prod.snd hkept)

/-- A step runs the command at the front of the queue, or there is none and it changes nothing. -/
theorem step_cases {s t : State} (h : step s = .next t) :
    t = s ∨ ∃ i rest, exec i { s with pending := rest } = .next t := by
  unfold step at h
  split at h
  · exact .inl (Host.Outcome.next.inj h).symm
  · exact .inr ⟨_, _, h⟩

/-- What every command makes of the fuses, a step does. -/
theorem step_fuses {s t : State} (h : step s = .next t) : FuseRise s.fuse t.fuse ∧ (FuseOk s.fuse → FuseOk t.fuse) := by
  obtain rfl | ⟨i, rest, hexec⟩ := step_cases h
  · exact ⟨FuseRise_refl _, id⟩
  · obtain ⟨u, hu, -, hrise, hok⟩ := exec_go i { s with pending := rest }
    obtain rfl : u = t := Host.Outcome.next.inj (hu.symm.trans hexec)
    exact ⟨hrise, hok⟩

/-! ### The fuse command -/

theorem secShow_fuse (s : State) : (secShow s).fuse = s.fuse := congrArg Prod.snd (secShow_kept s)

section
variable {field value : Nat} {s : State}

theorem fuseProgram_fwSvn : (fuseProgram 3 value s).fuse = { s.fuse with fwSvn := s.fuse.fwSvn ||| thermo value } :=
  secShow_fuse _

theorem fuseProgram_trunkSvn : (fuseProgram 4 value s).fuse = { s.fuse with trunkSvn := s.fuse.trunkSvn ||| thermo value } :=
  secShow_fuse _

end

/-- May the fuse command not program what it names (R414)? -/
def fuseRefused (v : Word) (fail : Bool) (s : State) : Bool :=
  bitOf (s.reg Reg.SEC_LOCK) 1 || !fusePermits s (fld v 3 0) (fld v 15 8) || fuseLowers s (fld v 3 0) (fld v 15 8) || fail

section
variable {v : Word} {fail : Bool} {s : State}

theorem fuseCmd_controller : fuseCmd .sc v fail s =
    if fuseRefused v fail s then raise evFuseErr s else fuseProgram (fld v 3 0) (fld v 15 8) s := by
  unfold fuseCmd
  exact if_neg (not_not.mpr rfl)

theorem fuseCmd_refused (h : fuseRefused v fail s = true) : fuseCmd .sc v fail s = raise evFuseErr s :=
  fuseCmd_controller.trans (if_pos h)

theorem fuseCmd_programs (h : fuseRefused v fail s = false) :
    fuseCmd .sc v fail s = fuseProgram (fld v 3 0) (fld v 15 8) s :=
  fuseCmd_controller.trans (if_neg (ne_true_of_eq_false h))

theorem fuseCmd_notController {req : Requester} (h : req ≠ .sc) : fuseCmd req v fail s = accessError s := if_pos h

end

end Sys2Proof.Machine

/-- Settles O3: every command leaves fuses that have only risen; a command that does not reach the fuse programmer keeps them; and the
fuse command is refused or programs. -/
theorem fuseBitsOnlyRise : Obligations.FuseBitsOnlyRise := by
  refine ⟨fun s t h => (step_fuses h).1, fun i s t h hfuse => ?who, fun v fail s => ⟨?refused, ?programs, ?fw, ?trunk, ?others⟩⟩
  case who =>
    cases exec_reachesFuses h hfuse with
    | advance => exact .inl rfl
    | command v fail => exact .inr (.inl ⟨v, fail, rfl⟩)
    | write o w v => exact .inr (.inr (.inl ⟨o, w, v, rfl⟩))
    | fbWrite o w v => exact .inr (.inr (.inr (.inl ⟨o, w, v, rfl⟩)))
    | clear o v => exact .inr (.inr (.inr (.inr (.inl ⟨o, v, rfl⟩))))
    | access a w v => exact .inr (.inr (.inr (.inr (.inr ⟨a, w, v, rfl⟩))))
  case refused => exact fun h => congrArg Host.Outcome.next (fuseCmd_refused h)
  case programs => exact fun h => congrArg Host.Outcome.next (fuseCmd_programs h)
  case fw =>
    intro h
    rw [h]
    exact fuseProgram_fwSvn
  case trunk =>
    intro h
    rw [h]
    exact fuseProgram_trunkSvn
  case others => exact fun req h => congrArg Host.Outcome.next (fuseCmd_notController h)

/-- Settles O4: a step that starts from fuses that programming can reach ends with such fuses. -/
theorem fuseStateInvariant : Obligations.FuseStateInvariant :=
  fun _ _ hok h => (step_fuses h).2 hok

/-- Settles O2: every command completes and keeps the queue, also where it reaches the fuse programmer. -/
theorem commandsKeepQueue : Obligations.CommandsKeepQueue := by
  intro i s
  obtain ⟨t, ht, hpending, -⟩ := exec_go i s
  exact ⟨t, ht, hpending⟩

/-- Settles O1: a step is the front command run with the rest of the queue, or nothing. -/
theorem stepRunsFrontCommand : Obligations.StepRunsFrontCommand := by
  refine ⟨fun i s => rfl, fun s h => ?idle⟩
  case idle =>
    unfold step
    rw [h]
end

section
/-! SUPPORT. Scalar and predicate registers (Table 13.1): what a read gives after a write. -/

open Sys2Proof Sys2Proof.Machine Sys2Proof.Safety

namespace Sys2Proof.Machine

section
variable (k : CoreSt) (c : CoreId) (d r : Nat) (s : State)

@[simp] theorem rdS_zero : rdS k 0 = 0 := rfl

@[simp] theorem rdP_zero : rdP k 0 = true := rfl

theorem wrS_zero_s (v : Word) : ((wrS c 0 v s).core c).s = (s.core c).s := by
  simp [wrS]

theorem wrP_zero_p (v : Bool) : ((wrP c 0 v s).core c).p = (s.core c).p := by
  simp [wrP]

theorem rdS_congr {j k : CoreSt} (h : j.s = k.s) : rdS j r = rdS k r := by
  unfold rdS
  simp only [h]

theorem rdP_congr {j k : CoreSt} (h : j.p = k.p) : rdP j r = rdP k r := by
  unfold rdP
  rw [h]

/-- A write to a register other than s0 is read back; every other register reads as before. -/
theorem rdS_wrS (v : Word) :
    rdS ((wrS c d v s).core c) r = if r = d ∧ 0 < d ∧ d < 32 then v else rdS (s.core c) r := by
  simp only [wrS, core_modCore]
  by_cases hd : d < 32
  · by_cases h0 : d = 0
    · simp [h0, rdS]
    · by_cases hr : r = d
      · subst hr
        simp [hd, h0, rdS, Nat.pos_of_ne_zero h0]
      · simp [hd, h0, hr, rdS, Ne.symm hr]
  · simp [hd]

theorem rdS_wrS_other {d r : Nat} (h : r ≠ d) (v : Word) : rdS ((wrS c d v s).core c) r = rdS (s.core c) r := by
  simp [rdS_wrS, h]

theorem getLsbD_ofNat_twoPow {i j : Nat} (hi : i < 8) : (BitVec.ofNat 8 (2 ^ j)).getLsbD i = decide (j = i) := by
  rw [BitVec.getLsbD_ofNat, decide_eq_true hi, Bool.true_and, Nat.testBit_two_pow]

/-- A write to a predicate register other than p0 is read back; every other register reads as before. -/
theorem rdP_wrP (v : Bool) :
    rdP ((wrP c d v s).core c) r = if r % 8 = d % 8 ∧ d % 8 ≠ 0 then v else rdP (s.core c) r := by
  have hbit := getLsbD_ofNat_twoPow (j := d % 8) (Nat.mod_lt r (by decide : 0 < 8))
  simp only [wrP, core_modCore, rdP]
  generalize BitVec.ofNat 8 (2 ^ (d % 8)) = mask at hbit ⊢
  by_cases h0 : d % 8 = 0
  · simp [h0]
  · by_cases hr : r % 8 = d % 8
    · rw [hr] at hbit ⊢
      cases v <;> simp [h0, hbit]
    · have hother : mask.getLsbD (r % 8) = false := hbit.trans (decide_eq_false (Ne.symm hr))
      cases v <;> simp [h0, hr, BitVec.getLsbD_or, BitVec.getLsbD_and, BitVec.getLsbD_not, hother,
        Nat.mod_lt r (by decide : 0 < 8), -BitVec.getLsbD_eq_getElem]

theorem rdP_wrP_other {d r : Nat} (h : r % 8 ≠ d % 8) (v : Bool) : rdP ((wrP c d v s).core c) r = rdP (s.core c) r := by
  simp [rdP_wrP, h]

end

end Sys2Proof.Machine

/-- Settles O8: s0 and p0 are fixed, and a read after a write gives the value written or what was there before. -/
theorem registerZeroAndReadBack : Obligations.RegisterZeroAndReadBack := by
  intro c s
  refine ⟨⟨rfl, rfl⟩, fun v => wrS_zero_s c s v, fun v => wrP_zero_p c s v, fun d r v hpos hlt => ?scalar, fun d r v hpos hlt hr => ?predicate⟩
  case scalar => simp [rdS_wrS, hpos, hlt]
  case predicate => simp [rdP_wrP, Nat.mod_eq_of_lt hlt, Nat.mod_eq_of_lt hr, Nat.ne_of_gt hpos]

/-- Settles O7: a captured instruction holds its words and numbers, and by its form the registers of the long, the short or the
SIGR format. -/
theorem operandCapture : Obligations.OperandCapture := by
  intro c m w w1 s hready k o
  refine ⟨⟨issuedOp_mn c m w w1 s, issuedOp_q c m w w1 s, issuedOp_pc c m w w1 s, issuedOp_seq c m w w1 s,
    issuedOp_w0 c m w w1 s, issuedOp_w1 c m w w1 s⟩, fun hlong => ?long, fun hshort hsigr => ?short, fun hsigr => ?sigr⟩
  case long =>
    have hm : m ∈ longMns := of_decide_eq_true ((ready_long hready).symm.trans hlong)
    obtain ⟨ha, hb, hc, hn⟩ := issuedOp_long hready hm
    have hd : o.d = rdS k (lRd w) := by
      have hsigr : m ≠ .sigr := fun e => absurd (e ▸ hm) (by decide)
      simp [o, issuedOp, capture, show iLong w = true from hlong, hsigr, k]
    exact ⟨ha, hb, hc, hn, hd⟩
  case short =>
    have hm : m ∉ longMns := of_decide_eq_false ((ready_long hready).symm.trans hshort)
    rw [show o = _ from ready_short hready hm hsigr]
    exact ⟨rfl, rfl, rfl⟩
  case sigr =>
    subst hsigr
    exact ⟨rfl, rfl⟩
end

section
/-! SUPPORT. The arithmetic and comparison instructions (Tables 13.4 to 13.6): what they answer, and what an instruction that has
run leaves alone of its core. -/

open Sys2Proof Sys2Proof.Machine Sys2Proof.Safety

namespace Sys2Proof.Machine

section
variable (c : CoreId) (w : Word) (s : State)

/-- Leaving its queue, an instruction changes nothing of the core but its queues. -/
theorem retire_core : ∃ q, (retire c w s).core c = { s.core c with queues := q } := by
  simp only [retire, core_modCore, setQueue]
  split
  · exact ⟨_, rfl⟩
  · exact ⟨(s.core c).queues, rfl⟩

theorem retire_core_ne {d : CoreId} (h : d ≠ c) : (retire c w s).core d = s.core d := core_modCore_ne s _ h

@[simp] theorem retire_mem : (retire c w s).mem = s.mem := rfl

@[simp] theorem retire_reg (o : Nat) : (retire c w s).reg o = s.reg o := rfl

/-- A write of a scalar register changes nothing else of the core but its scoreboard. -/
theorem wrS_core (d : Nat) (v : Word) : ∃ x y, (wrS c d v s).core c = { s.core c with s := x, pendS := y } := by
  simp only [wrS, core_modCore]
  split
  · exact ⟨_, _, rfl⟩
  · exact ⟨(s.core c).s, (s.core c).pendS, rfl⟩

theorem wrS_core_ne {e : CoreId} (d : Nat) (v : Word) (h : e ≠ c) : (wrS c d v s).core e = s.core e := core_modCore_ne s _ h

/-- A write of a predicate register changes nothing else of the core but its scoreboard. -/
theorem wrP_core (d : Nat) (v : Bool) : ∃ x y, (wrP c d v s).core c = { s.core c with p := x, pendP := y } :=
  ⟨_, _, core_modCore s c _⟩

theorem wrP_core_ne {e : CoreId} (d : Nat) (v : Bool) (h : e ≠ c) : (wrP c d v s).core e = s.core e := core_modCore_ne s _ h

end

/-- The two states differ, of core `c`, only in what a scalar instruction may touch: its scalar and predicate registers, the
scoreboard, the queues and the sequencer. -/
structure ScalarKeeps (c : CoreId) (s t : State) : Prop where
  v : (t.core c).v = (s.core c).v
  vp : (t.core c).vp = (s.core c).vp
  spad : (t.core c).spad = (s.core c).spad
  sems : (t.core c).sems = (s.core c).sems
  array : (t.core c).array = (s.core c).array
  others : ∀ d, d ≠ c → t.core d = s.core d
  mem : t.mem = s.mem

section
variable {c : CoreId} {m : Mn} {w w1 : Word} {s t u : State}

theorem ScalarKeeps.trans (a : ScalarKeeps c s t) (b : ScalarKeeps c t u) : ScalarKeeps c s u :=
  ⟨b.v.trans a.v, b.vp.trans a.vp, b.spad.trans a.spad, b.sems.trans a.sems, b.array.trans a.array,
    fun d hd => (b.others d hd).trans (a.others d hd), b.mem.trans a.mem⟩

theorem scalarKeeps_issued : ScalarKeeps c s (issued c m w w1 s) :=
  ⟨issued_v .., issued_vp .., issued_spad .., issued_sems .., issued_array .., fun _ hd => issued_core_ne m w w1 s hd,
    issued_mem ..⟩

theorem scalarKeeps_retire : ScalarKeeps c s (retire c w s) := by
  obtain ⟨q, hq⟩ := retire_core c w s
  refine ⟨?_, ?_, ?_, ?_, ?_, fun d hd => retire_core_ne c w s hd, rfl⟩ <;> rw [hq]

theorem scalarKeeps_wrS (d : Nat) (v : Word) : ScalarKeeps c s (wrS c d v s) := by
  obtain ⟨x, y, hk⟩ := wrS_core c s d v
  refine ⟨?_, ?_, ?_, ?_, ?_, fun e he => wrS_core_ne c s d v he, rfl⟩ <;> rw [hk]

theorem scalarKeeps_wrP (d : Nat) (v : Bool) : ScalarKeeps c s (wrP c d v s) := by
  obtain ⟨x, y, hk⟩ := wrP_core c s d v
  refine ⟨?_, ?_, ?_, ?_, ?_, fun e he => wrP_core_ne c s d v he, rfl⟩ <;> rw [hk]

/-! ### Registers right after an issue and after a retirement -/

variable (c m w w1 s)

@[simp] theorem rdS_issued (r : Nat) : rdS ((issued c m w w1 s).core c) r = rdS (s.core c) r := rdS_congr r (issued_s ..)

@[simp] theorem rdP_issued (r : Nat) : rdP ((issued c m w w1 s).core c) r = rdP (s.core c) r := rdP_congr r (issued_p ..)

@[simp] theorem rdS_retire (r : Nat) : rdS ((retire c w s).core c) r = rdS (s.core c) r := by
  obtain ⟨q, hq⟩ := retire_core c w s
  rw [hq]
  rfl

@[simp] theorem rdP_retire (r : Nat) : rdP ((retire c w s).core c) r = rdP (s.core c) r := by
  obtain ⟨q, hq⟩ := retire_core c w s
  rw [hq]
  rfl

@[simp] theorem rdP_wrS (d r : Nat) (v : Word) : rdP ((wrS c d v s).core c) r = rdP (s.core c) r := by
  obtain ⟨x, y, hk⟩ := wrS_core c s d v
  rw [hk]
  rfl

@[simp] theorem rdS_wrP (d r : Nat) (v : Bool) : rdS ((wrP c d v s).core c) r = rdS (s.core c) r := by
  obtain ⟨x, y, hk⟩ := wrP_core c s d v
  rw [hk]
  rfl

variable {s} in
/-- An issue counts in SEQ_ISSUE_CNT and touches no other register while that counter does not saturate. -/
theorem issued_reg (h : cntSaturates (s.reg (coreOff Reg.SEQ_ISSUE_CNT c)) 1 = false) {o : Nat}
    (ho : o ≠ coreOff Reg.SEQ_ISSUE_CNT c) : (issued c m w w1 s).reg o = s.reg o := by
  rw [issued, bumpC_reg (by rwa [reg_modCore]), if_neg ho, reg_modCore]

end

/-- The rows of the arithmetic and comparison instructions, with their commands on core `c`. -/
def scalarRows (c : CoreId) : List (Mn × Instr) :=
  [(Mn.alu, Instr.alu c []), (.alui, .alui c []), (.li, .li c []), (.lui, .lui c []), (.cmp, .cmp c []),
    (.cmpi, .cmpi c []), (.plog, .plog c []), (.nop, .nop c [])]

end Sys2Proof.Machine

/-- Settles O9: each instruction's unit answers at once with the value of its table, from the operands captured at issue. -/
theorem scalarResults : Obligations.ScalarResults := by
  intro c w w1 s
  dsimp only
  refine ⟨?alu, ?alui, ?li, ?lui, ?cmp, ?cmpi, ?plog, ?nop⟩
  case alu =>
    intro h
    rw [exec_done startAlu h rfl rfl (fun _ _ => rfl) rfl, ready_short h (by decide) (by decide)]
  case alui =>
    intro h
    rw [exec_done startAlui h rfl rfl (fun _ _ => rfl) rfl, ready_short h (by decide) (by decide)]
  case li =>
    intro h
    rw [exec_done startLi h rfl rfl (fun _ _ => rfl) rfl, ready_short h (by decide) (by decide)]
  case lui =>
    intro h
    rw [exec_done startLui h rfl rfl (fun _ _ => rfl) rfl, ready_short h (by decide) (by decide)]
  case cmp =>
    intro h
    rw [exec_done startCmp h rfl rfl (fun _ _ => rfl) rfl, ready_short h (by decide) (by decide)]
  case cmpi =>
    intro h
    rw [exec_done startCmpi h rfl rfl (fun _ _ => rfl) rfl, ready_short h (by decide) (by decide)]
  case plog =>
    intro h
    rw [exec_done startPlog h rfl rfl (fun _ _ => rfl) rfl, ready_short h (by decide) (by decide)]
  case nop =>
    intro h
    exact exec_done startNop h rfl rfl (fun _ _ => rfl) rfl

namespace Sys2Proof.Machine

/-- An arithmetic or comparison instruction comes to a write of one scalar register, of one predicate register, or to nothing. -/
theorem scalar_cases {c : CoreId} {m : Mn} {i : Instr} {w w1 : Word} {s t : State} (hrow : (m, i) ∈ scalarRows c)
    (h : Ready c m w w1 s) (ht : exec i s = .next t) :
    (m ∉ [Mn.cmp, .cmpi, .plog, .nop] ∧ ∃ v, t = retire c w (wrS c (iD w) v (issued c m w w1 s))) ∨
      (m ∈ [Mn.cmp, .cmpi, .plog] ∧ ∃ v, t = retire c w (wrP c (iD w) v (issued c m w w1 s))) ∨
      (m = .nop ∧ t = retire c w (issued c m w w1 s)) := by
  obtain ⟨halu, halui, hli, hlui, hcmp, hcmpi, hplog, hnop⟩ := scalarResults c w w1 s
  simp only [scalarRows, List.mem_cons, List.not_mem_nil, or_false] at hrow
  obtain ⟨rfl, rfl⟩ | ⟨rfl, rfl⟩ | ⟨rfl, rfl⟩ | ⟨rfl, rfl⟩ | ⟨rfl, rfl⟩ | ⟨rfl, rfl⟩ | ⟨rfl, rfl⟩ | ⟨rfl, rfl⟩ := hrow
  · exact .inl ⟨by decide, _, Host.Outcome.next.inj (ht.symm.trans (halu h))⟩
  · exact .inl ⟨by decide, _, Host.Outcome.next.inj (ht.symm.trans (halui h))⟩
  · exact .inl ⟨by decide, _, Host.Outcome.next.inj (ht.symm.trans (hli h))⟩
  · exact .inl ⟨by decide, _, Host.Outcome.next.inj (ht.symm.trans (hlui h))⟩
  · exact .inr (.inl ⟨by decide, _, Host.Outcome.next.inj (ht.symm.trans (hcmp h))⟩)
  · exact .inr (.inl ⟨by decide, _, Host.Outcome.next.inj (ht.symm.trans (hcmpi h))⟩)
  · exact .inr (.inl ⟨by decide, _, Host.Outcome.next.inj (ht.symm.trans (hplog h))⟩)
  · exact .inr (.inr ⟨rfl, Host.Outcome.next.inj (ht.symm.trans (hnop h))⟩)

end Sys2Proof.Machine

/-- Settles O10: the issue, the one register write and the retirement each leave the rest alone. -/
theorem scalarFrame : Obligations.ScalarFrame := by
  intro c m i w w1 s t hrow h ht
  obtain ⟨hm, v, rfl⟩ | ⟨hm, v, rfl⟩ | ⟨rfl, rfl⟩ := scalar_cases hrow h ht
  · have hk : ScalarKeeps c s (retire c w (wrS c (iD w) v (issued c m w w1 s))) :=
      scalarKeeps_issued.trans ((scalarKeeps_wrS (iD w) v).trans scalarKeeps_retire)
    refine ⟨fun r hr => ?_, fun r _ => by simp, hk.v, hk.vp, hk.spad, hk.sems, hk.array, hk.others, hk.mem,
      fun hcnt o ho => issued_reg c m w w1 hcnt ho⟩
    rw [rdS_retire, rdS_wrS_other c _ (hr.resolve_right hm), rdS_issued]
  · have hk : ScalarKeeps c s (retire c w (wrP c (iD w) v (issued c m w w1 s))) :=
      scalarKeeps_issued.trans ((scalarKeeps_wrP (iD w) v).trans scalarKeeps_retire)
    refine ⟨fun r _ => by simp, fun r hr => ?_, hk.v, hk.vp, hk.spad, hk.sems, hk.array, hk.others, hk.mem,
      fun hcnt o ho => issued_reg c m w w1 hcnt ho⟩
    rw [rdP_retire, rdP_wrP_other c _ (hr.resolve_right (not_not.mpr hm)), rdP_issued]
  · have hk : ScalarKeeps c s (retire c w (issued c .nop w w1 s)) := scalarKeeps_issued.trans scalarKeeps_retire
    exact ⟨fun r _ => by simp, fun r _ => by simp, hk.v, hk.vp, hk.spad, hk.sems, hk.array, hk.others, hk.mem,
      fun hcnt o ho => issued_reg c .nop w w1 hcnt ho⟩
end

section
/-! SUPPORT. LD and ST (R256): what they answer for a good line, for a misaligned address and for a shelf that the core may not
reach, and what a store of a line leaves alone. -/

open Sys2Proof Sys2Proof.Machine Sys2Proof.Safety

namespace Sys2Proof.Machine

/-- The byte offset in its shelf that LD or ST names (R256). -/
def accessOff (o : Op) : Nat := (o.a + iImm o.w0).toNat

/-- The bytes of an LD or a ST. -/
def accessSize (w : Word) : Nat := 2 ^ (iF w / 64)

/-- What LD or ST checks of its shelf: COMMIT_ORDER is a matter of ST alone. -/
def accessCheck (m : Mn) (s : State) (c : CoreId) (o : Op) : Nat :=
  if m = .ld then runCheck s c (iF o.w0 % 64) (accessOff o / 64) 1
  else writeCheck s c o.seq (iF o.w0 % 64) (accessOff o / 64) 1

section
variable {c : CoreId} {o : Op} {s : State} {l : Line}

theorem startLd_misaligned (h : accessOff o % accessSize o.w0 ≠ 0) : startLd c o s = .trap trapAlign 0 s := if_pos h

theorem startSt_misaligned (h : accessOff o % accessSize o.w0 ≠ 0) : startSt c o s = .trap trapAlign 0 s := if_pos h

section
variable (halign : accessOff o % accessSize o.w0 = 0)
include halign

theorem startLd_refused (h : accessCheck .ld s c o ≠ 0) : startLd c o s = .trap (accessCheck .ld s c o) 0 s :=
  (if_neg (not_not.mpr halign)).trans (if_pos h)

theorem startSt_refused (h : accessCheck .st s c o ≠ 0) : startSt c o s = .trap (accessCheck .st s c o) 0 s :=
  (if_neg (not_not.mpr halign)).trans (if_pos h)

variable (hgood : GoodLine c (iF o.w0 % 64) (accessOff o / 64) l s)
include hgood

theorem startLd_loads (h : accessCheck .ld s c o = 0) : startLd c o s = .done (wrS c (iD o.w0)
    (BitVec.ofNat 64 (bitsAt l.data (8 * (accessOff o % 64)) (8 * accessSize o.w0))) s) := by
  refine (if_neg (not_not.mpr halign)).trans ((if_neg (not_not.mpr h)).trans ?_)
  simp only [show (o.a + iImm o.w0).toNat = accessOff o from rfl, shelfRead_good hgood]
  rfl

theorem startSt_stores (h : accessCheck .st s c o = 0) : startSt c o s = .done (shelfWrite c (iF o.w0 % 64) (accessOff o / 64)
    ⟨putBits l.data (8 * (accessOff o % 64)) (8 * accessSize o.w0) o.d.toNat, false⟩ s) := by
  refine (if_neg (not_not.mpr halign)).trans ((if_neg (not_not.mpr h)).trans ?_)
  simp only [show (o.a + iImm o.w0).toNat = accessOff o from rfl, shelfRead_good hgood]
  rfl

end
end

/-! ### An LD or a ST right after its issue -/

section
variable {c : CoreId} {m : Mn} {w w1 : Word} {s : State} (hm : m = .ld ∨ m = .st) (h : Ready c m w w1 s)
include hm h

theorem issuedOp_accessOff : accessOff (issuedOp c m w w1 s) = (rdS (s.core c) (iA w) + iImm w).toNat := by
  obtain rfl | rfl := hm <;> rw [ready_short h (by decide) (by decide)] <;> rfl

theorem accessCheck_issued :
    accessCheck m (issued c m w w1 s) c (issuedOp c m w w1 s) =
      if m = .ld then runCheck s c (iF w % 64) ((rdS (s.core c) (iA w) + iImm w).toNat / 64) 1
      else writeCheck s c (s.core c).nextSeq (iF w % 64) ((rdS (s.core c) (iA w) + iImm w).toNat / 64) 1 := by
  have hcommit : m ≠ .commit := by rintro rfl; simp at hm
  rw [accessCheck, issuedOp_accessOff hm h, issuedOp_w0, issuedOp_seq, issued_runCheck, issued_writeCheck hcommit]

end

/-! ### What a written line leaves alone -/

section
variable (c : CoreId) (i j : Nat) (d : DLine) (s : State)

/-- A write of a shelf's line changes of its core the line, its upset, and the notes of fault headers and changed lines. -/
theorem shelfWrite_core : ∃ x y, (shelfWrite c i j d s).core c = { s.core c with
    spad := sput (physOf (shelfEnt s c i) (workSecond s c i) j)
      (sealLine (saltSpad c.val (physOf (shelfEnt s c i) (workSecond s c i) j)) d) (s.core c).spad
    upsets := sdel (physOf (shelfEnt s c i) (workSecond s c i) j) (s.core c).upsets
    faultHdr := x
    dirty := y } := by
  unfold shelfWrite
  simp only [core_ite, core_modCore, core_send, spadWrite]
  (repeat' split) <;> exact ⟨_, _, rfl⟩

theorem shelfWrite_core_ne {e : CoreId} (h : e ≠ c) : (shelfWrite c i j d s).core e = s.core e := by
  unfold shelfWrite
  simp [spadWrite, core_modCore_ne _ _ h]

theorem shelfWrite_mem : (shelfWrite c i j d s).mem = s.mem := by
  unfold shelfWrite
  simp [spadWrite]

end

end Sys2Proof.Machine

/-- Settles O11: an aligned access of a good line goes through, and the other cases trap before the line is read. -/
theorem loadStoreResults : Obligations.LoadStoreResults := by
  refine ⟨?accesses, ?traps⟩
  case accesses =>
    intro c w w1 s l sh size off halign hgood
    refine ⟨fun hready hcheck => ?load, fun hready hcheck => ?store⟩
    case load =>
      have hoff := issuedOp_accessOff (.inl rfl) hready
      have hdone := startLd_loads (c := c) (o := issuedOp c .ld w w1 s) (s := issued c .ld w w1 s) (l := l)
      rw [accessCheck_issued (.inl rfl) hready, hoff, issuedOp_w0] at hdone
      exact exec_done startLd hready rfl rfl (fun _ _ => rfl) (hdone halign (GoodLine_issued hgood ..) hcheck)
    case store =>
      have hoff := issuedOp_accessOff (.inr rfl) hready
      have hd : (issuedOp c .st w w1 s).d = rdS (s.core c) (iD w) := by rw [ready_short hready (by decide) (by decide)]
      have hdone := startSt_stores (c := c) (o := issuedOp c .st w w1 s) (s := issued c .st w w1 s) (l := l)
      rw [accessCheck_issued (.inr rfl) hready, hoff, issuedOp_w0, hd] at hdone
      exact exec_done startSt hready rfl rfl (fun _ _ => rfl) (hdone halign (GoodLine_issued hgood ..) hcheck)
  case traps =>
    intro c m i w w1 s hrow hready sh off
    have hm : m = .ld ∨ m = .st := by
      simp only [List.mem_cons, List.not_mem_nil, or_false, Prod.mk.injEq] at hrow
      exact hrow.imp And.left And.left
    have hoff := issuedOp_accessOff hm hready
    have hcheck := accessCheck_issued hm hready
    have hw0 := issuedOp_w0 c m w w1 s
    simp only [List.mem_cons, List.not_mem_nil, or_false, Prod.mk.injEq] at hrow
    refine ⟨fun hmis => ?misaligned, fun halign hrefused => ?refused⟩
    case misaligned =>
      obtain ⟨rfl, rfl⟩ | ⟨rfl, rfl⟩ := hrow
      · exact exec_trapped startLd hready rfl rfl (fun _ _ => rfl) (startLd_misaligned (by rwa [hoff, hw0]))
      · exact exec_trapped startSt hready rfl rfl (fun _ _ => rfl) (startSt_misaligned (by rwa [hoff, hw0]))
    case refused =>
      rw [← hcheck]
      obtain ⟨rfl, rfl⟩ | ⟨rfl, rfl⟩ := hrow
      · exact exec_trapped startLd hready rfl rfl (fun _ _ => rfl)
          (startLd_refused (by rwa [hoff, hw0]) (by rwa [hcheck]))
      · exact exec_trapped startSt hready rfl rfl (fun _ _ => rfl)
          (startSt_refused (by rwa [hoff, hw0]) (by rwa [hcheck]))

/-- Settles O12: the ST has written its one line, sealed for its place; the issue and the retirement touch none of the rest. -/
theorem storeFrame : Obligations.StoreFrame := by
  intro c w w1 s t l sh size off p hready halign hgood hcheck ht
  have hexec := ((loadStoreResults.1 c w w1 s l halign hgood).2 hready hcheck).symm.trans ht
  obtain rfl := Host.Outcome.next.inj hexec
  obtain ⟨q, hretire⟩ := retire_core c w (shelfWrite c sh (off / 64)
    ⟨putBits l.data (8 * (off % 64)) (8 * size) (rdS (s.core c) (iD w)).toNat, false⟩ (issued c .st w w1 s))
  obtain ⟨x, y, hwrite⟩ := shelfWrite_core c sh (off / 64)
    ⟨putBits l.data (8 * (off % 64)) (8 * size) (rdS (s.core c) (iD w)).toNat, false⟩ (issued c .st w w1 s)
  rw [issued_shelfEnt, issued_workSecond, issued_spad] at hwrite
  refine ⟨?line, fun a ha => ?lines, fun r => ?scalar, ?predicate, ?vector, fun e he => ?others, ?memory⟩
  case line => rw [hretire, hwrite]; exact sget_sput_self _ _ _
  case lines => rw [hretire, hwrite]; exact sget_sput_ne _ _ ha
  case scalar => rw [rdS_retire, hwrite]; exact rdS_issued c .st w w1 s r
  case predicate => rw [hretire, hwrite]; exact issued_p c .st w w1 s
  case vector => rw [hretire, hwrite]; exact issued_v c .st w w1 s
  case others => rw [retire_core_ne c w _ he, shelfWrite_core_ne c _ _ _ _ he, issued_core_ne _ _ _ _ he]
  case memory => rw [retire_mem, shelfWrite_mem, issued_mem]
end

section
/-! SUPPORT. Status values (R257, Table 13.7): what an index names, and what RDS and WRS answer. -/

open Sys2Proof Sys2Proof.Machine Sys2Proof.Safety

namespace Sys2Proof.Machine

section
variable (s : State) (c : CoreId) {p : Nat}

theorem statusVal_part (hp : p < 4) :
    statusVal s c (0x12 + p) = some (s.reg (coreOff (Reg.ARRAY_PART_STAT + 8 * p) c)) := by
  unfold statusVal
  iterate 8 rw [if_neg (by omega)]
  rw [if_pos (by omega), Nat.add_sub_cancel_left]

theorem statusVal_pool (h1 : 1 ≤ p) (h15 : p ≤ 15) :
    statusVal s c (0x20 + p - 1) = some (poolStatVal (s.core c) p) := by
  unfold statusVal
  iterate 11 rw [if_neg (by omega)]
  rw [if_pos (by omega), show 0x20 + p - 1 - 0x20 + 1 = p by omega]

theorem statusVal_shelf (hp : p < 64) : statusVal s c (0x40 + p) = some (shelfEnt s c p) := by
  unfold statusVal
  iterate 12 rw [if_neg (by omega)]
  rw [if_pos (by omega), Nat.add_sub_cancel_left]

theorem statusVal_sem (hp : p < 16) : statusVal s c (0x80 + p) = some (semVal (s.core c) p) := by
  unfold statusVal
  iterate 13 rw [if_neg (by omega)]
  rw [if_pos (by omega), Nat.add_sub_cancel_left]

theorem statusVal_unlisted
    (hp : (6 ≤ p ∧ p < 0x10) ∨ (0x18 ≤ p ∧ p < 0x20) ∨ (0x2F ≤ p ∧ p < 0x40) ∨ 0x90 ≤ p) : statusVal s c p = none := by
  unfold statusVal
  iterate 14 rw [if_neg (by omega)]

end

/-! ### Status values right after an issue -/

section
variable (c : CoreId) (m : Mn) (w w1 : Word) (s : State)

/-- The issue counter is no register of the device's links. -/
theorem issued_linkTopo : (issued c m w w1 s).reg Reg.LINK_TOPO = s.reg Reg.LINK_TOPO := by
  have hne : Reg.LINK_TOPO ≠ coreOff Reg.SEQ_ISSUE_CNT c := by
    simp only [coreOff, Reg.LINK_TOPO, Reg.SEQ_ISSUE_CNT]
    omega
  exact (reg_bump_other (by decide) hne _).trans (reg_modCore ..)

@[simp] theorem issued_coordX : (issued c m w w1 s).coordX = s.coordX := by
  simp only [State.coordX, State.regF, issued_linkTopo]

@[simp] theorem issued_coordY : (issued c m w w1 s).coordY = s.coordY := by
  simp only [State.coordY, State.regF, issued_linkTopo]

@[simp] theorem issued_sparseStatVal : sparseStatVal ((issued c m w w1 s).core c) = sparseStatVal (s.core c) := by
  simp [sparseStatVal, curNonfinite]

@[simp] theorem issued_scaStatVal : scaStatVal ((issued c m w w1 s).core c) = scaStatVal (s.core c) := by
  simp [scaStatVal]

@[simp] theorem issued_poolStatVal (p : Nat) : poolStatVal ((issued c m w w1 s).core c) p = poolStatVal (s.core c) p := by
  simp [poolStatVal]

@[simp] theorem issued_semVal (t : Nat) : semVal ((issued c m w w1 s).core c) t = semVal (s.core c) t := by
  simp [semVal]

end

/-! ### RDS and WRS -/

section
variable {c : CoreId} {o : Op} {s : State}

theorem startRds_listed {v : Word} (h : statusVal s c (iImmN o.w0) = some v) : startRds c o s =
    .done (wrS c (iD o.w0) v (if iImmN o.w0 = 0 then s.drawn.modCore c fun k => { k with cclk := v } else s)) := by
  simp [startRds, h]

theorem startRds_unlisted (h : statusVal s c (iImmN o.w0) = none) : startRds c o s = .trap trapIllegal 0 s := by
  simp [startRds, h]

theorem startWrs_array (h : iImmN o.w0 = 0x11) : startWrs c o s =
    .done (if bitOf o.a 8 then s.setF (coreOff Reg.ARRAY_STAT c) 8 8 0 else s) := if_pos h

theorem startWrs_part {p : Nat} (hp : p < 4) (h : iImmN o.w0 = 0x12 + p) : startWrs c o s =
    .done (if bitOf o.a 63 then s.setF (coreOff (Reg.ARRAY_PART_STAT + 8 * p) c) 63 63 0 else s) := by
  have hindex : iImmN o.w0 - 0x12 = p := by omega
  unfold startWrs
  simp only [hindex]
  rw [if_neg (by omega), if_pos (by omega)]

theorem startWrs_other (h : iImmN o.w0 ∉ [0x11, 0x12, 0x13, 0x14, 0x15]) : startWrs c o s = .trap trapIllegal 0 s := by
  simp only [List.mem_cons, List.not_mem_nil, or_false, not_or] at h
  exact (if_neg (by omega)).trans (if_neg (by omega))

end

end Sys2Proof.Machine

/-- Settles O13: RDS answers by what its index names, which the issue has left alone; WRS clears by its index or traps. -/
theorem statusAccess : Obligations.StatusAccess := by
  refine ⟨?read, ?write⟩
  case read =>
    intro c w w1 s h u
    refine ⟨fun v hv => ?listed, fun hnone => ?unlisted, rfl, ?frame, ?logical, rfl, ?slot, ?coord, rfl, rfl,
      fun p hp => statusVal_part u c hp, ?sparse, ?scatter, fun p h1 h15 => ?pools, fun i hi => ?shelves, fun t ht => ?sems,
      fun i hi => statusVal_unlisted u c hi⟩
    case listed =>
      have hdone := startRds_listed (c := c) (o := issuedOp c .rds w w1 s) (s := u) (by rwa [issuedOp_w0])
      rw [issuedOp_w0] at hdone
      exact exec_done startRds h rfl rfl (fun _ _ => rfl) hdone
    case unlisted => exact exec_trapped startRds h rfl rfl (fun _ _ => rfl) (startRds_unlisted (by rwa [issuedOp_w0]))
    case frame => exact congrArg (fun x : BitVec 32 => some (x.zeroExtend 64)) (issued_cur ..)
    case logical => exact congrArg (fun x => some (BitVec.ofNat 64 x)) (issued_logical ..)
    case slot => exact congrArg (fun x => some (BitVec.ofNat 64 x)) (issued_slot ..)
    case coord => rw [← issued_coordX c .rds w w1 s, ← issued_coordY c .rds w w1 s]; rfl
    case sparse => exact congrArg some (issued_sparseStatVal ..)
    case scatter => exact congrArg some (issued_scaStatVal ..)
    case pools => rw [statusVal_pool u c h1 h15, issued_poolStatVal]
    case shelves => rw [statusVal_shelf u c hi, issued_shelfEnt]
    case sems => rw [statusVal_sem u c ht, issued_semVal]
  case write =>
    intro c w w1 s h u a
    have ha : (issuedOp c .wrs w w1 s).a = a := by rw [ready_short h (by decide) (by decide)]
    refine ⟨fun hi => ?array, fun p hp hi => ?part, fun hi => ?other⟩
    case array =>
      have hdone := startWrs_array (c := c) (o := issuedOp c .wrs w w1 s) (s := u) (by rwa [issuedOp_w0])
      rw [ha] at hdone
      exact exec_done startWrs h rfl rfl (fun _ _ => rfl) hdone
    case part =>
      have hdone := startWrs_part (c := c) (o := issuedOp c .wrs w w1 s) (s := u) hp (by rwa [issuedOp_w0])
      rw [ha] at hdone
      exact exec_done startWrs h rfl rfl (fun _ _ => rfl) hdone
    case other => exact exec_trapped startWrs h rfl rfl (fun _ _ => rfl) (startWrs_other (by rwa [issuedOp_w0]))
end

section
/-! SUPPORT. The sequencer at a word it can issue (R245 to R247, R250, R254, R258, R259, R261): which of an instruction's ways it
takes, and what it does itself. -/

open Sys2Proof Sys2Proof.Machine Sys2Proof.Safety

namespace Sys2Proof.Machine

/-- The command of a row takes the core's next word as that row. -/
theorem exec_rowOf (m : Mn) (c : CoreId) (errs : List LineErr) (s : State) :
    exec (rowOf m c errs) s = .next (issueStep c errs (some m) s) := by
  cases m <;> rfl

/-- Core `c` stands at the word `w` (followed by `w1`), which it can fetch, and its queues have done what they can. -/
structure AtWord (c : CoreId) (w w1 : Word) (s : State) : Prop where
  running : (s.core c).issue = .running
  powered : domRun s c.val = true
  entered : (s.core c).fwDone = true
  fetched : fetchWord c s = (⟨0, w, w1⟩, s)
  pumped : pump c s = s

/-- What the sequencer makes of a legal word, its first FRAME_WAIT behind it: a stall on its predicate, the word discarded, or its
issue. -/
def issueWord (c : CoreId) (m : Mn) (w w1 : Word) (s : State) : State :=
  let k := s.core c
  if iPr w ≠ 0 && k.pendP.getLsbD (iPr w) then bumpC c Reg.SEQ_STALL_DEP s
  else if rdP k (iPr w) == iPn w then s.modCore c (advance (k.pc + if iLong w then 2 else 1))
  else issueMnemonic c m w w1 s

section
variable {c : CoreId} {m : Mn} {w w1 : Word} {s : State} {errs : List LineErr}

/-- Where storage errors have struck, the sequencer works on the struck state. -/
theorem issueStep_atWord (h : AtWord c w w1 (strike errs s)) (hm : issueMn ((strike errs s).core c) w w1 = some m) :
    issueStep c errs (some m) s = issueWord c m w w1 (strike errs s) := by
  obtain ⟨hrun, hdom, hfw, hfetch, hpump⟩ := h
  simp [issueStep, issueWord, hpump, hrun, hdom, hfetch, hm, hfw]

theorem issueStep_otherRow {m' : Mn} (h : AtWord c w w1 s) (hm : issueMn (s.core c) w w1 = some m') (hne : m' ≠ m) :
    issueStep c [] (some m) s = s := by
  obtain ⟨hrun, hdom, hfw, hfetch, hpump⟩ := h
  simp [issueStep, strike_nil, hpump, hrun, hdom, hfetch, hm, hne]

/-- A word that is no legal instruction traps where its predicate lets it. -/
theorem issueStep_illegal (h : AtWord c w w1 s) (hm : issueMn (s.core c) w w1 = none) (hpend : (s.core c).pendP = 0)
    (hpred : (rdP (s.core c) (iPr w) == iPn w) = false) :
    issueStep c [] none s = seqTrap c trapIllegal (s.core c).pc w s := by
  obtain ⟨hrun, hdom, hfw, hfetch, hpump⟩ := h
  simp [issueStep, strike_nil, hpump, hrun, hdom, hfetch, hm, hfw, hpend, hpred]

theorem issueWord_discards (hpend : (s.core c).pendP = 0) (hpred : (rdP (s.core c) (iPr w) == iPn w) = true) :
    issueWord c m w w1 s = s.modCore c (advance ((s.core c).pc + if iLong w then 2 else 1)) := by
  simp [issueWord, hpend, hpred]

theorem issueWord_stallsOnPredicate (hne : iPr w ≠ 0) (hpend : (s.core c).pendP.getLsbD (iPr w) = true) :
    issueWord c m w w1 s = bumpC c Reg.SEQ_STALL_DEP s :=
  if_pos (by simp [hne, hpend])

section
variable (hpred : (rdP (s.core c) (iPr w) == iPn w) = false)
include hpred

theorem issueWord_issues (hpend : iPr w = 0 ∨ (s.core c).pendP.getLsbD (iPr w) = false) :
    issueWord c m w w1 s = issueMnemonic c m w w1 s := by
  have hfree : ¬(decide (iPr w ≠ 0) && (s.core c).pendP.getLsbD (iPr w)) = true := by
    obtain h | h := hpend <;> simp only [h] <;> simp
  exact (if_neg hfree).trans (if_neg (ne_true_of_eq_false hpred))

variable (hpair : pairRange m w = false)
include hpair

theorem issueWord_stallsOnRegister {r : Nat} (hpend : iPr w = 0 ∨ (s.core c).pendP.getLsbD (iPr w) = false)
    (hr : r ∈ readsS m w w1 ++ writesS m w) (hbusy : (s.core c).pendS.getLsbD r = true) :
    issueWord c m w w1 s = bumpC c Reg.SEQ_STALL_DEP s := by
  have hdep : depStall (s.core c) m w w1 = true := by
    rw [depStall, List.any_eq_true.mpr ⟨r, hr, hbusy⟩, Bool.true_or]
  rw [issueWord_issues hpred hpend]
  simp [issueMnemonic, hpair, hdep]

theorem issueWord_stallsOnQueue (hpendP : (s.core c).pendP = 0) (hpendS : (s.core c).pendS = 0)
    (hkind : isControl m = false ∨ m = .frameWait) (hfull : 16 ≤ (queueOf (s.core c) (iQ w)).length) :
    issueWord c m w w1 s = bumpC c Reg.SEQ_STALL_QUEUE s := by
  have hdep : depStall (s.core c) m w w1 = false := by simp [depStall, hpendP, hpendS]
  have hqueued : (!isControl m || m == .frameWait) = true := by
    obtain h | rfl := hkind
    · rw [h]
      rfl
    · rfl
  rw [issueWord_issues hpred (.inr (by simp [hpendP]))]
  simp [issueMnemonic, hpair, hdep, hqueued, hfull]

end

theorem atWord_ready (h : Ready c m w w1 s) : AtWord c w w1 s := by
  obtain ⟨hrun, hdom, hqueues, -, -, -, hfw, hfetch, -, -, -⟩ := h
  exact ⟨hrun, hdom, hfw, hfetch, pumpN_idle hqueues 97⟩

/-- Storage errors that a command reports strike before the word is taken (R154). -/
theorem issueStep_strikes (h : Ready c m w w1 (strike errs s)) :
    issueStep c errs (some m) s = issueStep c [] (some m) (strike errs s) := by
  have hm : issueMn ((strike errs s).core c) w w1 = some m := by
    obtain ⟨-, -, -, -, -, -, -, -, hm, -, -⟩ := h
    exact hm
  rw [issueStep_atWord (atWord_ready h) hm]
  exact (issueStep_atWord (errs := []) (s := strike errs s) (atWord_ready h) hm).symm

end

end Sys2Proof.Machine

/-- Settles O6: at a word it can fetch the sequencer leaves another row's command without effect, discards, stalls, or issues; and
storage errors strike before all that. -/
theorem issueRules : Obligations.IssueRules := by
  intro c m w w1 s k atWord
  have hword (h : atWord) : AtWord c w w1 s := by
    obtain ⟨hrun, hdom, -, hfw, hfetch, hpump⟩ := h
    exact ⟨hrun, hdom, hfw, hfetch, hpump⟩
  have hexec (h : atWord) (hm : issueMn k w w1 = some m) : exec (rowOf m c []) s = .next (issueWord c m w w1 s) := by
    rw [exec_rowOf, issueStep_atWord (errs := []) (hword h) hm]
    rfl
  refine ⟨fun m' h hm hne => ?other, fun h hm hpend hpred => ?discarded, fun h hm hne hpend => ?predicate,
    fun r h hm hpred hpend hpair hr hbusy => ?register, fun h hm hpred hpendP hpendS hpair hkind hfull => ?queue,
    fun errs h => ?struck⟩
  case other => rw [exec_rowOf, issueStep_otherRow (hword h) hm hne]
  case discarded => rw [hexec h hm, issueWord_discards hpend hpred]
  case predicate => rw [hexec h hm, issueWord_stallsOnPredicate hne hpend]
  case register => rw [hexec h hm, issueWord_stallsOnRegister hpred hpair hpend hr hbusy]
  case queue => rw [hexec h hm, issueWord_stallsOnQueue hpred hpair hpendP hpendS hkind hfull]
  case struck => rw [exec_rowOf, exec_rowOf, issueStep_strikes h]

/-- Settles O18: with nothing pending and its predicate 1, an illegal word comes to the sequencer's trap. -/
theorem illegalWordTraps : Obligations.IllegalWordTraps := by
  intro c w w1 s k hrun hdom hqueues hpend hfw hfetch hm hpred
  exact congrArg Host.Outcome.next (issueStep_illegal ⟨hrun, hdom, hfw, hfetch, pumpN_idle hqueues 97⟩ hm hpend hpred)
end

section
/-! SUPPORT. What the sequencer resolves itself at issue (R245, R250, R254, R258, R259): branches, calls, loops and waits. -/

open Sys2Proof Sys2Proof.Machine Sys2Proof.Safety

namespace Sys2Proof.Machine

section
variable (c : CoreId) (m : Mn) (w : Word) (s : State)

theorem resolved_pc : ((resolved c m w s).core c).pc = (s.core c).pc := by
  rw [resolved_core]
  rfl

theorem resolved_rets : ((resolved c m w s).core c).rets = (s.core c).rets := by
  rw [resolved_core]
  rfl

theorem resolved_loops : ((resolved c m w s).core c).loops = (s.core c).loops := by
  rw [resolved_core]
  rfl

theorem resolved_active : ((resolved c m w s).core c).active = (s.core c).active := by
  rw [resolved_core]
  rfl

theorem resolved_queues : ((resolved c m w s).core c).queues = (s.core c).queues := by
  rw [resolved_core]
  rfl

theorem rdS_resolved (r : Nat) : rdS ((resolved c m w s).core c) r = rdS (s.core c) r := by
  rw [resolved_core]
  rfl

end

theorem branchTo_below {t : Nat} (h : t < 2 ^ 20) (k : CoreSt) :
    branchTo t k = { k with pc := t, loops := k.loops.filter fun l => decide (l.start ≤ t) && decide (t < l.stop) } := by
  simp only [branchTo, Nat.mod_eq_of_lt h]

theorem relTarget_lt (np : Nat) (w : Word) : relTarget np w < 2 ^ 20 := by
  unfold relTarget
  omega

theorem fld_lt (v : Word) (hi lo : Nat) : fld v hi lo < 2 ^ (hi + 1 - lo) := by
  unfold fld
  exact Nat.mod_lt _ (Nat.two_pow_pos _)

/-- A core that runs nothing and whose queues are empty has nothing to wait for (R250). -/
theorem qwaitDone_idle {k : CoreSt} (hq : idleQueues k) (ha : k.active = []) (mask limit : Nat) :
    qwaitDone k mask limit = true := by
  simp [qwaitDone, queueOf_idle hq, ha]

section
variable (c : CoreId) (w : Word) (s : State)

theorem control_br : control c .br w s = s.modCore c (branchTo (relTarget ((s.core c).pc + 1) w)) := rfl

theorem control_brr : control c .brr w s = s.modCore c (branchTo (fld (rdS (s.core c) (iA w)) 19 0)) := rfl

theorem control_loop : control c .loop w s =
    pushLoop c (s.core c).pc ((s.core c).pc + 1) (low32 (rdS (s.core c) (iA w))) (fld w 43 32) w s := rfl

theorem control_loopi : control c .loopi w s =
    pushLoop c (s.core c).pc ((s.core c).pc + 1) (fld w 63 44) (fld w 43 32) w s := rfl

theorem control_frameWait : control c .frameWait w s = (s.modCore c (advance ((s.core c).pc + 1))).modCore c fun k =>
    { k with issue := .frameWait (iD w) (s.core c).pc w } := rfl

variable {c w s}

theorem control_call (h : (s.core c).rets.length < 8) : control c .call w s = s.modCore c fun k =>
    { k with rets := (((s.core c).pc + 1) % 2 ^ 20) :: k.rets, pc := relTarget ((s.core c).pc + 1) w } :=
  if_neg (Nat.not_le.mpr h)

theorem control_call_deep (h : 8 ≤ (s.core c).rets.length) :
    control c .call w s = coreTrap c trapCallDepth 7 (s.core c).pc w 0 s :=
  if_pos h

theorem control_ret {r : Nat} {rs : List Nat} (h : (s.core c).rets = r :: rs) :
    control c .ret w s = s.modCore c fun k => { k with rets := rs, pc := r } := by
  simp only [control, h]

theorem control_ret_none (h : (s.core c).rets = []) :
    control c .ret w s = coreTrap c trapCallDepth 7 (s.core c).pc w 0 s := by
  simp only [control, h, seqTrap]

theorem control_qwait (hq : idleQueues (s.core c)) (ha : (s.core c).active = []) :
    control c .qwait w s = s.modCore c (advance ((s.core c).pc + 1)) :=
  if_pos (qwaitDone_idle hq ha _ _)

section
variable {pc np cnt len : Nat}

theorem pushLoop_none : pushLoop c pc np 0 len w s = s.modCore c fun k => { k with pc := (np + len) % 2 ^ 20 } := if_pos rfl

theorem pushLoop_pushes (hcnt : cnt ≠ 0) (h : (s.core c).loops.length < 4) : pushLoop c pc np cnt len w s =
    s.modCore c fun k => { k with loops := ⟨np, np + len, cnt⟩ :: k.loops, pc := np % 2 ^ 20 } :=
  (if_neg hcnt).trans (if_neg (Nat.not_le.mpr h))

theorem pushLoop_deep (hcnt : cnt ≠ 0) (h : 4 ≤ (s.core c).loops.length) :
    pushLoop c pc np cnt len w s = coreTrap c trapLoopDepth 7 pc w 0 s :=
  (if_neg hcnt).trans (if_pos h)

end
end

end Sys2Proof.Machine

/-- Settles O14: what the sequencer resolves itself is a change of its own core, from the pc, the stacks and the registers that the
count of the issue has left alone. -/
theorem controlResults : Obligations.ControlResults := by
  intro c w w1 s k np target reg pop
  have hpc (m : Mn) : ((resolved c m w s).core c).pc + 1 = np := congrArg (· + 1) (resolved_pc c m w s)
  refine ⟨fun h => ?br, fun h => ?brr, fun h hroom => ?call, fun r rs h hrets => ?ret, fun h hcnt hroom => ?loop,
    fun h hcnt => ?passed, fun h hcnt hroom => ?loopi, fun h => ?qwait, fun h => ?frameWait⟩
  case br =>
    rw [exec_control h rfl rfl, control_br, hpc]
    exact congrArg Host.Outcome.next (modCore_congr (branchTo_below (relTarget_lt np w) _))
  case brr =>
    rw [exec_control h rfl rfl, control_brr, rdS_resolved]
    exact congrArg Host.Outcome.next (modCore_congr (branchTo_below (fld_lt _ 19 0) _))
  case call =>
    rw [exec_control h rfl rfl, control_call (by rwa [resolved_rets]), hpc]
    rfl
  case ret => rw [exec_control h rfl rfl, control_ret (by rwa [resolved_rets])]
  case loop =>
    rw [exec_control h rfl rfl, control_loop, hpc, pushLoop_pushes (by rwa [rdS_resolved]) (by rwa [resolved_loops])]
    exact congrArg Host.Outcome.next (modCore_congr rfl)
  case passed => rw [exec_control h rfl rfl, control_loop, rdS_resolved, hpc, hcnt, pushLoop_none]
  case loopi => rw [exec_control h rfl rfl, control_loopi, hpc, pushLoop_pushes hcnt (by rwa [resolved_loops])]
  case qwait =>
    have hready := h
    obtain ⟨-, -, hqueues, hactive, -⟩ := hready
    rw [exec_control h rfl rfl, control_qwait (by rwa [idleQueues, resolved_queues]) (by rwa [resolved_active]), hpc]
  case frameWait =>
    rw [exec_control h rfl rfl, control_frameWait, hpc, resolved_pc, modCore_modCore]

/-- Settles O15: the stacks are full or empty as they were before the issue, and TRAP's unit answers with its argument. -/
theorem controlTraps : Obligations.ControlTraps := by
  intro c w w1 s k
  refine ⟨fun h hfull => ?call, fun h hnone => ?ret, fun h hcnt hfull => ?loop, fun h hcnt hfull => ?loopi, fun h => ?trap⟩
  case call => rw [exec_control h rfl rfl, control_call_deep (by rwa [resolved_rets]), resolved_pc]
  case ret => rw [exec_control h rfl rfl, control_ret_none (by rwa [resolved_rets]), resolved_pc]
  case loop =>
    rw [exec_control h rfl rfl, control_loop, rdS_resolved, pushLoop_deep hcnt (by rwa [resolved_loops]), resolved_pc]
  case loopi => rw [exec_control h rfl rfl, control_loopi, pushLoop_deep hcnt (by rwa [resolved_loops]), resolved_pc]
  case trap =>
    rw [exec_trapped startTrap h rfl rfl (fun _ _ => rfl) rfl, issuedOp_w0]
end

section
/-! SUPPORT. Semaphores (R251 to R253): what WAIT, SIG and SIGR answer on a core whose queues hold nothing else. -/

open Sys2Proof Sys2Proof.Machine Sys2Proof.Safety

namespace Sys2Proof.Machine

theorem semOf_congr {j k : CoreSt} (h : j.sems = k.sems) (t : Nat) : semOf j t = semOf k t := by
  unfold semOf
  simp only [h]

@[simp] theorem issued_semOf (c : CoreId) (m : Mn) (w w1 : Word) (s : State) (t : Nat) :
    semOf ((issued c m w w1 s).core c) t = semOf (s.core c) t := semOf_congr (issued_sems ..) t

@[simp] theorem issued_peerCore (c : CoreId) (m : Mn) (w w1 : Word) (s : State) (l : Nat) :
    peerCore (issued c m w w1 s) c l = peerCore s c l := by
  simp only [peerCore, issued_actReg]

theorem queueBusy_none {k : CoreSt} (h : k.active = []) (q : Nat) : queueBusy k q = false := by
  simp [queueBusy, h]

/-- The signal of a SIGR that names another device, as it leaves for the links (R253). -/
def remoteSignal (c : CoreId) (o : Op) (s : State) : Msg :=
  { kind := .signal, src := .core c, dst := .dev (fld o.b 7 0) (fld o.b 15 8) (fld o.a 4 0), seq := o.seq,
    slot := (s.core c).slot, idx := iT o.w0, k := iN o.w0, stamp := (s.core c).cur.toNat % 256 }

section
variable {c : CoreId} {o : Op} {s : State}

theorem startWait_ready (h : iN o.w0 ≤ (semOf (s.core c) (iT o.w0)).count) : startWait c o s = .done (s.modCore c fun k =>
    setSem k (iT o.w0) { semOf k (iT o.w0) with count := (semOf k (iT o.w0)).count - iN o.w0 }) :=
  (if_neg (Nat.not_lt.mpr h)).trans (congrArg _ (modCore_congr rfl))

theorem startWait_holds (h : ¬iN o.w0 ≤ (semOf (s.core c) (iT o.w0)).count) : startWait c o s = .hold :=
  if_pos (Nat.lt_of_not_le h)

/-- The signal of a placed core to itself carries its own frame and slot: it adds to the count. -/
theorem selfSignal_counts (hplaced : (s.core c).issue ≠ .unplaced) (hroom : (semOf (s.core c) (iT o.w0)).count + iN o.w0 ≤ 65535) :
    selfSignal c o s = .done (s.modCore c fun k =>
      setSem k (iT o.w0) { semOf k (iT o.w0) with count := (semOf k (iT o.w0)).count + iN o.w0 }) := by
  have hnow : ((s.core c).cur.toNat % 256 + 256 - (s.core c).cur.toNat % 256) % 256 = 0 := by omega
  simp only [selfSignal, addSignal, hnow, Nat.min_eq_right hroom, Nat.not_lt.mpr hroom, gt_iff_lt]
  simp [hplaced, State.modCore]

section
variable (hidle : (s.core c).active = [])
include hidle

theorem startSig_idle : startSig c o s = selfSignal c o s := if_neg (by simp [queueBusy_none hidle])

section
variable (hrd : iYrd o.w0 = false)
include hrd

/-- SIGR without a coordinate goes by the core's own map. -/
theorem startSigr_mapped : startSigr c o s = match peerCore s c (fld o.a 4 0) with
    | none => .trap trapDenied 0 s
    | some t =>
      if t = c then selfSignal c o s
      else if !reachable s t then .trap trapDenied 0 s
      else .done (s.send { kind := .signal, src := .core c, dst := .core t, slot := (s.core c).slot, idx := iT o.w0, k := iN o.w0,
                           stamp := (s.core c).cur.toNat % 256 }) := by
  simp only [startSigr, queueBusy_none hidle, hrd]
  rfl

theorem startSigr_self (hp : peerCore s c (fld o.a 4 0) = some c) : startSigr c o s = selfSignal c o s := by
  rw [startSigr_mapped hidle hrd, hp]
  exact if_pos rfl

theorem startSigr_unmapped (hp : peerCore s c (fld o.a 4 0) = none) : startSigr c o s = .trap trapDenied 0 s := by
  rw [startSigr_mapped hidle hrd, hp]

variable {t : CoreId} (hp : peerCore s c (fld o.a 4 0) = some t) (hne : t ≠ c)
include hp hne

theorem startSigr_unreachable (hr : reachable s t = false) : startSigr c o s = .trap trapDenied 0 s := by
  rw [startSigr_mapped hidle hrd, hp]
  exact (if_neg hne).trans (if_pos (by rw [hr]; rfl))

theorem startSigr_sends (hr : reachable s t = true) : startSigr c o s = .done (s.send
    { kind := .signal, src := .core c, dst := .core t, slot := (s.core c).slot, idx := iT o.w0, k := iN o.w0,
      stamp := (s.core c).cur.toNat % 256 }) := by
  rw [startSigr_mapped hidle hrd, hp]
  exact (if_neg hne).trans (if_neg (by rw [hr]; decide))

end

/-- SIGR to another device leaves by the port of that device. -/
theorem startSigr_remote (hrd : iYrd o.w0 = true) (hother : ¬(fld o.b 7 0 = s.coordX ∧ fld o.b 15 8 = s.coordY)) :
    startSigr c o s = match transmit (remoteSignal c o s) s with
      | (some s', _) => .done s'
      | (none, s') => .trap trapUnmapped 0 s' := by
  have haway : (fld o.b 7 0 == s.coordX && fld o.b 15 8 == s.coordY) = false := by
    simpa using hother
  simp only [startSigr, queueBusy_none hidle, hrd, haway]
  rfl

end
end

/-! ### Registers above the EVT block right after an issue -/

/-- Raising an event of the event space writes no register of the cores (R359). -/
theorem reg_raiseN_above {o : Nat} (ho : 0x1000000 ≤ o) (n : Nat) {e : Nat} (he : e < 1024) (s : State) :
    (raiseN n e s).reg o = s.reg o := by
  have hdrop : o ≠ Reg.EVT_VEC_DROP := Nat.ne_of_gt (Nat.lt_of_lt_of_le (by decide) ho)
  induction n generalizing e s with
  | zero => rfl
  | succ n ih =>
    have hne : o ≠ Reg.EVT_PEND + 4 * (e / 32) := by
      simp only [Reg.EVT_PEND]
      omega
    have hpend : (s.setPend e).reg o = s.reg o := reg_setReg_ne _ _ hne
    have hchain := ih (show 0x03A < 1024 by decide)
    simp [raiseN, hchain, reg_setReg_ne, hdrop, hpend, apply_ite (sget o), apply_ite fun x => Option.getD x (regReset o)]

/-- A core's counter overflows into its core's own event. -/
theorem ovfEvent_core (c : CoreId) {o : Nat} (ho : o / 0x100000 = 16) : ovfEvent (coreOff o c) < 1024 := by
  have hblock : coreOff o c / 0x100000 = 16 + c.val := by
    unfold coreOff
    omega
  unfold ovfEvent
  rw [hblock]
  split <;> omega

theorem reg_bumpC_above {o p : Nat} (c : CoreId) (ho : 0x1000000 ≤ o) (hp : p / 0x100000 = 16) (hne : o ≠ coreOff p c) (s : State) :
    (bumpC c p s).reg o = s.reg o := by
  simp [bumpC, bump, bumpN, raise, reg_raiseN_above ho 2 (ovfEvent_core c hp), reg_setReg_ne _ _ hne]

section
variable (c : CoreId) (m : Mn) (w w1 : Word) (s : State) (t : CoreId)

@[simp] theorem issued_coreStat : (issued c m w w1 s).reg (coreOff Reg.CORE_STAT t) = s.reg (coreOff Reg.CORE_STAT t) := by
  have hne : coreOff Reg.CORE_STAT t ≠ coreOff Reg.SEQ_ISSUE_CNT c := by
    simp only [coreOff, Reg.CORE_STAT, Reg.SEQ_ISSUE_CNT]
    omega
  exact (reg_bumpC_above c (Nat.le_add_right_of_le (by decide)) (by decide) hne _).trans (reg_modCore ..)

@[simp] theorem issued_domRun {d : Nat} (hd : d < 48) : domRun (issued c m w w1 s) d = domRun s d := by
  have hbelow : Reg.PWR_DOM_STAT + 8 * d < Reg.EVT_PEND := by
    simp only [Reg.PWR_DOM_STAT, Reg.EVT_PEND]
    omega
  have hne : Reg.PWR_DOM_STAT + 8 * d ≠ coreOff Reg.SEQ_ISSUE_CNT c := by
    simp only [coreOff, Reg.PWR_DOM_STAT, Reg.SEQ_ISSUE_CNT]
    omega
  have hreg : (issued c m w w1 s).reg (Reg.PWR_DOM_STAT + 8 * d) = s.reg (Reg.PWR_DOM_STAT + 8 * d) :=
    (reg_bump_other hbelow hne _).trans (reg_modCore ..)
  simp only [domRun, State.regF, hreg]

@[simp] theorem issued_reachable : reachable (issued c m w w1 s) t = reachable s t := by
  simp only [reachable, inService, inRotation, issued_coreStat, issued_domRun c m w w1 s (show t.val < 48 by omega)]

end

/-! ### A signal right after its issue -/

section
variable {c : CoreId} {m : Mn} {w w1 : Word} {s : State} (h : Ready c m w w1 s)
include h

theorem ready_issued_active : ((issued c m w w1 s).core c).active = [] := by
  obtain ⟨-, -, -, hactive, -⟩ := h
  exact (issued_active ..).trans hactive

theorem ready_issued_placed : ((issued c m w w1 s).core c).issue ≠ .unplaced := by
  obtain ⟨hrun, -⟩ := h
  simp [hrun]

end

end Sys2Proof.Machine

/-- Settles O16: right after its issue the core runs nothing else and has its semaphores, its map and its frame as before, so that
each instruction's unit answers at once. -/
theorem signalResults : Obligations.SignalResults := by
  intro c w w1 s k stamp dst
  have hsignal (m : Mn) (h : Ready c m w w1 s) (hroom : (semOf k (iT w)).count + iN w ≤ 65535) :
      selfSignal c (issuedOp c m w w1 s) (issued c m w w1 s) = .done ((issued c m w w1 s).modCore c fun k =>
        setSem k (iT w) { semOf k (iT w) with count := (semOf k (iT w)).count + iN w }) := by
    have hdone := selfSignal_counts (o := issuedOp c m w w1 s) (ready_issued_placed h) (by rwa [issuedOp_w0, issued_semOf])
    rwa [issuedOp_w0] at hdone
  have hw0 := issuedOp_w0 c .sigr w w1 s
  have hseq := issuedOp_seq c .sigr w w1 s
  have ha : (issuedOp c .sigr w w1 s).a = rdS k (iYa w) := rfl
  have hb : (issuedOp c .sigr w w1 s).b = rdS k (iYb w) := rfl
  refine ⟨fun h => ?wait, fun m i hrow h hself hroom => ?self, fun t h hrd hp hne hr => ?unreachable, ?remote,
    fun t h hrd hp hne hr => ?sends, fun h hrd hp => ?unmapped⟩
  case wait =>
    rw [exec_unit startWait h rfl rfl (fun _ _ => rfl)]
    by_cases hn : iN w ≤ (semOf k (iT w)).count
    · rw [if_pos hn, startWait_ready (by rwa [issuedOp_w0, issued_semOf]), issuedOp_w0]
      rfl
    · rw [if_neg hn, startWait_holds (by rwa [issuedOp_w0, issued_semOf])]
      rfl
  case self =>
    simp only [List.mem_cons, List.not_mem_nil, or_false, Prod.mk.injEq] at hrow
    obtain ⟨rfl, rfl⟩ | ⟨rfl, rfl⟩ := hrow
    · exact exec_done startSig h rfl rfl (fun _ _ => rfl) ((startSig_idle (ready_issued_active h)).trans (hsignal _ h hroom))
    · obtain ⟨hrd, hp⟩ := hself rfl
      exact exec_done startSigr h rfl rfl (fun _ _ => rfl) ((startSigr_self (ready_issued_active h) (by rwa [hw0])
        (by rwa [ha, issued_peerCore])).trans (hsignal _ h hroom))
  case unreachable =>
    exact exec_trapped startSigr h rfl rfl (fun _ _ => rfl) (startSigr_unreachable (ready_issued_active h) (by rwa [hw0])
      (by rwa [ha, issued_peerCore]) hne (by rwa [issued_reachable]))
  case remote =>
    intro u y x r h hrd hother
    have hsent : remoteSignal c (issuedOp c .sigr w w1 s) u = { kind := .signal, src := .core c, dst := .dev x y dst,
                                                                 seq := k.nextSeq, slot := k.slot, idx := iT w, k := iN w,
                                                                 stamp := stamp } := by
      simp only [remoteSignal, hw0, hseq, ha, hb, u, issued_slot, issued_cur]
      rfl
    rw [exec_unit startSigr h rfl rfl (fun _ _ => rfl), startSigr_remote (ready_issued_active h) (by rwa [hw0])
      (by rwa [hb, issued_coordX, issued_coordY]), hsent]
    change Host.Outcome.next (ran c k.pc w u (match r with
      | (some s', _) => .done s'
      | (none, s') => .trap trapUnmapped 0 s')) = _
    obtain ⟨v | v, t⟩ := r <;> rfl
  case sends =>
    have hdone := startSigr_sends (o := issuedOp c .sigr w w1 s) (ready_issued_active h) (by rwa [hw0])
      (by rwa [ha, issued_peerCore]) hne (by rwa [issued_reachable])
    rw [hw0, issued_slot, issued_cur] at hdone
    exact exec_done startSigr h rfl rfl (fun _ _ => rfl) hdone
  case unmapped =>
    exact exec_trapped startSigr h rfl rfl (fun _ _ => rfl) (startSigr_unmapped (ready_issued_active h) (by rwa [hw0])
      (by rwa [ha, issued_peerCore]))
end

section
/-! SUPPORT. The ends of a core's waits (R250, R252, R254). -/

open Sys2Proof Sys2Proof.Machine Sys2Proof.Safety

namespace Sys2Proof.Machine

section
variable {c : CoreId} {s : State}

theorem qwaitRelease_done {mask limit : Nat} (hwait : (s.core c).issue = .qwait mask limit) (hq : idleQueues (s.core c))
    (ha : (s.core c).active = []) : qwaitRelease c [] s = s.modCore c fun k => { k with issue := .running } := by
  have hpump : pump c (strike [] s) = s := pumpN_idle hq 97
  simp only [qwaitRelease, hpump, hwait]
  exact if_pos (qwaitDone_idle hq ha mask limit)

/-- The return of FRAME_WAIT waits for empty queues. -/
theorem idleQueues_of_frameWaitReady (h : frameWaitReady s c = true) : idleQueues (s.core c) := by
  simp only [frameWaitReady, Bool.and_eq_true] at h
  obtain ⟨⟨⟨⟨⟨-, hqueues⟩, -⟩, -⟩, -⟩, -⟩ := h
  refine Vector.ext fun i hi => ?_
  rw [Vector.getElem_replicate]
  exact List.isEmpty_iff.mp (List.all_eq_true.mp hqueues _ (by simp))

/-- Held counts that the semaphores can take join the counts as they are. -/
theorem sems_returned {k : CoreSt} (hroom : ∀ t, t < 16 → (semOf k t).count + (semOf k t).held ≤ 65535) :
    (k.sems.map fun v : Sem => (⟨min 65535 (v.count + v.held), 0⟩ : Sem)) = k.sems.map fun v => ⟨v.count + v.held, 0⟩ := by
  refine Vector.ext fun i hi => ?_
  have hsem := hroom i hi
  simp only [semOf, hi, dif_pos] at hsem
  simp [Nat.min_eq_right hsem]

theorem frameWaitReturn_returns {d pc : Nat} {w : Word} (hwait : (s.core c).issue = .frameWait d pc w)
    (hready : frameWaitReady s c = true) (hroom : ∀ t, t < 16 → (semOf (s.core c) t).count + (semOf (s.core c) t).held ≤ 65535) :
    frameWaitReturn c [] s = wrS c d ((s.core c).capFrame.zeroExtend 64) (s.modCore c fun k =>
      { k with cur := k.capFrame, sems := k.sems.map fun v => ⟨v.count + v.held, 0⟩, ledger := [], fwDone := true,
               committed := none, issue := .running }) := by
  have hpump : pump c (strike [] s) = s := pumpN_idle (idleQueues_of_frameWaitReady hready) 97
  have hnone : ((List.range 16).any fun t =>
      decide ((semOf (s.core c) t).count + (semOf (s.core c) t).held > 65535)) = false := by
    rw [List.any_eq_false]
    intro t ht
    simpa using hroom t (List.mem_range.mp ht)
  simp only [frameWaitReturn, hpump, hwait, hready, hnone, core_modCore]
  simp only [State.modCore, sems_returned hroom]
  rfl

/-- A core that runs nothing has nothing to complete and nothing to send. -/
theorem settle_idle (ha : (s.core c).active = []) : settle c s = pump c s := by
  simp [settle, complete, resumeTodo, ha]

/-- A WAIT alone in its queue runs once its semaphore has the count. -/
theorem settle_wait {q : Nat} {o : Op} (h : oneOp c q o s) (hm : o.mn = .wait)
    (hcount : iN o.w0 ≤ (semOf (s.core c) (iT o.w0)).count) : settle c s = (s.modCore c fun k =>
      setSem k (iT o.w0) { semOf k (iT o.w0) with count := (semOf k (iT o.w0)).count - iN o.w0 }).modCore c fun k =>
        { k with queues := Vector.replicate 6 [] } := by
  have hq : (s.core c).active = [] := by
    obtain ⟨-, -, ha, -⟩ := h
    exact ha
  have hstart : startOp c o s = startWait c o s := startOp_unit startWait (fun _ _ => rfl) hm s
  have hempty : setQueue (setSem (s.core c) (iT o.w0) { semOf (s.core c) (iT o.w0) with
      count := (semOf (s.core c) (iT o.w0)).count - iN o.w0 }) q [] = { setSem (s.core c) (iT o.w0)
        { semOf (s.core c) (iT o.w0) with count := (semOf (s.core c) (iT o.w0)).count - iN o.w0 } with
          queues := Vector.replicate 6 [] } := by
    obtain ⟨h6, hqs, -, -⟩ := h
    simp [setQueue, h6, hqs]
  rw [settle_idle hq]
  refine pump_one h ((startHead_one h).trans ?_) ?_
  · rw [hstart, startWait_ready hcount]
    exact congrArg some (modCore_congr (by rw [core_modCore]; exact hempty))
  · simp [idleQueues]

end

end Sys2Proof.Machine

/-- Settles O19: with nothing in its queues a waiting core is released as its condition holds, and a WAIT alone at the head of its
queue runs. -/
theorem waitReleases : Obligations.WaitReleases := by
  intro c s k
  refine ⟨fun mask limit hwait hq ha => ?qwait, fun d pc w hwait hready hroom => ?frameWait,
    fun q o hq hqueues ha hissue hm hcount => ?wait⟩
  case qwait => exact congrArg Host.Outcome.next (qwaitRelease_done hwait hq ha)
  case frameWait => exact congrArg Host.Outcome.next (frameWaitReturn_returns hwait hready hroom)
  case wait => exact congrArg Host.Outcome.next (settle_wait (s := s) ⟨hq, hqueues, ha, hissue⟩ hm hcount)
end


section
/-! SUPPORT. Events (R359): a pending bit stays set under later events, and what raising an event that is not pending does. -/

open Sys2Proof Sys2Proof.Machine

namespace Sys2Proof.Machine

/-! ### Pending bits -/

theorem isPend_congr {s t : State} (h : t.regs = s.regs) (e : Nat) : t.isPend e = s.isPend e := by
  simp only [State.isPend, State.reg, h]

/-- An event's pending register lies below the counter of dropped vectors. -/
theorem pendReg_ne_vecDrop {e : Nat} (he : e < 1024) : Reg.EVT_PEND + 4 * (e / 32) ≠ Reg.EVT_VEC_DROP := by
  have hp : Reg.EVT_PEND = 0xF01000 := rfl
  have hv : Reg.EVT_VEC_DROP = 0xF01100 := rfl
  omega

/-- An event's route lies below the pending registers. -/
theorem routeReg_below {e : Nat} (he : e < 1024) : Reg.EVT_ROUTE + 4 * e < Reg.EVT_PEND := by
  have hp : Reg.EVT_PEND = 0xF01000 := rfl
  have hr : Reg.EVT_ROUTE = 0xF00000 := rfl
  omega

theorem isPend_setPend_self (e : Nat) (s : State) : (s.setPend e).isPend e = true := by
  have hlt : e % 32 < 64 := Nat.lt_trans (Nat.mod_lt e (by decide)) (by decide)
  have hbit : (BitVec.ofNat 64 (2 ^ (e % 32))).getLsbD (e % 32) = true := by
    rw [BitVec.getLsbD_ofNat, Nat.testBit_two_pow_self, decide_eq_true hlt, Bool.and_self]
  rw [State.isPend, State.setPend, reg_setReg_self, BitVec.getLsbD_or, hbit, Bool.or_true]

theorem isPend_setPend_of {e : Nat} (j : Nat) {s : State} (h : s.isPend e = true) : (s.setPend j).isPend e = true := by
  unfold State.isPend at h ⊢
  rw [State.setPend, reg_setReg]
  split
  case isTrue heq => rw [← heq, BitVec.getLsbD_or, h, Bool.true_or]
  case isFalse => exact h

theorem isPend_vecDrop {e : Nat} (he : e < 1024) (v : Word) (s : State) :
    (s.setReg Reg.EVT_VEC_DROP v).isPend e = s.isPend e := by
  rw [State.isPend, reg_setReg_ne _ _ (pendReg_ne_vecDrop he), State.isPend]

/-! ### An event's message -/

/-- The function whose vector a route names: 0 where there is no such function. -/
def routeFn (r : Word) : Nat := if fld r 11 8 ≥ 9 then 0 else fld r 11 8

/-- What a route `r` does with its event beside the firmware's note: nothing, an MSI-X message, the message's pending bit, or the
count of a dropped vector, with at most `k` events behind it. -/
def routed (k : Nat) (r : Word) (s : State) : State :=
  let fn := routeFn r
  let vec := fld r 7 0
  if !bitOf r 12 then s
  else if vec ≥ msixSize s.pcie fn then
    let v := s.reg Reg.EVT_VEC_DROP
    let s := s.setReg Reg.EVT_VEC_DROP (cntAdd v 1)
    if cntSaturates v 1 then raiseN k 0x03A s else s
  else if !s.pcie.linkUp then s
  else if s.pcie.masked.contains (fn, vec) || s.pcie.d3hot.contains fn then
    { s with pcie := { s.pcie with msixPend := (fn, vec) :: s.pcie.msixPend.erase (fn, vec) } }
  else s.emit (.msix fn vec)

/-- The firmware's note of event `e`, where its route `r` asks for one. -/
def fwNoted (r : Word) (e : Nat) (s : State) : State := if bitOf r 13 then { s with fwNotes := s.fwNotes ++ [e] } else s

theorem raiseN_succ (k e : Nat) (s : State) : raiseN (k + 1) e s =
    if s.isPend e then s
    else fwNoted ((s.setPend e).reg (Reg.EVT_ROUTE + 4 * e)) e (routed k ((s.setPend e).reg (Reg.EVT_ROUTE + 4 * e))
      (s.setPend e)) := rfl

theorem isPend_fwNoted (r : Word) (e j : Nat) (s : State) : (fwNoted r j s).isPend e = s.isPend e := by
  unfold fwNoted
  split
  · exact isPend_congr rfl e
  · rfl

/-- The route leaves the pending bits that the events behind it leave set. -/
theorem isPend_routed {e : Nat} (he : e < 1024) {k : Nat}
    (hchain : ∀ j (t : State), t.isPend e = true → (raiseN k j t).isPend e = true) (r : Word) {s : State}
    (h : s.isPend e = true) : (routed k r s).isPend e = true := by
  have hcount : ∀ v, (s.setReg Reg.EVT_VEC_DROP v).isPend e = true := fun v => (isPend_vecDrop he v s).trans h
  unfold routed
  dsimp only
  split
  · exact h
  split
  · split
    · exact hchain _ _ (hcount _)
    · exact hcount _
  split
  · exact h
  split
  · exact (isPend_congr rfl e).trans h
  · exact (isPend_congr rfl e).trans h

/-- A pending bit stays set while events are raised (R359). -/
theorem isPend_raiseN_of {e : Nat} (he : e < 1024) (k j : Nat) {s : State} (h : s.isPend e = true) :
    (raiseN k j s).isPend e = true := by
  induction k generalizing j s with
  | zero => exact h
  | succ k ih =>
    rw [raiseN_succ]
    split
    · exact h
    · rw [isPend_fwNoted]
      exact isPend_routed he (fun j t ht => ih j ht) _ (isPend_setPend_of j h)

theorem raise_of_pend {e : Nat} {s : State} (h : s.isPend e = true) : raise e s = s := by
  rw [raise, raiseN_succ, if_pos h]

theorem raise_of_notPend {e : Nat} {s : State} (h : s.isPend e = false) (he : e < 1024) :
    raise e s = fwNoted (s.reg (Reg.EVT_ROUTE + 4 * e)) e (routed 1 (s.reg (Reg.EVT_ROUTE + 4 * e)) (s.setPend e)) := by
  have hroute : (s.setPend e).reg (Reg.EVT_ROUTE + 4 * e) = s.reg (Reg.EVT_ROUTE + 4 * e) :=
    reg_setReg_ne _ _ (Nat.ne_of_lt (Nat.lt_add_right _ (routeReg_below he)))
  rw [raise, raiseN_succ, if_neg (by rw [h]; decide), hroute]

/-- After it has been raised, an event is pending. -/
theorem isPend_raise_self {e : Nat} (he : e < 1024) (s : State) : (raise e s).isPend e = true := by
  cases h : s.isPend e with
  | true => rw [raise_of_pend h, h]
  | false =>
    rw [raise_of_notPend h he, isPend_fwNoted]
    exact isPend_routed he (fun j t ht => isPend_raiseN_of he 1 j ht) _ (isPend_setPend_self e s)

section
variable {k : Nat} {r : Word} {s : State}

theorem routed_noMessage (h12 : bitOf r 12 = false) : routed k r s = s := by simp [routed, h12]

variable (h12 : bitOf r 12 = true) (hvec : fld r 7 0 < msixSize s.pcie (routeFn r)) (hlink : s.pcie.linkUp = true)
include h12 hvec hlink

theorem routed_sent (hmask : s.pcie.masked.contains (routeFn r, fld r 7 0) = false)
    (hd3 : s.pcie.d3hot.contains (routeFn r) = false) : routed k r s = s.emit (.msix (routeFn r) (fld r 7 0)) := by
  simp only [routed, h12, hlink, hmask, hd3, Nat.not_le.mpr hvec, Bool.not_true, Bool.false_eq_true, Bool.or_false, if_false]

theorem routed_masked (hmask : s.pcie.masked.contains (routeFn r, fld r 7 0) = true) : routed k r s =
    { s with pcie := { s.pcie with msixPend := (routeFn r, fld r 7 0) :: s.pcie.msixPend.erase (routeFn r, fld r 7 0) } } := by
  simp only [routed, h12, hlink, hmask, Nat.not_le.mpr hvec, Bool.not_true, Bool.false_eq_true, Bool.true_or, if_false,
    if_true]

end

end Sys2Proof.Machine

/-- Settles O40: an event that is not pending goes through its route, `raise_of_notPend`; pending bits stay set under the events
behind it. -/
theorem eventRules : Obligations.EventRules := by
  intro e s he
  refine ⟨raise_of_pend, ?silent, ?sent, ?masked, isPend_raise_self he s⟩
  case silent =>
    intro hnot h12
    exact (raise_of_notPend hnot he).trans (congrArg (fwNoted _ e) (routed_noMessage h12))
  case sent =>
    intro hnot h12 hvec hlink hmask hd3
    exact (raise_of_notPend hnot he).trans (congrArg (fwNoted _ e) (routed_sent h12 hvec hlink hmask hd3))
  case masked =>
    intro hnot h12 hvec hlink hmask
    exact (raise_of_notPend hnot he).trans (congrArg (fwNoted _ e) (routed_masked h12 hvec hlink hmask))
end

section
/-! SUPPORT. The memory controller: training, fills, the patrol scrub (R333, R338, R339), and what becomes of a reply. -/

open Sys2Proof Sys2Proof.Machine

namespace Sys2Proof.Machine

/-! ### Training -/

section
variable {s : State} {cfg : Word}

theorem memTrain_idle (h : s.mem.training = none) : memTrain s =
    (s.modMem fun m => { m with training := some (s.reg Reg.MEM_CFG) }).setF Reg.MEM_STAT 0 0 0 := by
  simp [memTrain, h]

theorem memTrain_busy (h : s.mem.training.isSome = true) : memTrain s = accessError s := if_pos h

/-- Is the configuration that training ends with the one that memory was last trained with? -/
def sameTraining (s : State) (cfg : Word) : Bool :=
  match s.mem.trainedCfg with
  | some c => fld c 5 0 == fld cfg 5 0
  | none => false

/-- Training that found no bad channel maps the capacity of its configuration, and keeps the contents that were written under
the same one. -/
theorem memTrained_good (h : s.mem.training = some cfg) : memTrained 0 s =
    ((((s.modMem fun m => { m with training := none }).modMem fun m => { m with
      capGib := memGib cfg, trainedCfg := some cfg, lines := if sameTraining s cfg then m.lines else [] }).setF
        Reg.MEM_STAT 8 1 0).setF Reg.MEM_STAT 15 9 (memGib cfg)).setF Reg.MEM_STAT 0 0 1 := by
  have hnone : (0 : BitVec 8).toNat &&& memChans cfg = 0 := Nat.zero_and _
  simp only [memTrained, h, if_neg (not_not.mpr hnone)]
  rfl

/-- Training with a bad channel maps nothing, shows the channels that failed and raises its event. -/
theorem memTrained_bad (h : s.mem.training = some cfg) {bad : BitVec 8} (hbad : bad.toNat &&& memChans cfg ≠ 0) :
    memTrained bad s = raise evMemTrainFail (((((s.modMem fun m => { m with training := none }).setF Reg.MEM_STAT 8 1
      (bad.toNat &&& memChans cfg)).setF Reg.MEM_STAT 15 9 0)).modMem fun m => { m with capGib := 0 }) := by
  simp only [memTrained, h, if_pos hbad]

/-! ### Fills and the scrub -/

theorem memFill_starts (h16 : bitOf (s.reg Reg.MEM_STAT) 16 = false) (h0 : bitOf (s.reg Reg.MEM_STAT) 0 = true)
    (hbase : s.regF Reg.MEM_FILL_BASE 39 0 % 64 = 0) (hn : 0 < s.regF Reg.MEM_FILL_LINES 29 0)
    (hend : s.regF Reg.MEM_FILL_BASE 39 0 + 64 * s.regF Reg.MEM_FILL_LINES 29 0 ≤ memBytes s) : memFill s =
      (s.modMem fun m => { m with fillNext := s.regF Reg.MEM_FILL_BASE 39 0,
                                  fillLeft := s.regF Reg.MEM_FILL_LINES 29 0 }).setF Reg.MEM_STAT 16 16 1 := by
  have hgood : ¬(s.regF Reg.MEM_FILL_BASE 39 0 % 64 ≠ 0 ∨
      s.regF Reg.MEM_FILL_BASE 39 0 + 64 * s.regF Reg.MEM_FILL_LINES 29 0 > memBytes s ∨
      (!bitOf (s.reg Reg.MEM_STAT) 0) = true) := by
    rw [h0, hbase]
    simpa using hend
  exact (if_neg (by rw [h16]; decide)).trans ((if_neg hgood).trans (if_neg (Nat.ne_of_gt hn)))

theorem memFilled_done (h16 : bitOf (s.reg Reg.MEM_STAT) 16 = true) (ht : s.mem.training = none) : memFilled s =
    ((memPutN s.mem.fillNext (List.replicate s.mem.fillLeft ⟨0, false⟩) s).modMem fun m => { m with fillLeft := 0 }).setF
      Reg.MEM_STAT 16 16 0 :=
  if_neg (by rw [h16, ht]; decide)

/-- A line that a read finds good, or with an error that is corrected, is only counted. -/
theorem memStrike_corrected (a : Nat) (ce : Bool) :
    memStrike [⟨a, false, 0, false, ce, false⟩] s = if ce then bump Reg.MEM_CE_CNT s else s := rfl

theorem memScrub_line (ce : Bool) (hon : bitOf (s.reg Reg.MEM_SCRUB_CFG) 0 = true) (hbytes : 0 < memBytes s)
    (hheld : memHeld s (64 * s.mem.scrubPos) 1 = false) : memScrub false 0 false ce false s =
      bump Reg.MEM_SCRUB_LINES ((if ce then bump Reg.MEM_CE_CNT s else s).modMem fun m =>
        { m with scrubPos := (m.scrubPos + 1) % (memBytes s / 64) }) := by
  have hrun : ¬((!bitOf (s.reg Reg.MEM_SCRUB_CFG) 0) = true ∨ memBytes s = 0 ∨ memHeld s (64 * s.mem.scrubPos) 1 = true) := by
    simp [hon, hheld, Nat.ne_of_gt hbytes]
  have hmem : memBytes (if ce then bump Reg.MEM_CE_CNT s else s) = memBytes s := by
    cases ce
    · rfl
    · exact congrArg (fun m : MemSt => m.capGib * 2 ^ 30) (bump_mem _ _)
  rw [memScrub, if_neg hrun, memStrike_corrected]
  dsimp only
  rw [hmem]

end

/-! ### Replies to the mesh -/

/-- A message to an agent of this device does not reach the messages under way: `transmit` returns the state with the message only
in its first component, and `post` takes the second. -/
theorem post_mesh {r : Msg} (h : ∀ x y c, r.dst ≠ .dev x y c) (u : State) : post r u = u := by
  unfold post transmit
  split
  case h_1 x y c hdst => exact absurd hdst (h x y c)
  case h_2 => rfl

/-- Four GiB of memory, trained, its first half in RUN. -/
def fourGib : State := { State.reset with
  regs := [(Reg.PWR_DOM_STAT + 8 * 41, 0)]
  mem := { State.reset.mem with capGib := 4 } }

/-- An answer of the controller to core 0. -/
def readAnswer : Msg := { kind := .readRsp, src := .mem, dst := .core 0 }

end Sys2Proof.Machine

/-- Settles O36: each command by the lemma of its case; MEM_STAT's fields by the rules of fields. -/
theorem memoryControlResults : Obligations.MemoryControlResults := by
  intro s
  refine ⟨?train, ?busy, ?trained, ?failed, ?fill, ?filled, ?scrub⟩
  case train => exact fun h => congrArg Host.Outcome.next (memTrain_idle h)
  case busy => exact fun h => congrArg Host.Outcome.next (memTrain_busy h)
  case trained =>
    intro cfg h
    refine ⟨_, congrArg Host.Outcome.next (memTrained_good h), rfl, rfl, ?_, ?_, ?_⟩
    · rw [State.setF, reg_setReg_self, bitOf, getLsbD_setFld _ _ _ _ (by decide)]
      rfl
    · intro hsame
      have htrue : sameTraining s cfg = true := by simp [sameTraining, hsame]
      exact if_pos htrue
    · intro hnone
      have hfalse : sameTraining s cfg = false := by simp [sameTraining, hnone]
      exact if_neg (by rw [hfalse]; decide)
  case failed =>
    intro cfg h h0
    have hone : (1 : BitVec 8).toNat &&& memChans cfg = 1 := by simp [memChans, h0]
    have hbad : memTrained 1 s = _ := memTrained_bad h (by rw [hone]; decide)
    rw [hone] at hbad
    refine ⟨_, congrArg Host.Outcome.next hbad, rfl, rfl, ?_⟩
    exact (regF_setF_other 0 _ (Or.inl (by decide))).trans (regF_setF_self _ (by decide) (by decide))
  case fill => exact fun h16 h0 hb hn hend => congrArg Host.Outcome.next (memFill_starts h16 h0 hb hn hend)
  case filled => exact fun h16 ht => congrArg Host.Outcome.next (memFilled_done h16 ht)
  case scrub =>
    exact fun hon hb hheld => ⟨congrArg Host.Outcome.next (memScrub_line false hon hb hheld),
      congrArg Host.Outcome.next (memScrub_line true hon hb hheld)⟩

/-- Refutes O37: with trained memory, an answer to core 0 posted right after reset leaves no message under way. -/
theorem not_memoryLineResults : ¬ Obligations.MemoryLineResults := by
  intro h
  have hmesh : ∀ x y c, readAnswer.dst ≠ .dev x y c := nofun
  obtain ⟨-, -, -, hsent⟩ := h (.core 0) readAnswer fourGib fourGib rfl (by decide) (by decide +kernel)
  have hnet : fourGib.net = fourGib.net ++ [readAnswer] :=
    congrArg State.net ((post_mesh hmesh fourGib).symm.trans (hsent readAnswer hmesh))
  exact absurd hnet (by decide)
end


section
/-! SUPPORT. The safe state (R403): what the abort of every frame leaves alone, and the entry into the safe state and its end. -/

open Sys2Proof Sys2Proof.Machine

namespace Sys2Proof.Machine

/-! ### Operations that leave the test and safe-state record alone -/

theorem test_foldl {β : Type} (l : List β) {g : State → β → State} (h : ∀ s x, (g s x).test = s.test) (s : State) :
    (l.foldl g s).test = s.test :=
  List.foldlRecOn (motive := fun t : State => t.test = s.test) l g rfl fun t ht x _ => (h t x).trans ht

@[simp] theorem linkDrain_test (n : Nat) (p : Idx4) (s : State) : (linkDrain n p s).test = s.test := by
  induction n generalizing s with
  | zero => rfl
  | succ n ih =>
    unfold linkDrain
    dsimp only
    split
    · rfl
    split
    · rfl
    split
    · rfl
    · rw [ih, bump_test]
      rfl

@[simp] theorem linkQueue_test (p : Idx4) (turn : Bool) (k : Packet) (s : State) : (linkQueue p turn k s).test = s.test :=
  linkDrain_test 128 p _

@[simp] theorem forward_test (turn : Idx4 → Bool) (k : Packet) (s : State) : (forward turn k s).test = s.test := by
  unfold forward
  split
  · rfl
  · split
    · exact linkQueue_test _ _ _ _
    · rfl

@[simp] theorem tellDevices_test (ds : List (Nat × Nat)) (op k dec : Nat) (n : BitVec 32) (s : State) :
    (tellDevices ds op k dec n s).test = s.test :=
  test_foldl ds (fun t _ => forward_test _ _ t) s

@[simp] theorem post_test (m : Msg) (s : State) : (post m s).test = s.test := by
  unfold post transmit linkSend
  split
  · split
    next heq =>
      split at heq
      · cases heq
      · split at heq
        · cases heq
          rfl
        · split at heq <;> cases heq
          exact linkQueue_test _ _ _ _
    next heq =>
      split at heq
      · cases heq
        simp
      · split at heq
        · cases heq
        · split at heq <;> cases heq
    next heq =>
      split at heq
      · cases heq
      · split at heq
        · cases heq
        · split at heq <;> cases heq
          dsimp only
          split
          · split <;> rfl
          · rfl
  · rfl

@[simp] theorem logFault_test (ev code inst info : Nat) (s : State) : (logFault ev code inst info s).test = s.test := by
  simp [logFault]

@[simp] theorem sendGateCounts_test (c : CoreId) (s : State) : (sendGateCounts c s).test = s.test :=
  test_foldl _ (g := fun t (_ : Nat × Nat × Nat) => t.send _) (fun _ _ => rfl) s

@[simp] theorem abortCore_test (c : CoreId) (s : State) : (abortCore c s).test = s.test := sendGateCounts_test c s

@[simp] theorem restorePool_test (c : CoreId) (p : Nat) (s : State) : (restorePool c p s).test = s.test :=
  test_foldl _ (fun t _ => post_test _ t) s

@[simp] theorem restorePools_test (k : Nat) (s : State) : (restorePools k s).test = s.test := by
  refine test_foldl _ (fun t c => test_foldl _ (fun v p => ?_) t) s
  split
  · exact restorePool_test c _ v
  · rfl

@[simp] theorem rbStop_test (k : Nat) (s : State) : (rbStop k s).test = s.test := bumpN_test _ _ (rbDrop k s)

@[simp] theorem setFrames_test (k : Nat) (l : List SlotFrame) (s : State) : (s.setFrames k l).test = s.test := by
  unfold State.setFrames
  split <;> rfl

@[simp] theorem ringsClear_test (k : Nat) (s : State) : (ringsClear k s).test = s.test := by rfl

@[simp] theorem mapAbort_test (k : Nat) (s : State) : (mapAbort k s).test = s.test := by rfl

@[simp] theorem smuAbort_test (cores : List CoreId) (s : State) : (smuAbort cores s).test = s.test := by rfl

/-- An abort leaves the causes of the safe state alone. -/
@[simp] theorem abortFrame_test (k : Nat) (n : BitVec 32) (cause core : Nat) (s : State) :
    (abortFrame k n cause core s).test = s.test := by
  cases h : (s.slotFrames k).any fun f => f.frame == n
  case false => rw [abortFrame_notRunning h]
  case true =>
    simp only [abortFrame, h, Bool.not_true, Bool.false_eq_true, if_false, ite_test, raise_test, logFault_test, setReg_test,
      bump_test, ite_self, ringsClear_test, mapAbort_test, smuAbort_test, rbStop_test, restorePools_test]
    exact (test_foldl _ (fun t c => abortCore_test c t) _).trans (setFrames_test _ _ s)

@[simp] theorem safeAbort_test (k : Nat) (n : BitVec 32) (s : State) : (safeAbort k n s).test = s.test := by
  simp only [safeAbort, abortFrame_test, ite_test, tellDevices_test, ite_self]

/-! ### The frames in progress -/

@[simp] theorem forward_frames (turn : Idx4 → Bool) (k : Packet) (s : State) : (forward turn k s).frames = s.frames := by
  unfold forward
  split
  · rfl
  · split
    · exact linkQueue_frames _ _ _ _
    · rfl

@[simp] theorem tellDevices_frames (ds : List (Nat × Nat)) (op k dec : Nat) (n : BitVec 32) (s : State) :
    (tellDevices ds op k dec n s).frames = s.frames :=
  frames_foldl ds (fun t _ => forward_frames _ _ t) s

theorem slotFrames_setFrames_ne {j k : Nat} (h : j ≠ k) (l : List SlotFrame) (s : State) :
    (s.setFrames k l).slotFrames j = s.slotFrames j := by
  unfold State.setFrames State.slotFrames
  split
  next hk =>
    split
    next hj => exact Vector.getElem_set_ne hj hk h.symm
    next => rfl
  next => rfl

/-- An abort takes its frame out of its slot and leaves the other slots. -/
theorem slotFrames_abortFrame {k : Nat} (hk : k < 8) (j : Nat) (n : BitVec 32) (cause core : Nat) (s : State) :
    (abortFrame k n cause core s).slotFrames j =
      if j = k then (s.slotFrames k).filter fun f => f.frame != n else s.slotFrames j := by
  cases h : (s.slotFrames k).any fun f => f.frame == n
  case false =>
    rw [abortFrame_notRunning h]
    split
    next hj =>
      rw [hj, List.filter_eq_self.mpr fun f hf => by simpa [bne] using List.any_eq_false.mp h f hf]
    next => rfl
  case true =>
    rw [slotFrames_congr (abortFrame_frames h cause core), frameEnd]
    split
    next hj => rw [hj, slotFrames_setFrames hk]
    next hj => exact slotFrames_setFrames_ne hj _ s

theorem slotFrames_safeAbort {k : Nat} (hk : k < 8) (j : Nat) (n : BitVec 32) (s : State) : (safeAbort k n s).slotFrames j =
    if j = k then (s.slotFrames k).filter fun f => f.frame != n else s.slotFrames j := by
  have htold : ∀ i, State.slotFrames (if (slotDevices s k).isEmpty then s
      else if coordinates s k then tellDevices (otherDevices s k) 0x0A k 0 n s
      else tellDevices (otherDevices s k) 0x0B k 0 n s) i = s.slotFrames i :=
    fun i => slotFrames_congr (by simp only [ite_frames, tellDevices_frames, ite_self]) i
  rw [safeAbort, slotFrames_abortFrame hk, htold, htold]

/-- The safe state aborts every frame in progress of slot `k`, in their order. -/
def safeAbortSlot (s : State) (k : Idx8) : State := (s.slotFrames k.val).foldl (fun s f => safeAbort k.val f.frame s) s

theorem slotFrames_safeAborts {k : Nat} (hk : k < 8) (j : Nat) (l : List SlotFrame) (s : State) :
    (l.foldl (fun s f => safeAbort k f.frame s) s).slotFrames j =
      if j = k then (s.slotFrames k).filter fun g => l.all fun f => g.frame != f.frame else s.slotFrames j := by
  induction l generalizing s with
  | nil => by_cases h : j = k <;> simp [h]
  | cons f l ih =>
    rw [List.foldl_cons, ih, slotFrames_safeAbort hk, slotFrames_safeAbort hk, if_pos rfl, List.filter_filter]
    by_cases h : j = k
    · simp only [if_pos h, List.all_cons, Bool.and_comm]
    · simp only [if_neg h]

/-- After that the slot has no frame in progress, and each other slot those that it had. -/
theorem slotFrames_safeAbortSlot (s : State) (k : Idx8) (j : Nat) :
    (safeAbortSlot s k).slotFrames j = if j = k.val then [] else s.slotFrames j := by
  rw [safeAbortSlot, slotFrames_safeAborts k.isLt]
  split
  · refine List.filter_eq_nil_iff.mpr fun g hg hall => ?_
    simpa using List.all_eq_true.mp hall g hg
  · rfl

@[simp] theorem safeAbortSlot_test (s : State) (k : Idx8) : (safeAbortSlot s k).test = s.test := by
  rw [safeAbortSlot]
  exact test_foldl _ (g := fun s (f : SlotFrame) => safeAbort k.val f.frame s) (fun t f => safeAbort_test _ _ t) s

/-- Aborting the frames of a list of slots empties them and keeps an empty slot empty. -/
theorem slotFrames_safeAbortSlots (j : Idx8) (l : List Idx8) (s : State) (h : j ∈ l ∨ s.slotFrames j.val = []) :
    (l.foldl safeAbortSlot s).slotFrames j.val = [] := by
  induction l generalizing s with
  | nil => exact h.resolve_left List.not_mem_nil
  | cons k l ih =>
    refine ih _ ?_
    rw [slotFrames_safeAbortSlot]
    by_cases hj : j = k
    · exact Or.inr (if_pos (congrArg Fin.val hj))
    · rw [if_neg fun e => hj (Fin.ext e)]
      exact h.imp_left fun hmem => (List.mem_cons.mp hmem).resolve_left hj

theorem safeAbortSlots_none (l : List Idx8) {s : State} (h : ∀ k : Idx8, s.slotFrames k.val = []) :
    l.foldl safeAbortSlot s = s := by
  induction l with
  | nil => rfl
  | cons k l ih =>
    have hone : safeAbortSlot s k = s := by rw [safeAbortSlot, h k, List.foldl_nil]
    rw [List.foldl_cons, hone, ih]

/-! ### Entry -/

/-- A message that has gone out stays out while events are raised. -/
theorem mem_out_raiseN {o : Out} (k e : Nat) {s : State} (h : o ∈ s.out) : o ∈ (raiseN k e s).out := by
  induction k generalizing e s with
  | zero => exact h
  | succ k ih =>
    have hrouted : o ∈ (routed k ((s.setPend e).reg (Reg.EVT_ROUTE + 4 * e)) (s.setPend e)).out := by
      unfold routed
      dsimp only
      split
      · exact h
      split
      · split
        · exact ih _ h
        · exact h
      split
      · exact h
      split
      · exact h
      · exact List.mem_append_left _ h
    rw [raiseN_succ]
    split
    · exact h
    · unfold fwNoted
      split
      · exact hrouted
      · exact hrouted

/-- The fault log writes no register below it but those of its own. -/
theorem reg_logFault_below {o : Nat} (ho : o < Reg.FAULT_LOG_HEAD) (ev code inst info : Nat) (s : State) :
    (logFault ev code inst info s).reg o = s.reg o := by
  have hhead : Reg.FAULT_LOG_HEAD = 0xD00600 := rfl
  have hlost : Reg.FAULT_LOG_LOST = 0xD00828 := rfl
  have hlog : Reg.FAULT_LOG = 0xD01000 := rfl
  have hpend : o < Reg.EVT_PEND := Nat.lt_trans ho (by decide)
  have hentry : ∀ n i, o ≠ Reg.FAULT_LOG + 0x20 * n + i := fun n i => by omega
  have hne : ∀ n, o ≠ Reg.FAULT_LOG + 0x20 * n := fun n => hentry n 0
  unfold logFault
  dsimp only
  split
  · rw [reg_bump_other hpend (by omega)]
    simp [reg_setReg_ne, hentry, hne, Nat.ne_of_lt ho]
  · simp [reg_setReg_ne, hentry, hne, Nat.ne_of_lt ho]

/-- The record of a cause that arises. -/
def causeAdded (c : Nat) (s : State) : State :=
  { s with test := { s.test with causes := s.test.causes ++ [c], hold := s.test.hold || c != 3 } }

/-- TIME_OUT pins that the safe state holds are driven. -/
def pinsHeld (s : State) : State := if toutOffNow s then allPins.foldl (fun s i => toutDrive i s) s else s

/-- SAFE_STAT and the fault log as the device enters its safe state. -/
def safeLogged (c : Nat) (s : State) : State :=
  let u := safeShow ((causeAdded c s).setF Reg.SAFE_STAT 31 31 1)
  logFault evSafeState c 0xFF (u.reg Reg.SAFE_STAT).toNat u

/-- The device as it shows its safe state, before it aborts its frames. -/
def safeAlarm (c : Nat) (s : State) : State := raise evSafeState ((safeLogged c s).emit (.pin "FAULT_N" false))

section
variable {c : Nat} {s : State}

theorem safeCause_present (h : s.test.causes.contains c = true) : safeCause c s = s := if_pos h

variable (hnew : s.test.causes.contains c = false)
include hnew

/-- A cause that arises in the safe state is recorded and logged. -/
theorem safeCause_safe (hsafe : isSafe s = true) : safeCause c s =
    logFault evSafeState c 0xFF ((safeShow (causeAdded c s)).reg Reg.SAFE_STAT).toNat (safeShow (causeAdded c s)) := by
  simp only [safeCause, hnew, hsafe, Bool.false_eq_true, if_false, if_true]
  rfl

/-- One that arises outside it brings the device into it. -/
theorem safeCause_enters (hsafe : isSafe s = false) : safeCause c s =
    pinsHeld (allSlots.foldl safeAbortSlot (safeAlarm c s)) := by
  simp only [safeCause, hnew, hsafe, Bool.false_eq_true, if_false]
  rfl

end

/-- Driving the pins sends only their levels. -/
theorem pinsHeld_rest (s : State) : ∃ l, pinsHeld s = { s with out := s.out ++ l } := by
  unfold pinsHeld
  split
  · exact List.foldlRecOn (motive := fun t : State => ∃ l, t = { s with out := s.out ++ l }) allPins _ ⟨[], by simp⟩
      fun t ht i _ => by
        obtain ⟨l, rfl⟩ := ht
        exact ⟨l ++ [_], by rw [toutDrive, State.emit, List.append_assoc]⟩
  · exact ⟨[], by simp⟩

theorem pinsHeld_test (s : State) : (pinsHeld s).test = s.test := by
  obtain ⟨l, h⟩ := pinsHeld_rest s
  rw [h]

theorem pinsHeld_reg (s : State) (o : Nat) : (pinsHeld s).reg o = s.reg o := by
  obtain ⟨l, h⟩ := pinsHeld_rest s
  rw [h]
  rfl

theorem pinsHeld_slotFrames (s : State) (k : Nat) : (pinsHeld s).slotFrames k = s.slotFrames k := by
  obtain ⟨l, h⟩ := pinsHeld_rest s
  rw [h]
  rfl

theorem mem_out_pinsHeld {o : Out} {s : State} (ho : o ∈ s.out) : o ∈ (pinsHeld s).out := by
  obtain ⟨l, h⟩ := pinsHeld_rest s
  rw [h]
  exact List.mem_append_left _ ho

theorem safeAlarm_test (c : Nat) (s : State) : (safeAlarm c s).test = (causeAdded c s).test := by
  rw [safeAlarm, raise_test, emit_test, safeLogged, logFault_test, safeShow, setReg_test, State.setF, setReg_test]

theorem safeAlarm_frames (c : Nat) (s : State) : (safeAlarm c s).frames = s.frames := by
  rw [safeAlarm, raise_frames, emit_frames, safeLogged, logFault_frames, safeShow, setReg_frames, State.setF, setReg_frames,
    causeAdded]

theorem mem_out_safeAlarm (c : Nat) (s : State) : .pin "FAULT_N" false ∈ (safeAlarm c s).out :=
  mem_out_raiseN 2 _ (List.mem_append_right _ List.mem_cons_self)

/-- The device once it has aborted every frame. -/
theorem safeAborted_test (s : State) : (allSlots.foldl safeAbortSlot (safeAlarm 5 s)).test = (causeAdded 5 s).test :=
  (test_foldl allSlots safeAbortSlot_test _).trans (safeAlarm_test 5 s)

theorem safeAborted_slotFrames (s : State) (k : Idx8) : (allSlots.foldl safeAbortSlot (safeAlarm 5 s)).slotFrames k.val = [] :=
  slotFrames_safeAbortSlots k allSlots _ (Or.inl (List.mem_finRange k))

theorem safeAborted_none {s : State} (hnone : ∀ k : Idx8, s.slotFrames k.val = []) :
    allSlots.foldl safeAbortSlot (safeAlarm 5 s) = safeAlarm 5 s :=
  safeAbortSlots_none allSlots fun k => (slotFrames_congr (safeAlarm_frames 5 s) _).trans (hnone k)

section
variable {s : State} (hc : s.test.causes = [])
include hc

theorem causes_causeAdded (c : Nat) : (causeAdded c s).test.causes = [c] := by
  rw [causeAdded, hc, List.nil_append]

/-- SAFE_STAT shows the one cause and the safe state. -/
theorem safeAlarm_stat : (safeAlarm 5 s).reg Reg.SAFE_STAT = 0x80000020 := by
  have hbit : isSafe ((causeAdded 5 s).setF Reg.SAFE_STAT 31 31 1) = true := by
    rw [isSafe, State.setF, reg_setReg_self, bitOf, getLsbD_setFld _ _ _ _ (by decide)]
    rfl
  have hcauses : ((causeAdded 5 s).setF Reg.SAFE_STAT 31 31 1).test.causes = [5] := by
    rw [State.setF, setReg_test, causes_causeAdded hc]
  rw [safeAlarm, reg_raise_below (by decide), reg_emit, safeLogged, reg_logFault_below (by decide), safeShow, reg_setReg_self,
    hbit, hcauses, if_pos rfl, List.foldl_cons, List.foldl_nil]
  decide

/-- With no cause before, HOST is the one that is recorded, and every frame in progress is aborted. -/
theorem safeCause_host (hsafe : isSafe s = false) :
    (safeCause 5 s).test.causes = [5] ∧ (safeCause 5 s).test.hold = true ∧ (∀ k : Idx8, (safeCause 5 s).slotFrames k.val = []) ∧
      ((∀ k : Idx8, s.slotFrames k.val = []) →
        isSafe (safeCause 5 s) = true ∧ .pin "FAULT_N" false ∈ (safeCause 5 s).out) := by
  have hhold : (causeAdded 5 s).test.hold = true := Bool.or_true _
  rw [safeCause_enters (by rw [hc]; rfl) hsafe, pinsHeld_test, safeAborted_test]
  refine ⟨causes_causeAdded hc 5, hhold, fun k => ?_, fun hnone => ?_⟩
  · rw [pinsHeld_slotFrames, safeAborted_slotFrames]
  · rw [safeAborted_none hnone, isSafe, pinsHeld_reg, safeAlarm_stat hc]
    exact ⟨by decide, mem_out_pinsHeld (mem_out_safeAlarm 5 s)⟩

end

section
variable {s : State}

/-! ### Release and the thermal sensors -/

/-- The PF's release ends the safe state when HOST is the only cause. -/
theorem safeRelease_leaves {req : Requester} (hreq : reqFn req = some 0) (hc : ∀ c, c ∈ s.test.causes → c = 5)
    (hsafe : isSafe s = true) (hpins : toutOffNow s = false) : safeRelease req s =
      { ((safeShow { s with test := { s.test with causes := [] } }).setReg Reg.SAFE_STAT 0).emit (.pin "FAULT_N" true) with
        test := { s.test with causes := [], hold := false } } := by
  have hnil : s.test.causes.filter (· != 5) = [] :=
    List.filter_eq_nil_iff.mpr fun c h => by rw [hc c h]; decide
  have hstat : (safeShow { s with test := { s.test with causes := [] } }).reg Reg.SAFE_STAT = BitVec.ofNat 64 (2 ^ 31) := by
    have hkept : isSafe { s with test := { s.test with causes := [] } } = true := hsafe
    rw [safeShow, reg_setReg_self, hkept, if_pos rfl, List.foldl_nil, Nat.zero_add]
  have hstill : isSafe (safeShow { s with test := { s.test with causes := [] } }) = true := by
    rw [isSafe, hstat]
    decide
  have hcfg : (safeShow { s with test := { s.test with causes := [] } }).reg Reg.SAFE_CFG = s.reg Reg.SAFE_CFG :=
    reg_setReg_ne _ _ (by decide)
  have hoff : toutOffNow (safeShow { s with test := { s.test with causes := [] } }) = false := by
    have hcfg0 : bitOf (s.reg Reg.SAFE_CFG) 8 = false := by
      have hand : (isSafe s && bitOf (s.reg Reg.SAFE_CFG) 8) = false := hpins
      rw [hsafe] at hand
      exact hand
    rw [toutOffNow, hcfg, hcfg0, Bool.and_false]
  simp only [safeRelease, hreq, hnil, safeLeave, hstill, hoff, ne_eq, not_true_eq_false, if_false, Bool.not_true,
    Bool.false_eq_true]
  rfl

theorem safeRelease_notPf {req : Requester} (hreq : reqFn req ≠ some 0) : safeRelease req s = accessError s := if_pos hreq

/-- The reading of the hottest sensor in TEMP_STAT. -/
def tempRead (t : Int) (s : State) : State := s.setReg Reg.TEMP_STAT (BitVec.ofNat 64 (wrapInt 8 t))

@[simp] theorem tempRead_cfg (t : Int) (s : State) (hi lo : Nat) : (tempRead t s).regF Reg.TEMP_CFG hi lo =
    s.regF Reg.TEMP_CFG hi lo :=
  congrArg (fld · hi lo) (reg_setReg_ne _ _ (by decide))

theorem thermalFault_eq (t : Int) (s : State) : thermalFault t s =
    if t ≥ s.regF Reg.TEMP_CFG 15 8 then safeCause 2 (tempRead t s) else tempRead t s := by
  rw [← tempRead_cfg t s 15 8]
  rfl

theorem thermWarn_eq (t : Int) (s : State) : thermWarn t s =
    if t < s.regF Reg.TEMP_CFG 7 0 ∨ s.test.hot then tempRead t s
    else raise evThermWarn { tempRead t s with test := { s.test with hot := true } } := by
  rw [← tempRead_cfg t s 7 0]
  rfl

theorem thermalClear_eq (t : Int) (s : State) : thermalClear t s =
    let u := if t < s.regF Reg.TEMP_CFG 7 0 then { tempRead t s with test := { s.test with hot := false } } else tempRead t s
    if t < (s.regF Reg.TEMP_CFG 15 8 : Int) - 10 then safeGone 2 u else u := by
  have hcfg : ∀ u : State, u.regs = (tempRead t s).regs → u.regF Reg.TEMP_CFG 15 8 = s.regF Reg.TEMP_CFG 15 8 := fun u hu =>
    (congrArg (fun r => fld ((sget Reg.TEMP_CFG r).getD (regReset Reg.TEMP_CFG)) 15 8) hu).trans (tempRead_cfg t s 15 8)
  have hwarn : thermalClear t s =
      let u := if t < (tempRead t s).regF Reg.TEMP_CFG 7 0 then { tempRead t s with test := { s.test with hot := false } }
        else tempRead t s
      if t < (u.regF Reg.TEMP_CFG 15 8 : Int) - 10 then safeGone 2 u else u := rfl
  rw [hwarn, tempRead_cfg]
  dsimp only
  rw [hcfg _ (by split <;> rfl)]

end

end Sys2Proof.Machine

/-- Settles O50: a cause by the lemmas of `safeCause`; on entry every slot's frames are aborted, `slotFrames_safeAbortSlots`. -/
theorem safeStateResults : Obligations.SafeStateResults := by
  intro s
  refine ⟨?notPf, ?enter, ?again, ?present, ?release, ?cool, ?fault, ?warn, ?warned, ?clear, rfl⟩
  case notPf =>
    exact fun req h => ⟨congrArg Host.Outcome.next (if_neg h), congrArg Host.Outcome.next (safeRelease_notPf h)⟩
  case enter =>
    exact fun req h hc hsafe => ⟨_, congrArg Host.Outcome.next (if_pos h), safeCause_host hc hsafe⟩
  case again =>
    intro req h hsafe hnew u
    have hadded : causeAdded 5 s = { s with test := { s.test with causes := s.test.causes ++ [5], hold := true } } := by
      have hhold : (s.test.hold || (5 : Nat) != 3) = true := Bool.or_true _
      rw [causeAdded, hhold]
    have hcause := safeCause_safe hnew hsafe
    rw [hadded] at hcause
    exact congrArg Host.Outcome.next ((if_pos h).trans hcause)
  case present => exact fun req h hc => congrArg Host.Outcome.next ((if_pos h).trans (safeCause_present hc))
  case release =>
    exact fun req h hc hsafe hpins => congrArg Host.Outcome.next (safeRelease_leaves h hc hsafe hpins)
  case cool =>
    exact fun t h => congrArg Host.Outcome.next ((thermalFault_eq t s).trans (if_neg (Int.not_le.mpr h)))
  case fault => exact fun t h => congrArg Host.Outcome.next ((thermalFault_eq t s).trans (if_pos h))
  case warn =>
    intro t h hhot
    exact congrArg Host.Outcome.next ((thermWarn_eq t s).trans (if_neg (by simp [hhot, h])))
  case warned => exact fun t h => congrArg Host.Outcome.next ((thermWarn_eq t s).trans (if_pos h))
  case clear =>
    exact fun t => ⟨fun h => congrArg Host.Outcome.next ((thermalClear_eq t s).trans (if_neg (Int.not_lt.mpr h))),
      fun h => congrArg Host.Outcome.next ((thermalClear_eq t s).trans (if_pos h))⟩
end


section
/-! SUPPORT. Power domains (R373, R374): the target a register holds, and what a domain that leaves RUN leaves of the time base. -/

open Sys2Proof Sys2Proof.Machine

namespace Sys2Proof.Machine

/-! ### Operations that leave the time base alone -/

theorem time_foldl {β : Type} (l : List β) {g : State → β → State} (h : ∀ s x, (g s x).time = s.time) (s : State) :
    (l.foldl g s).time = s.time :=
  List.foldlRecOn (motive := fun t : State => t.time = s.time) l g rfl fun t ht x _ => (h t x).trans ht

@[simp] theorem linkDrain_time (n : Nat) (p : Idx4) (s : State) : (linkDrain n p s).time = s.time := by
  induction n generalizing s with
  | zero => rfl
  | succ n ih =>
    unfold linkDrain
    dsimp only
    split
    · rfl
    split
    · rfl
    split
    · rfl
    · rw [ih, bump_time]
      rfl

@[simp] theorem forward_time (turn : Idx4 → Bool) (k : Packet) (s : State) : (forward turn k s).time = s.time := by
  unfold forward
  split
  · rfl
  · split
    · exact linkDrain_time 128 _ _
    · rfl

@[simp] theorem discardPacket_time (k : Packet) (s : State) : (discardPacket k s).time = s.time := by
  unfold discardPacket
  split
  · rfl
  split
  · split
    · rfl
    · rfl
  · exact forward_time _ _ s

@[simp] theorem linkStop_time (p : Idx4) (st : Nat) (s : State) : (linkStop p st s).time = s.time :=
  time_foldl _ (fun t k => discardPacket_time k t) _

@[simp] theorem ethSetLink_time (p : Idx8) (up : Bool) (s : State) : (ethSetLink p up s).time = s.time := by
  unfold ethSetLink
  dsimp only
  split
  · rfl
  · exact raise_time _ _

@[simp] theorem portLink_time (p : Idx8) (up : Bool) (s : State) : (portLink p up s).time = s.time := by
  unfold portLink
  dsimp only
  split
  · exact ethSetLink_time p up s
  · refine (time_foldl _ (fun t n => ?_) _).trans (ethSetLink_time p up s)
    split
    · split <;> rfl
    · rfl

@[simp] theorem calStop_time (s : State) : (calStop s).time = s.time := by
  rw [calStop_eq]
  rfl

@[simp] theorem agentLeaves_time (d goal : Nat) (s : State) : (agentLeaves d goal s).time = s.time := by
  unfold agentLeaves
  split
  · split
    · rfl
    · exact time_foldl _ (fun t p => portLink_time p false t) s
  · exact calStop_time s
  · rfl
  · split
    · exact linkStop_time _ 0 s
    · rfl

/-- A transition that begins leaves the time base. -/
@[simp] theorem domBegin_time (d goal : Nat) (ramp : Bool) (s : State) : (domBegin d goal ramp s).time = s.time := by
  unfold domBegin
  dsimp only
  split
  · exact agentLeaves_time _ _ _
  · rfl

/-! ### A domain's target -/

/-- PWR_DOM_CTRL as it holds a written value. -/
def domCtrlWritten (d : Nat) (v : Half) (s : State) : State := s.setReg (Reg.PWR_DOM_CTRL + 8 * d) ((v &&& 0xF).zeroExtend 64)

theorem fld_ctrlMask (v : Half) : fld ((v &&& 0xF).zeroExtend 64) 1 0 = fld v 1 0 := by
  refine Nat.eq_of_testBit_eq fun i => ?_
  rw [testBit_fld, testBit_fld]
  by_cases h : i < 2
  · have hmask : (0xF : Half).getLsbD i = true := by
      obtain rfl | rfl : i = 0 ∨ i = 1 := by omega
      · decide
      · decide
    have hlt : i < 64 := by omega
    simp only [BitVec.getLsbD_setWidth, BitVec.getLsbD_and, Nat.zero_add, hmask, hlt, decide_true, Bool.true_and,
      Bool.and_true]
  · simp [h]

theorem domTarget_written (d : Nat) (v : Half) (s : State) : domTarget (domCtrlWritten d v s) d = fld v 1 0 := by
  rw [domTarget, State.regF, domCtrlWritten, reg_setReg_self, fld_ctrlMask]

/-- The status registers of the domains lie between their control registers. -/
theorem domState_written (d e : Nat) (v : Half) (s : State) : domState (domCtrlWritten d v s) e = domState s e := by
  have hctrl : Reg.PWR_DOM_CTRL = 0x200000 := rfl
  have hstat : Reg.PWR_DOM_STAT = 0x200004 := rfl
  rw [domState, State.regF, domCtrlWritten, reg_setReg_ne _ _ (by omega)]
  rfl

section
variable {d : Nat} {v : Half} {s : State}

theorem domWrite_moving (h : domMoving s d = true) : domWrite d v s = domCtrlWritten d v s := if_pos h

theorem domWrite_unqueues (hm : domMoving s d = false) (hq : domQueued s d = true) (ht : fld v 1 0 ≠ 0) :
    domWrite d v s = domUnqueue d (domCtrlWritten d v s) :=
  (if_neg (show ¬domMoving s d = true by rw [hm]; decide)).trans (if_pos ⟨hq, ht⟩)

/-- A target written to a domain at rest that waits for nothing is acted on. -/
theorem domWrite_pursues (hm : domMoving s d = false) (hq : domQueued s d = false) :
    domWrite d v s = domPursue d (domCtrlWritten d v s) :=
  (if_neg (show ¬domMoving s d = true by rw [hm]; decide)).trans
    (if_neg (show ¬(domQueued s d = true ∧ _) from fun h => by rw [hq] at h; exact absurd h.1 (by decide)))

theorem domPursue_written : domPursue d (domCtrlWritten d v s) =
    if fld v 1 0 = domState s d then domShow d (domState s d) false false (domCtrlWritten d v s)
    else if fld v 1 0 = 0 then
      if domQueued s d then domCtrlWritten d v s
      else (domCtrlWritten d v s).modPwr fun p => { p with queue := p.queue ++ [(d, s.time.cyc)] }
    else if domState s d = 0 then domShow d 0 false true (domCtrlWritten d v s)
    else if domDirect (domState s d) (fld v 1 0) then domBegin d (fld v 1 0) false (domCtrlWritten d v s)
    else accessError ((domCtrlWritten d v s).setF (Reg.PWR_DOM_CTRL + 8 * d) 1 0 (domState s d)) := by
  rw [← domTarget_written d v s, ← domState_written d d v s]
  rfl

/-! ### Leaving RUN, transitions, ramps -/

theorem domLeave_waiting {d : Fin 48} (hst : domState s d.val = 0) (hm : domMoving s d.val = false)
    (ht : domTarget s d.val ≠ 0) :
    domLeave d s = if domQuiet s d then domBegin d.val (domTarget s d.val) false s else s := by
  cases hq : domQuiet s d <;> simp [domLeave, hst, hm, ht, hq]

theorem domEnd_moving {t : DomTrans} (h : sget d s.pwr.trans = some t) : domEnd d s =
    domPursue d (domEffect d t.goal t.start
      (domShow d t.goal false false (s.modPwr fun p => { p with trans := sdel d p.trans }))) := by
  simp only [domEnd, h]

theorem domEnd_rest (h : sget d s.pwr.trans = none) : domEnd d s = s := by simp only [domEnd, h]

theorem rampEnd_moving {t : DomTrans} (h : sget d s.pwr.trans = some t) :
    rampEnd d s = s.modPwr fun p => { p with trans := sput d { t with ramp := false } p.trans } := by
  simp only [rampEnd, h]

theorem rampEnd_rest (h : sget d s.pwr.trans = none) : rampEnd d s = s := by simp only [rampEnd, h]

/-! ### Admission -/

/-- What the head of a rail's queue needs of the rail's budget. -/
def wakeNeed (s : State) (d : Nat) : Nat := if domState s d = 1 then ungateQa s d else wakeQa s d

section
variable {r : Idx4} {x : Nat} (hhead : railHead s r.val = some (d, x))
include hhead

theorem admitRail_wakes (hroom : staticQa s r.val + wakeNeed s d ≤ railBudget s r.val)
    (hlast : s.pwr.lastAdmit[r.val] = none ∨ ∃ t, s.pwr.lastAdmit[r.val] = some t ∧ t + 1000 ≤ s.time.cyc) :
    admitRail r s = bump Reg.PWR_WAKE_CNT ((domBegin d 0 true (domUnqueue d s)).modPwr fun p =>
      { p with lastAdmit := p.lastAdmit.set r.val (some s.time.cyc) }) := by
  have htime : (domBegin d 0 true (domUnqueue d s)).time = s.time := domBegin_time _ _ _ _
  have hroom' : decide (railBudget s r.val < staticQa s r.val + wakeNeed s d) = false :=
    decide_eq_false (Nat.not_lt.mpr hroom)
  unfold wakeNeed at hroom'
  rcases hlast with hnone | ⟨t, hsome, hle⟩
  · simp only [admitRail, hhead, hnone, hroom', Bool.or_self, Bool.false_eq_true, if_false, htime]
  · simp only [admitRail, hhead, hsome, decide_eq_false (Nat.not_lt.mpr hle), hroom', Bool.or_self, Bool.false_eq_true,
      if_false, htime]

theorem admitRail_noRoom (hroom : railBudget s r.val < staticQa s r.val + wakeNeed s d) : admitRail r s = s := by
  unfold wakeNeed at hroom
  simp only [admitRail, hhead, hroom, decide_true, Bool.or_true, if_true]

end

theorem wakeSlow_counts {w : Nat} (hw : wakeWaited s d = some w) (hlim : 0 < s.regF Reg.PWR_WAKE_CFG 15 0)
    (hlong : s.regF Reg.PWR_WAKE_CFG 15 0 ≤ w) (hnew : s.pwr.slow.contains d = false) : wakeSlow d s =
      raise evWakeSlow (bump Reg.PWR_WAKE_SLOW_CNT (s.modPwr fun p => { p with slow := d :: p.slow })) := by
  have hslow : ¬(s.regF Reg.PWR_WAKE_CFG 15 0 = 0 ∨ w < s.regF Reg.PWR_WAKE_CFG 15 0 ∨ s.pwr.slow.contains d = true) := by
    rintro (h | h | h)
    · exact absurd h (Nat.ne_of_gt hlim)
    · exact absurd h (Nat.not_lt.mpr hlong)
    · exact absurd (hnew.symm.trans h) (by decide)
  simp only [wakeSlow, hw, if_neg hslow]

end

/-! ### The array throttle -/

theorem eraseDups_of_nodup {α : Type} [BEq α] [LawfulBEq α] {l : List α} (h : l.Nodup) : l.eraseDups = l := by
  induction l with
  | nil => rfl
  | cons a l ih =>
    obtain ⟨hnot, hl⟩ := List.nodup_cons.mp h
    have hkeep : l.filter (fun b => !b == a) = l :=
      List.filter_eq_self.mpr fun b hb => by simp [show b ≠ a from fun e => hnot (e ▸ hb)]
    rw [List.eraseDups_cons, hkeep, ih hl]

/-- A window within its floor gives every requester the same allowance. -/
theorem pbaWindow_withinFloor {want : List CoreId} (held : Bool) {s : State} (hnd : want.Nodup)
    (hin : ∀ c, c ∈ want → inService s c = true) (hqa : s.actF Reg.PWR_ARRAY 7 0 ≠ 0)
    (hfloor : allowFloor s ≤ allowRaw s want.length) : pbaWindow want held s =
      let a := min (4 * (cclkMhz s : Int)) (max (allowFloor s) (allowRaw s want.length))
      let u := s.modPwr fun p => { p with allow := want.foldl (fun m c => sput c.val a.toNat m) [] }
      if held then bump Reg.PWR_THROTTLE_WIN u else u := by
  have hreq : (want.filter (inService s)).eraseDups = want := by
    rw [List.filter_eq_self.mpr hin, eraseDups_of_nodup hnd]
  simp only [pbaWindow, hreq, hqa, and_false, if_false, if_pos (Or.inr hfloor)]

end Sys2Proof.Machine

/-- Settles O57: a written target by `domPursue_written`, an admission by `admitRail_wakes`, the others by the lemma of their
case. -/
theorem powerDomainResults : Obligations.PowerDomainResults := by
  intro s
  refine ⟨?target, ?leave, ?moving, ?rest, ?wakes, ?slow, ?window, fun r v => rfl⟩
  case target =>
    intro d v
    refine ⟨fun hm => congrArg Host.Outcome.next (domWrite_moving hm),
      fun hm hq ht => congrArg Host.Outcome.next (domWrite_unqueues hm hq ht), fun hm hq => ?_⟩
    have hwrite : domWrite d.val v s = _ := (domWrite_pursues hm hq).trans domPursue_written
    refine ⟨fun ht => ?_, fun ht h0 => ?_, fun h0 hst => ?_, fun h0 hst ht hdir => ?_, fun h0 hst ht hdir => ?_⟩
    · exact congrArg Host.Outcome.next (hwrite.trans (if_pos ht))
    · exact congrArg Host.Outcome.next (hwrite.trans ((if_neg ht).trans ((if_pos h0).trans (if_neg (by rw [hq]; decide)))))
    · exact congrArg Host.Outcome.next
        (hwrite.trans ((if_neg (hst ▸ h0)).trans ((if_neg h0).trans (if_pos hst))))
    · exact congrArg Host.Outcome.next
        (hwrite.trans ((if_neg ht).trans ((if_neg h0).trans ((if_neg hst).trans (if_pos hdir)))))
    · exact congrArg Host.Outcome.next
        (hwrite.trans ((if_neg ht).trans ((if_neg h0).trans ((if_neg hst).trans (if_neg (by rw [hdir]; decide))))))
  case leave => exact fun d hst hm ht => congrArg Host.Outcome.next (domLeave_waiting hst hm ht)
  case moving =>
    exact fun d t h => ⟨congrArg Host.Outcome.next (domEnd_moving h), congrArg Host.Outcome.next (rampEnd_moving h)⟩
  case rest => exact fun d h => ⟨congrArg Host.Outcome.next (domEnd_rest h), congrArg Host.Outcome.next (rampEnd_rest h)⟩
  case wakes =>
    exact fun r d x h => ⟨fun hroom hlast => congrArg Host.Outcome.next (admitRail_wakes h hroom hlast),
      fun hroom => congrArg Host.Outcome.next (admitRail_noRoom h hroom)⟩
  case slow => exact fun d w hw hlim hlong hnew => congrArg Host.Outcome.next (wakeSlow_counts hw hlim hlong hnew)
  case window =>
    exact fun want held _ hnd hin hqa hfloor =>
      congrArg Host.Outcome.next (pbaWindow_withinFloor held hnd hin hqa hfloor)
end


section
/-! SUPPORT. Commands of the mailbox (R361), and clocks: operating points, STANDBY, references, settings (R375, R382 to R393). -/

open Sys2Proof Sys2Proof.Machine

namespace Sys2Proof.Machine

/-! ### The mailbox -/

/-- The oldest command runs when its code is the command's own, and is answered with what it comes to. -/
theorem mboxRun_answers {code f status : Nat} {rest res : List Nat} {cmd : Nat → List Nat → State → MboxRes} {s u : State}
    (hbox : s.mbox = f :: rest) (hcode : leAt (mboxBytes s f) 0 2 = code)
    (hcmd : cmd f (mboxBytes s f) s = ⟨status, res, u⟩) : mboxRun code cmd s = mboxAnswer f status res u := by
  simp only [mboxRun, hbox, hcode, ne_eq, not_true_eq_false, if_false, hcmd]

/-! ### Operating points -/

section
variable {s : State} {q : OpSeq} (hq : s.pwr.seq = some q)
include hq

theorem avsAck_waits (h : avsWaits q = true) : avsAck s = setSeq { q with acked := true } s := by
  simp only [avsAck, hq, h, if_true]

theorem pllLocked_unlocked (h : q.locked = false) :
    pllLocked s = pllLock (pllIdle s) true (setSeq { q with locked := true } s) := by
  simp only [pllLocked, hq, h, Bool.false_eq_true, if_false]

/-- The switch of CCLK to the sequence's operating point. -/
def cclkSwitched (q : OpSeq) (s : State) : State :=
  seqShow q.target false (s.modPwr fun p => { p with pllB := !p.pllB, seq := some { q with switched := true } })

theorem cclkSwitch_ready (hlocked : q.locked = true) (hsw : q.switched = false) (hack : (q.up && !q.acked) = false) :
    cclkSwitch s = if q.up then opEnd (cclkSwitched q s) else cclkSwitched q s := by
  simp only [cclkSwitch, cclkSwitched, hq, hlocked, hsw, hack, Bool.not_true, Bool.or_self, Bool.false_eq_true, if_false]

theorem cclkSwitch_notAcked (hup : q.up = true) (hack : q.acked = false) : cclkSwitch s = s := by
  simp only [cclkSwitch, hq, hup, hack, Bool.not_false, Bool.and_self, Bool.or_true, if_true]

theorem settleEnd_down (hup : q.up = false) (hsw : q.switched = true) (hack : q.acked = true) : settleEnd s = opEnd s := by
  simp only [settleEnd, hq, hup, hsw, hack, Bool.not_false, Bool.and_self, if_true]

theorem avsTimeout_waits (h : avsWaits q = true) : avsTimeout s = raise evAvsErr (bump Reg.PWR_AVS_ERR_CNT
    (seqShow (opApplied s) true (s.modPwr fun p => { p with seq := none }))) := by
  simp only [avsTimeout, hq, h, Bool.not_true, Bool.false_eq_true, if_false]

end

/-! ### STANDBY and the firmware's policy -/

section
variable {s : State}

theorem standbyEnter_running (h : s.pwr.standby = false) : modeWrite 2 s = pllsLock [0, 1, 2, 3, 6, 7] false
    ((s.setReg Reg.PWR_MODE 2).modPwr fun p => { p with standby := true }) := by
  have hcode : fld (2 : Word) 1 0 = 2 := by decide
  simp only [modeWrite, hcode, setReg_pwr, h, if_true, Bool.false_eq_true, if_false]
  rfl

theorem standbyWake_armed {src : Fin 3} (hst : s.pwr.standby = true) (harm : bitOf (s.reg Reg.PWR_WAKE_SRC) src.val = true)
    (hdue : src.val = 2 → s.regF Reg.PWR_WAKE_TIME 47 0 ≤ s.time.sec) : standbyWake src s =
      raise evStandbyWake (pllsLock (standbyPlls s) true (s.modPwr fun p => { p with standby := false })) := by
  have hdue' : (decide (src.val ≠ 2) || decide (s.regF Reg.PWR_WAKE_TIME 47 0 ≤ s.time.sec)) = true := by
    by_cases h : src.val = 2
    · rw [decide_eq_true (hdue h), Bool.or_true]
    · rw [decide_eq_true h, Bool.true_or]
  simp only [standbyWake, hst, harm, hdue', Bool.not_true, Bool.or_self, Bool.false_eq_true, if_false]

/-- POWER_POLICY is the PF's. -/
theorem powerPolicy_notPf {f : Nat} (hf : f ≠ 0) (bs : List Nat) : powerPolicy f bs s = ⟨0xF0, [], s⟩ := if_pos hf

theorem powerPolicy_badMode {bs : List Nat} (h3 : 3 ≤ leAt bs 8 1) (hff : leAt bs 8 1 ≠ 0xFF) :
    powerPolicy 0 bs s = ⟨0xF1, [], s⟩ := by
  simp only [powerPolicy, ne_eq, not_true_eq_false, if_false, hff, not_false_eq_true, h3, and_self, true_or, if_true]

/-- With every value left open it sets only the parking. -/
theorem powerPolicy_parks {bs : List Nat} (hmode : leAt bs 8 1 = 0xFF) (hop : leAt bs 9 1 = 0xFF) (hqa : leAt bs 12 4 = 0) :
    powerPolicy 0 bs s = ⟨0, bytesLE 4 (s.reg Reg.PWR_MODE).toNat ++ bytesLE 4 (opActive s) ++ bytesLE 4 (railAct s 0).toNat,
      s.modPwr fun p => { p with park := leAt bs 10 1 == 1 }⟩ := by
  simp only [powerPolicy, hmode, hop, hqa, ne_eq, not_true_eq_false, and_false, false_and, or_self, if_false, if_true]
  rfl

/-! ### The crystal -/

/-- Is a count of crystal cycles inside the window's limits? -/
def xtalGood (s : State) (count : Nat) : Bool :=
  decide (s.regF Reg.CLK_XTAL_WIN 15 0 ≤ count) && decide (count ≤ s.regF Reg.CLK_XTAL_WIN 31 16)

section
variable {count : Nat} (h0 : bitOf (s.reg Reg.CLK_STAT) 0 = false) (hc : s.pwr.coast.contains 0 = false)
include h0 hc

/-- A good window counts toward the eight that the crystal needs. -/
theorem xtalWindow_good (hok : xtalGood s count = true) (hfew : s.pwr.good < 7) (hmore : s.pwr.windows + 1 ≠ 256) :
    xtalWindow count s = s.modPwr fun p => { p with windows := p.windows + 1, good := p.good + 1 } := by
  unfold xtalGood at hok
  have hnot8 : ¬ s.pwr.good + 1 ≥ 8 := by omega
  simp only [xtalWindow, h0, hc, hok, Bool.or_self, Bool.false_eq_true, if_false, if_true]
  exact (if_neg hnot8).trans (if_neg hmore)

/-- With the eighth the crystal is judged good, and the PLLs lock. -/
theorem xtalWindow_lock (hok : xtalGood s count = true) (henough : 7 ≤ s.pwr.good) : xtalWindow count s = safeGone 3
    (pllsLock (if s.pwr.standby then [4, 5] else [4, 5] ++ standbyPlls s) true
      (((s.modPwr fun p => { p with windows := p.windows + 1, good := p.good + 1 }).setF Reg.CLK_STAT 0 0 1).setF
        Reg.CLK_STAT 1 1 0)) := by
  unfold xtalGood at hok
  have h8 : s.pwr.good + 1 ≥ 8 := by omega
  simp only [xtalWindow, h0, hc, hok, Bool.or_self, Bool.false_eq_true, if_false, if_true]
  exact if_pos h8

/-- A bad window starts the count again; the 256th window without a good crystal fails it. -/
theorem xtalWindow_bad (hbad : xtalGood s count = false) : xtalWindow count s =
    let u := bump Reg.CLK_XTAL_BAD_WIN (s.modPwr fun p => { p with windows := p.windows + 1, good := 0 })
    if s.pwr.windows + 1 = 256 then safeCause 3 (raise evXtalFail (u.setF Reg.CLK_STAT 1 1 1)) else u := by
  unfold xtalGood at hbad
  have hpwr : (bump Reg.CLK_XTAL_BAD_WIN (s.modPwr fun p => { p with windows := p.windows + 1, good := 0 })).pwr =
      { s.pwr with windows := s.pwr.windows + 1, good := 0 } := bump_pwr _ _
  simp only [xtalWindow, h0, hc, hbad, Bool.or_self, Bool.false_eq_true, if_false, hpwr]
  rfl

end

theorem xtalGood_iff (count : Nat) : xtalGood s count = true ↔
    s.regF Reg.CLK_XTAL_WIN 15 0 ≤ count ∧ count ≤ s.regF Reg.CLK_XTAL_WIN 31 16 := by
  rw [xtalGood, Bool.and_eq_true, decide_eq_true_iff, decide_eq_true_iff]

/-! ### References -/

theorem refLost_running {r : Nat} (h : s.pwr.coast.contains r = false) : refLost r s = raise evRefLost
    (bump Reg.CLK_REF_LOST_CNT (refEffect r (coastShow ((s.modPwr fun p => { p with
      coast := r :: p.coast.erase r, back := p.back.erase r }).setF Reg.CLK_STAT (2 + r) (2 + r) 1)))) :=
  if_neg (by rw [h, Bool.false_and]; decide)

theorem refReturn_coasting {r : Nat} (hc : s.pwr.coast.contains r = true) (hb : s.pwr.back.contains r = false) :
    refReturn r s =
      let u := if r = 2 then s.modPwr fun p => { p with coast := p.coast.erase r }
        else s.modPwr fun p => { p with back := r :: p.back }
      raise evRefBack (if r = 0 then u.setF Reg.CLK_STAT 0 0 1 else u) :=
  if_neg (by rw [hc, hb]; decide)

/-! ### Clock settings -/

/-- Is every switched domain in DEEP, so that a PLL may be set? -/
def allDeep (s : State) : Bool := (List.range 48).all fun d => domState s d == 3 && !domMoving s d

theorem allDeep_of (h : ∀ d, d < 48 → domState s d = 3 ∧ domMoving s d = false) : allDeep s = true := by
  refine List.all_eq_true.mpr fun d hd => ?_
  obtain ⟨hst, hm⟩ := h d (List.mem_range.mp hd)
  rw [hst, hm]
  rfl

theorem allDeep_not {d : Nat} (hd : d < 48) (h : domState s d ≠ 3 ∨ domMoving s d = true) : allDeep s = false := by
  refine List.all_eq_false.mpr ⟨d, List.mem_range.mpr hd, ?_⟩
  rcases h with hst | hm
  · simp [hst]
  · simp [hm]

/-- The register of a PLL's setting, and its largest value. -/
def pllReg (gclk : Bool) : Nat := if gclk then Reg.CLK_PLL_CFG3 else Reg.CLK_PLL_CFG2
def pllMax (gclk : Bool) : Nat := if gclk then 40 else 48

theorem pllMax_ge (gclk : Bool) : 16 ≤ pllMax gclk := by cases gclk <;> decide

theorem pllCfgWrite_deep (gclk : Bool) (v : Half) (h : allDeep s = true) : pllCfgWrite gclk v s =
    let c := max 16 (min (pllMax gclk) (fld v 5 0))
    if c = fld v 5 0 then s.setReg (pllReg gclk) (BitVec.ofNat 64 c)
    else accessError (s.setReg (pllReg gclk) (BitVec.ofNat 64 c)) :=
  if_neg (by rw [show ((List.range 48).all fun d => domState s d == 3 && !domMoving s d) = true from h]; decide)

theorem pllCfgWrite_notDeep (gclk : Bool) (v : Half) (h : allDeep s = false) : pllCfgWrite gclk v s = accessError s :=
  if_pos (by rw [show ((List.range 48).all fun d => domState s d == 3 && !domMoving s d) = false from h]; decide)

end

end Sys2Proof.Machine

/-- Settles O58: each command by the lemma of its case; a PLL's setting is what the limits leave of the value written. -/
theorem clockResults : Obligations.ClockResults := by
  intro s
  refine ⟨?op, ?standby, ?wake, ?policy, ?crystal, ?lost, ?back0, ?back2, ?relock1, ?relock0, ?pll, fun v => rfl⟩
  case op =>
    intro q hq
    refine ⟨fun h => congrArg Host.Outcome.next (avsAck_waits hq h),
      fun h => congrArg Host.Outcome.next (pllLocked_unlocked hq h), ?switch,
      fun hup hsw hack => congrArg Host.Outcome.next (settleEnd_down hq hup hsw hack),
      fun h => congrArg Host.Outcome.next (avsTimeout_waits hq h)⟩
    intro u hlocked hsw
    refine ⟨fun hup => ?_, fun hup hack => ?_, fun hup hack => congrArg Host.Outcome.next (cclkSwitch_notAcked hq hup hack)⟩
    · exact congrArg Host.Outcome.next
        ((cclkSwitch_ready hq hlocked hsw (by rw [hup]; rfl)).trans (if_neg (by rw [hup]; decide)))
    · exact congrArg Host.Outcome.next ((cclkSwitch_ready hq hlocked hsw (by rw [hup, hack]; rfl)).trans (if_pos hup))
  case standby => exact fun h => congrArg Host.Outcome.next (standbyEnter_running h)
  case wake => exact fun src hst harm hdue => congrArg Host.Outcome.next (standbyWake_armed hst harm hdue)
  case policy =>
    intro f rest hbox hcode bs park
    refine ⟨fun hf => ?_, fun hf h3 hff => ?_, fun hf hmode hop hqa => ?_⟩
    · exact congrArg Host.Outcome.next (mboxRun_answers hbox hcode (powerPolicy_notPf hf _))
    · subst hf
      exact congrArg Host.Outcome.next (mboxRun_answers hbox hcode (powerPolicy_badMode h3 hff))
    · subst hf
      exact congrArg Host.Outcome.next (mboxRun_answers hbox hcode (powerPolicy_parks hmode hop hqa))
  case crystal =>
    intro count h0 hc ok
    have hbad : ¬ ok → xtalGood s count = false := fun h => Bool.eq_false_iff.mpr fun hg => h ((xtalGood_iff count).mp hg)
    refine ⟨fun hok hfew hmore => ?_, fun hok henough => ?_, fun hok hmore => ?_, fun hok hlast => ?_⟩
    · exact congrArg Host.Outcome.next (xtalWindow_good h0 hc ((xtalGood_iff count).mpr hok) hfew hmore)
    · exact congrArg Host.Outcome.next (xtalWindow_lock h0 hc ((xtalGood_iff count).mpr hok) henough)
    · exact congrArg Host.Outcome.next ((xtalWindow_bad h0 hc (hbad hok)).trans (if_neg hmore))
    · exact congrArg Host.Outcome.next ((xtalWindow_bad h0 hc (hbad hok)).trans (if_pos hlast))
  case lost => exact fun r h => congrArg Host.Outcome.next (refLost_running h)
  case back0 => exact fun hc hb => congrArg Host.Outcome.next (refReturn_coasting hc hb)
  case back2 => exact fun hc hb => congrArg Host.Outcome.next (refReturn_coasting hc hb)
  case relock1 =>
    intro hb hst
    refine congrArg Host.Outcome.next ?_
    simp [clkRelock, hb, hst]
  case relock0 =>
    intro hb hst
    refine congrArg Host.Outcome.next ?_
    simp [clkRelock, hb, hst]
  case pll =>
    intro gclk v o hi
    refine ⟨fun hall => ?_, fun d hd h => congrArg Host.Outcome.next (pllCfgWrite_notDeep gclk v (allDeep_not hd h))⟩
    have hwrite := pllCfgWrite_deep gclk v (allDeep_of hall)
    have hmax : 16 ≤ hi := pllMax_ge gclk
    have hhi : pllMax gclk = hi := rfl
    rw [hhi] at hwrite
    refine ⟨fun hlo hle => ?_, fun hlo => ?_, fun hgt => ?_⟩
    · have hkept : max 16 (min hi (fld v 5 0)) = fld v 5 0 := by omega
      rw [hkept] at hwrite
      exact congrArg Host.Outcome.next (hwrite.trans (if_pos rfl))
    · have hlow : max 16 (min hi (fld v 5 0)) = 16 := by omega
      rw [hlow] at hwrite
      exact congrArg Host.Outcome.next (hwrite.trans (if_neg (Nat.ne_of_gt hlo)))
    · have hhigh : max 16 (min hi (fld v 5 0)) = hi := by omega
      rw [hhigh] at hwrite
      exact congrArg Host.Outcome.next (hwrite.trans (if_neg (Nat.ne_of_lt hgt)))
end


section
/-! SUPPORT. The test rotation and its tests (R395 to R400), the housekeeping cores (R401), the fault log's copy (R404). -/

open Sys2Proof Sys2Proof.Machine

namespace Sys2Proof.Machine

section
variable {s : State}

/-! ### A rotation step -/

section
variable {m : RotMove} (hm : s.test.move = some m)
include hm

theorem rotCopyStart_due {f : Nat} (hf : s.time.lastFence = some f) (hcopying : m.copying = false) (hcopied : m.copied = false)
    (hstep : m.step = frameNum s + 1) (hhost : hostsTrunk s m.out = true) (hrun : domRun s m.inc.val = true)
    (hphase : s.test.phase = 0) (hdue : f + 32 * s.actF Reg.ROT_CFG 31 11 ≤ s.time.cyc) :
    rotCopyStart s = s.modTest fun t => { t with move := some { m with copying := true } } := by
  unfold frameNum at hstep
  have hearly : decide (s.time.cyc < f + 32 * s.actF Reg.ROT_CFG 31 11) = false := decide_eq_false (Nat.not_lt.mpr hdue)
  simp only [rotCopyStart, hm, hf, hcopying, hcopied, hstep, hhost, hrun, hphase, hearly, ne_eq, not_true_eq_false, decide_false,
    Bool.not_true, Bool.or_self, Bool.false_eq_true, if_false]

theorem rotCopyComplete_copying (h : m.copying = true) : rotCopyComplete [] s =
    (rotVerify m.out s).modTest fun t => { t with move := some { m with copying := false, copied := true } } := by
  simp only [rotCopyComplete, strike_nil, hm, h, Bool.not_true, Bool.false_eq_true, if_false]

theorem rotCopyComplete_notCopying (h : m.copying = false) : rotCopyComplete [] s = s := by
  simp only [rotCopyComplete, strike_nil, hm, h, Bool.not_false, if_true]

theorem rotTransfer_idle (hcopied : m.copied = true) (hmoved : m.moved = false) (hidle : rotIdle s m.out = true) :
    rotTransfer s = s.modTest fun t => { t with move := some { m with moved := true } } := by
  simp only [rotTransfer, hm, hcopied, hmoved, hidle, Bool.not_false, Bool.and_self, if_true]

end

/-! ### The tests in the slot -/

/-- What a slice's end records: its number, whether its signature is the reference, whether on its second run, the signature. -/
def sliceRecorded (c : CoreId) (sig : Half) (ok twice : Nat) (s : State) : State :=
  let o := Reg.ROT_SLICE + 4 * c.val
  let sl := s.regF o 2 0
  ((testResult c.val (fun _ => BitVec.ofNat 64 (sl + ok * 8 + twice * 32 + sig.toNat * 2 ^ 32)) s).setF o 2 0 (sl + 1)).modTest
    fun t => { t with phase := 3 }

section
variable {c : CoreId} (hc : coreOf (rotCore s) = some c) (hrun : domRun s c.val = true) {sig : Half}
include hc hrun

/-- The end of a slice's run: repeated when the first run fails, else recorded, and the core ordered fenced when it failed. -/
theorem lbistEnd_run (hphase : s.test.phase = 1 ∨ s.test.phase = 2) : lbistEnd sig s =
    let sl := s.regF (Reg.ROT_SLICE + 4 * c.val) 2 0
    let ok := s.reg (Reg.TEST_REF + 4 * sl) == sig.zeroExtend 64
    let u := sliceRecorded c sig (b2n ok) (b2n (ok && s.test.phase == 2)) s
    if !ok ∧ s.test.phase = 1 then s.modTest fun t => { t with phase := 2 }
    else if !ok then orderFence c (raise evLbistFail (bump Reg.LBIST_FAIL_CNT
      (logFault evLbistFail 0 c.val (sliceDetail sl sig) u)))
    else if s.test.phase = 2 then
      raise evLbistTransient (bump Reg.LBIST_TRANSIENT (logFault evLbistTransient 0 c.val (sliceDetail sl sig) u))
    else u := by
  have hgo : ¬((s.test.phase ≠ 1 ∧ s.test.phase ≠ 2) ∨ (!domRun s c.val) = true) := by
    rw [hrun]
    rintro (⟨h1, h2⟩ | h)
    · exact hphase.elim h1 h2
    · exact absurd h (by decide)
  simp only [lbistEnd, hc, if_neg hgo]
  rfl

theorem lbistEnd_repeats (h1 : s.test.phase = 1)
    (hbad : s.reg (Reg.TEST_REF + 4 * s.regF (Reg.ROT_SLICE + 4 * c.val) 2 0) ≠ sig.zeroExtend 64) :
    lbistEnd sig s = s.modTest fun t => { t with phase := 2 } := by
  rw [lbistEnd_run hc hrun (Or.inl h1)]
  simp only [beq_eq_false_iff_ne.mpr hbad, h1, Bool.not_false, and_self, if_true]

theorem lbistEnd_passes (h1 : s.test.phase = 1)
    (hgood : s.reg (Reg.TEST_REF + 4 * s.regF (Reg.ROT_SLICE + 4 * c.val) 2 0) = sig.zeroExtend 64) :
    lbistEnd sig s = sliceRecorded c sig 1 0 s := by
  rw [lbistEnd_run hc hrun (Or.inl h1)]
  simp only [beq_iff_eq.mpr hgood, h1, Bool.not_true, Bool.false_eq_true, false_and, if_false]
  rfl

theorem lbistEnd_transient (h2 : s.test.phase = 2)
    (hgood : s.reg (Reg.TEST_REF + 4 * s.regF (Reg.ROT_SLICE + 4 * c.val) 2 0) = sig.zeroExtend 64) :
    lbistEnd sig s = raise evLbistTransient (bump Reg.LBIST_TRANSIENT (logFault evLbistTransient 0 c.val
      (sliceDetail (s.regF (Reg.ROT_SLICE + 4 * c.val) 2 0) sig) (sliceRecorded c sig 1 1 s))) := by
  rw [lbistEnd_run hc hrun (Or.inr h2)]
  simp only [beq_iff_eq.mpr hgood, h2, Bool.not_true, Bool.false_eq_true, false_and, if_false, if_true]
  rfl

theorem lbistEnd_fails (h2 : s.test.phase = 2)
    (hbad : s.reg (Reg.TEST_REF + 4 * s.regF (Reg.ROT_SLICE + 4 * c.val) 2 0) ≠ sig.zeroExtend 64) :
    lbistEnd sig s = orderFence c (raise evLbistFail (bump Reg.LBIST_FAIL_CNT (logFault evLbistFail 0 c.val
      (sliceDetail (s.regF (Reg.ROT_SLICE + 4 * c.val) 2 0) sig) (sliceRecorded c sig 0 0 s)))) := by
  rw [lbistEnd_run hc hrun (Or.inr h2)]
  simp only [beq_eq_false_iff_ne.mpr hbad, h2, Bool.not_false, if_true]
  rfl

end

theorem modCore_self {c : CoreId} {f : CoreSt → CoreSt} (h : f (s.core c) = s.core c) : s.modCore c f = s := by
  have hself : s.cores.set c.val (s.core c) c.isLt = s.cores := Vector.set_getElem_self _
  rw [State.modCore, h, State.setCore, hself]

@[simp] theorem loseLoft_test (c : CoreId) (i : Nat) (s : State) : (loseLoft c i s).test = s.test := by
  simp [loseLoft]

@[simp] theorem loseParked_test (c : CoreId) (k i : Nat) (s : State) : (loseParked c k i s).test = s.test := by
  simp [loseParked]

theorem loftsLost_test (c : CoreId) (l : List Nat) (s : State) : (l.foldl (fun s i => loseLoft c i s) s).test = s.test :=
  test_foldl l (g := fun s i => loseLoft c i s) (fun t i => loseLoft_test c i t) s

theorem parkedLost_test (c : CoreId) (l : List (Nat × Nat × Word)) (s : State) :
    (l.foldl (fun s e => loseParked c e.1 e.2.1 s) s).test = s.test :=
  test_foldl l (g := fun s e => loseParked c e.1 e.2.1 s) (fun t e => loseParked_test c e.1 e.2.1 t) s

/-- Lost lofts are noted; the test record stays. -/
@[simp] theorem coreLoses_test (c : CoreId) (kept : List Nat) (s : State) : (coreLoses c kept s).test = s.test :=
  (modCore_test _ _ _).trans ((parkedLost_test c _ _).trans (loftsLost_test c _ s))

@[simp] theorem testResult_test (c : Nat) (f : Word → Word) (s : State) : (testResult c f s).test = s.test := by rfl

/-- A March without a failing line and with no row to repair passes; the core loses its lines and goes to SLEEP. -/
theorem marchEnd_clean {c : CoreId} (hc : coreOf (rotCore s) = some c) (hrun : domRun s c.val = true)
    (hphase : s.test.phase = 3) (hq : (s.core c).repairQ = []) (hmove : s.test.move = none) : marchEnd [] s =
      domRequest c.val 1 ((testResult c.val (fun v => setFld v 4 4 1) (coreLoses c [] s)).modTest
        fun t => { t with phase := 0 }) := by
  have hgo : ¬(s.test.phase ≠ 3 ∨ (!domRun s c.val) = true) := by
    rw [hrun, hphase]
    decide
  have hsame : (s.modCore c fun k => { k with repairQ := [] }) = s := modCore_self (by rw [← hq])
  simp only [marchEnd, hc, if_neg hgo, List.map_nil, List.any_nil, List.foldl_nil, hq, hsame, Bool.not_false, testResult_test,
    coreLoses_test, hmove, Bool.false_eq_true, if_false, show b2n true = 1 from rfl]

/-! ### Mailbox commands -/

theorem rotateNow_notPf {f : Nat} (hf : f ≠ 0) (bs : List Nat) : rotateNow f bs s = ⟨0xF0, [], s⟩ := if_pos hf

theorem rotateNow_moving {m : RotMove} (hm : s.test.move = some m) (bs : List Nat) :
    rotateNow 0 bs s = ⟨0, bytesLE 4 m.step.toNat, s⟩ := by
  simp only [rotateNow, ne_eq, not_true_eq_false, if_false, hm]

theorem rotateNow_begins {c : CoreId} (hm : s.test.move = none) (hc : rotPick s = some c) (hserv : inService s c = true)
    (hp : rotPeriod s = 0) (bs : List Nat) : rotateNow 0 bs s = ⟨0, bytesLE 4 (frameNum s + 3).toNat,
      rotBegin (frameNum s + 3) (frameNum s + 3 + 0x7FFFFFFF) s⟩ := by
  simp only [rotateNow, ne_eq, not_true_eq_false, if_false, hm, hc, hserv, if_true, hp]
  rfl

theorem testCore_notPf {f : Nat} (hf : f ≠ 0) (bs : List Nat) : testCore f bs s = ⟨0xF0, [], s⟩ := if_pos hf

theorem testCore_noCore {bs : List Nat} (h : 36 ≤ leAt bs 8 1) : testCore 0 bs s = ⟨0xF1, [], s⟩ := by
  have hnone : coreOf (leAt bs 8 1) = none := dif_neg (Nat.not_lt.mpr h)
  simp only [testCore, ne_eq, not_true_eq_false, if_false, hnone]

section
variable {bs : List Nat} {c : CoreId} (hc : coreOf (leAt bs 8 1) = some c)
include hc

theorem testCore_fenced (hfenced : isFenced s c = true) : testCore 0 bs s = ⟨0xF1, [], s⟩ := by
  simp only [testCore, ne_eq, not_true_eq_false, if_false, hc, hfenced, if_true]

/-- A core outside the slot that no step moves is noted as asked for. -/
theorem testCore_noted (hfenced : isFenced s c = false) (hslot : c.val ≠ rotCore s) (hm : s.test.move = none)
    (hnew : s.test.reqs.contains c = false) (hp : rotPeriod s ≠ 0) : testCore 0 bs s =
      ⟨0, bytesLE 4 (requestFence s c).toNat, s.modTest fun t => { t with reqs := t.reqs ++ [c] }⟩ := by
  have hreqs : (s.modTest fun t => { t with reqs := if t.reqs.contains c then t.reqs else t.reqs ++ [c] }) =
      s.modTest fun t => { t with reqs := t.reqs ++ [c] } := by
    simp only [State.modTest, hnew, Bool.false_eq_true, if_false]
  simp only [testCore, ne_eq, not_true_eq_false, if_false, hc, hfenced, Bool.false_eq_true, hslot, false_and, hm, hp, hreqs]

end

/-! ### Housekeeping cores, the fault log -/

theorem scFail_healthy {h : Nat} (hh : (scHealthy s).testBit h = true) : scFail h s =
    let u := s.setF Reg.SC_STAT 3 0 (scHealthy s - 2 ^ h)
    if popcnt 4 (scHealthy s - 2 ^ h) = 2 then raise evScDegraded u
    else if popcnt 4 (scHealthy s - 2 ^ h) < 2 then safeCause 0 u else u :=
  if_neg (by rw [hh]; decide)

theorem scFail_failed {h : Nat} (hh : (scHealthy s).testBit h = false) : scFail h s = s := if_pos (by rw [hh]; rfl)

/-- While the log's head is at most 256 entries ahead of the copy, the entries copied are the ones between them. -/
theorem logFlush_entries (hle : s.logCopied ≤ (s.reg Reg.FAULT_LOG_HEAD).toNat)
    (hlt : (s.reg Reg.FAULT_LOG_HEAD).toNat < 2 ^ 32) (hfew : (s.reg Reg.FAULT_LOG_HEAD).toNat ≤ s.logCopied + 256) :
    logFlush s = { s with
      flash := { s.flash with log := s.flash.log ++
        (List.range ((s.reg Reg.FAULT_LOG_HEAD).toNat - s.logCopied)).map fun i =>
          (s.logCopied + i, logWords s (s.logCopied + i)) }
      logCopied := (s.reg Reg.FAULT_LOG_HEAD).toNat } := by
  have hn : min (((s.reg Reg.FAULT_LOG_HEAD).toNat + 2 ^ 32 - s.logCopied % 2 ^ 32) % 2 ^ 32) 256 =
      (s.reg Reg.FAULT_LOG_HEAD).toNat - s.logCopied := by omega
  have hentries : ((List.range ((s.reg Reg.FAULT_LOG_HEAD).toNat - s.logCopied)).map fun i =>
      ((s.logCopied + i) % 2 ^ 32, logWords s (s.logCopied + i))) =
        (List.range ((s.reg Reg.FAULT_LOG_HEAD).toNat - s.logCopied)).map fun i =>
          (s.logCopied + i, logWords s (s.logCopied + i)) := by
    refine List.map_congr_left fun i hi => ?_
    have hin : i < (s.reg Reg.FAULT_LOG_HEAD).toNat - s.logCopied := List.mem_range.mp hi
    rw [Nat.mod_eq_of_lt (by omega)]
  simp only [logFlush, hn, hentries]

end

end Sys2Proof.Machine

/-- Settles O59: the parts of a step, a slice's outcomes and the mailbox's commands by the lemma of each. -/
theorem testResults : Obligations.TestResults := by
  intro s
  refine ⟨?start, ?step, ?slice, ?march, ?mailbox, ?scStopped, ?scRuns, ?watchIdle, ?watch, ?fence, ?log⟩
  case start =>
    exact fun m f hm hf hcopying hcopied hstep hhost hrun hphase hdue =>
      congrArg Host.Outcome.next (rotCopyStart_due hm hf hcopying hcopied hstep hhost hrun hphase hdue)
  case step =>
    exact fun m hm => ⟨fun h => congrArg Host.Outcome.next (rotCopyComplete_copying hm h),
      fun h => congrArg Host.Outcome.next (rotCopyComplete_notCopying hm h),
      fun hcopied hmoved hidle => congrArg Host.Outcome.next (rotTransfer_idle hm hcopied hmoved hidle)⟩
  case slice =>
    exact fun c sig hc hrun => ⟨fun h1 hbad => congrArg Host.Outcome.next (lbistEnd_repeats hc hrun h1 hbad),
      fun h1 hgood => congrArg Host.Outcome.next (lbistEnd_passes hc hrun h1 hgood),
      fun h2 hgood => congrArg Host.Outcome.next (lbistEnd_transient hc hrun h2 hgood),
      fun h2 hbad => congrArg Host.Outcome.next (lbistEnd_fails hc hrun h2 hbad)⟩
  case march =>
    exact fun c hc hrun hphase hq hmove => congrArg Host.Outcome.next (marchEnd_clean hc hrun hphase hq hmove)
  case mailbox =>
    intro f rest hbox bs code
    refine ⟨fun hf => ⟨fun hcode => ?_, fun hcode => ?_⟩, fun m hf hcode hm => ?_, fun c hf hcode hm hc hserv hp => ?_,
      fun hf hcode h36 => ?_, fun c hf hcode hc hfenced => ?_, fun c hf hcode hc hfenced hslot hm hnew hp => ?_⟩
    · exact congrArg Host.Outcome.next (mboxRun_answers hbox hcode (rotateNow_notPf hf _))
    · exact congrArg Host.Outcome.next (mboxRun_answers hbox hcode (testCore_notPf hf _))
    · subst hf
      exact congrArg Host.Outcome.next (mboxRun_answers hbox hcode (rotateNow_moving hm _))
    · subst hf
      exact congrArg Host.Outcome.next (mboxRun_answers hbox hcode (rotateNow_begins hm hc hserv hp _))
    · subst hf
      exact congrArg Host.Outcome.next (mboxRun_answers hbox hcode (testCore_noCore h36))
    · subst hf
      exact congrArg Host.Outcome.next (mboxRun_answers hbox hcode (testCore_fenced hc hfenced))
    · subst hf
      exact congrArg Host.Outcome.next (mboxRun_answers hbox hcode (testCore_noted hc hfenced hslot hm hnew hp))
  case scStopped => exact fun h pass => congrArg Host.Outcome.next (if_pos h)
  case scRuns =>
    exact fun h => ⟨congrArg Host.Outcome.next (if_neg (Nat.not_le.mpr h)),
      congrArg Host.Outcome.next (if_neg (Nat.not_le.mpr h))⟩
  case watchIdle => exact fun h hh => congrArg Host.Outcome.next (scFail_failed hh)
  case watch => exact fun h hh => congrArg Host.Outcome.next (scFail_healthy hh)
  case fence =>
    exact fun req v => ⟨fun h => congrArg Host.Outcome.next (if_neg (not_not.mpr h)),
      fun h => congrArg Host.Outcome.next (if_pos h)⟩
  case log =>
    exact fun hle hlt hfew => ⟨_, congrArg Host.Outcome.next (logFlush_entries hle hlt hfew), rfl, rfl, rfl, rfl⟩
end


section
/-! SUPPORT. Reset, the boot ROM and host images (R407 to R411), security versions (R416), attestation (R421), debug (R423). -/

open Sys2Proof Sys2Proof.Machine

namespace Sys2Proof.Machine

/-! ### Reset -/

/-- The repairs fused write only registers. -/
theorem fusedRepairs_rest (s : State) : ∃ regs, fusedRepairs s = { s with regs := regs } :=
  List.foldlRecOn (motive := fun t : State => ∃ regs, t = { s with regs := regs }) _ _ ⟨s.regs, rfl⟩ fun t ht e _ => by
    obtain ⟨regs, rfl⟩ := ht
    exact ⟨_, rfl⟩

theorem fusedRepairs_none {s : State} (h : s.fuse.repair = []) : fusedRepairs s = s := by
  rw [fusedRepairs, h, List.map_nil, List.foldl_nil]

/-- The state a reset makes, before the repairs fused and the strap: fuses and flash persist. -/
def resetKept (s : State) : State := { State.reset with
  pending := s.pending, freeCtr := s.freeCtr, out := s.out ++ [.pin "FAULT_N" false, .pin "FAULT_N" true],
  flash := s.flash, fuse := s.fuse, pcie := { PcieSt.reset with inReset := s.pcie.inReset } }

theorem deviceReset_eq (strap : BitVec 2) (s : State) : deviceReset strap s =
    (fusedRepairs (resetKept s)).setReg Reg.SEC_BOOT_STAT (BitVec.ofNat 64 (strap.toNat * 8 + b2n (strap == 3) * 2 ^ 7)) := rfl

theorem strap_shown (strap : BitVec 2) :
    fld (BitVec.ofNat 64 (strap.toNat * 8 + b2n (strap == 3) * 2 ^ 7)) 4 3 = strap.toNat := by
  revert strap
  decide

section
variable {s : State}

/-! ### The ROM -/

section
variable {bad : BitVec 8} {polls : List Bool}

theorem bootRom_notReady (h : bootState s ≠ 0 ∨ romReady s = false) : bootRom bad polls s = s :=
  if_pos (h.imp_right fun hr => by rw [hr]; rfl)

/-- The images the ROM tries, and the state with the failures counted. -/
def romTried (s : State) : Option (FwFile × Bool) × State :=
  let u := setBoot 1 ((secShow s).setF Reg.SEC_BOOT_STAT 8 8 (b2n (secShow s).flash.slow))
  bootSlots (slotOrder u) u

theorem secShow_flash (s : State) : (secShow s).flash = s.flash := setReg_flash _ _ s

theorem setBoot_flash (v : Nat) (s : State) : (setBoot v s).flash = s.flash := setReg_flash _ _ s

theorem slotOrder_congr {s t : State} (h : t.flash = s.flash) : slotOrder t = slotOrder s := by
  simp only [slotOrder, h]

theorem romTried_eq (s : State) : romTried s =
    bootSlots (slotOrder (secShow s)) (setBoot 1 ((secShow s).setF Reg.SEC_BOOT_STAT 8 8 (b2n s.flash.slow))) := by
  have horder : slotOrder (setBoot 1 ((secShow s).setF Reg.SEC_BOOT_STAT 8 8 (b2n s.flash.slow))) = slotOrder (secShow s) :=
    slotOrder_congr ((setBoot_flash _ _).trans (setReg_flash _ _ _))
  rw [romTried, secShow_flash]
  exact congrArg (bootSlots · _) horder

section
variable (hstate : bootState s = 0) (hready : romReady s = true)
include hstate hready

theorem bootRom_host (h1 : s.regF Reg.SEC_BOOT_STAT 4 3 = 1) : bootRom bad polls s = setBoot 2 (bootWake 43 (secShow s)) := by
  simp only [bootRom, hstate, hready, h1, ne_eq, not_true_eq_false, Bool.not_true, Bool.false_eq_true, or_self, if_false,
    if_true, hostWait]

theorem bootRom_accepts {f : FwFile} {b : Bool} (h1 : s.regF Reg.SEC_BOOT_STAT 4 3 ≠ 1) (hr : (romTried s).1 = some (f, b)) :
    bootRom bad polls s = bootAccept f b false bad polls (romTried s).2 := by
  unfold romTried at hr ⊢
  simp only [bootRom, hstate, hready, if_neg h1, ne_eq, not_true_eq_false, Bool.not_true, Bool.false_eq_true, or_self, if_false,
    hr]

theorem bootRom_none (h1 : s.regF Reg.SEC_BOOT_STAT 4 3 ≠ 1) (hr : (romTried s).1 = none) : bootRom bad polls s =
    if s.regF Reg.SEC_BOOT_STAT 4 3 = 2 then setBoot 2 (bootWake 43 (raise evBootFallback (romTried s).2))
    else safeCause 6 (setBoot 4 (romTried s).2) := by
  unfold romTried at hr ⊢
  simp only [bootRom, hstate, hready, if_neg h1, ne_eq, not_true_eq_false, Bool.not_true, Bool.false_eq_true, or_self, if_false,
    hr, hostWait]

end

theorem hostGo_notWaiting (h : bootState s ≠ 2) : hostGo bad polls s = s := if_pos h

theorem hostGo_accepted {f : FwFile} {u : State} (h : bootState s = 2) (hv : fwVerify s.sec.staging s = (some f, u)) :
    hostGo bad polls s = bootAccept f false true bad polls u := by
  simp only [hostGo, h, ne_eq, not_true_eq_false, if_false, hv]

theorem hostGo_refused {u : State} (h : bootState s = 2) (hv : fwVerify s.sec.staging s = (none, u)) :
    hostGo bad polls s = raise evBootSlotFail (bump Reg.SEC_BOOT_FAIL_CNT u) := by
  simp only [hostGo, h, ne_eq, not_true_eq_false, if_false, hv, bootFail]

end

/-! ### Security versions -/

theorem testBit_thermo {n i : Nat} (hi : i < n) (hn : n ≤ 64) : (thermo n).toNat.testBit i = true := by
  have h64 : i < 64 := Nat.lt_of_lt_of_le hi hn
  rw [thermo, BitVec.testBit_toNat, BitVec.getLsbD_ofNat, Nat.testBit_two_pow_sub_one, decide_eq_true hi, decide_eq_true h64,
    Bool.and_self]

/-- A counter that holds a thermometer code of `n` bits counts at least `n`. -/
theorem le_svnOf_of_thermo {v : BitVec 64} {n : Nat} (hn : n ≤ 64) (h : v ||| thermo n = v) : n ≤ svnOf v := by
  have hbit : ∀ i, i < n → v.toNat.testBit i = true := fun i hi => by
    rw [← h, BitVec.toNat_or, Nat.testBit_or, testBit_thermo hi hn, Bool.or_true]
  have hall : (List.range n).filter (fun i => v.toNat.testBit i) = List.range n :=
    List.filter_eq_self.mpr fun i hi => hbit i (List.mem_range.mp hi)
  calc n = ((List.range n).filter fun i => v.toNat.testBit i).length := by rw [hall, List.length_range]
    _ ≤ ((List.range 64).filter fun i => v.toNat.testBit i).length :=
      ((List.range_sublist.mpr hn).filter _).length_le

/-- The word of a fuse command of firmware. -/
theorem fuseWord_fields {n : Nat} (hn : n ≤ 64) :
    fld (BitVec.ofNat 64 (3 + n * 256)) 3 0 = 3 ∧ fld (BitVec.ofNat 64 (3 + n * 256)) 15 8 = n := by
  have hlt : 3 + n * 256 < 2 ^ 64 := by omega
  simp only [fld, BitVec.toNat_ofNat, Nat.mod_eq_of_lt hlt, Nat.shiftRight_eq_div_pow]
  omega

theorem svnRaise_reached {field value have_ : Nat} (h : value ≤ have_) : svnRaise field value have_ s = s := if_pos h

/-- A raise of the firmware's version programs its counter. -/
theorem svnRaise_fw {n : Nat} (hlt : svnOf s.fuse.fwSvn < n) (hn : n ≤ 64) (hlock : bitOf (s.reg Reg.SEC_LOCK) 1 = false)
    (hlife : s.fuse.lifecycle = 1 ∨ s.fuse.lifecycle = 3) :
    svnRaise 3 n (svnOf s.fuse.fwSvn) s = raise evSvnAdvanced (fuseProgram 3 n s) := by
  obtain ⟨hfield, hvalue⟩ := fuseWord_fields hn
  have hpermit : fusePermits s 3 n = true := by
    rcases hlife with h | h <;> rw [fusePermits, h] <;> rfl
  have hlower : fuseLowers s 3 n = false := by
    have hdec : (decide (n < svnOf s.fuse.fwSvn) || decide (64 < n)) = false := by
      rw [decide_eq_false (Nat.lt_asymm hlt), decide_eq_false (Nat.not_lt.mpr hn), Bool.or_self]
    exact hdec
  have hcmd : fuseCmd .sc (BitVec.ofNat 64 (3 + n * 256)) false s = fuseProgram 3 n s := by
    rw [fuseCmd_programs, hfield, hvalue]
    rw [fuseRefused, hfield, hvalue, hlock, hpermit, hlower]
    rfl
  have hchanged : ¬(fuseProgram 3 n s).fuse = s.fuse := by
    rw [fuseProgram_fwSvn]
    intro heq
    have hsame : s.fuse.fwSvn ||| thermo n = s.fuse.fwSvn := congrArg FuseSt.fwSvn heq
    exact absurd (le_svnOf_of_thermo hn hsame) (Nat.not_le.mpr hlt)
  rw [svnRaise, if_neg (Nat.not_le.mpr hlt)]
  dsimp only
  rw [hcmd, if_neg hchanged]

section
variable {f : FwImage} (hf : s.sec.fw = some f) (hstate : bootState s = 3) (hcause : s.test.causes.contains 6 = false)
  (hcommit : f.svnCommit = true)
include hf hstate hcause hcommit

/-- The firmware's start has completed: both counters are raised, the image's first. -/
theorem svnAdvance_raises : svnAdvance s =
    let u := svnRaise 3 f.svn (svnOf s.fuse.fwSvn) s
    svnRaise 4 f.trunkSvnMin (svnOf u.fuse.trunkSvn) u := by
  simp only [svnAdvance, hf, hstate, hcause, hcommit, ne_eq, not_true_eq_false, Bool.not_true, Bool.false_eq_true, or_self, if_false]

theorem svnAdvance_reached (hfw : f.svn ≤ svnOf s.fuse.fwSvn) (htrunk : f.trunkSvnMin ≤ svnOf s.fuse.trunkSvn) :
    svnAdvance s = s := by
  rw [svnAdvance_raises hf hstate hcause hcommit, svnRaise_reached hfw]
  exact svnRaise_reached htrunk

theorem svnAdvance_fw (hlt : svnOf s.fuse.fwSvn < f.svn) (hn : f.svn ≤ 64)
    (htrunk : f.trunkSvnMin ≤ svnOf s.fuse.trunkSvn) (hlock : bitOf (s.reg Reg.SEC_LOCK) 1 = false)
    (hlife : s.fuse.lifecycle = 1 ∨ s.fuse.lifecycle = 3) :
    svnAdvance s = raise evSvnAdvanced (fuseProgram 3 f.svn s) := by
  have hsame : (raise evSvnAdvanced (fuseProgram 3 f.svn s)).fuse.trunkSvn = s.fuse.trunkSvn := by
    rw [raise_fuse, fuseProgram_fwSvn]
  rw [svnAdvance_raises hf hstate hcause hcommit, svnRaise_fw hlt hn hlock hlife]
  dsimp only
  rw [hsame]
  exact svnRaise_reached htrunk

end

/-! ### Attestation and debug unlock -/

section
variable {f : Nat} {bs : List Nat}

theorem attest_noKeys (h : deviceKeys s = false) : attest f bs s = ⟨0xF0, [], s⟩ := if_pos (by rw [h]; rfl)

theorem attest_noRoom (h : deviceKeys s = true) (hfit : attestFits s f (leAt bs 40 8) (leAt bs 48 4) = false) :
    attest f bs s = ⟨0xF1, [], s⟩ :=
  (if_neg (by rw [h]; decide)).trans (if_pos (by rw [hfit]; rfl))

theorem attest_reports (h : deviceKeys s = true) (hfit : attestFits s f (leAt bs 40 8) (leAt bs 48 4) = true) :
    attest f bs s = ⟨0, bytesLE 4 14871, memSet (leAt bs 40 8) (attestReport (sub bs 8 32) s) s⟩ :=
  (if_neg (by rw [h]; decide)).trans (if_neg (by rw [hfit]; decide))

end

/-- The count of chains checked without time, where the life cycle asks for one. -/
def debugCounted (s : State) : State := if s.fuse.lifecycle = 0 then s else countNoTime 1 s

theorem countNoTime_sec (n : Nat) (s : State) : (countNoTime n s).sec = s.sec := by simp [countNoTime]

theorem debugCounted_sec (s : State) : (debugCounted s).sec = s.sec := by
  simp only [debugCounted, ite_sec, countNoTime_sec, ite_self]

/-- What the verification of a debug certificate reads is not counted. -/
theorem debugVerifies_counted (s : State) (cert ed ml : List Nat) :
    debugVerifies (debugCounted s) cert ed ml = debugVerifies s cert ed ml := by
  have hfuse : (debugCounted s).fuse = s.fuse := by simp [debugCounted, countNoTime]
  have htime : (debugCounted s).time = s.time := by simp [debugCounted, countNoTime]
  have hset : timeSet (debugCounted s) = timeSet s := by
    have hreg : (debugCounted s).reg Reg.TIME_STAT = s.reg Reg.TIME_STAT := by
      simp [debugCounted, countNoTime, reg_bumpN_other (o := Reg.TIME_STAT) (c := Reg.SEC_CERT_NOTIME) (by decide) (by decide)]
    rw [timeSet, hreg, timeSet]
  simp only [debugVerifies, debugAnchors, keyCerts, debugCounted_sec, hfuse, htime, hset]

theorem debugUnlock_open (h : s.sec.fails < 4) (cert ed ml : List Nat) : debugUnlock cert ed ml s =
    if debugVerifies s cert ed ml then
      raise evDebugUnlock (aliasIssue (measExtend 5 [1] ((debugCounted s).setF Reg.SEC_STAT 23 23 1)))
    else raise evDebugFail (bump Reg.SEC_DEBUG_FAIL
      { debugCounted s with sec := { (debugCounted s).sec with fails := s.sec.fails + 1 } }) := by
  have hfails : (debugCounted s).sec.fails = s.sec.fails := congrArg SecSt.fails (debugCounted_sec s)
  rw [← debugVerifies_counted, ← hfails]
  exact if_neg (Nat.not_le.mpr h)

end

end Sys2Proof.Machine

/-- Settles O60: each command by the lemma of its case; a version is raised because its thermometer code holds a bit that the
counter does not. -/
theorem bootResults : Obligations.BootResults := by
  intro s
  refine ⟨?reset, ?romIdle, ?rom, ?host, ?meas, ?svn, ?attest, ⟨_, rfl, rfl, rfl, rfl, rfl⟩, ?debug⟩
  case reset =>
    intro strap
    obtain ⟨regs, hregs⟩ := fusedRepairs_rest (resetKept s)
    have hreset := deviceReset_eq strap s
    rw [hregs] at hreset
    refine ⟨_, congrArg Host.Outcome.next hreset, rfl, rfl, rfl, rfl, rfl, rfl, rfl, ?strap, ?regs⟩
    case strap =>
      rw [reg_setReg_self]
      exact strap_shown strap
    case regs =>
      intro hnone o ho
      have hsame : (resetKept s).regs = regs := congrArg State.regs ((fusedRepairs_none (s := resetKept s) hnone).symm.trans hregs)
      rw [reg_setReg_ne _ _ ho, ← hsame]
      rfl
  case romIdle => exact fun bad polls h => congrArg Host.Outcome.next (bootRom_notReady h)
  case rom =>
    intro bad polls hstate hready v r
    have htried : romTried s = r := romTried_eq s
    refine ⟨fun h1 => congrArg Host.Outcome.next (bootRom_host hstate hready h1), fun f b h1 hr => ?_, fun h2 hr => ?_,
      fun h1 h2 hr => ?_⟩
    · have hrom : bootRom bad polls s = _ := bootRom_accepts hstate hready h1 (by rw [htried]; exact hr)
      rw [htried] at hrom
      exact congrArg Host.Outcome.next hrom
    · have hrom : bootRom bad polls s = _ := bootRom_none hstate hready (by rw [h2]; decide) (by rw [htried]; exact hr)
      rw [htried, if_pos h2] at hrom
      exact congrArg Host.Outcome.next hrom
    · have hrom : bootRom bad polls s = _ := bootRom_none hstate hready h1 (by rw [htried]; exact hr)
      rw [htried, if_neg h2] at hrom
      exact congrArg Host.Outcome.next hrom
  case host =>
    exact fun bad polls => ⟨fun h => congrArg Host.Outcome.next (hostGo_notWaiting h),
      fun f u h hv => congrArg Host.Outcome.next (hostGo_accepted h hv),
      fun u h hv => congrArg Host.Outcome.next (hostGo_refused h hv)⟩
  case meas =>
    refine fun req v => ⟨fun h => congrArg Host.Outcome.next (if_pos h), fun h hbit => ?_⟩
    exact congrArg Host.Outcome.next ((if_neg (not_not.mpr h)).trans (if_pos hbit))
  case svn =>
    exact fun f hf hstate hcause hcommit =>
      ⟨fun hfw htrunk => congrArg Host.Outcome.next (svnAdvance_reached hf hstate hcause hcommit hfw htrunk),
        fun hlt hn htrunk hlock hlife =>
          congrArg Host.Outcome.next (svnAdvance_fw hf hstate hcause hcommit hlt hn htrunk hlock hlife)⟩
  case attest =>
    exact fun f rest hbox hcode => ⟨fun h => congrArg Host.Outcome.next (mboxRun_answers hbox hcode (attest_noKeys h)),
      fun h hfit => congrArg Host.Outcome.next (mboxRun_answers hbox hcode (attest_noRoom h hfit)),
      fun h hfit => congrArg Host.Outcome.next (mboxRun_answers hbox hcode (attest_reports h hfit))⟩
  case debug =>
    intro cert ed ml u
    refine ⟨fun h => congrArg Host.Outcome.next (if_pos h), fun h hv => ?_, fun h hv => ?_⟩
    · exact congrArg Host.Outcome.next ((debugUnlock_open h cert ed ml).trans (if_pos hv))
    · exact congrArg Host.Outcome.next ((debugUnlock_open h cert ed ml).trans (if_neg (by rw [hv]; decide)))
end


section
/-! SUPPORT. Mailbox commands of trunks, GET_INFO and LINK_ENABLE (R317 to R326, R361). -/

open Sys2Proof Sys2Proof.Machine

namespace Sys2Proof.Machine

section
variable {s : State} {f : Nat} {bs : List Nat}

/-! ### The slot a command names -/

/-- A slot that the function may command. -/
theorem slotArg_allowed {k : Idx8} (hk : leAt bs 8 1 = k.val) (hf : f = 0 ∨ slotOwner s k.val = f) : slotArg s f bs = .inr k := by
  have hperm : slotPerm s f k.val = 0 := (if_neg (Nat.not_lt.mpr (Nat.le_of_lt_succ k.isLt))).trans (if_pos hf)
  have hslot : mboxSlot bs = k.val := hk
  unfold slotArg
  simp only [hslot, hperm, ne_eq, not_true_eq_false, if_false, k.isLt, dif_pos]

/-- The slot of another function. -/
theorem slotArg_denied {k : Idx8} (hk : leAt bs 8 1 = k.val) (hf : f ≠ 0) (ho : slotOwner s k.val ≠ f) :
    slotArg s f bs = .inl 0xF0 := by
  have hperm : slotPerm s f k.val = 0xF0 :=
    (if_neg (Nat.not_lt.mpr (Nat.le_of_lt_succ k.isLt))).trans (if_neg (not_or.mpr ⟨hf, ho⟩))
  have hslot : mboxSlot bs = k.val := hk
  unfold slotArg
  simp only [hslot, hperm]
  rfl

/-! ### The commands -/

theorem mboxUnknown_answers {rest : List Nat} (hbox : s.mbox = f :: rest) (hcode : leAt (mboxBytes s f) 0 2 ∉ mboxCodes) :
    mboxUnknown s = mboxAnswer f 0xFF [] s := by
  have hnot : mboxCodes.contains (leAt (mboxBytes s f) 0 2) = false := by simpa using hcode
  simp only [mboxUnknown, hbox, hnot, Bool.false_eq_true, if_false]

/-- The ports of a mask enabled. -/
def linksEnabled (m : Nat) (s : State) : State :=
  (List.finRange 4).foldl (fun s p => if m.testBit p.val then linkCtrlWrite p 1 s else s) s

theorem linkEnable_pf (hm : leAt bs 8 1 ≤ 15) : linkEnable 0 bs s = ⟨0, (List.finRange 4).flatMap fun p =>
    bytesLE 4 ((linksEnabled (leAt bs 8 1) s).reg (linkOff Reg.LXL_STAT p)).toNat, linksEnabled (leAt bs 8 1) s⟩ := by
  simp only [linkEnable, linksEnabled, Nat.not_lt.mpr hm, ne_eq, not_true_eq_false, if_false]

theorem linkEnable_notPf (hf : f ≠ 0) : linkEnable f bs s = ⟨0xF0, [], s⟩ := if_pos hf

theorem trunkQuery_slot (hk : leAt bs 8 1 ≤ 7) : trunkQuery f bs s =
    ⟨0, bytesLE 8 (trunkStatVal s (leAt bs 8 1)).toNat ++ bytesLE 8 (quotaUseVal s (slotOwner s (leAt bs 8 1))).toNat, s⟩ :=
  if_neg (Nat.not_lt.mpr hk)

section
variable {e : Nat} (harg : slotArg s f bs = .inl e)
include harg

theorem trunkLoad_refused : trunkLoad f bs s = ⟨e, [], s⟩ := by simp only [trunkLoad, harg]

theorem trunkLaunch_refused : trunkLaunch f bs s = ⟨e, [], s⟩ := by simp only [trunkLaunch, harg]

theorem trunkStop_refused : trunkStop f bs s = ⟨e, [], s⟩ := by simp only [trunkStop, harg]

theorem trunkUnload_refused : trunkUnload f bs s = ⟨e, [], s⟩ := by simp only [trunkUnload, harg]

end

section
variable {k : Idx8} (harg : slotArg s f bs = .inr k)
include harg

theorem trunkLoad_empty (hroom : leAt bs 16 8 + leAt bs 24 4 ≤ memBytes s) (hst : trunkState s k.val = 0) :
    trunkLoad f bs s = ⟨(loadSlot k (leAt bs 16 8) (leAt bs 24 4) s).1,
      bytesLE 8 (trunkStatVal (loadSlot k (leAt bs 16 8) (leAt bs 24 4) s).2 k.val).toNat,
      (loadSlot k (leAt bs 16 8) (leAt bs 24 4) s).2⟩ := by
  simp only [trunkLoad, harg, Nat.not_lt.mpr hroom, hst, ne_eq, not_true_eq_false, if_false]

theorem trunkStop_running (hst : trunkState s k.val = 4) :
    trunkStop f bs s = ⟨0, [], s.setF (Reg.TRUNK_STAT + 0x20 * k.val) 2 0 5⟩ := by
  simp only [trunkStop, harg, hst, ne_eq, not_true_eq_false, if_false]

theorem trunkStop_notRunning (hst : trunkState s k.val ≠ 4) :
    trunkStop f bs s = ⟨0x0D, [], s.setF (Reg.TRUNK_STAT + 0x20 * k.val) 23 16 0x0D⟩ := by
  simp only [trunkStop, harg, if_pos hst]

theorem trunkUnload_loaded (hst : trunkState s k.val = 2) : trunkUnload f bs s = ⟨0, [], unloadSlot k s⟩ := by
  simp only [trunkUnload, harg, hst, ne_eq, not_true_eq_false, if_false]

end

/-- A slot as a launch with variant `v` on `place` leaves it, its cores waking. -/
def slotLaunched (k : Idx8) (v : Nat) (place : List CoreId) (s : State) : State :=
  place.foldl (fun s c => if domRun s c.val then s else domRequest c.val 0 s)
    (trunkShow k 3 v place.length (s.setTrunk k { s.trunk k with
      place := place, fresh := List.range place.length, copied := false, written := false, agreed := none }))

theorem trunkLaunch_placed {k : Idx8} (harg : slotArg s f bs = .inr k) (hst : trunkState s k.val = 2)
    (hloft : s.loftLost.contains k.val = false) {v : Nat} {place : List CoreId} (hv : chooseVariant s k = .inr v)
    (hp : choosePlace s k v = some place) : trunkLaunch f bs s = ⟨0, [v], slotLaunched k v place s⟩ := by
  have hlaunch : launchSlot k s = (0, v, slotLaunched k v place s) := by
    simp only [launchSlot, hst, hloft, hv, hp, ne_eq, not_true_eq_false, if_false, Bool.false_eq_true, Option.getD_some]
    rfl
  simp only [trunkLaunch, harg, hlaunch, if_true]

/-- The gates of a slot as an unload leaves them. -/
def gatesCleared (k : Idx8) (s : State) : State :=
  (List.range 64).foldl (fun s g => fbPut (Reg.GATE_CFG + 0x200 * k.val + 8 * g) 0 s) s

/-- A slot emptied, its refusal code kept. -/
def slotEmptied (k : Idx8) (s : State) : State :=
  ({ s.setTrunk k TrunkSt.empty with loftLost := s.loftLost.erase k.val }.setReg (Reg.TRUNK_STAT + 0x20 * k.val)
    (BitVec.ofNat 64 (s.regF (Reg.TRUNK_STAT + 0x20 * k.val) 23 16 * 2 ^ 16))).setReg (Reg.TRUNK_ID + 0x20 * k.val) 0

theorem unloadSlot_eq (k : Idx8) (s : State) : unloadSlot k s = slotEmptied k (gatesCleared k s) := by
  have hreg : ∀ u : State, State.reg { u.setTrunk k TrunkSt.empty with loftLost := u.loftLost.erase k.val }
      (Reg.TRUNK_STAT + 0x20 * k.val) = u.reg (Reg.TRUNK_STAT + 0x20 * k.val) := fun _ => rfl
  unfold unloadSlot slotEmptied gatesCleared State.regF
  dsimp only
  rw [hreg]

/-! ### The launch copy -/

section
variable {k : Idx8}

theorem launchComplete_oneDevice (first : BitVec 32) (hst : trunkState s k.val = 3) (hcopied : (s.trunk k).copied = false)
    (hrun : ((s.trunk k).place.all fun c => domRun s c.val) = true) (hdev : (s.trunk k).devices = []) :
    launchComplete k first s = launchWrites k (launchCopy k s) := by
  simp only [launchComplete, hst, hcopied, hrun, hdev, ne_eq, not_true_eq_false, decide_false, Bool.not_true, Bool.or_self,
    Bool.false_eq_true, if_false, List.isEmpty_nil, if_true]

theorem launchCopy_noFresh (h : (s.trunk k).fresh = []) : launchCopy k s =
    s.modTrunk k fun t => { t with copied := true, ever := true, parked := [], marks := [], fresh := [] } := by
  rw [launchCopy, h, List.foldl_nil]

end

end

end Sys2Proof.Machine

/-- Settles O53: the oldest command is answered with what it comes to, `mboxRun_answers`; a trunk command goes by the slot that it
names, `slotArg_allowed` and `slotArg_denied`. -/
theorem trunkResults : Obligations.TrunkResults := by
  intro s
  refine ⟨?mailbox, ?copy⟩
  case mailbox =>
    intro f rest hbox bs code
    refine ⟨fun hcode => congrArg Host.Outcome.next (mboxUnknown_answers hbox hcode),
      fun hcode => congrArg Host.Outcome.next (mboxRun_answers hbox hcode rfl), ?enable,
      fun hcode hf => congrArg Host.Outcome.next (mboxRun_answers hbox hcode (linkEnable_notPf hf)),
      fun hcode hk => congrArg Host.Outcome.next (mboxRun_answers hbox hcode (trunkQuery_slot hk)), ?denied, ?allowed⟩
    case enable =>
      intro u hcode hf hm
      subst hf
      exact congrArg Host.Outcome.next (mboxRun_answers hbox hcode (linkEnable_pf hm))
    case denied =>
      intro k hk hf ho
      have harg : slotArg s f bs = .inl 0xF0 := slotArg_denied hk hf ho
      exact ⟨fun hcode => congrArg Host.Outcome.next (mboxRun_answers hbox hcode (trunkLoad_refused harg)),
        fun hcode => congrArg Host.Outcome.next (mboxRun_answers hbox hcode (trunkLaunch_refused harg)),
        fun hcode => congrArg Host.Outcome.next (mboxRun_answers hbox hcode (trunkStop_refused harg)),
        fun hcode => congrArg Host.Outcome.next (mboxRun_answers hbox hcode (trunkUnload_refused harg))⟩
    case allowed =>
      intro k hk hf o t
      have harg : slotArg s f bs = .inr k := slotArg_allowed hk hf
      refine ⟨?load, ?launch, ?stop, ?notRunning, ?unload⟩
      case load =>
        exact fun hcode hroom hst =>
          congrArg Host.Outcome.next (mboxRun_answers hbox hcode (trunkLoad_empty harg hroom hst))
      case launch =>
        exact fun hcode hst hloft v place hv hp =>
          congrArg Host.Outcome.next (mboxRun_answers hbox hcode (trunkLaunch_placed harg hst hloft hv hp))
      case stop =>
        exact fun hcode hst => congrArg Host.Outcome.next (mboxRun_answers hbox hcode (trunkStop_running harg hst))
      case notRunning =>
        exact fun hcode hst => congrArg Host.Outcome.next (mboxRun_answers hbox hcode (trunkStop_notRunning harg hst))
      case unload =>
        intro u hcode hst
        have hunload := mboxRun_answers hbox hcode (trunkUnload_loaded harg hst)
        rw [unloadSlot_eq] at hunload
        exact congrArg Host.Outcome.next hunload
  case copy =>
    exact fun k first hst hcopied hrun hdev =>
      ⟨congrArg Host.Outcome.next (launchComplete_oneDevice first hst hcopied hrun hdev), launchCopy_noFresh⟩
end


section
/-! SUPPORT. The Map Store: gathers and their fetches (R300 to R307), updates (R308 to R312), the selector memory (R312, R313). -/

open Sys2Proof Sys2Proof.Machine

namespace Sys2Proof.Machine

/-! ### What reads and writes of memory leave of the gather engine -/

@[simp] theorem memReadN_map (a n : Nat) (s : State) : (memReadN a n s).2.map = s.map := by
  obtain ⟨k, hk⟩ := memReadN_rest a n s
  rw [hk]

@[simp] theorem memGet_map (a n : Nat) (s : State) : (memGet a n s).2.2.map = s.map := memReadN_map _ _ s

@[simp] theorem memStore_map (a : Nat) (l : Line) (s : State) : (memStore a l s).map = s.map := by
  unfold memStore
  dsimp only
  split
  · rw [raise_map, bump_map]
  · rfl

@[simp] theorem memPutN_map (a : Nat) (l : List DLine) (s : State) : (memPutN a l s).map = s.map := by
  induction l generalizing a s with
  | nil => rfl
  | cons d l ih => exact (ih (a + 64) _).trans (memStore_map a _ s)

section
variable {s : State}

/-! ### Gathers -/

theorem mapStart_takes {m : Msg} {rest : List Msg} {c : CoreId} {o : Op} (hrun : domRun s 39 = true)
    (hload : s.map.loading = false) (hroom : s.map.ctx.length < 8)
    (htake : takeFirst (fun m : Msg => m.kind == .gather && (match gatherOp s m with
      | some (_, o) => !s.map.clearing.contains (fld o.w1 4 0)
      | none => true)) s.net = some (m, rest)) (hop : gatherOp s m = some (c, o)) :
    mapStart [] s = pump c (mapTake c o m.slot { s with net := rest }) := by
  have hgo : (!domRun s 39 || s.map.loading || decide (8 ≤ s.map.ctx.length)) = false := by
    rw [hrun, hload, decide_eq_false (Nat.not_le.mpr hroom)]
    rfl
  unfold mapStart
  rw [hgo]
  simp only [Bool.false_eq_true, if_false]
  split
  case h_1 hnone => exact absurd (htake.symm.trans hnone) nofun
  case h_2 m' rest' hsome =>
    cases htake.symm.trans hsome
    simp only [hop, strike_nil]

/-! ### Fetches -/

/-- With nothing left to fetch no context issues a fetch. -/
theorem mapKick_idle {k : MapCtx} (hctx : s.map.ctx = [k]) (hrest : k.rest = []) : mapKick s = s := by
  have hsame : (s.modMap fun m => { m with ctx := [{ k with fly := k.fly, rest := [] }], issued := m.issued }) = s := by
    rw [← hrest, State.modMap, ← hctx]
  have hissue : mapIssue 1 s = s.modMap fun m => { m with ctx := [{ k with fly := k.fly, rest := [] }], issued := m.issued } := by
    simp only [mapIssue, State.modMap, hctx, List.length_singleton, Nat.zero_add, Nat.sub_self, List.getElem?_cons_zero, hrest,
      List.take_nil, List.mapIdx_nil, List.append_nil, List.drop_nil, List.length_nil, Nat.add_zero, List.set_cons_zero]
  rw [mapKick, hctx, List.length_singleton, hissue, hsame]

@[simp] theorem flipsRetire_ctx (s : State) : (flipsRetire s).map.ctx = s.map.ctx := by rfl

/-- A fetch's return, of the only context, which waits for no further one. -/
def fetchReturned (k : MapCtx) (p sel : Nat) (fly : List (Nat × Nat × Nat)) (s : State) : MapCtx :=
  { k with fly := fly, rows := if k.dead then k.rows
                               else sput p (memReadN (mdAddr k.w0 ((k.idx[p]?).getD 0) sel) (mdLines k.w0) s).1 k.rows }

/-- A row read with poison is counted and raised. -/
def poisonCounted (r : List DLine × State) : State :=
  if r.1.any (·.poison) then raise evMapE2e (bump Reg.MAP_POISON_ROWS r.2) else r.2

/-- The end of a fetch's return: the last one ends its gather. -/
def fetchDone (i : Nat) (s : State) : State :=
  match s.map.ctx[i]? with
  | none => s
  | some k =>
    if !(k.fly.isEmpty && k.rest.isEmpty) then s
    else if k.dead then s.modMap fun m => { m with ctx := m.ctx.eraseIdx i }
    else mapFinish k s

theorem fetchDone_only {k : MapCtx} (hctx : s.map.ctx = [k]) (hrest : k.rest = []) : fetchDone 0 s =
    if !k.fly.isEmpty then s else if k.dead then s.modMap fun m => { m with ctx := [] } else mapFinish k s := by
  have herase : (s.modMap fun m => { m with ctx := m.ctx.eraseIdx 0 }) = s.modMap fun m => { m with ctx := [] } := by
    simp only [State.modMap, hctx, List.eraseIdx_cons_zero]
  simp only [fetchDone, hctx, List.getElem?_cons_zero, hrest, List.isEmpty_nil, Bool.and_true, herase]

theorem mapReturn_row {p sel no : Nat} {k : MapCtx} {fly : List (Nat × Nat × Nat)} (hctx : s.map.ctx = [k])
    (htake : takeFirst (fun f : Nat × Nat × Nat => f.1 == p) k.fly = some ((p, sel, no), fly))
    (hheld : memHeld s (mdAddr k.w0 ((k.idx[p]?).getD 0) sel) (mdLines k.w0) = false) : mapReturn 0 p [] s =
      fetchDone 0 (mapKick (flipsRetire
        ((poisonCounted (memReadN (mdAddr k.w0 ((k.idx[p]?).getD 0) sel) (mdLines k.w0) s)).modMap fun m =>
          { m with ctx := m.ctx.set 0 (fetchReturned k p sel fly s) }))) := by
  simp only [mapReturn, hctx, List.getElem?_cons_zero, htake, hheld, Bool.false_eq_true, if_false, memStrike_nil]
  rfl

theorem mapReturn_only {p sel no : Nat} {k : MapCtx} {fly : List (Nat × Nat × Nat)} (hctx : s.map.ctx = [k]) (hrest : k.rest = [])
    (htake : takeFirst (fun f : Nat × Nat × Nat => f.1 == p) k.fly = some ((p, sel, no), fly))
    (hheld : memHeld s (mdAddr k.w0 ((k.idx[p]?).getD 0) sel) (mdLines k.w0) = false) : mapReturn 0 p [] s =
      let u := flipsRetire ((poisonCounted (memReadN (mdAddr k.w0 ((k.idx[p]?).getD 0) sel) (mdLines k.w0) s)).modMap fun m =>
        { m with ctx := [fetchReturned k p sel fly s] })
      if !fly.isEmpty then u
      else if k.dead then u.modMap fun m => { m with ctx := [] } else mapFinish (fetchReturned k p sel fly s) u := by
  have hpc : (poisonCounted (memReadN (mdAddr k.w0 ((k.idx[p]?).getD 0) sel) (mdLines k.w0) s)).map.ctx = [k] := by
    simp [poisonCounted, hctx]
  rw [mapReturn_row hctx htake hheld]
  generalize poisonCounted (memReadN (mdAddr k.w0 ((k.idx[p]?).getD 0) sel) (mdLines k.w0) s) = v at hpc ⊢
  have hset : (v.modMap fun m => { m with ctx := m.ctx.set 0 (fetchReturned k p sel fly s) }) =
      v.modMap fun m => { m with ctx := [fetchReturned k p sel fly s] } := by
    simp only [State.modMap, hpc, List.set_cons_zero]
  have hone : (flipsRetire (v.modMap fun m => { m with ctx := [fetchReturned k p sel fly s] })).map.ctx =
      [fetchReturned k p sel fly s] := rfl
  rw [hset, mapKick_idle hone hrest]
  exact fetchDone_only hone hrest

/-! ### Updates -/

/-- The engine's descriptor as far as it goes once it has started: the slot written, then the flip. -/
def updGo (n h wait : Nat) (s : State) : State :=
  let u := match s.map.upd with
    | some j => if j.written then s else updWrite n h wait j s
    | none => s
  match u.map.upd with
  | some j => if j.written then updFlip n h j u else u
  | none => u

theorem updGo_none {n h wait : Nat} (hu : s.map.upd = none) : updGo n h wait s = s := by simp only [updGo, hu]

/-- A descriptor that is not written yet: what its write comes to, and the flip when it was written. -/
theorem updGo_write {n h wait : Nat} {j : UpdJob} {u : State} (hj : s.map.upd = some j) (hnot : j.written = false)
    (hu : updWrite n h wait j s = u) : updGo n h wait s = match u.map.upd with
      | some j => if j.written then updFlip n h j u else u
      | none => u := by
  simp only [updGo, hj, hnot, Bool.false_eq_true, if_false, hu]

section
variable {base n : Nat}

theorem mapUpdate_starts (wait : Nat) (hring : updRing s = some (base, n)) (hrun : domRun s 39 = true)
    (hload : s.map.loading = false) (hupd : s.map.upd = none)
    (hmore : s.regF Reg.MAP_UPD_HEAD 15 0 ≠ s.regF Reg.MAP_UPD_TAIL 15 0 % n) :
    mapUpdate wait [] s = updGo n (s.regF Reg.MAP_UPD_HEAD 15 0) wait (updStart base n (s.regF Reg.MAP_UPD_HEAD 15 0) s) := by
  simp only [mapUpdate, hring, hrun, hload, hupd, hmore, Bool.not_true, Bool.false_eq_true, or_self, if_false, memStrike_nil,
    Option.isNone_none, if_true]
  rfl

/-- The head's descriptor, read. -/
def updRead (base h : Nat) (s : State) : List Nat × Bool × State := memGet (base + 16 * h) 16 s

/-- The entry of the descriptor's table. -/
def updDir (base h : Nat) (s : State) : Word × Word := mapDir s (leAt (updRead base h s).1 4 1 % 32)

/-- The job the descriptor at the head makes. -/
def updJob (base h : Nat) (s : State) : UpdJob :=
  ⟨leAt (updRead base h s).1 0 4, leAt (updRead base h s).1 4 1, (updDir base h s).1, (updDir base h s).2,
    leAt (updRead base h s).1 8 8, false⟩

variable {h : Nat} (hheld : memHeld s (base + 16 * h - (base + 16 * h) % 64) 1 = false)
  (hclear : s.map.clearing.contains (leAt (updRead base h s).1 4 1) = false)
include hheld hclear

theorem updStart_reads : updStart base n h s =
    if (updRead base h s).2.1 || updBad (updRead base h s).2.2 (updRead base h s).1 (updDir base h s) then
      raise evMapUpdErr (bump Reg.MAP_UPD_BAD (updAdvance n h (updRead base h s).2.2))
    else (updRead base h s).2.2.modMap fun m => { m with upd := some (updJob base h s) } := by
  have hclear' : (updRead base h s).2.2.map.clearing.contains (leAt (updRead base h s).1 4 1) = false := by
    rw [show (updRead base h s).2.2.map = s.map from memGet_map _ _ s, hclear]
  unfold updStart
  rw [hheld]
  exact (if_neg (by decide)).trans (if_neg (ne_true_of_eq_false hclear'))

end

theorem updAdvance_upd (n h : Nat) (s : State) : (updAdvance n h s).map.upd = none := rfl

/-- A descriptor that has been skipped or failed leaves the engine without one. -/
theorem skipped_upd (e o n h : Nat) (s : State) : (raise e (bump o (updAdvance n h s))).map.upd = none := by
  rw [raise_map, bump_map, updAdvance_upd]

/-- What the write of a descriptor comes to once no fetch reads its slot. -/
theorem updWrite_reads {n h wait : Nat} {j : UpdJob} (hfree : slotBusy s (mdAddr j.w0 j.row (1 - mapSel s j.w0 j.w1 j.row)) = false)
    (hsrc : memHeld s j.src (mdLines j.w0) = false)
    (hdst : memHeld s (mdAddr j.w0 j.row (1 - mapSel s j.w0 j.w1 j.row)) (mdLines j.w0) = false) : updWrite n h wait j s =
    if (memReadN j.src (mdLines j.w0) s).1.any (·.poison) then
      raise evMapUpdErr (bump Reg.MAP_UPD_POISON (updAdvance n h (memReadN j.src (mdLines j.w0) s).2))
    else (memPutN (mdAddr j.w0 j.row (1 - mapSel s j.w0 j.w1 j.row)) (memReadN j.src (mdLines j.w0) s).1
      (memReadN j.src (mdLines j.w0) s).2).modMap fun m => { m with upd := some { j with written := true }, updWait := false } :=
  (if_neg (by rw [hfree]; decide)).trans (if_neg (by rw [hsrc, hdst]; decide))

section
variable {n h wait : Nat} {j : UpdJob} (hj : s.map.upd = some j) (hnot : j.written = false)
include hj hnot

/-- A descriptor whose slot a fetch still reads waits. -/
theorem updGo_busy (hbusy : slotBusy s (mdAddr j.w0 j.row (1 - mapSel s j.w0 j.w1 j.row)) = true) : updGo n h wait s =
    bumpN Reg.MAP_UPD_WAIT wait (s.modMap fun m => { m with updWait := true }) := by
  have hwrite : updWrite n h wait j s = bumpN Reg.MAP_UPD_WAIT wait (s.modMap fun m => { m with updWait := true }) := if_pos hbusy
  have hstill : (bumpN Reg.MAP_UPD_WAIT wait (s.modMap fun m => { m with updWait := true })).map.upd = some j :=
    (congrArg MapSt.upd (bumpN_map _ _ _)).trans hj
  rw [updGo_write hj hnot hwrite]
  simp only [hstill, hnot, Bool.false_eq_true, if_false]

section
variable (hfree : slotBusy s (mdAddr j.w0 j.row (1 - mapSel s j.w0 j.w1 j.row)) = false)
  (hsrc : memHeld s j.src (mdLines j.w0) = false)
  (hdst : memHeld s (mdAddr j.w0 j.row (1 - mapSel s j.w0 j.w1 j.row)) (mdLines j.w0) = false)
include hfree hsrc hdst

/-- A source with poison is counted, and the descriptor skipped. -/
theorem updGo_poisoned (hp : (memReadN j.src (mdLines j.w0) s).1.any (·.poison) = true) : updGo n h wait s =
    raise evMapUpdErr (bump Reg.MAP_UPD_POISON (updAdvance n h (memReadN j.src (mdLines j.w0) s).2)) := by
  rw [updGo_write hj hnot ((updWrite_reads hfree hsrc hdst).trans (if_pos hp))]
  simp only [skipped_upd]

/-- A good source is written to the slot not in use, and the selector flips. -/
theorem updGo_flips (hp : (memReadN j.src (mdLines j.w0) s).1.any (·.poison) = false) (hroom : s.map.flips.length < 1024) :
    updGo n h wait s =
      let v := (memPutN (mdAddr j.w0 j.row (1 - mapSel s j.w0 j.w1 j.row)) (memReadN j.src (mdLines j.w0) s).1
        (memReadN j.src (mdLines j.w0) s).2).modMap fun m =>
          { m with upd := some { j with written := true }, updWait := false, flips := m.flips ++ [m.issued] }
      flipsRetire (bump Reg.MAP_UPD_CNT (updAdvance n h (selPut (mdSel j.w1 + j.row) (mapSel v j.w0 j.w1 j.row == 0) v))) := by
  have hflips : (memPutN (mdAddr j.w0 j.row (1 - mapSel s j.w0 j.w1 j.row)) (memReadN j.src (mdLines j.w0) s).1
      (memReadN j.src (mdLines j.w0) s).2).map.flips.length < 1024 := by
    rw [memPutN_map, memReadN_map]
    exact hroom
  rw [updGo_write hj hnot ((updWrite_reads hfree hsrc hdst).trans (if_neg (by rw [hp]; decide)))]
  exact if_neg (Nat.not_le.mpr hflips)

end

end

theorem updBad_false_iff (bs : List Nat) (d : Word × Word) : updBad s bs d = false ↔
    (leAt bs 0 4 < 2 ^ 29 ∧ leAt bs 4 1 < 32 ∧ leAt bs 5 3 = 0 ∧ leAt bs 8 8 < 2 ^ 40 ∧ bitOf d.1 50 = true ∧
      mdUpd d.1 = true ∧ leAt bs 0 4 < mdRows d.2 ∧ leAt bs 8 8 % 64 = 0 ∧ leAt bs 8 8 + 64 * mdLines d.1 ≤ memBytes s) := by
  simp only [updBad, Bool.or_eq_false_iff, decide_eq_false_iff_not, Nat.not_le, ge_iff_le, bne_eq_false_iff_eq,
    Bool.not_eq_false', gt_iff_lt, Nat.not_lt, and_assoc]

/-! ### The selector memory -/

theorem selReload_none (hload : s.map.loading = true) (hrun : domRun s 39 = true) (hb : s.regF Reg.MAP_SEL_MIRROR 39 0 = 0) :
    selReload [] s = raise evMapSelLost (s.modMap fun m => { m with sel := [], loading := false }) := by
  simp only [selReload, hload, hrun, hb, Bool.not_true, Bool.or_self, Bool.false_eq_true, if_false, if_true]

theorem selReload_mirror (hload : s.map.loading = true) (hrun : domRun s 39 = true) (hb : s.regF Reg.MAP_SEL_MIRROR 39 0 ≠ 0) :
    selReload [] s = (memReadN (s.regF Reg.MAP_SEL_MIRROR 39 0) 8192 s).2.modMap fun m =>
      { m with sel := selOfLines (memReadN (s.regF Reg.MAP_SEL_MIRROR 39 0) 8192 s).1, loading := false } := by
  simp only [selReload, hload, hrun, if_neg hb, Bool.not_true, Bool.or_self, Bool.false_eq_true, if_false, memStrike_nil]

end

end Sys2Proof.Machine

/-- Settles O54: a gather and a fetch's return by `mapStart_takes` and `mapReturn_only`; an update by what its descriptor is,
`updStart_reads`, and then by what its write comes to. -/
theorem mapStoreResults : Obligations.MapStoreResults := by
  intro s
  refine ⟨?gather, ?fetch, ?update, updBad_false_iff, fun v => rfl, ?reload, fun t => rfl⟩
  case gather =>
    exact fun m rest c o hrun hload hroom htake hop =>
      congrArg Host.Outcome.next (mapStart_takes hrun hload hroom htake hop)
  case fetch =>
    intro i p sel no k fly hctx hi hrest htake a r k' u hheld
    subst hi
    exact congrArg Host.Outcome.next (mapReturn_only hctx hrest htake hheld)
  case update =>
    intro base n wait hring hrun hload hupd h hmore hheld g row t src d ls job u dst x v hclear
    have hstart : mapUpdate wait [] s = updGo n h wait (updStart base n h s) :=
      mapUpdate_starts wait hring hrun hload hupd hmore
    have hread : updStart base n h s = _ := updStart_reads (n := n) hheld hclear
    refine ⟨fun hbad => ?_, fun hpoison hgood => ?_⟩
    · have hskip := hread.trans (if_pos (Bool.or_eq_true_iff.mpr hbad))
      rw [hskip, updGo_none (skipped_upd _ _ _ _ _)] at hstart
      exact congrArg Host.Outcome.next hstart
    · have hjob : updStart base n h s = u := hread.trans (if_neg (by
        rw [show (updRead base h s).2.1 = false from hpoison,
          show updBad (updRead base h s).2.2 (updRead base h s).1 (updDir base h s) = false from hgood]
        decide))
      rw [hjob] at hstart
      have hu : u.map.upd = some job := rfl
      have hflips : g.2.2.map.flips = s.map.flips := congrArg MapSt.flips (memGet_map (base + 16 * h) 16 s)
      refine ⟨fun hbusy => ?_, fun hfree hsrc hdst => ⟨fun hp => ?_, fun hp hroom => ?_⟩⟩
      · exact congrArg Host.Outcome.next (hstart.trans (updGo_busy hu rfl hbusy))
      · have hgo : updGo n h wait u = raise evMapUpdErr (bump Reg.MAP_UPD_POISON (updAdvance n h x.2)) :=
          updGo_poisoned (s := u) (j := job) hu rfl hfree hsrc hdst hp
        exact congrArg Host.Outcome.next (hstart.trans hgo)
      · have hroom' : u.map.flips.length < 1024 := hflips ▸ hroom
        have hgo : updGo n h wait u = flipsRetire (bump Reg.MAP_UPD_CNT (updAdvance n h
            (selPut (mdSel d.2 + row) (mapSel v d.1 d.2 row == 0) v))) :=
          updGo_flips (s := u) (j := job) hu rfl hfree hsrc hdst hp hroom'
        exact congrArg Host.Outcome.next (hstart.trans hgo)
  case reload =>
    exact fun hload hrun => ⟨fun hb => congrArg Host.Outcome.next (selReload_none hload hrun hb),
      fun hb => congrArg Host.Outcome.next (selReload_mirror hload hrun hb)⟩
end


section
/-! SUPPORT. Larxus ports with nothing queued and nothing to replay, and the commands of R364 to R369 on them. -/

open Sys2Proof Sys2Proof.Machine

namespace Sys2Proof.Machine

section

variable {p : Idx4} {s : State}

/-! ### A port's state -/

@[simp] theorem link_setLink (l : LinkPort) : (s.setLink p l).link p = l := Vector.getElem_set_self _

@[simp] theorem link_modLink (f : LinkPort → LinkPort) : (s.modLink p f).link p = f (s.link p) := link_setLink _

@[simp] theorem link_bump (o : Nat) : (bump o s).link p = s.link p := by simp [State.link]

theorem modLink_self {f : LinkPort → LinkPort} (h : f (s.link p) = s.link p) : s.modLink p f = s := by
  have hself : s.links.set p.val (s.link p) p.isLt = s.links := Vector.set_getElem_self _
  rw [State.modLink, h, State.setLink, hself]

/-! ### A port with nothing to send -/

theorem vcSlots_empty {l : LinkPort} (hq : l.queue = []) (v : Nat) : vcSlots l v = 0 := by
  simp only [vcSlots, vcHead, hq, List.find?_nil]

theorem vcPick_empty {l : LinkPort} (hq : l.queue = []) : vcPick l = none := by
  have hnone (vs : List Nat) : (vs.find? fun v => decide (0 < vcSlots l v)) = none := by
    simp [List.find?_eq_none, vcSlots_empty hq]
  simp only [vcPick, hnone]

theorem linkDrain_empty (n : Nat) (hq : (s.link p).queue = []) : linkDrain n p s = s := by
  cases n with
  | zero => rfl
  | succ n => simp only [linkDrain, vcPick_empty hq, ite_self]

theorem creditsBack_nil (l : LinkPort) : creditsBack [] l = l := rfl

theorem dropAcked_empty {l : LinkPort} (hu : l.unacked = []) (ack : Nat) : dropAcked ack l = l := by
  cases l
  cases hu
  rfl

theorem linkHeld_empty {l : LinkPort} (hu : l.unacked = []) (hq : l.queue = []) : linkHeld l = [] := by
  rw [linkHeld, hu, hq]
  rfl

/-! ### Replay and reception -/

theorem linkReplay_empty (ack : Nat) (hup : linkState s p = 2) (hu : (s.link p).unacked = []) (hq : (s.link p).queue = [])
    (hr : (s.link p).replays < 15) :
    linkReplay p ack s = bump (linkOff Reg.LXL_REPLAY p) (s.modLink p fun l => { l with replays := l.replays + 1 }) := by
  have hgo : ¬ 16 ≤ (s.link p).replays + 1 := by omega
  simp only [linkReplay, hup, dropAcked_empty hu, hu, List.length_nil, Nat.lt_irrefl, ne_eq, not_true_eq_false, if_false, ge_iff_le,
    hgo, List.foldl_nil, bumpN, if_true]
  refine (linkDrain_empty _ ?_).trans ?_
  · rw [link_bump, link_setLink]
    exact hq
  · simp only [State.modLink, hu]

section

variable {f : Flit} (hup : linkState s p = 2) (hrun : domRun s (44 + p.val) = true)
include hup hrun

theorem flitReceive_bad (hcrc : f.crcOk = false) : flitReceive p f s = linkBad p s := by
  simp [flitReceive, hup, hrun, hcrc]

theorem flitReceive_nak (hcrc : f.crcOk = true) (htype : f.type = 2) (hcr : f.credits = []) :
    flitReceive p f s = linkReplay p f.ack s := by
  have hsame : s.modLink p (creditsBack []) = s := modLink_self rfl
  simp [flitReceive, hup, hrun, hcrc, htype, hcr, hsame]

/-- A data flit that acknowledges nothing and returns no credit leaves its port as it was, up to its sequence number. -/
theorem flitReceive_data (hcrc : f.crcOk = true) (htype : f.type = 1) (hcr : f.credits = []) (hu : (s.link p).unacked = []) :
    flitReceive p f s =
      if f.seq % 2 ^ 16 ≠ (s.link p).rxNext then (if (s.link p).nakSent then s else linkBad p s)
      else
        let t := linkDrain 128 p (f.packets.foldl (fun s k => takePacket p k s) (bump (linkOff Reg.LXL_RX_FLITS p)
          (s.modLink p fun l => { l with rxNext := (l.rxNext + 1) % 2 ^ 16, nakSent := false, owed := l.owed + 1 })))
        if (t.link p).owed ≥ 16 then sendBare p 0 t else t := by
  have hsame : (s.modLink p fun l => creditsBack f.credits (dropAcked f.ack { l with
      replays := if (dropAcked f.ack l).unacked.length < l.unacked.length then 0 else l.replays })) = s := by
    refine modLink_self ?_
    rw [hcr, creditsBack_nil, dropAcked_empty hu, if_neg (Nat.lt_irrefl _)]
    exact dropAcked_empty (l := s.link p) hu f.ack
  simp [flitReceive, hup, hrun, hcrc, htype, hsame]

theorem flitReceive_unordered (hcrc : f.crcOk = true) (htype : f.type = 1) (hcr : f.credits = []) (hu : (s.link p).unacked = [])
    (hseq : f.seq % 2 ^ 16 ≠ (s.link p).rxNext) (hnak : (s.link p).nakSent = true) : flitReceive p f s = s :=
  (flitReceive_data hup hrun hcrc htype hcr hu).trans ((if_pos hseq).trans (if_pos hnak))

theorem flitReceive_ordered (hcrc : f.crcOk = true) (htype : f.type = 1) (hcr : f.credits = []) (hu : (s.link p).unacked = [])
    (hq : (s.link p).queue = []) (hseq : f.seq % 2 ^ 16 = (s.link p).rxNext) (hpk : f.packets = [])
    (howed : (s.link p).owed < 15) :
    flitReceive p f s = bump (linkOff Reg.LXL_RX_FLITS p) (s.modLink p fun l =>
      { l with rxNext := (l.rxNext + 1) % 2 ^ 16, nakSent := false, owed := l.owed + 1 }) := by
  rw [flitReceive_data hup hrun hcrc htype hcr hu, if_neg (not_not_intro hseq), hpk, List.foldl_nil,
    linkDrain_empty 128 (by simpa using hq)]
  exact if_neg (by simpa using howed)

end

/-! ### Going down, training and LINK_TOPO -/

theorem linkFail_up (hup : linkState s p = 2) :
    linkFail p s = raise (evLxlDown p.val) (bump (linkOff Reg.LXL_DOWN_CNT p) (linkStop p 1 s)) :=
  if_neg (not_not_intro hup)

theorem linkFail_notUp (hup : linkState s p ≠ 2) : linkFail p s = s := if_pos hup

theorem linkTrain_eq : linkTrain p s = linkStop p (if linkOn s p && domRun s (44 + p.val) then 1 else 0) s :=
  (apply_ite (fun st => linkStop p st s) _ 1 0).symm

theorem linkStop_empty (st : Nat) (hu : (s.link p).unacked = []) (hq : (s.link p).queue = []) :
    linkStop p st s = (s.setLink p LinkPort.fresh).setF (linkOff Reg.LXL_STAT p) 2 0 st := by
  rw [linkStop, linkHeld_empty hu hq]
  rfl

theorem linkTrained_ok (x y port : Nat) (htrain : linkState s p = 1) (hrun : domRun s (44 + p.val) = true) :
    linkTrained p true x y port s = (s.setReg (linkOff Reg.LXL_STAT p) (BitVec.ofNat 64
      ((if neighbour s p = (x, y, port) then 2 else 3) + (x % 256) * 2 ^ 3 + (y % 256) * 2 ^ 11))).setLink p LinkPort.fresh := by
  simp only [linkTrained, htrain, hrun, Bool.not_true, Bool.false_eq_true, ne_eq, not_true_eq_false, or_self, if_false]

theorem linkTrained_failed (x y port : Nat) (htrain : linkState s p = 1) (hrun : domRun s (44 + p.val) = true) :
    linkTrained p false x y port s = linkStop p 0 s := by
  simp [linkTrained, htrain, hrun]

theorem topoWrite_down (v : Half) (hdown : ∀ q : Idx4, linkState s q = 0) :
    topoWrite v s = s.setReg Reg.LINK_TOPO (v.zeroExtend 64) :=
  if_pos (by simp [hdown])

theorem topoWrite_refused (v : Half) (hp : linkState s p ≠ 0) : topoWrite v s = accessError s :=
  if_neg fun hall => hp (by simpa using List.all_eq_true.mp hall p (List.mem_finRange p))

end

end Sys2Proof.Machine

/-- Settles O56: a flit by the branch of R366 it takes, where a port with nothing queued has nothing to drain; the rest by the
branches of R367 to R370. -/
theorem linkResults : Obligations.LinkResults := by
  intro p s
  refine ⟨?flit, ?replay, ?down, ?notUp, congrArg Host.Outcome.next linkTrain_eq, fun st => linkStop_empty st, ?trained, ?topo,
    ?refused⟩
  case flit =>
    intro f hup hrun
    refine ⟨fun hcrc => ?_, fun hcrc htype hcr => ?_, fun hcrc htype hcr hu hseq hnak => ?_,
      fun hcrc htype hcr hu hq hseq hpk howed => ?_⟩
    · exact congrArg Host.Outcome.next (flitReceive_bad hup hrun hcrc)
    · exact congrArg Host.Outcome.next (flitReceive_nak hup hrun hcrc htype hcr)
    · exact congrArg Host.Outcome.next (flitReceive_unordered hup hrun hcrc htype hcr hu hseq hnak)
    · exact congrArg Host.Outcome.next (flitReceive_ordered hup hrun hcrc htype hcr hu hq hseq hpk howed)
  case replay => exact fun ack hup hu hq hr => congrArg Host.Outcome.next (linkReplay_empty ack hup hu hq hr)
  case down => exact fun hup => congrArg Host.Outcome.next (linkFail_up hup)
  case notUp => exact fun hup => congrArg Host.Outcome.next (linkFail_notUp hup)
  case trained =>
    exact fun x y port htrain hrun => ⟨congrArg Host.Outcome.next (linkTrained_ok x y port htrain hrun),
      congrArg Host.Outcome.next (linkTrained_failed x y port htrain hrun)⟩
  case topo => exact fun v hdown => congrArg Host.Outcome.next (topoWrite_down v hdown)
  case refused => exact fun v hp => congrArg Host.Outcome.next (topoWrite_refused v hp)
end


section
/-! SUPPORT. The move unit (R162, R163, R268 to R271): what its instructions start once their checks have passed, and how their
requests leave. -/

open Sys2Proof Sys2Proof.Machine Sys2Proof.Safety

namespace Sys2Proof.Machine

/-! ### Requests that leave -/

theorem placeLine_plain {m : Msg} (hk : m.kind ≠ .ringWrite) (s : State) : placeLine m s = (some m, s) := if_pos hk

theorem transmit_mesh {m : Msg} (hd : ∀ x y u, m.dst ≠ .dev x y u) (s : State) : transmit m s = (some (s.send m), s) := by
  cases m with
  | mk kind src dst =>
    cases dst with
    | dev x y u => exact absurd rfl (hd x y u)
    | _ => rfl

section

variable {m : Msg} {room : Nat} (hroom : 0 < room) (r : List Msg) (a : Active) {s : State}
include hroom

theorem sendMsgs_placed {x : Msg} {t u : State} (hplace : placeLine m s = (some x, t)) (hsent : (transmit x t).1 = some u) :
    sendMsgs (m :: r) room a s = sendMsgs r (room - 1) { a with wait := a.wait + 1 } u := by
  rw [sendMsgs, if_neg (Nat.ne_of_gt hroom), hplace]
  simp only [hsent]

theorem sendMsgs_dropped {t : State} (hplace : placeLine m s = (none, t)) :
    sendMsgs (m :: r) room a s = sendMsgs r room a t := by
  rw [sendMsgs, if_neg (Nat.ne_of_gt hroom), hplace]

end

/-- Requests to stops of this device that take no ring place leave in order, as many as there is room for. -/
theorem sendMsgs_mesh (ms : List Msg) (hms : ∀ m, m ∈ ms → m.kind ≠ .ringWrite ∧ ∀ x y u, m.dst ≠ .dev x y u) (room : Nat)
    (a : Active) (s : State) :
    sendMsgs ms room a s = ({ a with todo := ms.drop room, wait := a.wait + min room ms.length }, false,
      { s with net := s.net ++ ms.take room }) := by
  induction ms generalizing room a s with
  | nil => simp [sendMsgs]
  | cons m r ih =>
    obtain ⟨⟨hk, hd⟩, hrest⟩ := List.forall_mem_cons.mp hms
    cases room with
    | zero => simp [sendMsgs]
    | succ room =>
      rw [sendMsgs_placed (Nat.succ_pos room) r a (placeLine_plain hk s) (congrArg Prod.fst (transmit_mesh hd s)), ih hrest]
      simp [State.send, Nat.add_min_add_right]
      omega

theorem placeLine_ring {m : Msg} {s : State} (hk : m.kind = .ringWrite) (hp : (checked (saltAddr 0) m.line).poison = false) :
    placeLine m s = ((ringTake m.slot m.idx s).1.map fun x => { m with
      kind := .memWrite, addr := x, idx := 0, line := sealLine (saltAddr x) (checked (saltAddr 0) m.line) },
      (ringTake m.slot m.idx s).2) := by
  simp only [placeLine, hk, hp, ne_eq, not_true_eq_false, if_false, Bool.false_eq_true]
  cases (ringTake m.slot m.idx s).1 <;> rfl

/-- Where a single request stands as `x` when its turn comes, it is sent as that. -/
theorem sendMsgs_one {m x : Msg} {room : Nat} {s t : State} (hroom : 0 < room) (hplace : placeLine m s = (some x, t))
    (hd : ∀ i j u, x.dst ≠ .dev i j u) (a : Active) :
    sendMsgs [m] room a s = ({ a with todo := [], wait := a.wait + 1 }, false, t.send x) :=
  sendMsgs_placed hroom [] a hplace (congrArg Prod.fst (transmit_mesh hd t))

/-! ### What the instructions start -/

/-- Is the instruction `seq` issued after the frame's COMMIT, if that has been issued as `committed`? -/
def lateAt (committed : Option Nat) (seq : Nat) : Bool := committed.elim false fun q => decide (q < seq)

theorem lateAt_eq (committed : Option Nat) (seq : Nat) : lateAt committed seq = match committed with
    | some q => decide (q < seq)
    | none => false := by
  cases committed <;> rfl

section

variable {c : CoreId} {o : Op} {s : State} (hN : upperZero o.n = true) (hmax : low32 o.n ≤ 131072)
include hN hmax

theorem startCopy_copies (hA : upperZero o.a = true) (hC : upperZero o.c = true)
    (hread : runCheck s c (lSa o.w0) (low32 o.a) (low32 o.n) = 0)
    (hwrite : writeCheck s c o.seq (lSc o.w0) (low32 o.c) (low32 o.n) = 0) :
    let r := copyLoop c (lSa o.w0) (low32 o.a) (lSc o.w0) (low32 o.c) (low32 o.n) s
    r.1 = false → startCopy c o s = .done r.2 := by
  intro r hr
  have hRange : ¬(!(upperZero o.a && upperZero o.c && upperZero o.n) || low32 o.n > 131072) = true := by simp [hA, hC, hN, hmax]
  have hcodes : firstCode [runCheck s c (lSa o.w0) (low32 o.a) (low32 o.n),
      writeCheck s c o.seq (lSc o.w0) (low32 o.c) (low32 o.n)] = 0 := firstCode_eq_zero (by simp [hread, hwrite])
  unfold startCopy
  exact (if_neg hRange).trans ((if_neg (not_not.mpr hcodes)).trans (if_neg (by simp [r, hr])))

section

variable (hA : upperZero o.a = true)
include hA

theorem startGet_asks (hB : upperZero o.b = true) (hpeer : peerOk o.d (lOptB o.w0 0) = true)
    (hwrite : writeCheck s c o.seq (lSa o.w0) (low32 o.a) (low32 o.n) = 0) :
    let p := resolvePeer s c o.d (lOptB o.w0 0)
    p.2 = 0 → startGet c o s = launch c o [] ((List.range (low32 o.n)).map fun i =>
      { kind := .readReq, src := .core c, dst := p.1, seq := o.seq, slot := (s.core c).slot, shelf := lSb o.w0,
        idx := low32 o.b + i, dshelf := lSa o.w0, didx := low32 o.a + i }) s := by
  intro p hp
  have hRange : ¬(!(upperZero o.a && upperZero o.b && upperZero o.n) || low32 o.n > 131072 ||
      !peerOk o.d (lOptB o.w0 0)) = true := by
    simp [hA, hB, hN, hmax, hpeer]
  have hcodes : firstCode [writeCheck s c o.seq (lSa o.w0) (low32 o.a) (low32 o.n), p.2] = 0 :=
    firstCode_eq_zero (by simp [hwrite, hp])
  unfold startGet
  exact (if_neg hRange).trans (if_neg (not_not.mpr hcodes))

/-- PUT takes its credits and reads its lines; the requests carry them sealed for their way. -/
theorem startPut_sends (hB : upperZero o.b = true) (hpeer : peerOk o.d (lOptB o.w0 0) = true)
    (hread : runCheck s c (lSa o.w0) (low32 o.a) (low32 o.n) = 0)
    (hcred : low32 o.n ≤ ledgerHas (s.core c) o.d (lOptB o.w0 0) (fld o.w1 3 0)) :
    let p := resolvePeer s c o.d (lOptB o.w0 0)
    let u := s.modCore c fun k => ledgerTake k o.d (lOptB o.w0 0) (fld o.w1 3 0) (low32 o.n)
    let r := shelfReadN c (lSa o.w0) (low32 o.a) 2 (low32 o.n) u
    let slot := (u.core c).slot
    p.2 = 0 → r.2.1 = false → r.2.2 = u → startPut c o s = launch c o [] (r.1.mapIdx fun i x =>
      { kind := .write, src := .core c, dst := p.1, seq := o.seq, slot := slot, shelf := lSb o.w0, idx := low32 o.b + i,
        line := sealLine (saltTransit (peerNum p.1) (lSb o.w0) (low32 o.b + i) slot (peerXY u p.1).1 (peerXY u p.1).2) x,
        pool := fld o.w1 3 0, stamp := (s.core c).cur.toNat % 256,
        cd := lateAt (u.core c).committed o.seq }) u := by
  intro p u r slot hp hecc hsame
  have hRange : ¬(!(upperZero o.a && upperZero o.b && upperZero o.n) || low32 o.n > 131072 ||
      !peerOk o.d (lOptB o.w0 0)) = true := by
    simp [hA, hB, hN, hmax, hpeer]
  have hcodes : firstCode [runCheck s c (lSa o.w0) (low32 o.a) (low32 o.n), p.2] = 0 := firstCode_eq_zero (by simp [hread, hp])
  have hpassed : ¬r.2.1 = true := by simp [hecc]
  unfold startPut
  refine (if_neg hRange).trans ((if_neg (not_not.mpr hcodes)).trans ((if_neg (Nat.not_lt.mpr hcred)).trans
    ((if_neg hpassed).trans ?_)))
  rw [show (shelfReadN c (lSa o.w0) (low32 o.a) 2 (low32 o.n) u).2.2 = u from hsame]
  simp only [lateAt_eq]
  rfl

end

section

variable (hpos : 0 < low32 o.n)
include hpos

theorem startFetch_asks (hC : upperZero o.c = true) (hB : fld o.b 63 40 = 0)
    (hext : extentCheck s (s.core c).slot (fld o.b 39 0) (low32 o.n) true = 0)
    (hwrite : writeCheck s c o.seq (lSc o.w0) (low32 o.c) (low32 o.n) = 0) :
    startFetch c o s = launch c o [] ((List.range (low32 o.n)).map fun i =>
      { kind := if fld o.b 39 0 + 64 * i < 0x1000000000 then .memRead else .gridRead, src := .core c,
        dst := if fld o.b 39 0 + 64 * i < 0x1000000000 then .mem else .grid, seq := o.seq, slot := (s.core c).slot,
        addr := fld o.b 39 0 + 64 * i, dshelf := lSc o.w0, didx := low32 o.c + i }) s := by
  have hRange : ¬(!(upperZero o.c && upperZero o.n) || fld o.b 63 40 ≠ 0 || low32 o.n > 131072) = true := by
    simp [hC, hN, hB, hmax]
  have hcodes : firstCode [extentCheck s (s.core c).slot (fld o.b 39 0) (low32 o.n) true,
      writeCheck s c o.seq (lSc o.w0) (low32 o.c) (low32 o.n)] = 0 := firstCode_eq_zero (by simp [hext, hwrite])
  unfold startFetch
  exact (if_neg hRange).trans ((if_neg (Nat.ne_of_gt hpos)).trans (if_neg (not_not.mpr hcodes)))

variable (hA : upperZero o.a = true) (hread : runCheck s c (lSa o.w0) (low32 o.a) (low32 o.n) = 0)
include hA hread

theorem startStore_sends (hB : fld o.b 63 40 = 0)
    (hext : extentCheck s (s.core c).slot (fld o.b 39 0) (low32 o.n) false = 0) :
    let r := shelfReadN c (lSa o.w0) (low32 o.a) 2 (low32 o.n) s
    r.2.1 = false → startStore c o s = launch c o [] (r.1.mapIdx fun i x =>
      { kind := .memWrite, src := .core c, dst := .mem, seq := o.seq, slot := (s.core c).slot, addr := fld o.b 39 0 + 64 * i,
        line := sealLine (saltAddr (fld o.b 39 0 + 64 * i)) x }) r.2.2 := by
  intro r hecc
  have hRange : ¬(!(upperZero o.a && upperZero o.n) || fld o.b 63 40 ≠ 0 || low32 o.n > 131072) = true := by
    simp [hA, hN, hB, hmax]
  have hcodes : firstCode [runCheck s c (lSa o.w0) (low32 o.a) (low32 o.n),
      extentCheck s (s.core c).slot (fld o.b 39 0) (low32 o.n) false] = 0 := firstCode_eq_zero (by simp [hread, hext])
  unfold startStore
  exact (if_neg hRange).trans ((if_neg (Nat.ne_of_gt hpos)).trans ((if_neg (not_not.mpr hcodes)).trans
    (if_neg (by simp [r, hecc]))))

theorem startStoreRing_sends (hB : o.b = 0) (hring : fld o.w1 5 0 ≤ 32) (hcomm : (s.core c).committed = none) :
    let r := shelfReadN c (lSa o.w0) (low32 o.a) 2 (low32 o.n) s
    r.2.1 = false → startStoreRing c o s = launch c o [] (r.1.map fun x =>
      { kind := .ringWrite, src := .core c, dst := .mem, seq := o.seq, slot := (s.core c).slot, idx := fld o.w1 5 0,
        line := sealLine (saltAddr 0) x, frame := (s.core c).cur, disc := true }) r.2.2 := by
  intro r hecc
  have hRange : ¬(!(upperZero o.a && upperZero o.n) || low32 o.n > 131072 || o.b ≠ 0) = true := by simp [hA, hN, hB, hmax]
  have horder : ¬(match (s.core c).committed with | some q => decide (q < o.seq) | none => false) = true := by simp [hcomm]
  unfold startStoreRing
  exact (if_neg hRange).trans ((if_neg (Nat.ne_of_gt hpos)).trans ((if_neg (Nat.not_lt.mpr hring)).trans
    ((if_neg (not_not.mpr hread)).trans ((if_neg horder).trans (if_neg (by simp [r, hecc]))))))

end

end

/-! ### Operands and credits right after an issue -/

theorem issuedOp_long_d {c : CoreId} {m : Mn} {w w1 : Word} {s : State} (h : Ready c m w w1 s) (hm : m ∈ longMns) :
    (issuedOp c m w w1 s).d = rdS (s.core c) (lRd w) :=
  (operandCapture c m w w1 s h).2.1 ((ready_long h).trans (decide_eq_true hm)) |>.2.2.2.2

theorem issued_ledgerHas (c : CoreId) (m : Mn) (w w1 : Word) (s : State) (v : Word) (remote : Bool) (pool : Nat) :
    ledgerHas ((issued c m w w1 s).core c) v remote pool = ledgerHas (s.core c) v remote pool := by
  simp only [ledgerHas, ledgerFind, issued_ledger, issued_cur]

theorem ledgerTake_slot (k : CoreSt) (v : Word) (remote : Bool) (pool n : Nat) : (ledgerTake k v remote pool n).slot = k.slot := by
  unfold ledgerTake
  split <;> rfl

theorem ledgerTake_committed (k : CoreSt) (v : Word) (remote : Bool) (pool n : Nat) :
    (ledgerTake k v remote pool n).committed = k.committed := by
  unfold ledgerTake
  split <;> rfl

end Sys2Proof.Machine

/-- Settles O20: past its checks each instruction starts what the lemma of its row says; the last two clauses by the order in which
requests leave. -/
theorem moveResults : Obligations.MoveResults := by
  refine ⟨?start, ?mesh, ?ring⟩
  case' start =>
    intro c w w1 s k a b cc d n ok
    refine ⟨?copy, ?get, ?put, ?fetch, ?store, ?storeRing⟩
  case copy =>
    intro u r hready ⟨hN, hmax⟩ hA hC hread hwrite hr
    obtain ⟨ha, -, hc, hn⟩ := issuedOp_long hready (by decide)
    have hdone := startCopy_copies (c := c) (o := issuedOp c .copy w w1 s) (s := u) (by rwa [hn]) (by rwa [hn])
      (by rwa [ha]) (by rwa [hc])
    simp only [issuedOp_w0, issuedOp_seq, ha, hc, hn, u, issued_runCheck,
      issued_writeCheck (show Mn.copy ≠ .commit by decide)] at hdone
    exact exec_done startCopy hready rfl rfl (fun _ _ => rfl) (hdone hread hwrite hr)
  case get =>
    intro u o p hready ⟨hN, hmax⟩ hA hB hpeer hwrite hp
    obtain ⟨ha, hb, -, hn⟩ := issuedOp_long hready (by decide)
    have hd := issuedOp_long_d hready (by decide)
    have hstart := startGet_asks (c := c) (o := o) (s := u) (by rwa [hn]) (by rwa [hn]) (by rwa [ha]) (by rwa [hb])
    simp only [o, issuedOp_w0, issuedOp_seq, ha, hb, hd, hn, u, issued_slot,
      issued_writeCheck (show Mn.get ≠ .commit by decide)] at hstart
    rw [exec_unit startGet hready rfl rfl (fun _ _ => rfl), hstart hpeer hwrite hp]
  case put =>
    intro v u o p r late hready ⟨hN, hmax⟩ hA hB hpeer hread hp hcred hecc hsame
    obtain ⟨ha, hb, -, hn⟩ := issuedOp_long hready (by decide)
    have hd := issuedOp_long_d hready (by decide)
    have hstart := startPut_sends (c := c) (o := o) (s := v) (by rwa [hn]) (by rwa [hn]) (by rwa [ha]) (by rwa [hb])
    simp only [o, issuedOp_w0, issuedOp_w1, issuedOp_seq, ha, hb, hd, hn, v, issued_slot, issued_runCheck, issued_ledgerHas,
      issued_cur, core_modCore, ledgerTake_slot, ledgerTake_committed,
      issued_committed (show Mn.put ≠ .commit by decide)] at hstart
    have hlate : late = lateAt k.committed k.nextSeq := (lateAt_eq k.committed k.nextSeq).symm
    rw [exec_unit startPut hready rfl rfl (fun _ _ => rfl), hstart hpeer hread hcred hp hecc hsame, hlate]
  case fetch =>
    intro u o e hready ⟨hN, hmax⟩ hpos hC hB hext hwrite
    obtain ⟨-, hb, hc, hn⟩ := issuedOp_long hready (by decide)
    have hstart := startFetch_asks (c := c) (o := o) (s := u) (by rwa [hn]) (by rwa [hn]) (by rwa [hn]) (by rwa [hc])
      (by rwa [hb])
    simp only [o, issuedOp_w0, issuedOp_seq, hb, hc, hn, u, issued_slot,
      issued_writeCheck (show Mn.fetch ≠ .commit by decide)] at hstart
    rw [exec_unit startFetch hready rfl rfl (fun _ _ => rfl), hstart hext hwrite]
  case store =>
    intro u o e r hready ⟨hN, hmax⟩ hpos hA hB hread hext hecc
    obtain ⟨ha, hb, -, hn⟩ := issuedOp_long hready (by decide)
    have hstart := startStore_sends (c := c) (o := o) (s := u) (by rwa [hn]) (by rwa [hn]) (by rwa [hn]) (by rwa [ha])
    simp only [o, issuedOp_w0, issuedOp_seq, ha, hb, hn, u, issued_slot, issued_runCheck] at hstart
    rw [exec_unit startStore hready rfl rfl (fun _ _ => rfl), hstart hread hB hext hecc]
  case storeRing =>
    intro u o r hready ⟨hN, hmax⟩ hpos hA hB hring hread hcomm hecc
    obtain ⟨ha, hb, -, hn⟩ := issuedOp_long hready (by decide)
    have hstart := startStoreRing_sends (c := c) (o := o) (s := u) (by rwa [hn]) (by rwa [hn]) (by rwa [hn]) (by rwa [ha])
    simp only [o, issuedOp_w0, issuedOp_w1, issuedOp_seq, ha, hb, hn, u, issued_slot, issued_cur, issued_runCheck,
      issued_committed (show Mn.storeRing ≠ .commit by decide)] at hstart
    rw [exec_unit startStoreRing hready rfl rfl (fun _ _ => rfl), hstart hread hB hring hcomm hecc]
  case mesh => exact fun room a s hms => sendMsgs_mesh a.todo hms room a s
  case ring =>
    intro room a m s htodo hroom hk hd d
    have hplace := placeLine_ring (s := s) hk
    have hsend : sendTodo room a s = sendMsgs [m] room a s := by rw [sendTodo, htodo]
    rw [hsend]
    revert hplace
    generalize ringTake m.slot m.idx s = q
    intro hplace r hp
    obtain ⟨x, t⟩ := q
    cases x with
    | none => exact sendMsgs_dropped hroom [] a (hplace hp)
    | some x => exact sendMsgs_one hroom (hplace hp) (by simp [hd]) a
end


section
/-! SUPPORT. GETX, GATHER, CREDIT_REQ and CREDIT_RET (R270, R272, R273): what they answer once their checks have passed. -/

open Sys2Proof Sys2Proof.Machine Sys2Proof.Safety

namespace Sys2Proof.Machine

/-! ### One request to a stop of this device -/

/-- An instruction with a single request to this device's mesh sends it and waits for its answer. -/
theorem launch_one {c : CoreId} {o : Op} {m : Msg} {s : State} (hroom : 0 < roomFor (s.core c) o.mn) (hk : m.kind ≠ .ringWrite)
    (hd : ∀ x y u, m.dst ≠ .dev x y u) : launch c o [] [m] s = .active ⟨o, [], 1, []⟩ (s.send m) := by
  have hsend : sendTodo (roomFor (s.core c) o.mn) ⟨o, [m], 0, []⟩ s = (⟨o, [], 1, []⟩, false, s.send m) :=
    sendMsgs_one hroom (placeLine_plain hk s) hd _
  rw [launch, hsend]
  rfl

section

variable {c : CoreId} {o : Op} {s : State}

/-! ### GETX -/

/-- GETX asks for the rows that its run still needs, or traps where the run met a trap. -/
theorem startGetx_runs (hA : upperZero o.a = true) (hB : upperZero o.b = true) (hN : upperZero o.n = true)
    (hmax : low32 o.n ≤ 1048575) (hnc : 0 < fld o.w1 5 0) (hncMax : fld o.w1 5 0 ≤ 32) (hrl : 0 < fld o.w1 9 6)
    (hrlMax : fld o.w1 9 6 ≤ 8) (hcap : 16 ≤ fld o.w1 29 10) (hstage : low32 o.b + fld o.w1 29 10 ≤ 2 ^ 20) :
    let r := getxLines c o (seLen (shelfEnt s c (lSa o.w0)) + 1) GetxSt.start s
    let g := r.1
    let t := getxCount c g r.2
    startGetx c o s = if g.code ≠ 0 then .trap g.code 0 (sendEarlier c o g.reqs t)
      else launch c o [(lRd o.w0, BitVec.ofNat 64 g.done), (lRd o.w0 + 1, BitVec.ofNat 64 (g.lines + g.staged * 2 ^ 32))]
        g.reqs (if g.done < low32 o.n then bumpC c Reg.GETX_STOP_CNT t else t) := by
  intro r g t
  have hRange : ¬(!(upperZero o.a && upperZero o.b && upperZero o.n) || low32 o.n > 1048575) = true := by
    simp [hA, hB, hN, hmax]
  have hShape : ¬(fld o.w1 5 0 = 0 || fld o.w1 5 0 > 32 || fld o.w1 9 6 = 0 || fld o.w1 9 6 > 8 || fld o.w1 29 10 < 16 ||
      low32 o.b + fld o.w1 29 10 > 2 ^ 20) = true := by
    simp only [Bool.or_eq_true, decide_eq_true_eq]
    omega
  unfold startGetx
  exact (if_neg hRange).trans (if_neg hShape)

/-! ### GATHER -/

theorem startGather_asks (hmn : o.mn = .gather) (hA : upperZero o.a = true) (hC : upperZero o.c = true)
    (hN : upperZero o.n = true) (hmax : low32 o.n ≤ 1048575)
    (hcrates : fld o.w1 6 5 = 1 ∨ fld o.w1 6 5 = 2 → upperZero o.b = true ∧ upperZero o.d = true ∧
      runCheck s c (lSb o.w0) (low32 o.b) (cdiv (low32 o.d) 16) = 0)
    (hread : runCheck s c (lSa o.w0) (low32 o.a) (cdiv (low32 o.n) 16) = 0) :
    startGather c o s = .active ⟨o, [], 1, []⟩
      (s.send { kind := .gather, src := .core c, dst := .map, seq := o.seq, slot := (s.core c).slot }) := by
  have hRange : ¬(!(upperZero o.a && upperZero o.c && upperZero o.n) || low32 o.n > 1048575) = true := by
    simp [hA, hC, hN, hmax]
  have hMode : ¬((fld o.w1 6 5 = 1 || fld o.w1 6 5 = 2) && !(upperZero o.b && upperZero o.d)) = true := by
    simp only [Bool.and_eq_true, Bool.or_eq_true, decide_eq_true_eq]
    rintro ⟨hmode, hbad⟩
    obtain ⟨hB, hD, -⟩ := hcrates hmode
    simp [hB, hD] at hbad
  have hlists : (if (fld o.w1 6 5 = 1 || fld o.w1 6 5 = 2) = true then
      runCheck s c (lSb o.w0) (low32 o.b) (cdiv (low32 o.d) 16) else 0) = 0 := by
    refine ite_eq_right_iff.mpr fun hmode => (hcrates ?_).2.2
    simpa using hmode
  have hcodes : firstCode [runCheck s c (lSa o.w0) (low32 o.a) (cdiv (low32 o.n) 16),
      if (fld o.w1 6 5 = 1 || fld o.w1 6 5 = 2) = true then runCheck s c (lSb o.w0) (low32 o.b) (cdiv (low32 o.d) 16) else 0]
        = 0 := by
    rw [hread, hlists]
    rfl
  unfold startGather
  refine (if_neg hRange).trans ((if_neg hMode).trans ((if_neg (not_not.mpr hcodes)).trans (launch_one ?_ nofun nofun)))
  rw [hmn]
  exact Nat.zero_lt_succ 63

/-! ### CREDIT_REQ and CREDIT_RET -/

theorem startCreditReq_asks (hpeer : peerOk o.a ((iX o.w0).testBit 4) = true) (hpos : 0 < o.b.toNat) (hmax : o.b.toNat ≤ 16383)
    (hledger : (ledgerKeys (s.core c)).contains (ledgerKey o.a ((iX o.w0).testBit 4) (iX o.w0 % 16)) = true ∨
      (ledgerKeys (s.core c)).length < 16) :
    let p := resolvePeer s c o.a ((iX o.w0).testBit 4)
    p.2 = 0 → startCreditReq c o s = launch c o []
      [{ kind := .creditReq, src := .core c, dst := p.1, seq := o.seq, slot := (s.core c).slot, pool := iX o.w0 % 16, k := o.b.toNat }] s := by
  intro p hp
  have hRange : ¬(!peerOk o.a ((iX o.w0).testBit 4) || o.b.toNat = 0 || o.b.toNat > 16383) = true := by
    simp [hpeer, hmax, Nat.ne_of_gt hpos]
  have hFull : ¬(!(ledgerKeys (s.core c)).contains (ledgerKey o.a ((iX o.w0).testBit 4) (iX o.w0 % 16)) &&
      (ledgerKeys (s.core c)).length ≥ 16) = true := by
    rcases hledger with h | h
    · rw [h]
      exact Bool.false_ne_true
    · rw [decide_eq_false (Nat.not_le.mpr h), Bool.and_false]
      exact Bool.false_ne_true
  unfold startCreditReq
  exact (if_neg hRange).trans ((if_neg (not_not.mpr hp)).trans (if_neg hFull))

/-- Credits that the pool has room for are returned whole. -/
theorem returnCredits_within (p n : Nat) (hroom : (poolOf (s.core c) p).avail + n ≤ poolCap s c p) :
    returnCredits c p n s = s.modCore c fun x =>
      setPool x p { poolOf (s.core c) p with avail := (poolOf (s.core c) p).avail + n } := by
  simp only [returnCredits, Nat.min_eq_right hroom, if_neg (Nat.not_lt.mpr hroom)]

theorem startCreditRet_returns (hpos : 0 < iX o.w0 % 16) (hslot : fld (poolCfg s c (iX o.w0 % 16)) 20 18 = (s.core c).slot)
    (hupper : fld o.b 63 18 = 0)
    (hroom : (poolOf (s.core c) (iX o.w0 % 16)).avail + fld o.b 17 0 ≤ poolCap s c (iX o.w0 % 16)) :
    startCreditRet c o s = .done (if fld o.b 17 0 = 0 then s
      else s.modCore c fun x => setPool x (iX o.w0 % 16) { poolOf (s.core c) (iX o.w0 % 16) with
        avail := (poolOf (s.core c) (iX o.w0 % 16)).avail + fld o.b 17 0 }) := by
  have hRange : ¬(iX o.w0 % 16 = 0 || fld (poolCfg s c (iX o.w0 % 16)) 20 18 ≠ (s.core c).slot) = true := by
    simp [hslot, Nat.ne_of_gt hpos]
  unfold startCreditRet
  refine (if_neg hRange).trans ((if_neg (not_not.mpr hupper)).trans ?_)
  rw [returnCredits_within _ _ hroom]
  exact (apply_ite Start.done _ _ _).symm

end

/-! ### Credits right after an issue -/

section

variable (c : CoreId) (m : Mn) (w w1 : Word) (s : State)

@[simp] theorem issued_ledgerKeys : ledgerKeys ((issued c m w w1 s).core c) = ledgerKeys (s.core c) := by
  simp only [ledgerKeys, issued_ledger, issued_cur, issued_active]

@[simp] theorem issued_poolOf (p : Nat) : poolOf ((issued c m w w1 s).core c) p = poolOf (s.core c) p := by
  simp only [poolOf, issued_pools]

@[simp] theorem issued_poolCfg (p : Nat) : poolCfg (issued c m w w1 s) c p = poolCfg s c p := issued_actReg c m w w1 s _

@[simp] theorem issued_poolCap (p : Nat) : poolCap (issued c m w w1 s) c p = poolCap s c p := by
  simp only [poolCap, issued_poolCfg]

end

end Sys2Proof.Machine

/-- Settles O21: past its checks GETX is its run, GATHER and CREDIT_REQ are their one request, and CREDIT_RET is a pool with the
credits back. -/
theorem gatherAndCreditResults : Obligations.GatherAndCreditResults := by
  intro c w w1 s k a b n
  refine ⟨?getx, ?gather, ?creditReq, ?creditRet⟩
  case getx =>
    intro u o nc rl cap r g t hready hA hB hN hmax hnc hncMax hrl hrlMax hcap hstage
    obtain ⟨ha, hb, -, hn⟩ := issuedOp_long hready (by decide)
    have hrun := startGetx_runs (c := c) (o := o) (s := u) (by rwa [ha]) (by rwa [hb]) (by rwa [hn]) (by rwa [hn])
    simp only [o, issuedOp_w0, issuedOp_w1, hb, hn] at hrun
    have hgo : startGetx c o u = if g.code ≠ 0 then .trap g.code 0 (sendEarlier c o g.reqs t)
        else launch c o [(lRd w, BitVec.ofNat 64 g.done), (lRd w + 1, BitVec.ofNat 64 (g.lines + g.staged * 2 ^ 32))]
          g.reqs (if g.done < n then bumpC c Reg.GETX_STOP_CNT t else t) :=
      hrun hnc hncMax hrl hrlMax hcap hstage
    by_cases hcode : g.code = 0
    · rw [exec_unit startGetx hready rfl rfl (fun _ _ => rfl), hgo, if_neg (not_not.mpr hcode), if_pos hcode]
    · rw [exec_unit startGetx hready rfl rfl (fun _ _ => rfl), hgo, if_pos hcode, if_neg hcode]
      rfl
  case gather =>
    intro u o mode d hready hA hC hN hmax hcrates hread
    obtain ⟨ha, hb, hc, hn⟩ := issuedOp_long hready (by decide)
    have hd := issuedOp_long_d hready (by decide)
    have hask := startGather_asks (c := c) (o := o) (s := u) (issuedOp_mn c .gather w w1 s) (by rwa [ha]) (by rwa [hc])
      (by rwa [hn]) (by rwa [hn])
    simp only [o, issuedOp_w0, issuedOp_w1, issuedOp_seq, ha, hb, hd, hn, u, issued_slot, issued_runCheck] at hask
    rw [exec_unit startGather hready rfl rfl (fun _ _ => rfl), hask hcrates hread]
    rfl
  case creditReq =>
    intro u o v remote p count hready hpeer hpos hmax hp hledger
    have hop : o = _ := ready_short hready (by decide) (by decide)
    have ha : o.a = v := by rw [hop]
    have hb : o.b = rdS k (iB w) := by rw [hop]
    have hask := startCreditReq_asks (c := c) (o := o) (s := u)
    simp only [o] at ha hb
    simp only [o, issuedOp_w0, issuedOp_seq, ha, hb, u, issued_slot, issued_ledgerKeys] at hask
    rw [exec_unit startCreditReq hready rfl rfl (fun _ _ => rfl), hask hpeer hpos hmax hledger hp]
  case creditRet =>
    intro u p v q hready hpos hslot hupper hroom
    have hb : (issuedOp c .creditRet w w1 s).b = v := by rw [ready_short hready (by decide) (by decide)]
    have hdone := startCreditRet_returns (c := c) (o := issuedOp c .creditRet w w1 s) (s := u)
    simp only [issuedOp_w0, hb, u, issued_slot, issued_poolOf, issued_poolCfg, issued_poolCap] at hdone
    exact exec_done startCreditRet hready rfl rfl (fun _ _ => rfl) (hdone hpos hslot hupper hroom)
end


section
/-! SUPPORT. PRED_GATE (R226 to R228): the mask register that it makes once its checks have passed. -/

open Sys2Proof Sys2Proof.Machine Sys2Proof.Safety

namespace Sys2Proof.Machine

section

variable {c : CoreId} {o : Op} {s : State}

/-- PRED_GATE's end: the mask register that word 1 names, the core's rotations, and the number of chunks in s[rd]. -/
def gateMade (c : CoreId) (o : Op) (gm : GateMask) (rot : Store Nat → Store Nat) (t : State) : State :=
  wrS c (lRd o.w0) (BitVec.ofNat 64 (gmChunks gm)) (t.modCore c fun k =>
    { k with gm := sput (fld o.w1 19 18) gm k.gm, rot := rot k.rot })

/-- The rotation counter of a gate, kept where it is not zero (R226). -/
def putRotation (gate r : Nat) (rot : Store Nat) : Store Nat := if r = 0 then sdel gate rot else sput gate r rot

/-- On a gate in fallback every group is active and the groups not predicted are its shadow; otherwise the rotation picks the
shadow. -/
theorem startPredGate_makes (hA : upperZero o.a = true) (hN : upperZero o.n = true) (hmax : low32 o.n ≤ 1024)
    (hfmt : scoreFmt (fld o.w1 4 0) = true) (hthr : o.x.toNat < 2 ^ fmtBits (fld o.w1 4 0)) (hpos : 0 < fld o.w1 11 5)
    (hng : fld o.w1 11 5 ≤ 64) (hon : bitOf (gateCfg s (s.core c).slot (fld o.w1 17 12)) 0 = true) :
    let ng := fld o.w1 11 5
    let gate := fld o.w1 17 12
    let rl := cdiv (ng * fmtBits (fld o.w1 4 0)) 512
    let q := scoreRows c o (fld o.w1 4 0) o.x.toNat ng rl (low32 o.n) 0 s
    let z := rotate q.1 (List.range ng) ((sget gate (s.core c).rot).getD 0)
    let fallback := bitOf (s.reg (Reg.GATE_STAT + 0x200 * (s.core c).slot + 8 * gate)) 63
    runCheck s c (lSa o.w0) (low32 o.a) (low32 o.n * rl) = 0 → q.2.1 = false →
      (fallback = true →
        startPredGate c o s = .done (gateMade c o ⟨q.1, 2 ^ ng - 1, 2 ^ ng - 1 - q.1, gate, ng⟩ id q.2.2)) ∧
      (fallback = false →
        startPredGate c o s = .done (gateMade c o ⟨q.1, q.1, z.1, gate, ng⟩ (putRotation gate z.2) q.2.2)) := by
  intro ng gate rl q z fallback hread hecc
  have hRange : ¬(!(upperZero o.a && upperZero o.n) || low32 o.n > 1024) = true := by simp [hA, hN, hmax]
  have hFmt : ¬(!scoreFmt (fld o.w1 4 0)) = true := by simp [hfmt]
  have hMask : ¬(fld o.w1 11 5 = 0 || fld o.w1 11 5 > 64 || !bitOf (gateCfg s (s.core c).slot (fld o.w1 17 12)) 0) = true := by
    simp [hng, hon, Nat.ne_of_gt hpos]
  have hpassed : ¬q.2.1 = true := by simp [hecc]
  have hmade : startPredGate c o s = .done (gateMade c o
      (if fallback then ⟨q.1, 2 ^ ng - 1, 2 ^ ng - 1 - q.1, gate, ng⟩ else ⟨q.1, q.1, z.1, gate, ng⟩)
      (fun rot => if fallback then rot else putRotation gate z.2 rot) q.2.2) := by
    unfold startPredGate
    exact (if_neg hRange).trans ((if_neg hFmt).trans ((if_neg (Nat.not_le.mpr hthr)).trans ((if_neg hMask).trans
      ((if_neg (not_not.mpr hread)).trans (if_neg hpassed)))))
  rw [hmade]
  refine ⟨fun hback => ?_, fun hback => ?_⟩
  · rw [hback]
    rfl
  · rw [hback]
    rfl

end

theorem issuedOp_predGate_x {c : CoreId} {w w1 : Word} {s : State} (h : Ready c .predGate w w1 s) :
    (issuedOp c .predGate w w1 s).x = rdS (s.core c) (fld w1 24 20) := by
  have hlong : iLong w = true := (ready_long h).trans (by decide)
  simp [issuedOp, capture, hlong]

@[simp] theorem issued_gateCfg (c : CoreId) (m : Mn) (w w1 : Word) (s : State) (k g : Nat) :
    gateCfg (issued c m w w1 s) k g = gateCfg s k g := issued_actReg c m w w1 s _

end Sys2Proof.Machine

/-- Settles O29: past its checks PRED_GATE makes its mask register by whether its gate is in fallback. -/
theorem predGateResults : Obligations.PredGateResults := by
  intro c w w1 s hready k u a n thr f ng gate m rl q all z inFallback hA hN hmax hfmt hthr hpos hng hon hread hecc
  obtain ⟨ha, -, -, hn⟩ := issuedOp_long hready (by decide)
  have hx := issuedOp_predGate_x hready
  have hmakes := startPredGate_makes (c := c) (o := issuedOp c .predGate w w1 s) (s := u) (by rwa [ha]) (by rwa [hn])
    (by rwa [hn])
  simp only [issuedOp_w0, issuedOp_w1, ha, hn, hx, u, issued_slot, issued_rot, issued_gateCfg, issued_runCheck, gateMade] at hmakes
  obtain ⟨hback, hforth⟩ := hmakes hfmt hthr hpos hng hon hread hecc
  exact ⟨fun hfall => exec_done startPredGate hready rfl rfl (fun _ _ => rfl) (hback hfall),
    fun hfall => exec_done startPredGate hready rfl rfl (fun _ _ => rfl) (hforth hfall)⟩
end


section
/-! SUPPORT. The scatter accumulator (R235, R236, R239): what SCA_INIT, SCA_ADD and SCA_DRAIN answer once their checks have
passed. -/

open Sys2Proof Sys2Proof.Machine Sys2Proof.Safety

namespace Sys2Proof.Machine

section

variable {c : CoreId} {o : Op} {s : State}

theorem writeCheck_none (q i j : Nat) : writeCheck s c q i j 0 = 0 := by
  simp [writeCheck, localCheck]

/-- No SCA_ADD holds up an instruction of a core on which nothing runs. -/
theorem scaAdds_none (hidle : (s.core c).active = []) : ¬((s.core c).active.any (fun a => a.op.mn == .scaAdd)) = true := by
  rw [hidle]
  exact Bool.false_ne_true

theorem startScaInit_empties (hidle : (s.core c).active = []) (hpos : 0 < fld o.w0 38 32) (hmax : fld o.w0 38 32 ≤ 64)
    (hshelf : runCheck s c (fld o.w0 29 24) 0 1 = 0) :
    startScaInit c o s = .done (s.modCore c fun k =>
      { k with sca := ⟨true, false, fld o.w0 29 24, fld o.w0 38 32, bitOf o.w0 39, [], 0, 0⟩ }) := by
  have hRange : ¬(fld o.w0 38 32 = 0 || fld o.w0 38 32 > 64) = true := by simp [hmax, Nat.ne_of_gt hpos]
  unfold startScaInit
  exact (if_neg (scaAdds_none hidle)).trans ((if_neg hRange).trans (if_neg (not_not.mpr hshelf)))

/-- SCA_ADD takes its pairs and sends the lines that they spill. -/
theorem startScaAdd_takes (hA : upperZero o.a = true) (hN : upperZero o.n = true) (hmax : low32 o.n ≤ 1048575)
    (hinit : (s.core c).sca.init = true)
    (hread : runCheck s c (lSa o.w0) (low32 o.a) (low32 o.n * scaLin (s.core c).sca.lanes) = 0)
    (hwrite : 0 < low32 o.n → writeCheck s c o.seq (s.core c).sca.shelf 0 1 = 0) :
    let r := scaPairs c o (low32 o.n) (low32 o.a) ⟨[], none, 0⟩ s
    r.1.trap = 0 → startScaAdd c o s = launch c o [] r.1.spill r.2 := by
  intro r hr
  have hRange : ¬(!(upperZero o.a && upperZero o.n) || low32 o.n > 1048575) = true := by simp [hA, hN, hmax]
  have hShelf : writeCheck s c o.seq (s.core c).sca.shelf 0 (if low32 o.n = 0 then 0 else 1) = 0 := by
    by_cases hzero : low32 o.n = 0
    · rw [if_pos hzero, writeCheck_none]
    · rw [if_neg hzero]
      exact hwrite (Nat.pos_of_ne_zero hzero)
  have hcodes : firstCode [runCheck s c (lSa o.w0) (low32 o.a) (low32 o.n * scaLin (s.core c).sca.lanes),
      writeCheck s c o.seq (s.core c).sca.shelf 0 (if low32 o.n = 0 then 0 else 1)] = 0 :=
    firstCode_eq_zero (by simp [hread, hShelf])
  unfold startScaAdd
  exact (if_neg hRange).trans ((if_neg (by simp [hinit])).trans ((if_neg (not_not.mpr hcodes)).trans (if_neg (not_not.mpr hr))))

/-- SCA_DRAIN writes the keys in the order of their slots, and the counts to three registers. -/
theorem startScaDrain_writes (hidle : (s.core c).active = []) (hC : upperZero o.c = true) (hinit : (s.core c).sca.init = true) :
    let sca := (s.core c).sca
    let n := sca.keys.length
    let t := writeRange c (lSc o.w0) 7 (fun _ => sca.poisoned) (cdiv n 8 + 1) (low32 o.c) 0 0 (64 * n)
      (packEls 64 (sca.keys.map (·.key))) s
    writeCheck s c o.seq (lSc o.w0) (low32 o.c) (cdiv n 8) = 0 → t.1 = false →
    startScaDrain c o s = .done (wrS c (lRd o.w0 + 2) (BitVec.ofNat 64 sca.spillPos)
      (wrS c (lRd o.w0 + 1) (BitVec.ofNat 64 sca.spilled) (wrS c (lRd o.w0) (BitVec.ofNat 64 n) t.2))) := by
  intro sca n t hwrite ht
  have hwritten : ¬t.1 = true := by simp [ht]
  unfold startScaDrain
  exact (if_neg (scaAdds_none hidle)).trans ((if_neg (by simp [hC])).trans ((if_neg (by simp [hinit])).trans
    ((if_neg (not_not.mpr hwrite)).trans (if_neg hwritten))))

end

end Sys2Proof.Machine

/-- Settles O30: past its checks each instruction answers by the lemma of its row; nothing runs that would hold them up. -/
theorem scatterResults : Obligations.ScatterResults := by
  intro c w w1 s k a cc n sca
  refine ⟨?init, ?add, ?drain⟩
  case init =>
    intro hready hpos hmax hshelf
    have hdone := startScaInit_empties (c := c) (o := issuedOp c .scaInit w w1 s) (s := issued c .scaInit w w1 s)
      (ready_issued_active hready)
    simp only [issuedOp_w0, issued_runCheck] at hdone
    exact exec_done startScaInit hready rfl rfl (fun _ _ => rfl) (hdone hpos hmax hshelf)
  case add =>
    intro u o r hready hA hN hmax hinit hread hwrite hr
    obtain ⟨ha, -, -, hn⟩ := issuedOp_long hready (by decide)
    have htakes := startScaAdd_takes (c := c) (o := o) (s := u) (by rwa [ha]) (by rwa [hn]) (by rwa [hn])
    simp only [o, issuedOp_w0, issuedOp_seq, ha, hn, u, issued_sca, issued_runCheck,
      issued_writeCheck (show Mn.scaAdd ≠ .commit by decide)] at htakes
    rw [exec_unit startScaAdd hready rfl rfl (fun _ _ => rfl), htakes hinit hread hwrite hr]
  case drain =>
    intro u keys t hready hC hinit hwrite ht
    obtain ⟨-, -, hc, -⟩ := issuedOp_long hready (by decide)
    have hdone := startScaDrain_writes (c := c) (o := issuedOp c .scaDrain w w1 s) (s := u) (ready_issued_active hready)
      (by rwa [hc])
    simp only [issuedOp_w0, issuedOp_seq, hc, u, issued_sca, issued_writeCheck (show Mn.scaDrain ≠ .commit by decide)] at hdone
    exact exec_done startScaDrain hready rfl rfl (fun _ _ => rfl) (hdone hinit hwrite ht)
end


section
/-! SUPPORT. TOPK and MERGE (R281, R289 to R296): their requests for a context, and what the contexts of the SMU do. -/

open Sys2Proof Sys2Proof.Machine Sys2Proof.Safety

namespace Sys2Proof.Machine

section

variable {c : CoreId} {o : Op} {s : State}

/-- The request of a TOPK or MERGE for a context of the SMU. -/
def smuAsk (c : CoreId) (o : Op) (s : State) : Msg :=
  { kind := .smuWork, src := .core c, dst := .smu, seq := o.seq, slot := (s.core c).slot }

theorem launch_smuAsk (hroom : 0 < roomFor (s.core c) o.mn) :
    launch c o [] [smuAsk c o s] s = .active ⟨o, [], 1, []⟩ (s.send (smuAsk c o s)) :=
  launch_one hroom nofun nofun

section

variable (hA : upperZero o.a = true) (hC : upperZero o.c = true) (hN : upperZero o.n = true)
include hA hC hN

theorem startTopk_asks (hmn : o.mn = .topk) (hmax : low32 o.n ≤ 1048575) (hk : 0 < fld o.w1 42 30) (hkMax : fld o.w1 42 30 ≤ 4096)
    (hl : 0 < fld o.w1 29 5) (hlMax : fld o.w1 29 5 ≤ 2 ^ 24) (hfmt : selectFmt (fld o.w1 4 0) = true)
    (hread : runCheck s c (lSa o.w0) (low32 o.a) (low32 o.n * cdiv (fld o.w1 29 5 * fmtBits (fld o.w1 4 0)) 512) = 0)
    (hwrite : writeCheck s c o.seq (lSc o.w0) (low32 o.c) (low32 o.n * blockLines (fld o.w1 42 30)) = 0) :
    startTopk c o s = if low32 o.n = 0 then .done s else .active ⟨o, [], 1, []⟩ (s.send (smuAsk c o s)) := by
  have hRange : ¬(!(upperZero o.a && upperZero o.c && upperZero o.n) || low32 o.n > 1048575 || fld o.w1 42 30 = 0 ||
      fld o.w1 42 30 > 4096 || fld o.w1 29 5 = 0 || fld o.w1 29 5 > 2 ^ 24) = true := by
    simp [hA, hC, hN, hmax, hkMax, Nat.ne_of_gt hk, Nat.ne_of_gt hl]
    exact hlMax
  have hcodes : firstCode [runCheck s c (lSa o.w0) (low32 o.a) (low32 o.n * cdiv (fld o.w1 29 5 * fmtBits (fld o.w1 4 0)) 512),
      writeCheck s c o.seq (lSc o.w0) (low32 o.c) (low32 o.n * blockLines (fld o.w1 42 30))] = 0 :=
    firstCode_eq_zero (by simp [hread, hwrite])
  rw [← launch_smuAsk (by rw [hmn]; exact Nat.zero_lt_succ 63)]
  unfold startTopk
  exact (if_neg hRange).trans ((if_neg (by simp [hfmt])).trans (if_neg (not_not.mpr hcodes)))

theorem startMerge_asks (hmn : o.mn = .merge) (hpos : 0 < low32 o.n) (hmax : low32 o.n ≤ 64) (hki : 0 < fld o.w1 17 5)
    (hkiMax : fld o.w1 17 5 ≤ 4096) (hko : 0 < fld o.w1 42 30) (hkoMax : fld o.w1 42 30 ≤ 4096)
    (hfmt : selectFmt (fld o.w1 4 0) = true)
    (hread : runCheck s c (lSa o.w0) (low32 o.a) (low32 o.n * blockLines (fld o.w1 17 5)) = 0)
    (hwrite : writeCheck s c o.seq (lSc o.w0) (low32 o.c) (blockLines (fld o.w1 42 30)) = 0) :
    startMerge c o s = .active ⟨o, [], 1, []⟩ (s.send (smuAsk c o s)) := by
  have hRange : ¬(!(upperZero o.a && upperZero o.c && upperZero o.n) || low32 o.n = 0 || low32 o.n > 64 || fld o.w1 17 5 = 0 ||
      fld o.w1 17 5 > 4096 || fld o.w1 42 30 = 0 || fld o.w1 42 30 > 4096) = true := by
    simp [hA, hC, hN, hmax, hkiMax, hkoMax, Nat.ne_of_gt hpos, Nat.ne_of_gt hki, Nat.ne_of_gt hko]
  have hcodes : firstCode [runCheck s c (lSa o.w0) (low32 o.a) (low32 o.n * blockLines (fld o.w1 17 5)),
      writeCheck s c o.seq (lSc o.w0) (low32 o.c) (blockLines (fld o.w1 42 30))] = 0 :=
    firstCode_eq_zero (by simp [hread, hwrite])
  rw [← launch_smuAsk (by rw [hmn]; exact Nat.zero_lt_succ 63)]
  unfold startMerge
  exact (if_neg hRange).trans ((if_neg (by simp [hfmt])).trans (if_neg (not_not.mpr hcodes)))

end

end

/-! ### Contexts of the SMU -/

section

variable {s : State} (hrun : domRun s 40 = true)
include hrun

theorem smuAssign_takes {c : CoreId} {m : Msg} {rest : List Msg} {a : Active} (hfree : s.smu.length < 64)
    (htake : takeFirst (fun m : Msg => m.kind == .smuWork) s.net = some (m, rest)) (hsrc : m.src = .core c)
    (ha : findActive (s.core c) m.seq = some a) :
    smuAssign s = smuSend ⟨c, m.seq, 0, []⟩ a.op (fun k l => l ++ [k]) id { s with net := rest } := by
  have hroom : ¬(!domRun s 40 || decide (64 ≤ s.smu.length)) = true := by simp [hrun, hfree]
  have hcore : findActive (State.core { s with net := rest } c) m.seq = some a := ha
  simp only [smuAssign, if_neg hroom, htake, hsrc, hcore]

/-- A context that resolves its row or merge traps, answers and is free, or takes its next row. -/
theorem smuResolve_resolves {i : Nat} {k : SmuCtx} {a : Active} (errs : List LineErr) (hctx : s.smu[i]? = some k)
    (ha : findActive (s.core k.core) k.seq = some a) :
    let ls := smuChecked k.core errs k.lines
    let u := strike errs s
    let r := if a.op.mn = .topk then resolveTopk k.core a.op k.row ls u else resolveMerge k.core a.op ls u
    let free (s : State) : State := { s with smu := s.smu.eraseIdx i }
    smuResolve i errs s = if r.1.trap ≠ 0 then activeTrap k.core k.seq r.1.trap (free r.2)
      else if r.1.fin then settle k.core (answered k.core k.seq (free r.2))
      else smuSend { k with row := k.row + 1 } a.op (fun k l => l.set i k) free r.2 := by
  simp only [smuResolve, hctx, hrun, ha, Bool.not_true, Bool.false_eq_true, if_false]

end

/-- A MERGE is resolved in one. -/
theorem resolveMerge_fin (c : CoreId) (o : Op) (ls : List DLine) (s : State) : (resolveMerge c o ls s).1.fin = true := by
  unfold resolveMerge
  extract_lets
  split <;> rfl

end Sys2Proof.Machine

/-- Settles O31: past its checks each instruction is its one request; a context is assigned by the oldest request, and resolves by
what its row or merge comes to. -/
theorem selectResults : Obligations.SelectResults := by
  refine ⟨?ask, ?assign, ?resolve⟩
  case' ask =>
    intro c w w1 s k a cc n f upper ask
    refine ⟨?topk, ?merge⟩
  case topk =>
    intro l kk hready ⟨hA, hC, hN⟩ hmax hk hkMax hl hlMax hfmt hread hwrite
    obtain ⟨ha, -, hc, hn⟩ := issuedOp_long hready (by decide)
    have hasks := startTopk_asks (c := c) (o := issuedOp c .topk w w1 s) (s := issued c .topk w w1 s) (by rwa [ha]) (by rwa [hc])
      (by rwa [hn]) (issuedOp_mn c .topk w w1 s) (by rwa [hn])
    simp only [issuedOp_w0, issuedOp_w1, issuedOp_seq, ha, hc, hn, smuAsk, issued_slot, issued_runCheck,
      issued_writeCheck (show Mn.topk ≠ .commit by decide)] at hasks
    rw [exec_unit startTopk hready rfl rfl (fun _ _ => rfl), hasks hk hkMax hl hlMax hfmt hread hwrite]
    by_cases hzero : n = 0
    · rw [if_pos hzero, if_pos hzero]
      rfl
    · rw [if_neg hzero, if_neg hzero]
      rfl
  case merge =>
    intro ki ko hready ⟨hA, hC, hN⟩ hpos hmax hki hkiMax hko hkoMax hfmt hread hwrite
    obtain ⟨ha, -, hc, hn⟩ := issuedOp_long hready (by decide)
    have hasks := startMerge_asks (c := c) (o := issuedOp c .merge w w1 s) (s := issued c .merge w w1 s) (by rwa [ha])
      (by rwa [hc]) (by rwa [hn]) (issuedOp_mn c .merge w w1 s) (by rwa [hn]) (by rwa [hn])
    simp only [issuedOp_w0, issuedOp_w1, issuedOp_seq, ha, hc, hn, smuAsk, issued_slot, issued_runCheck,
      issued_writeCheck (show Mn.merge ≠ .commit by decide)] at hasks
    rw [exec_unit startMerge hready rfl rfl (fun _ _ => rfl), hasks hki hkiMax hko hkoMax hfmt hread hwrite]
    rfl
  case assign =>
    exact fun c m rest a s hrun hfree htake hsrc ha =>
      congrArg Host.Outcome.next (smuAssign_takes hrun hfree htake hsrc ha)
  case resolve =>
    intro i k a errs s hctx hrun ha ls u free
    have hres := smuResolve_resolves hrun errs hctx ha
    refine ⟨?row, ?merged, ?trapped⟩
    case row =>
      intro r z hmn hr
      simp only [if_pos hmn] at hres
      exact congrArg Host.Outcome.next (hres.trans (if_neg (not_not.mpr hr)))
    case merged =>
      intro r hmn hr
      have hnot : a.op.mn ≠ .topk := by simp [hmn]
      simp only [if_neg hnot] at hres
      exact congrArg Host.Outcome.next
        (hres.trans ((if_neg (not_not.mpr hr)).trans (if_pos (resolveMerge_fin k.core a.op ls u))))
    case trapped => exact fun hr => congrArg Host.Outcome.next (hres.trans (if_pos hr))
end
